-- ==== Sys2Proof/Word.lean ====
section
/-! DEFINITION. The machine's words: a scalar register is 64 bits, a memory cell is a byte (R4, R153). -/

namespace Sys2Proof

/-- A scalar register's contents (R153). -/
abbrev Word := BitVec 64

/-- One byte of memory (R4). -/
abbrev Byte := BitVec 8

end Sys2Proof
end

