-- ==== Sys2Proof/Syntax.lean ====
section
/-! DEFINITION. The instructions: one constructor of `Instr` per row of spec/opcode_table.json.
A row with an encoding carries the fields of its format (R27, R28), whole, so that decoding drops no bit.
A row without an encoding is an event of an agent other than a hart's issue (spec/95). It carries, as plain
data, what the environment chooses for it: which line, slot or queue it concerns and the data it brings. -/

namespace Sys2Proof

/-- Format R (R27): func is the constructor. -/
structure RArgs where
  d : BitVec 5
  a : BitVec 5
  b : BitVec 5
  guard : BitVec 3
  neg : Bool
  stall : BitVec 2
  deriving DecidableEq, Repr

/-- Format I (R27). -/
structure IArgs where
  d : BitVec 5
  a : BitVec 5
  imm : BitVec 12
  deriving DecidableEq, Repr

/-- Format U (R27). -/
structure UArgs where
  d : BitVec 5
  imm : BitVec 20
  deriving DecidableEq, Repr

/-- Format C (R27): the form bit is the constructor. -/
structure CArgs where
  d1 : BitVec 3
  d2 : BitVec 3
  a : BitVec 5
  b : BitVec 5
  guard : BitVec 3
  neg : Bool
  cond : BitVec 4
  deriving DecidableEq, Repr

/-- Format B (R27). -/
structure BArgs where
  a : BitVec 5
  b : BitVec 5
  cond : BitVec 3
  off : BitVec 12
  deriving DecidableEq, Repr

/-- Format B as the branch-queue branches use it: the condition is the constructor (R314). -/
structure BqArgs where
  a : BitVec 5
  b : BitVec 5
  off : BitVec 12
  deriving DecidableEq, Repr

/-- Format J (R27): the link bit is the constructor. -/
structure JArgs where
  pred : BitVec 3
  neg : Bool
  off : BitVec 20
  deriving DecidableEq, Repr

/-- Format L (R27): size and sign are the constructor. -/
structure LArgs where
  d : BitVec 5
  a : BitVec 5
  imm : BitVec 5
  cls : BitVec 4
  ctr : BitVec 3
  deriving DecidableEq, Repr

/-- Format A (R27): func is the constructor. -/
structure AArgs where
  d : BitVec 5
  a : BitVec 5
  data : BitVec 5
  scope : BitVec 4
  size : BitVec 2
  deriving DecidableEq, Repr

/-- Format V (R27): func is the constructor. -/
structure VArgs where
  d : BitVec 5
  a : BitVec 5
  b : BitVec 5
  mask : BitVec 3
  neg : Bool
  t : Bool
  x : Bool
  deriving DecidableEq, Repr

/-- Format V as the vector compares use it: [31:28] is the condition (R32, R215). -/
structure VCmpArgs where
  d : BitVec 5
  a : BitVec 5
  b : BitVec 5
  mask : BitVec 3
  neg : Bool
  t : Bool
  x : Bool
  cond : BitVec 4
  deriving DecidableEq, Repr

/-- Format M (R27). On VGLL and VSCC the class field holds the ordered-index bit and the success register (R145). -/
structure MArgs where
  d : BitVec 5
  a : BitVec 5
  b : BitVec 5
  mask : BitVec 3
  neg : Bool
  cls : BitVec 4
  mode : BitVec 2
  deriving DecidableEq, Repr

/-- Format P (R27, R45): copy enable is the constructor. -/
structure PArgs where
  copy : BitVec 5
  guard : BitVec 3
  neg : Bool
  isK : Bool
  deriving DecidableEq, Repr

/-- A compact form (R28). -/
structure KArgs where
  a : BitVec 5
  b : BitVec 5
  deriving DecidableEq, Repr

/-! Arguments of the events. -/

/-- RESET: the stack that fails training, if one does (R63); the images of the management firmware and of the machine-mode
firmware (R394); and what the management firmware does to launch the latter: the parts of the image that it loads (each an address, the
offset in the image and a length), the address of the handler, queue 47's QBASE and the packets it rings the doorbell for. -/
structure ResetArgs where
  failedStack : Option Nat
  image : List Byte
  machineImage : List Byte
  load : List (Nat × Nat × Nat)
  handler : Word
  ring : Word
  packets : List (List Byte)
  deriving DecidableEq, Repr

/-- A read request: the requester (R69), its tag for the answer, a physical address (of the host with `bar`, an offset of
BAR0: R387) and a length in bytes. -/
structure ReadArgs where
  initiator : Nat
  tag : Nat
  pa : Nat
  len : Nat
  bar : Bool
  deriving DecidableEq, Repr

/-- A write request: the requester (R69), its tag, a physical address and the bytes, lowest address first. -/
structure WriteArgs where
  initiator : Nat
  tag : Nat
  pa : Nat
  bytes : List Byte
  deriving DecidableEq, Repr

/-- A fill: the line's address, the key slot of the request that missed (R64), whether HBM returned an uncorrectable error
on the line, and whether it did on a second line of the stripe (R58). -/
structure FillArgs where
  line : Nat
  key : Nat
  error : Bool
  second : Bool
  deriving DecidableEq, Repr

/-- A reconstruction: the line's address and the key slot of the request that missed (R60, R64). -/
structure HoldArgs where
  line : Nat
  key : Nat
  deriving DecidableEq, Repr

/-- An event on one line, by its address. -/
structure LineArgs where
  line : Nat
  deriving DecidableEq, Repr

/-- A writeback: the line's address, and whether the line then leaves the cache (R88). -/
structure WritebackArgs where
  line : Nat
  evict : Bool
  deriving DecidableEq, Repr

/-- Whose access to the host window has no answer (R53, R387): the current hart's, at a virtual address; a copy engine's, for
the next stream of a core's channel, or as an element of one lands; a cluster's weight loader's; or the dispatcher's, for its
queues' heads. -/
inductive HostReader where
  | hart (va : Nat)
  | engine (core channel : Nat)
  | landing (core channel element : Nat)
  | loader (cluster : Nat)
  | dispatcher
  deriving DecidableEq, Repr

/-- A host-window access that is not answered (R53). -/
structure HostArgs where
  reader : HostReader
  deriving DecidableEq, Repr

/-- An event on one stack, 0 to 15, and the fault code CLOVEST reports (R59, R63). -/
structure StackArgs where
  stack : Nat
  cause : Nat
  deriving DecidableEq, Repr

/-- An event at one memory slice, 0 to 63. -/
structure SliceArgs where
  slice : Nat
  deriving DecidableEq, Repr

/-- A withdrawal: the request's number (R105). -/
structure WithdrawArgs where
  request : Nat
  deriving DecidableEq, Repr

/-- An event of one outstanding operation of the current hart, by its place among them. -/
structure OpArgs where
  index : Nat
  deriving DecidableEq, Repr

/-- An event of one core: cluster * 256 + core. -/
structure CoreArgs where
  core : Nat
  deriving DecidableEq, Repr

/-- A stream's start or failure: the core and the channel (R115, R114). -/
structure StreamArgs where
  core : Nat
  channel : Nat
  deriving DecidableEq, Repr

/-- A landing: the core, the channel and which of the elements still to land lands next (R111). -/
structure LandingArgs where
  core : Nat
  channel : Nat
  element : Nat
  deriving DecidableEq, Repr

/-- A frame fault's code, its tag and the element (R245). -/
structure FrameFaultArgs where
  cause : Nat
  tag : Nat
  element : Nat
  deriving DecidableEq, Repr

/-- A trap's cause and trap value (R365, R366). -/
structure TrapArgs where
  cause : Nat
  tval : Word
  deriving DecidableEq, Repr

/-- What broke the strip: poison consumed (true) or a lane check (false), and the address or lane group (R376). -/
structure RewindArgs where
  poison : Bool
  addr : Nat
  deriving DecidableEq, Repr

/-- An event of one launch queue, 0 to 63. -/
structure QueueArgs where
  queue : Nat
  deriving DecidableEq, Repr

/-- A placement: the launch's number and the first slot the dispatcher chooses (R333). -/
structure PlaceArgs where
  launch : Nat
  coord : Nat
  deriving DecidableEq, Repr

/-- An event of one launch under way, by its number (R331). -/
structure LaunchArgs where
  launch : Nat
  deriving DecidableEq, Repr

/-- A write to a queue's register: the queue, its value and whether machine mode writes it (R325). -/
structure QueueWriteArgs where
  queue : Nat
  value : Word
  machine : Bool
  deriving DecidableEq, Repr

/-- A write to an owned-window descriptor: the cluster, the window and the value (R132). -/
structure OwnwinArgs where
  cluster : Nat
  window : Nat
  value : Word
  deriving DecidableEq, Repr

/-- Machine mode's write of MBDONE (R391). -/
structure MbdoneArgs where
  value : Word
  deriving DecidableEq, Repr

/-- A mailbox command: its code, and the readings of the device's sensors (R390). What the host left in the request buffer is
in memory. -/
structure MailboxArgs where
  code : Nat
  readings : List Byte
  deriving DecidableEq, Repr

/-- A value written to one device register. -/
structure ValueArgs where
  value : Word
  deriving DecidableEq, Repr

/-- A push to a branch queue of the current hart's crew (R161). -/
structure BqpushArgs where
  queue : Nat
  value : Word
  deriving DecidableEq, Repr

/-- An event of a cluster's matrix engine: the cluster and the quadrant. -/
structure ClusterArgs where
  cluster : Nat
  quadrant : Nat
  deriving DecidableEq, Repr

/-- R396: what a flit carries: a request of the sender with its tag, to an address of the receiver's HBM data, or an answer to
one of the receiver's requests. -/
inductive PeerMsg where
  | write (tag pa : Nat) (bytes mask : List Byte)
  | read (tag pa n : Nat)
  | answer (tag : Nat) (bytes : Option (List Byte)) (poison : Bool)
  deriving DecidableEq, Repr

/-- A Uliane flit as it arrives: the link, its sequence number, the acknowledged number, bytes 4 to 251, and the CRC-32 of
bytes 252 to 255 (R396). Its kind is the event's. -/
structure FlitArgs where
  link : Nat
  seq : Nat
  ack : Nat
  payload : BitVec 1984
  crc : BitVec 32
  deriving DecidableEq, Repr

/-- A Uliane link and the device at its other end (R397, R389); where it goes down, how many of its oldest flits kept had
reached that device. -/
structure LinkArgs where
  link : Nat
  peer : Nat
  reached : Nat
  deriving DecidableEq, Repr

/-- A corrected error of one array or stack, and the error rates seen (R386). -/
structure ErrorArgs where
  array : Nat
  marked : Bool
  deriving DecidableEq, Repr

/-- What the power controller measures: power in watts and the inlet's temperature (R398). -/
structure ThrottleArgs where
  watts : Nat
  inlet : Nat
  deriving DecidableEq, Repr

/-- A 64 KiB granule, by its address (R84). -/
structure GranuleArgs where
  granule : Nat
  deriving DecidableEq, Repr

/-- One cycle of a lane group's arbiter: the core, the lane group and the sharers ready this cycle (R337). -/
structure ArbiterArgs where
  core : Nat
  group : Nat
  ready : List Nat
  deriving DecidableEq, Repr


/-- The instructions and events: one constructor per row of the opcode table. -/
inductive Instr where
  /-- RESET. R424: At every reset the slices initialise every HBM data line to the zero image and every parity line to match, the boot ROM loads key slot 0 and verifies and starts the firmware. -/
  | reset (o : ResetArgs)
  /-- MEMORY_READ_REQUEST. R87: A read request from any initiator is checked against the access table and key and performs at the memory-side cache of its home slice. -/
  | memoryReadRequest (o : ReadArgs)
  /-- MEMORY_WRITE_REQUEST. R87: A write request is checked and merged into the cached line at its home slice, breaking link tags of other initiators. -/
  | memoryWriteRequest (o : WriteArgs)
  /-- LINE_FILL. R92: A miss read of a line's stored image returns from HBM and is verified, decoded and made into four plaintext sectors in the cache. -/
  | lineFill (o : FillArgs)
  /-- LINE_WRITEBACK. R56: A dirty line is written back: its encoding is chosen, the delta is sent to the parity slice and the new image is written, making the line parity-pending. -/
  | lineWriteback (o : WritebackArgs)
  /-- PARITY_DELTA. R56: The parity slice applies one received delta to its parity line and acknowledges it. -/
  | parityDelta (o : LineArgs)
  /-- WRITEBACK_COMPLETE. R56: Both the stack's write acknowledgement and the parity acknowledgement arrive and the line stops being parity-pending. -/
  | writebackComplete (o : LineArgs)
  /-- RECONSTRUCTION_HOLD. R57: Once no line of the stripe is parity-pending a slice takes the stripe's hold and reconstructs a lost line or forms a parity-only write. -/
  | reconstructionHold (o : HoldArgs)
  /-- STACK_LOST. R59: A stack is declared lost, CLOVEST changes state with EVT, and the rebuild starts, or memory enters FAILED if a stack was already lost. -/
  | stackLost (o : StackArgs)
  /-- REBUILD_STRIPE. R61: The rebuild takes the hold on the next stripe, rebuilds the lost stack's line into the parity slot and marks the stripe remapped. -/
  | rebuildStripe
  /-- TUPLE_REQUEST_STEP. R101: The home slice takes one tuple request as one atomic step, serving parked requests, storing, matching, parking or returning a status. -/
  | tupleRequestStep (o : SliceArgs)
  /-- TUPLE_WITHDRAW. R105: A withdrawal sent at pre-emption or EXIT is taken at the slice and cancels the parked request unless a deposit served it first. -/
  | tupleWithdraw (o : WithdrawArgs)
  /-- TUPLE_REPLY. R102: A tuple operation completes at the hart, writing the status and any served tuple and decrementing its counter. -/
  | tupleReply (o : OpArgs)
  /-- COUNTED_OP_COMPLETE. R40: A counted load's data lands or a counted store performs, and its dependence counter decrements. -/
  | countedOpComplete (o : OpArgs)
  /-- PIN_ADMIT. R81: A waiting vector memory instruction is admitted oldest first once enough of the core's pin slots are free. -/
  | pinAdmit (o : CoreArgs)
  /-- WATERMARK_RELEASE. R112: An access waiting on a channel range is released once the watermark lies above every byte it touches, as an acquire of the landed data. -/
  | watermarkRelease
  /-- ENGINE_STREAM_START. R115: A copy engine takes the next stream of a channel and runs its routine under the captured translation, with scout and data passes for variable-ratio routines. -/
  | engineStreamStart (o : StreamArgs)
  /-- LANDING. R111: An element written by a routine performs at its point of coherence, LANDED advances over the contiguous prefix and the channel becomes DONE at EXPECTED. -/
  | landing (o : LandingArgs)
  /-- STREAM_FAIL. R114: A stream meets poison, a translation or access fault, or malformed input, and its channel becomes FAILED with queued streams dropped. -/
  | streamFail (o : StreamArgs)
  /-- USER_INTERRUPT_ENTRY. R126: A hart owning a channel with UIP set takes a user-level interrupt, switching to the shadow bank and jumping to UIVEC. -/
  | userInterruptEntry
  /-- USER_FRAME_FAULT_ENTRY. R247: A delegated frame fault enters the user-level handler at UFVEC with UFCAUSE written. -/
  | userFrameFaultEntry (o : FrameFaultArgs)
  /-- TRAP_ENTRY. R366: Trap entry waits for pending results, performs the strip buffer, saves state in the chosen bank and jumps to its vector. -/
  | trapEntry (o : TrapArgs)
  /-- PENDING_ERROR_TRAP. R370: An error raised after its word settled traps imprecisely with IMP set at a later word boundary. -/
  | pendingErrorTrap
  /-- WAKE_INTERRUPT. R381: A WAKE made pending by PREEMPT with a zero image address is taken as an interrupt at the next pre-emption point. -/
  | wakeInterrupt
  /-- MGMT_INTERRUPT. R391: A pending MGMT interrupt is taken by a machine-mode hart in the machine bank to serve a mailbox command. -/
  | mgmtInterrupt
  /-- PREEMPTION_POINT. R378: A requested pre-emption reaches its point, withdraws parked requests, performs the strip buffer, writes the image, sets HELD and frees the slot. -/
  | preemptionPoint
  /-- STRIP_AGE_EXPIRY. R375: 65,536 cycles after a strip's first buffered store the strip commits early with WHY 4. -/
  | stripAgeExpiry
  /-- STRIP_REWIND. R376: Poison consumed or a check failure in a rewindable strip discards the buffer, restores the checkpoint and restarts the strip. -/
  | stripRewind (o : RewindArgs)
  /-- IDLE_TIMEOUT. R321: An IDLE completes after 4,096 cycles with no event taken. -/
  | idleTimeout
  /-- DISPATCH_PACKET. R326: The dispatcher takes a ready head packet in class order, checks it, advances HEAD or sets STOP with CODE and vector 4. -/
  | dispatchPacket
  /-- DEPENDENCE_READ. R329: The dispatcher rereads a head packet's progress word after a write performs to it and lets the launch proceed once it reaches the threshold. -/
  | dependenceRead (o : QueueArgs)
  /-- PLACE_UNIT. R333: The dispatcher places a waiting unit of a launch in free slots and lane groups and starts its harts at their entries. -/
  | placeUnit (o : PlaceArgs)
  /-- LAUNCH_DONE_ADD. R331: When every hart of a launch has exited the dispatcher adds 1 to the completion word as a release at DEVICE scope. -/
  | launchDoneAdd (o : LaunchArgs)
  /-- QTAIL. R326: A write to a queue's QTAIL rings the doorbell, or sets STOP with CODE 5 when the tail is out of range. -/
  | qtail (o : QueueWriteArgs)
  /-- QCTL. R325: A write to QCTL sets its fields, and writing 1 to STOP clears it, skipping a malformed packet or rechecking the tail. -/
  | qctl (o : QueueWriteArgs)
  /-- OWNWIN. R132: A write to an owned-window descriptor sets its fields, takes V only if the window is in range and disjoint, and clears OFR. -/
  | ownwin (o : OwnwinArgs)
  /-- MBDONE. R391: Machine mode's write of the result to MBDONE clears BUSY, sets RESULT and DONE in MBDB and raises vector 0. -/
  | mbdone (o : MbdoneArgs)
  /-- MB_ATTEST. R395: Mailbox command 1 returns a signed attestation report over the host nonce. -/
  | mbAttest (o : MailboxArgs)
  /-- MB_KEY_LOAD. R391: Mailbox command 2 has machine-mode firmware run KEYLD for a wrapped key and returns its status. -/
  | mbKeyLoad (o : MailboxArgs)
  /-- MB_ACCESS_ENTRY. R391: Mailbox command 3 has machine-mode firmware run ACTBL for an access-table entry and returns its status. -/
  | mbAccessEntry (o : MailboxArgs)
  /-- MB_ERROR_COUNTS. R390: Mailbox command 4 returns error counts, voltage state and coolant readings. -/
  | mbErrorCounts (o : MailboxArgs)
  /-- MB_FIRMWARE_STAGE. R390: Mailbox command 5 checks a signed firmware image and stages it for the next reset. -/
  | mbFirmwareStage (o : MailboxArgs)
  /-- MB_POWER_CAP. R398: Mailbox command 6 sets a lower power cap or returns RESULT 2 for an out-of-range cap. -/
  | mbPowerCap (o : MailboxArgs)
  /-- MB_CERT_CHAIN. R390: Mailbox command 7 returns certificates of the attestation key chain from a given index. -/
  | mbCertChain (o : MailboxArgs)
  /-- MB_UNKNOWN_COMMAND. R390: A write of an unassigned command code completes with RESULT 1. -/
  | mbUnknownCommand (o : MailboxArgs)
  /-- REGISTER_WRITE. R423: A write to a device register or CSR without behaviour of its own merges the bytes written under the field rules. -/
  | registerWrite (o : WriteArgs)
  /-- FRCTL. R235: A write to FRCTL changes base or capacity only while disabled, marks every record free on enable and frees every node and empties Anise caches on disable. -/
  | frctl (o : ValueArgs)
  /-- BQPUSH. R161: A loader's write to BQPUSH0 or BQPUSH1 pushes an entry to its branch queue, waiting while it is full. -/
  | bqpush (o : BqpushArgs)
  /-- EFCCLR. R167: Any write to EFCCLR sets all eight EFC residuals to +0.0 after earlier vector words complete. -/
  | efcclr
  /-- MSEQ_RESTART. R284: A write to MSEQ q with ACTIVE 1 and HOLD 0 restarts the stopped quadrant command from its recorded position. -/
  | mseqRestart (o : ClusterArgs)
  /-- MSEQ_ABANDON. R284: A write to MSEQ q with ACTIVE 0 abandons the stopped command and clears the quadrant. -/
  | mseqAbandon (o : ClusterArgs)
  /-- WEIGHT_LOAD. R277: The weight loader copies an MLDB's source bytes into weight-buffer granules, marking poisoned granules. -/
  | weightLoad (o : ClusterArgs)
  /-- SEQ_B_LOAD. R282: The sequencer expands the next B block and loads it into the array, stopping with ERR 1 on a malformed block. -/
  | seqBLoad (o : ClusterArgs)
  /-- SEQ_A_ROW. R282: The sequencer pops an A row once present and accumulates it into its accumulator row under R281's tag rule. -/
  | seqARow (o : ClusterArgs)
  /-- DRAIN_GROUP. R287: The drain biases, transforms, thresholds, quantises and pushes one group of rows once the output port has room. -/
  | drainGroup (o : ClusterArgs)
  /-- SEQ_ZERO_ROWS. R288: The sequencer zeroes accumulator rows of an MZERO. -/
  | seqZeroRows (o : ClusterArgs)
  /-- SEQ_STOP. R284: On a control-core trap each busy quadrant runs to its next interruption point and stops with ACTIVE and HOLD set. -/
  | seqStop (o : ClusterArgs)
  /-- ULIANE_DATA_FLIT. R396: A data flit is applied when its CRC is good and it is the next expected, else discarded with a retry request. -/
  | ulianeDataFlit (o : FlitArgs)
  /-- ULIANE_IDLE_FLIT. R396: An idle flit is received and updates acknowledgement state. -/
  | ulianeIdleFlit (o : FlitArgs)
  /-- ULIANE_ACK_FLIT. R396: An acknowledge-only flit frees acknowledged flits and table snapshots from the replay buffer. -/
  | ulianeAckFlit (o : FlitArgs)
  /-- ULIANE_RETRY_FLIT. R396: A retry request makes the sender resend from the named flit exactly as first sent. -/
  | ulianeRetryFlit (o : FlitArgs)
  /-- LINK_DOWN. R397: After 16 retries of one flit the link goes down, raises vector 5 and ends in-flight requests with errors. -/
  | linkDown (o : LinkArgs)
  /-- CXL_SNOOP. R387: A host snoop is answered as holding nothing. -/
  | cxlSnoop (o : LineArgs)
  /-- CORRECTED_ERROR. R386: A corrected single error is counted per array, raising voltage or declaring predictive failure as its thresholds give. -/
  | correctedError (o : ErrorArgs)
  /-- POWER_THROTTLE. R398: The power controller lowers clocks to hold power and inlet temperature within limits. -/
  | powerThrottle (o : ThrottleArgs)
  /-- WAITGE_RECHECK. R359: A write performs to a waited progress word and a waiting WAITGE rereads it as an acquire and completes if it meets the threshold. -/
  | waitgeRecheck
  /-- ADD. R302: sD := sA + sB. -/
  | add (o : RArgs)
  /-- SUB. R302: sD := sA − sB. -/
  | sub (o : RArgs)
  /-- AND. R302: Bitwise AND. -/
  | and (o : RArgs)
  /-- OR. R302: Bitwise OR. -/
  | or (o : RArgs)
  /-- XOR. R302: Bitwise XOR. -/
  | xor (o : RArgs)
  /-- ANDN. R302: sA AND NOT sB. -/
  | andn (o : RArgs)
  /-- SHL. R302: Shift left by sB[5:0]. -/
  | shl (o : RArgs)
  /-- SHR. R302: Logical shift right. -/
  | shr (o : RArgs)
  /-- SRA. R302: Arithmetic shift right. -/
  | sra (o : RArgs)
  /-- ROTL. R302: Rotate left. -/
  | rotl (o : RArgs)
  /-- MIN. R302: Signed minimum. -/
  | min (o : RArgs)
  /-- MAX. R302: Signed maximum. -/
  | max (o : RArgs)
  /-- MINN. R302: Natural minimum. -/
  | minn (o : RArgs)
  /-- MAXN. R302: Natural maximum. -/
  | maxn (o : RArgs)
  /-- MUL. R302: Low 64 bits of the product. -/
  | mul (o : RArgs)
  /-- MULH. R302: High 64 bits of the signed product. -/
  | mulh (o : RArgs)
  /-- MULHN. R302: High 64 bits of the natural product. -/
  | mulhn (o : RArgs)
  /-- DIV. R303: Signed quotient, never trapping. -/
  | div (o : RArgs)
  /-- DIVN. R303: Natural quotient. -/
  | divn (o : RArgs)
  /-- REM. R303: Signed remainder. -/
  | rem (o : RArgs)
  /-- REMN. R303: Natural remainder. -/
  | remn (o : RArgs)
  /-- CLZ. R302: Count leading zeros. -/
  | clz (o : RArgs)
  /-- CTZ. R302: Count trailing zeros. -/
  | ctz (o : RArgs)
  /-- POPC. R302: Population count. -/
  | popc (o : RArgs)
  /-- SEXTB. R302: Sign-extend byte. -/
  | sextb (o : RArgs)
  /-- SEXTH. R302: Sign-extend halfword. -/
  | sexth (o : RArgs)
  /-- SEXTW. R302: Sign-extend word. -/
  | sextw (o : RArgs)
  /-- ZEXTB. R302: Zero-extend byte. -/
  | zextb (o : RArgs)
  /-- ZEXTH. R302: Zero-extend halfword. -/
  | zexth (o : RArgs)
  /-- ZEXTW. R302: Zero-extend word. -/
  | zextw (o : RArgs)
  /-- ADDI. R304: sD := sA + sext(imm12). -/
  | addi (o : IArgs)
  /-- ANDI. R304: AND with sext(imm12). -/
  | andi (o : IArgs)
  /-- ORI. R304: OR with sext(imm12). -/
  | ori (o : IArgs)
  /-- XORI. R304: XOR with sext(imm12). -/
  | xori (o : IArgs)
  /-- SHLI. R304: Shift left by immediate. -/
  | shli (o : IArgs)
  /-- SHRI. R304: Logical shift right by immediate. -/
  | shri (o : IArgs)
  /-- SRAI. R304: Arithmetic shift right by immediate. -/
  | srai (o : IArgs)
  /-- LIH. R305: sD := sext(imm20 << 12, 32). -/
  | lih (o : UArgs)
  /-- ADDPC. R305: sD := pc + sext(imm20 << 12, 32). -/
  | addpc (o : UArgs)
  /-- CMP. R307: Register compare writing a predicate and its complement. -/
  | cmp (o : CArgs)
  /-- CMP_IMM. R307: Immediate compare writing a predicate and its complement. -/
  | cmpImm (o : CArgs)
  /-- FCMP. R308: FP32 compare writing two predicates. -/
  | fcmp (o : CArgs)
  /-- FCMP_D. R308: FP64 compare writing two predicates. -/
  | fcmpD (o : CArgs)
  /-- PAND. R309: pD := pA AND pB. -/
  | pand (o : RArgs)
  /-- POR. R309: pD := pA OR pB. -/
  | por (o : RArgs)
  /-- PXOR. R309: pD := pA XOR pB. -/
  | pxor (o : RArgs)
  /-- PANDN. R309: pD := pA AND NOT pB. -/
  | pandn (o : RArgs)
  /-- PMOV. R309: pD := pA. -/
  | pmov (o : RArgs)
  /-- PNOT. R309: pD := NOT pA. -/
  | pnot (o : RArgs)
  /-- B. R311: Branch when sA cond sB holds. -/
  | b (o : BArgs)
  /-- BP. R312: Branch on a predicate; JMP is BP on p7. -/
  | bp (o : JArgs)
  /-- CALL. R312: Taken call writing the link to s1. -/
  | call (o : JArgs)
  /-- CALLR. R313: Call through register plus immediate, writing the link to sD; RET is CALLR s0, s1, 0. -/
  | callr (o : IArgs)
  /-- BQ_NZ. R314: Crew computer pops a branch queue once non-empty and branches when the head is non-zero. -/
  | bqNz (o : BqArgs)
  /-- BQ_Z. R314: Crew computer pops a branch queue once non-empty and branches when the head is zero. -/
  | bqZ (o : BqArgs)
  /-- LDB. R135: Load signed byte. -/
  | ldb (o : LArgs)
  /-- LDH. R135: Load signed halfword. -/
  | ldh (o : LArgs)
  /-- LDW. R135: Load signed word. -/
  | ldw (o : LArgs)
  /-- LDD. R135: Load doubleword. -/
  | ldd (o : LArgs)
  /-- LDBN. R135: Load natural byte. -/
  | ldbn (o : LArgs)
  /-- LDHN. R135: Load natural halfword. -/
  | ldhn (o : LArgs)
  /-- LDWN. R135: Load natural word. -/
  | ldwn (o : LArgs)
  /-- STB. R135: Store byte. -/
  | stb (o : LArgs)
  /-- STH. R135: Store halfword. -/
  | sth (o : LArgs)
  /-- STW. R135: Store word. -/
  | stw (o : LArgs)
  /-- STD. R135: Store doubleword. -/
  | std (o : LArgs)
  /-- LDACQ. R136: Aligned load with acquire at a scope. -/
  | ldacq (o : AArgs)
  /-- STREL. R136: Aligned store with release at a scope. -/
  | strel (o : AArgs)
  /-- LDL. R138: Acquire load that sets the scalar link. -/
  | ldl (o : AArgs)
  /-- STC. R138: Store-conditional as a release if the link holds, writing status. -/
  | stc (o : AArgs)
  /-- FADD. R316: FP32 add. -/
  | fadd (o : RArgs)
  /-- FSUB. R316: FP32 subtract. -/
  | fsub (o : RArgs)
  /-- FMUL. R316: FP32 multiply. -/
  | fmul (o : RArgs)
  /-- FDIV. R316: FP32 divide. -/
  | fdiv (o : RArgs)
  /-- FSQRT. R316: FP32 square root. -/
  | fsqrt (o : RArgs)
  /-- FMIN. R316: FP32 minimum number. -/
  | fmin (o : RArgs)
  /-- FMAX. R316: FP32 maximum number. -/
  | fmax (o : RArgs)
  /-- FMA. R316: FP32 fused multiply-add into sD. -/
  | fma (o : RArgs)
  /-- FNMA. R316: FP32 negated multiply plus sD. -/
  | fnma (o : RArgs)
  /-- FCVTI. R317: FP32 to integer. -/
  | fcvti (o : RArgs)
  /-- FCVTF. R317: Integer to FP32. -/
  | fcvtf (o : RArgs)
  /-- FCVTP. R317: Conversion between floating formats to or from FP32. -/
  | fcvtp (o : RArgs)
  /-- FADD_D. R316: FP64 add. -/
  | faddD (o : RArgs)
  /-- FSUB_D. R316: FP64 subtract. -/
  | fsubD (o : RArgs)
  /-- FMUL_D. R316: FP64 multiply. -/
  | fmulD (o : RArgs)
  /-- FDIV_D. R316: FP64 divide. -/
  | fdivD (o : RArgs)
  /-- FSQRT_D. R316: FP64 square root. -/
  | fsqrtD (o : RArgs)
  /-- FMIN_D. R316: FP64 minimum number. -/
  | fminD (o : RArgs)
  /-- FMAX_D. R316: FP64 maximum number. -/
  | fmaxD (o : RArgs)
  /-- FMA_D. R316: FP64 fused multiply-add. -/
  | fmaD (o : RArgs)
  /-- FNMA_D. R316: FP64 negated multiply plus sD. -/
  | fnmaD (o : RArgs)
  /-- FCVTI_D. R317: FP64 to integer. -/
  | fcvtiD (o : RArgs)
  /-- FCVTF_D. R317: Integer to FP64. -/
  | fcvtfD (o : RArgs)
  /-- FCVTP_D. R317: Conversion between floating formats to or from FP64. -/
  | fcvtpD (o : RArgs)
  /-- CSRR. R318: Read a CSR into sD. -/
  | csrr (o : IArgs)
  /-- CSRW. R318: Write sA to a CSR. -/
  | csrw (o : IArgs)
  /-- CSRX. R318: Exchange a CSR with sA in one step. -/
  | csrx (o : IArgs)
  /-- SVC. R319: Trap SVC to the next mode up. -/
  | svc (o : RArgs)
  /-- TRAP. R319: Trap TRAP to supervisor mode. -/
  | trap (o : RArgs)
  /-- TRET. R367: Return from a trap, restoring the bank's saved state. -/
  | tret (o : RArgs)
  /-- UIRET. R127: Return from a user-level handler to UEPC. -/
  | uiret (o : RArgs)
  /-- IDLE. R321: Hold the hart until an interrupt can be taken or 4,096 cycles pass. -/
  | idle (o : RArgs)
  /-- NOP. R319: Do nothing apart from the stall count. -/
  | nop (o : RArgs)
  /-- BRK. R319: Trap BREAK to supervisor mode. -/
  | brk (o : RArgs)
  /-- EXIT. R322: Retire the hart after draining, withdrawing, clearing channels and returning steals. -/
  | exit (o : RArgs)
  /-- VADD. R211: Element-wise integer add. -/
  | vadd (o : VArgs)
  /-- VSUB. R211: Element-wise integer subtract. -/
  | vsub (o : VArgs)
  /-- VMUL. R211: Low SEW bits of the product. -/
  | vmul (o : VArgs)
  /-- VMULH. R211: High SEW bits of the signed product. -/
  | vmulh (o : VArgs)
  /-- VMULHN. R211: High SEW bits of the natural product. -/
  | vmulhn (o : VArgs)
  /-- VMIN. R211: Signed minimum. -/
  | vmin (o : VArgs)
  /-- VMAX. R211: Signed maximum. -/
  | vmax (o : VArgs)
  /-- VMINN. R211: Natural minimum. -/
  | vminn (o : VArgs)
  /-- VMAXN. R211: Natural maximum. -/
  | vmaxn (o : VArgs)
  /-- VAND. R211: Bitwise AND. -/
  | vand (o : VArgs)
  /-- VOR. R211: Bitwise OR. -/
  | vor (o : VArgs)
  /-- VXOR. R211: Bitwise XOR. -/
  | vxor (o : VArgs)
  /-- VANDN. R211: a AND NOT b. -/
  | vandn (o : VArgs)
  /-- VSHL. R211: Shift left. -/
  | vshl (o : VArgs)
  /-- VSHR. R211: Logical shift right. -/
  | vshr (o : VArgs)
  /-- VSRA. R211: Arithmetic shift right. -/
  | vsra (o : VArgs)
  /-- VSADD. R212: Signed saturating add. -/
  | vsadd (o : VArgs)
  /-- VSSUB. R212: Signed saturating subtract. -/
  | vssub (o : VArgs)
  /-- VSADDN. R212: Natural saturating add. -/
  | vsaddn (o : VArgs)
  /-- VSSUBN. R212: Natural saturating subtract. -/
  | vssubn (o : VArgs)
  /-- VABSD. R212: Absolute difference of signed values. -/
  | vabsd (o : VArgs)
  /-- VCLZ. R212: Leading zeros within SEW. -/
  | vclz (o : VArgs)
  /-- VPOPC. R212: Set bits per element. -/
  | vpopc (o : VArgs)
  /-- VNEG. R212: Wrapping negation. -/
  | vneg (o : VArgs)
  /-- VFADD. R213: Floating add, with HAAR approximation-row rule. -/
  | vfadd (o : VArgs)
  /-- VFSUB. R213: Floating subtract. -/
  | vfsub (o : VArgs)
  /-- VFMUL. R213: Floating multiply. -/
  | vfmul (o : VArgs)
  /-- VFMA. R213: a × b + d with one rounding. -/
  | vfma (o : VArgs)
  /-- VFMS. R213: a × b − d with one rounding. -/
  | vfms (o : VArgs)
  /-- VFNMA. R213: −(a × b) + d with one rounding. -/
  | vfnma (o : VArgs)
  /-- VFDIV. R213: Floating divide. -/
  | vfdiv (o : VArgs)
  /-- VFSQRT. R213: Floating square root. -/
  | vfsqrt (o : VArgs)
  /-- VFMIN. R213: Minimum number. -/
  | vfmin (o : VArgs)
  /-- VFMAX. R213: Maximum number. -/
  | vfmax (o : VArgs)
  /-- VFABS. R213: Clear the sign bit. -/
  | vfabs (o : VArgs)
  /-- VFNEG. R213: Invert the sign bit. -/
  | vfneg (o : VArgs)
  /-- VFCLASS. R214: Write one class bit per element. -/
  | vfclass (o : VArgs)
  /-- VCMP. R216: Integer compare into a k register. -/
  | vcmp (o : VCmpArgs)
  /-- VFCMP. R217: Floating compare into a k register. -/
  | vfcmp (o : VCmpArgs)
  /-- KAND. R218: kD := kA AND kB. -/
  | kand (o : VArgs)
  /-- KOR. R218: kD := kA OR kB. -/
  | kor (o : VArgs)
  /-- KXOR. R218: kD := kA XOR kB. -/
  | kxor (o : VArgs)
  /-- KANDN. R218: kD := kA AND NOT kB. -/
  | kandn (o : VArgs)
  /-- KNOT. R218: kD := NOT kA. -/
  | knot (o : VArgs)
  /-- KMOV. R218: kD := kA. -/
  | kmov (o : VArgs)
  /-- KPOPC. R218: Count set active bits of kA into sD. -/
  | kpopc (o : VArgs)
  /-- KFIRST. R218: Index of the first set active bit of kA into sD. -/
  | kfirst (o : VArgs)
  /-- VMV. R219: Copy vA element-wise. -/
  | vmv (o : VArgs)
  /-- VMV_X. R219: Broadcast the scalar value to every element. -/
  | vmvX (o : VArgs)
  /-- VBCAST. R219: Broadcast element s[b] of each row. -/
  | vbcast (o : VArgs)
  /-- VSEL. R219: Select between vA and vB by the mask. -/
  | vsel (o : VArgs)
  /-- VSLIDEUP. R220: Slide elements up by s[b]. -/
  | vslideup (o : VArgs)
  /-- VSLIDEDN. R220: Slide elements down by s[b]. -/
  | vslidedn (o : VArgs)
  /-- VGATHR. R221: Gather elements within each row by index. -/
  | vgathr (o : VArgs)
  /-- VCOMPR. R222: Compress active elements to the front of each row. -/
  | vcompr (o : VArgs)
  /-- VEXPND. R222: Expand consecutive elements to active positions. -/
  | vexpnd (o : VArgs)
  /-- VIOTA. R222: Write running counts of active elements. -/
  | viota (o : VArgs)
  /-- VEXTS. R222: Extract element s[b] of row 0 into sD. -/
  | vexts (o : VArgs)
  /-- VINSS. R222: Insert s[a] into element s[b] of row 0. -/
  | vinss (o : VArgs)
  /-- VROWMV. R223: Rotate rows of the group by s[b]. -/
  | vrowmv (o : VArgs)
  /-- VTRN. R223: Transpose each ROWS × ROWS tile. -/
  | vtrn (o : VArgs)
  /-- VCVT. R224: Convert from the other slot's format to slot T's. -/
  | vcvt (o : VArgs)
  /-- VCBENC. R225: Encode values into codebook codes. -/
  | vcbenc (o : VArgs)
  /-- VCBDEC. R225: Decode codebook codes to values. -/
  | vcbdec (o : VArgs)
  /-- VPACK. R226: Interleave two rows. -/
  | vpack (o : VArgs)
  /-- VUNPK. R226: De-interleave even or odd elements. -/
  | vunpk (o : VArgs)
  /-- VREDO. R227: Ordered sum per row into element 0. -/
  | vredo (o : VArgs)
  /-- VREDT. R227: Tree sum per row into element 0. -/
  | vredt (o : VArgs)
  /-- VREDMAX. R227: Maximum per row. -/
  | vredmax (o : VArgs)
  /-- VREDMIN. R227: Minimum per row. -/
  | vredmin (o : VArgs)
  /-- VREDAND. R227: AND reduction per row. -/
  | vredand (o : VArgs)
  /-- VREDOR. R227: OR reduction per row. -/
  | vredor (o : VArgs)
  /-- VDOTO. R228: Ordered dot product per row. -/
  | vdoto (o : VArgs)
  /-- VDOTT. R228: Tree dot product per row. -/
  | vdott (o : VArgs)
  /-- VEXP2. R229: 2^a correctly rounded. -/
  | vexp2 (o : VArgs)
  /-- VLOG2. R229: log2 a correctly rounded. -/
  | vlog2 (o : VArgs)
  /-- VRCP. R229: 1/a correctly rounded. -/
  | vrcp (o : VArgs)
  /-- VRSQ. R229: 1/√a correctly rounded. -/
  | vrsq (o : VArgs)
  /-- VSIN. R229: sin(π·a) correctly rounded. -/
  | vsin (o : VArgs)
  /-- VCOS. R229: cos(π·a) correctly rounded. -/
  | vcos (o : VArgs)
  /-- VTANH. R229: tanh a correctly rounded. -/
  | vtanh (o : VArgs)
  /-- VSIGM. R229: Logistic sigmoid correctly rounded. -/
  | vsigm (o : VArgs)
  /-- VMRG. R232: Merge two key rows, keeping the n smallest, and set MRGCNT. -/
  | vmrg (o : VArgs)
  /-- VMRGI. R232: Merge two key rows writing origin indices, and set MRGCNT. -/
  | vmrgi (o : VArgs)
  /-- VBSRCH. R234: Count keys of vA below each query. -/
  | vbsrch (o : VArgs)
  /-- VCONF. R170: Set the span and clear the vector window. -/
  | vconf (o : RArgs)
  /-- VSETL. R171: Set vl from sA and take a strip checkpoint. -/
  | vsetl (o : RArgs)
  /-- VCLAIM. R172: Claim a grant of elements from the launch-wide pool. -/
  | vclaim (o : RArgs)
  /-- VCLAIMP. R173: Take the next grant of a panel record. -/
  | vclaimp (o : RArgs)
  /-- VSETT. R174: Load a vtype slot from sA. -/
  | vsett (o : RArgs)
  /-- VCBLD. R175: Load a codebook slot from memory. -/
  | vcbld (o : RArgs)
  /-- WTHSET. R176: Set a threshold register. -/
  | wthset (o : RArgs)
  /-- VLD. R145: Vector load in unit, strided, indexed or segment mode, or a packed-tile load. -/
  | vld (o : MArgs)
  /-- VST. R145: Vector store, or a packed-tile store. -/
  | vst (o : MArgs)
  /-- VSTN. R149: Vector store, then advance NCOUNT and release it to the progress word. -/
  | vstn (o : MArgs)
  /-- VLDCL. R148: Cluster gather from any scratchpad of the cluster. -/
  | vldcl (o : MArgs)
  /-- VSTCL. R148: Cluster scatter to any scratchpad of the cluster. -/
  | vstcl (o : MArgs)
  /-- VGLL. R150: Linked gather replacing the vector link set, as an acquire. -/
  | vgll (o : MArgs)
  /-- VSCC. R150: Conditional scatter on linked lines writing success bits, as a release. -/
  | vscc (o : MArgs)
  /-- VLDA. R145: Vector load with acquire after its last element. -/
  | vlda (o : MArgs)
  /-- VSTL. R145: Vector store with release before its first element. -/
  | vstl (o : MArgs)
  /-- QDRAIN. R356: Wait for pushed crew queues to empty and discard rows of popped ones. -/
  | qdrain (o : RArgs)
  /-- FENCE. R357: Order earlier accesses of the before-mask classes before later after-mask ones at a scope. -/
  | fence (o : RArgs)
  /-- EFENCE. R358: Wait until earlier accesses are checked and trap precisely on a pending error. -/
  | efence (o : RArgs)
  /-- WAITGE. R359: Wait until a progress word reaches a threshold, as an acquire. -/
  | waitge (o : RArgs)
  /-- WAITDC. R360: Wait until a dependence counter is at most n. -/
  | waitdc (o : RArgs)
  /-- BAR. R361: Arrive at a core barrier as a release and wait for the round, then acquire. -/
  | bar (o : RArgs)
  /-- HGIVE. R362: Offer an owned window to a target slot as a release. -/
  | hgive (o : RArgs)
  /-- HTAKE. R362: Wait for an offered window, take it and acquire. -/
  | htake (o : RArgs)
  /-- ENQ. R271: Release and push a word to the command FIFO or a slot's reply FIFO. -/
  | enq (o : RArgs)
  /-- DEQ. R272: Pop one word from a port FIFO as a counted operation. -/
  | deq (o : RArgs)
  /-- VENQ. R273: Push ROWS rows to the quadrant's A port. -/
  | venq (o : RArgs)
  /-- VDEQ. R274: Pop ROWS rows from the quadrant's output port. -/
  | vdeq (o : RArgs)
  /-- STREAM. R122: Issue a stream of vl·ROWS elements into an armed channel. -/
  | stream (o : RArgs)
  /-- CHARM. R121: Arm an idle channel with a destination range. -/
  | charm (o : RArgs)
  /-- CHSTAT. R123: Read a channel's state as a counted operation. -/
  | chstat (o : RArgs)
  /-- CHCLR. R124: Return a channel to IDLE, failing and stopping a running one first. -/
  | chclr (o : RArgs)
  /-- TDEP. R101: Deposit a tuple as a release. -/
  | tdep (o : RArgs)
  /-- TCPY. R101: Copy a matching tuple, parking until one is deposited. -/
  | tcpy (o : RArgs)
  /-- TTAK. R101: Take a matching tuple, parking until one is deposited. -/
  | ttak (o : RArgs)
  /-- TCPYN. R101: Copy a matching tuple or return EMPTY. -/
  | tcpyn (o : RArgs)
  /-- TTAKN. R101: Take a matching tuple or return EMPTY. -/
  | ttakn (o : RArgs)
  /-- TREG. R106: Create a tuple region over TUPLE pages and return its handle. -/
  | treg (o : RArgs)
  /-- TFREE. R107: Free a tuple region at every slice, completing its parked requests EMPTY. -/
  | tfree (o : RArgs)
  /-- GSUB. R252: Geometric difference, converting b to a's frame exactly. -/
  | gsub (o : VArgs)
  /-- GADD. R252: Geometric sum, converting b to a's frame exactly. -/
  | gadd (o : VArgs)
  /-- GSCALE. R253: Scale a vector's offsets. -/
  | gscale (o : VArgs)
  /-- GDOT. R253: Dot product of two vectors into FP32. -/
  | gdot (o : VArgs)
  /-- GCROSS. R253: Cross product of two vectors. -/
  | gcross (o : VArgs)
  /-- GLEN. R253: Length of offsets into FP32. -/
  | glen (o : VArgs)
  /-- GCVT. R254: Convert a value to a target frame through the Anise chain. -/
  | gcvt (o : VArgs)
  /-- GXFM. R255: Rotate by a quaternion in vB. -/
  | gxfm (o : VArgs)
  /-- GTAG. R256: Write each element's tag into slot S. -/
  | gtag (o : VArgs)
  /-- GSETTAG. R256: Replace each element's tag without checking. -/
  | gsettag (o : VArgs)
  /-- GCHK. R256: Write tag liveness into a k register. -/
  | gchk (o : VArgs)
  /-- GRETAG. R257: Move points into the deepest split cell containing them. -/
  | gretag (o : VArgs)
  /-- FNEW. R260: Create a frame node from a spec. -/
  | fnew (o : RArgs)
  /-- FFREE. R260: Free a childless frame node and bump its generation. -/
  | ffree (o : RArgs)
  /-- FUPD. R260: Replace a node's pose from a spec. -/
  | fupd (o : RArgs)
  /-- FSPLIT. R260: Split a cell into eight child cells. -/
  | fsplit (o : RArgs)
  /-- FREPAR. R260: Move a node under a new parent, optionally with a new pose. -/
  | frepar (o : RArgs)
  /-- FFENCE. R249: Make later conversions use frame-order points after earlier ones. -/
  | ffence (o : RArgs)
  /-- GCELL. R261: Compute cell keys of points at scale 2^e. -/
  | gcell (o : VArgs)
  /-- HINS. R264: Insert key and payload pairs into the scratchpad hash table. -/
  | hins (o : VArgs)
  /-- HLOOK. R265: Look up the 27 neighbour cells of each query key. -/
  | hlook (o : VArgs)
  /-- HCLR. R264: Clear every slot of the hash table. -/
  | hclr (o : VArgs)
  /-- WFWD. R300: Forward Haar transform of an 8-row block. -/
  | wfwd (o : VArgs)
  /-- WINV. R300: Reconstruct a Haar block to positions. -/
  | winv (o : VArgs)
  /-- WTAG. R301: Read the row tags of a group into sD. -/
  | wtag (o : VArgs)
  /-- WSETTAG. R301: Write the row tags of a group from s[b]. -/
  | wsettag (o : VArgs)
  /-- MCFG. R286: Read a drain descriptor and set a quadrant's drain configuration. -/
  | mcfg (o : RArgs)
  /-- MLDB. R277: Pin the source and queue a copy into the weight buffer. -/
  | mldb (o : RArgs)
  /-- MMAC. R282: Start a product on a quadrant's sequencer. -/
  | mmac (o : RArgs)
  /-- MDRAIN. R287: Start draining accumulator rows to the output port. -/
  | mdrain (o : RArgs)
  /-- MZERO. R288: Start zeroing accumulator rows. -/
  | mzero (o : RArgs)
  /-- MWAIT. R289: Wait until the named quadrants and weight loader are idle. -/
  | mwait (o : RArgs)
  /-- MSYNC. R289: Wait until earlier MLDB and MCFG reads and MDRAIN pushes are done. -/
  | msync (o : RArgs)
  /-- MSTEP. R285: Run a held quadrant command to its next interruption point. -/
  | mstep (o : RArgs)
  /-- LAUNCH. R341: Check a packet and enqueue it on the cluster's launch queue. -/
  | launch (o : RArgs)
  /-- SPAWN. R342: Hand a task record to the oldest parked thief or keep it in the deque. -/
  | spawn (o : RArgs)
  /-- STEAL. R343: Park a steal request in a victim's mailbox. -/
  | steal (o : RArgs)
  /-- TASKGET. R344: Take work from the deque or inbox. -/
  | taskget (o : RArgs)
  /-- YIELD. R345: Give up the hart's arbiter deficits. -/
  | yield (o : RArgs)
  /-- TLBI. R83: Invalidate matching TLB entries device-wide and wait for their users. -/
  | tlbi (o : RArgs)
  /-- MSQ. R94: Write back a line and report its stored encoding and Clove state. -/
  | msq (o : RArgs)
  /-- MIGRATE. R84: Move a page to a new physical granule, holding and forwarding writes. -/
  | migrate (o : RArgs)
  /-- KEYLD. R392: Unwrap and load or empty a key slot at every slice. -/
  | keyld (o : RArgs)
  /-- ACTBL. R393: Write one access-table window at every slice. -/
  | actbl (o : RArgs)
  /-- PREEMPT. R381: Request pre-emption of a slot's hart into an image, or post WAKE. -/
  | preempt (o : RArgs)
  /-- RESUME. R384: Start a hart from a saved image in a free slot. -/
  | resume (o : RArgs)
  /-- PFX. R45: Lend a guard to the following word. -/
  | pfx (o : PArgs)
  /-- PFX_COPY. R47: Lend a guard and a destination copy to the following word. -/
  | pfxCopy (o : PArgs)
  /-- C_ADD. R323: sA := s[LASTD] + sB. -/
  | cAdd (o : KArgs)
  /-- C_SUB. R323: sA := s[LASTD] − sB. -/
  | cSub (o : KArgs)
  /-- C_AND. R323: sA := s[LASTD] AND sB. -/
  | cAnd (o : KArgs)
  /-- C_OR. R323: sA := s[LASTD] OR sB. -/
  | cOr (o : KArgs)
  /-- C_XOR. R323: sA := s[LASTD] XOR sB. -/
  | cXor (o : KArgs)
  /-- C_SHL. R323: sA := s[LASTD] << sB[5:0]. -/
  | cShl (o : KArgs)
  /-- C_SHR. R323: sA := s[LASTD] >> sB[5:0]. -/
  | cShr (o : KArgs)
  /-- C_ADDI. R323: sA := s[LASTD] + sext(imm5). -/
  | cAddi (o : KArgs)
  /-- C_MOV. R323: sA := sB. -/
  | cMov (o : KArgs)
  /-- C_LDD. R323: Uncounted doubleword load from s[LASTD] + off. -/
  | cLdd (o : KArgs)
  /-- C_STD. R323: Uncounted doubleword store to s[LASTD] + off. -/
  | cStd (o : KArgs)
  /-- C_BNZ. R323: Branch when sA is non-zero. -/
  | cBnz (o : KArgs)
  /-- C_NOP. R323: Do nothing. -/
  | cNop (o : KArgs)
  /-- MIGRATION_COMPLETE. R84: The slices finish copying a migrating granule, forward its held writes in arrival order, acknowledge them and clear the migrating mark. -/
  | migrationComplete (o : GranuleArgs)
  /-- ULIANE_LINK_UP. R389: A Uliane link comes up, raising vector 5 and making peer windows to that device reachable again. -/
  | ulianeLinkUp (o : LinkArgs)
  /-- HOST_WINDOW_NO_ANSWER. R53: A host-window access that the host does not answer ends and faults ACCESS. -/
  | hostWindowNoAnswer (o : HostArgs)
  /-- LANE_GROUP_ARBITRATION. R337: Each cycle a lane group's arbiter credits deficits, moves its pointer and binds one ready sharer. -/
  | laneGroupArbitration (o : ArbiterArgs)
  deriving DecidableEq, Repr

end Sys2Proof
end

