-- ==== Sys2Proof/Config.lean ====
section
/-! DEFINITION. What an implementation fixes and the spec does not state: constants without a body, so that no proof
can see a value of one. Every use is named in a log entry. -/

namespace Sys2Proof.Config

/-- Log 7: the free value number n, where the spec states no value. -/
opaque freeValue : Nat → Word

/-- R65, log 8: the key pair (512 bits, data key lowest) that the boot ROM loads into slot 0 at boot number n. -/
opaque bootKeys : Nat → BitVec 512

/-- R392, log 8: the device wrapping key. -/
opaque wrappingKey : BitVec 256

/-- R386, log 8: an array's predictive-failure threshold, in counted errors. -/
opaque errorThreshold : Nat → Nat

/-- R398, log 8: the firmware's limit of the inlet temperature. -/
opaque inletLimit : Nat

/-- R394, log 8: an image's signature verifies under the fused key. The layout of an image is not given. -/
opaque signatureGood : List Byte → Bool
/-- R394, R395, log 8: an image's security version, and the fused minimum. -/
opaque securityVersion : List Byte → BitVec 32
opaque minimumVersion : BitVec 32
/-- R395, log 8: the device's serial number. -/
opaque deviceSerial : BitVec 64
/-- R395, log 8: the signature, r then s, of bytes under the device attestation key. -/
opaque attestationSign : List Byte → BitVec 384 × BitVec 384
/-- R390, R395, log 8: the certificates of the attestation key, leaf first. -/
opaque certificates : List (List Byte)
/-- R390, R398, log 8: the reply of command 4, whose layout is not given, from the counts, the limits and states held and the
sensors' readings. -/
opaque errorReport : List Nat → List Byte → List Byte

/-- R86, log 45: the set, of a slice's 2,048, that a line falls in. -/
opaque cacheSet : Nat → Nat
/-- R86, log 45: the way that a full set gives up, at the n-th eviction. -/
opaque victimWay : Nat → Nat

/-- R82, log 45: the place, in a full TLB, of the entry that gives way. -/
opaque tlbVictim : Nat → Nat

/-- R396, log 44: bytes 4 to 251 of a flit, from the sender's header table before it and what it carries; what they carry, from
the receiver's table; and the table after a flit, from the table before it. The spec does not give the compressed form. -/
opaque flitPayload : List (BitVec 128) → List PeerMsg → BitVec 1984
opaque flitMessages : List (BitVec 128) → BitVec 1984 → List PeerMsg
opaque headersAfter : List (BitVec 128) → BitVec 1984 → List (BitVec 128)

/-- R53, log 44: a peer refuses a request to read its memory, by the free values taken, the hart's clock and the address. -/
opaque peerRefuses : Nat → Nat → Nat → Bool

/-- R115, log 10: where the engine's firmware has a routine return to, and where it puts its stack. -/
opaque engineReturn : Nat
opaque engineStack : Nat
/-- R115, log 10: what the stream buffer holds under the stack when a routine starts: run number n, byte i. -/
opaque streamBuffer : Nat → Nat → Byte

end Sys2Proof.Config
end

