-- ==== Sys2Proof/WellFormed.lean ====
section
/-! DEFINITION. Well-formed instructions: every must-be-zero field is zero and every field holds a value that its
row allows (R8, R29, R32, R33, and the rules named below). The decoder accepts exactly the well-formed words;
any other word traps ILLEGAL at decode. -/

namespace Sys2Proof

/-- R307: the two destinations of a compare differ, unless both are p7. -/
def compareDests (o : CArgs) : Bool := o.d1 != o.d2 || o.d1 == 7

/-- R270, R123: a counter named by field b is d0 to d5, or 7 for none. -/
def counterOk (b : BitVec 5) : Bool := b.toNat < 6 || b == 7

/-- R29, R145: unit mode leaves [21:17] zero; segment mode holds 1 to 7, or 0 for the `.w` form. -/
def modeFields (o : MArgs) : Bool :=
  if o.mode == 0 then o.b == 0 else if o.mode == 3 then decide (o.b.toNat < 8) else true

/-- R32: VGLL and VSCC take the ordered-index form only in indexed mode. -/
def orderedOnlyIndexed (o : MArgs) : Bool := o.cls.toNat < 8 || o.mode == 2

/-- The well-formed instructions. An event has no fields to restrict. -/
def Instr.wf : Instr → Bool
  | .reset _ => true
  | .memoryReadRequest _ => true
  | .memoryWriteRequest _ => true
  | .lineFill _ => true
  | .lineWriteback _ => true
  | .parityDelta _ => true
  | .writebackComplete _ => true
  | .reconstructionHold _ => true
  | .stackLost _ => true
  | .rebuildStripe => true
  | .tupleRequestStep _ => true
  | .tupleWithdraw _ => true
  | .tupleReply _ => true
  | .countedOpComplete _ => true
  | .pinAdmit _ => true
  | .watermarkRelease => true
  | .engineStreamStart _ => true
  | .landing _ => true
  | .streamFail _ => true
  | .userInterruptEntry => true
  | .userFrameFaultEntry _ => true
  | .trapEntry _ => true
  | .pendingErrorTrap => true
  | .wakeInterrupt => true
  | .mgmtInterrupt => true
  | .preemptionPoint => true
  | .stripAgeExpiry => true
  | .stripRewind _ => true
  | .idleTimeout => true
  | .dispatchPacket => true
  | .dependenceRead _ => true
  | .placeUnit _ => true
  | .launchDoneAdd _ => true
  | .qtail _ => true
  | .qctl _ => true
  | .ownwin _ => true
  | .mbdone _ => true
  | .mbAttest _ => true
  | .mbKeyLoad _ => true
  | .mbAccessEntry _ => true
  | .mbErrorCounts _ => true
  | .mbFirmwareStage _ => true
  | .mbPowerCap _ => true
  | .mbCertChain _ => true
  | .mbUnknownCommand _ => true
  | .registerWrite _ => true
  | .frctl _ => true
  | .bqpush _ => true
  | .efcclr => true
  | .mseqRestart _ => true
  | .mseqAbandon _ => true
  | .weightLoad _ => true
  | .seqBLoad _ => true
  | .seqARow _ => true
  | .drainGroup _ => true
  | .seqZeroRows _ => true
  | .seqStop _ => true
  | .ulianeDataFlit _ => true
  | .ulianeIdleFlit _ => true
  | .ulianeAckFlit _ => true
  | .ulianeRetryFlit _ => true
  | .linkDown _ => true
  | .cxlSnoop _ => true
  | .correctedError _ => true
  | .powerThrottle _ => true
  | .waitgeRecheck => true
  | .add _ => true
  | .sub _ => true
  | .and _ => true
  | .or _ => true
  | .xor _ => true
  | .andn _ => true
  | .shl _ => true
  | .shr _ => true
  | .sra _ => true
  | .rotl _ => true
  | .min _ => true
  | .max _ => true
  | .minn _ => true
  | .maxn _ => true
  | .mul _ => true
  | .mulh _ => true
  | .mulhn _ => true
  | .div _ => true
  | .divn _ => true
  | .rem _ => true
  | .remn _ => true
  | .clz o => o.b == 0
  | .ctz o => o.b == 0
  | .popc o => o.b == 0
  | .sextb o => o.b == 0
  | .sexth o => o.b == 0
  | .sextw o => o.b == 0
  | .zextb o => o.b == 0
  | .zexth o => o.b == 0
  | .zextw o => o.b == 0
  | .addi _ => true
  | .andi _ => true
  | .ori _ => true
  | .xori _ => true
  | .shli o => o.imm.toNat < 64
  | .shri o => o.imm.toNat < 64
  | .srai o => o.imm.toNat < 64
  | .lih _ => true
  | .addpc _ => true
  | .cmp o => o.cond.toNat < 12 && compareDests o
  | .cmpImm o => o.cond.toNat < 12 && compareDests o
  | .fcmp o => o.cond.toNat < 8 && compareDests o
  | .fcmpD o => o.cond.toNat < 8 && compareDests o
  | .pand o => o.b.toNat < 8 && o.a.toNat < 8 && o.d.toNat < 8
  | .por o => o.b.toNat < 8 && o.a.toNat < 8 && o.d.toNat < 8
  | .pxor o => o.b.toNat < 8 && o.a.toNat < 8 && o.d.toNat < 8
  | .pandn o => o.b.toNat < 8 && o.a.toNat < 8 && o.d.toNat < 8
  | .pmov o => o.b == 0 && o.a.toNat < 8 && o.d.toNat < 8
  | .pnot o => o.b == 0 && o.a.toNat < 8 && o.d.toNat < 8
  | .b o => o.cond.toNat < 6
  | .bp _ => true
  | .call _ => true
  | .callr _ => true
  | .bqNz o => o.b == 0 && o.a.toNat < 2
  | .bqZ o => o.b == 0 && o.a.toNat < 2
  | .ldb o => o.ctr != 6
  | .ldh o => o.ctr != 6
  | .ldw o => o.ctr != 6
  | .ldd o => o.ctr != 6
  | .ldbn o => o.ctr != 6
  | .ldhn o => o.ctr != 6
  | .ldwn o => o.ctr != 6
  | .stb o => o.ctr != 6
  | .sth o => o.ctr != 6
  | .stw o => o.ctr != 6
  | .std o => o.ctr != 6
  | .ldacq o => o.data == 0 && o.scope.toNat < 9
  | .strel o => o.d == 0 && o.scope.toNat < 9
  | .ldl o => o.data == 0 && o.scope.toNat < 9
  | .stc o => o.scope.toNat < 9
  | .fadd _ => true
  | .fsub _ => true
  | .fmul _ => true
  | .fdiv _ => true
  | .fsqrt o => o.b == 0
  | .fmin _ => true
  | .fmax _ => true
  | .fma _ => true
  | .fnma _ => true
  | .fcvti o => o.b.toNat < 4
  | .fcvtf o => o.b.toNat < 4
  | .fcvtp o => o.b.toNat < 7 && o.b != 3
  | .faddD _ => true
  | .fsubD _ => true
  | .fmulD _ => true
  | .fdivD _ => true
  | .fsqrtD o => o.b == 0
  | .fminD _ => true
  | .fmaxD _ => true
  | .fmaD _ => true
  | .fnmaD _ => true
  | .fcvtiD o => o.b.toNat < 4
  | .fcvtfD o => o.b.toNat < 4
  | .fcvtpD o => o.b.toNat < 7 && o.b != 3
  | .csrr o => o.a == 0
  | .csrw o => o.d == 0
  | .csrx _ => true
  | .svc o => o.b == 0 && o.a == 0
  | .trap o => o.b == 0 && o.a == 0
  | .tret o => o.b == 0 && o.a == 0 && o.d == 0
  | .uiret o => o.stall == 0 && o.b == 0 && o.a == 0 && o.d == 0
  | .idle o => o.b == 0 && o.a == 0 && o.d == 0
  | .nop o => o.b == 0 && o.a == 0 && o.d == 0
  | .brk o => o.b == 0 && o.a == 0 && o.d == 0
  | .exit o => o.b == 0 && o.a == 0 && o.d == 0
  | .vadd _ => true
  | .vsub _ => true
  | .vmul _ => true
  | .vmulh _ => true
  | .vmulhn _ => true
  | .vmin _ => true
  | .vmax _ => true
  | .vminn _ => true
  | .vmaxn _ => true
  | .vand _ => true
  | .vor _ => true
  | .vxor _ => true
  | .vandn _ => true
  | .vshl _ => true
  | .vshr _ => true
  | .vsra _ => true
  | .vsadd _ => true
  | .vssub _ => true
  | .vsaddn _ => true
  | .vssubn _ => true
  | .vabsd _ => true
  | .vclz o => !o.x && o.b == 0
  | .vpopc o => !o.x && o.b == 0
  | .vneg o => !o.x && o.b == 0
  | .vfadd _ => true
  | .vfsub _ => true
  | .vfmul _ => true
  | .vfma _ => true
  | .vfms _ => true
  | .vfnma _ => true
  | .vfdiv _ => true
  | .vfsqrt o => !o.x && o.b == 0
  | .vfmin _ => true
  | .vfmax _ => true
  | .vfabs o => !o.x && o.b == 0
  | .vfneg o => !o.x && o.b == 0
  | .vfclass o => !o.x && o.b == 0
  | .vcmp o => o.d.toNat < 8 && o.cond.toNat < 12
  | .vfcmp o => o.d.toNat < 8 && o.cond.toNat < 8
  | .kand o => !o.x && o.b.toNat < 8 && o.a.toNat < 8 && o.d.toNat < 8
  | .kor o => !o.x && o.b.toNat < 8 && o.a.toNat < 8 && o.d.toNat < 8
  | .kxor o => !o.x && o.b.toNat < 8 && o.a.toNat < 8 && o.d.toNat < 8
  | .kandn o => !o.x && o.b.toNat < 8 && o.a.toNat < 8 && o.d.toNat < 8
  | .knot o => !o.x && o.b == 0 && o.a.toNat < 8 && o.d.toNat < 8
  | .kmov o => !o.x && o.b == 0 && o.a.toNat < 8 && o.d.toNat < 8
  | .kpopc o => !o.x && o.b == 0 && o.a.toNat < 8
  | .kfirst o => !o.x && o.b == 0 && o.a.toNat < 8
  | .vmv o => !o.x && o.b == 0
  | .vmvX o => o.x && o.a == 0
  | .vbcast o => o.x
  | .vsel o => !o.x
  | .vslideup o => o.x
  | .vslidedn o => o.x
  | .vgathr o => !o.x
  | .vcompr o => !o.x && o.b == 0
  | .vexpnd o => !o.x && o.b == 0
  | .viota o => !o.x && o.b == 0 && o.a == 0
  | .vexts o => o.x && !o.neg && o.mask == 7
  | .vinss o => o.x && !o.neg && o.mask == 7
  | .vrowmv o => o.x
  | .vtrn o => !o.x && o.b == 0
  | .vcvt o => !o.x && o.b.toNat < 8
  | .vcbenc o => !o.x && o.b == 0
  | .vcbdec o => !o.x && o.b == 0
  | .vpack o => !o.x
  | .vunpk o => o.x
  | .vredo _ => true
  | .vredt _ => true
  | .vredmax _ => true
  | .vredmin _ => true
  | .vredand _ => true
  | .vredor _ => true
  | .vdoto o => !o.x
  | .vdott o => !o.x
  | .vexp2 o => !o.x && o.b == 0
  | .vlog2 o => !o.x && o.b == 0
  | .vrcp o => !o.x && o.b == 0
  | .vrsq o => !o.x && o.b == 0
  | .vsin o => !o.x && o.b == 0
  | .vcos o => !o.x && o.b == 0
  | .vtanh o => !o.x && o.b == 0
  | .vsigm o => !o.x && o.b == 0
  | .vmrg o => !o.x && !o.neg && o.mask == 7
  | .vmrgi o => !o.x && !o.neg && o.mask == 7
  | .vbsrch o => !o.x
  | .vconf o => o.b == 0 && o.d == 0 && o.a.toNat < 4
  | .vsetl o => o.b.toNat < 2
  | .vclaim o => o.b.toNat < 2
  | .vclaimp o => o.b.toNat < 2
  | .vsett o => o.b == 0 && o.d.toNat < 2
  | .vcbld o => o.d.toNat < 4
  | .wthset o => o.b == 0 && o.d.toNat < 8
  | .vld o => modeFields o
  | .vst o => modeFields o
  | .vstn o => modeFields o
  | .vldcl o => o.mode == 2
  | .vstcl o => o.mode == 2
  | .vgll o => o.cls.toNat % 8 == 0 && o.mode != 3 && modeFields o && orderedOnlyIndexed o
  | .vscc o => o.mode != 3 && modeFields o && orderedOnlyIndexed o
  | .vlda o => modeFields o
  | .vstl o => modeFields o
  | .qdrain o => o.b == 0 && o.d == 0
  | .fence o => o.b == 0 && o.d.toNat < 9
  | .efence o => o.b == 0 && o.a == 0 && o.d == 0
  | .waitge o => o.d.toNat < 9
  | .waitdc o => o.a.toNat < 8 && o.d == 0 && o.a.toNat < 6
  | .bar o => o.b == 0 && o.d.toNat < 8
  | .hgive o => o.d == 0
  | .htake o => o.b == 0 && o.d == 0
  | .enq o => o.d.toNat < 16
  | .deq o => o.a.toNat < 16 && counterOk (o.b)
  | .venq o => o.b == 0 && o.d.toNat < 16
  | .vdeq o => o.b == 0 && o.a.toNat < 16
  | .stream o => o.d.toNat < 16
  | .charm o => o.d.toNat < 16
  | .chstat o => o.a.toNat < 16 && counterOk (o.b)
  | .chclr o => o.b == 0 && o.a == 0 && o.d.toNat < 16
  | .tdep _ => true
  | .tcpy _ => true
  | .ttak _ => true
  | .tcpyn _ => true
  | .ttakn _ => true
  | .treg _ => true
  | .tfree o => o.b == 0 && o.d == 0
  | .gsub o => !o.x
  | .gadd o => !o.x
  | .gscale _ => true
  | .gdot o => !o.x
  | .gcross o => !o.x
  | .glen o => !o.x && o.b == 0
  | .gcvt _ => true
  | .gxfm o => !o.x
  | .gtag o => !o.x && o.b == 0
  | .gsettag _ => true
  | .gchk o => !o.x && o.b == 0 && o.d.toNat < 8
  | .gretag o => !o.x && o.b == 0
  | .fnew o => o.b == 0
  | .ffree o => o.b == 0 && o.d == 0
  | .fupd o => o.d == 0
  | .fsplit o => o.b == 0
  | .frepar _ => true
  | .ffence o => o.b == 0 && o.a == 0 && o.d == 0
  | .gcell o => o.x
  | .hins o => !o.x && o.d.toNat < 8
  | .hlook o => o.x
  | .hclr o => !o.x && !o.neg && o.mask == 7 && o.b == 0 && o.a == 0 && o.d == 0
  | .wfwd o => o.x && !o.neg && o.mask == 7
  | .winv o => !o.x && !o.neg && o.mask == 7 && o.b == 0
  | .wtag o => !o.x && !o.neg && o.mask == 7 && o.b == 0
  | .wsettag o => o.x && !o.neg && o.mask == 7 && o.a == 0
  | .mcfg o => o.b == 0 && o.d.toNat < 4
  | .mldb o => o.d == 0
  | .mmac o => o.d.toNat < 4
  | .mdrain o => o.b == 0 && o.d.toNat < 4
  | .mzero o => o.b == 0 && o.d.toNat < 4
  | .mwait o => o.b == 0 && o.d == 0
  | .msync o => o.b == 0 && o.a == 0 && o.d == 0
  | .mstep o => o.b == 0 && o.a.toNat < 4
  | .launch o => o.b == 0
  | .spawn o => o.b == 0
  | .steal o => o.b == 0
  | .taskget o => o.b == 0
  | .yield o => o.b == 0 && o.a == 0 && o.d == 0
  | .tlbi o => o.d == 0
  | .msq o => !o.neg && o.b == 0
  | .migrate o => o.d == 0
  | .keyld _ => true
  | .actbl o => o.d == 0
  | .preempt _ => true
  | .resume _ => true
  | .pfx o => o.copy == 0
  | .pfxCopy _ => true
  | .cAdd o => o.a != 0
  | .cSub o => o.a != 0
  | .cAnd o => o.a != 0
  | .cOr o => o.a != 0
  | .cXor o => o.a != 0
  | .cShl o => o.a != 0
  | .cShr o => o.a != 0
  | .cAddi o => o.a != 0
  | .cMov o => o.a != 0
  | .cLdd o => o.a != 0
  | .cStd _ => true
  | .cBnz _ => true
  | .cNop o => o.b == 0 && o.a == 0
  | .migrationComplete _ => true
  | .ulianeLinkUp _ => true
  | .hostWindowNoAnswer _ => true
  | .laneGroupArbitration _ => true

end Sys2Proof
end

