-- ==== Sys2Proof/Decode.lean ====
section
/-! DEFINITION. Decoding and encoding (R26 to R33). `decode` takes the bytes at an address and answers an
instruction and its length, or why no instruction stands there. `Instr.word` is the encoder, written from the same
layouts. -/

namespace Sys2Proof

/-- Why bytes are not an instruction. Each of these but `truncated` is an ILLEGAL at decode (R8). -/
inductive DecodeError where
  /-- Fewer bytes than the first halfword calls for. -/
  | truncated
  /-- A reserved major, an unassigned func or an unassigned compact op (R32, R33). -/
  | unassigned
  /-- A must-be-zero field is not zero, or a field holds a value its row excludes (R8, R29). -/
  | badField
  deriving DecidableEq, Repr

/-! The fields of a word, by format (R27). Division by 2^lo moves bit lo to bit 0. -/

/-- One bit of a word. -/
def bitAt (w lo : Nat) : Bool := w / 2 ^ lo % 2 == 1

/-- The field of width n whose lowest bit is lo. -/
def field (w lo n : Nat) : BitVec n := BitVec.ofNat n (w / 2 ^ lo)

def rArgs (w : Nat) : RArgs :=
  ⟨field w 7 5, field w 12 5, field w 17 5, field w 22 3, bitAt w 25, field w 26 2⟩
def iArgs (w : Nat) : IArgs := ⟨field w 7 5, field w 12 5, field w 17 12⟩
def uArgs (w : Nat) : UArgs := ⟨field w 7 5, field w 12 20⟩
def cArgs (w : Nat) : CArgs :=
  ⟨field w 7 3, field w 10 3, field w 13 5, field w 18 5, field w 23 3, bitAt w 26, field w 28 4⟩
def bArgs (w : Nat) : BArgs := ⟨field w 7 5, field w 12 5, field w 17 3, field w 20 12⟩
def bqArgs (w : Nat) : BqArgs := ⟨field w 7 5, field w 12 5, field w 20 12⟩
def jArgs (w : Nat) : JArgs := ⟨field w 7 3, bitAt w 10, field w 12 20⟩
def lArgs (w : Nat) : LArgs := ⟨field w 7 5, field w 12 5, field w 20 5, field w 25 4, field w 29 3⟩
def aArgs (w : Nat) : AArgs := ⟨field w 7 5, field w 12 5, field w 17 5, field w 22 4, field w 26 2⟩
def vArgs (w : Nat) : VArgs :=
  ⟨field w 7 5, field w 12 5, field w 17 5, field w 22 3, bitAt w 25, bitAt w 26, bitAt w 27⟩
def vCmpArgs (w : Nat) : VCmpArgs :=
  ⟨field w 7 5, field w 12 5, field w 17 5, field w 22 3, bitAt w 25, bitAt w 26, bitAt w 27, field w 28 4⟩
def mArgs (w : Nat) : MArgs :=
  ⟨field w 7 5, field w 12 5, field w 17 5, field w 22 3, bitAt w 25, field w 26 4, field w 30 2⟩
def pArgs (w : Nat) : PArgs := ⟨field w 7 5, field w 12 3, bitAt w 15, bitAt w 16⟩
def kArgs (w : Nat) : KArgs := ⟨field w 6 5, field w 11 5⟩

/-- R32: func values follow the order of the mnemonic lists, starting at 0. -/
def pick {α : Type} (forms : List (α → Instr)) (n : Nat) (o : α) : Option Instr :=
  forms[n]?.map fun f => f o

/-- R32: the word's form, by its major and its func, condition or form bits. -/
noncomputable def formOf (w : Nat) : Option Instr :=
  match w / 2 % 64 with
  | 0 => pick [.add, .sub, .and, .or, .xor, .andn, .shl, .shr, .sra, .rotl, .min, .max, .minn, .maxn] (w / 268435456 % 16) (rArgs w)
  | 1 => pick [.mul, .mulh, .mulhn, .div, .divn, .rem, .remn] (w / 268435456 % 16) (rArgs w)
  | 2 => pick [.clz, .ctz, .popc, .sextb, .sexth, .sextw, .zextb, .zexth, .zextw] (w / 268435456 % 16) (rArgs w)
  | 3 => pick [.addi, .andi, .ori, .xori, .shli, .shri, .srai] (w / 536870912 % 8) (iArgs w)
  | 4 => some (.lih (uArgs w))
  | 5 => some (.addpc (uArgs w))
  | 6 => pick [.cmp, .cmpImm] (w / 134217728 % 2) (cArgs w)
  | 7 => pick [.fcmp, .fcmpD] (w / 134217728 % 2) (cArgs w)
  | 8 => pick [.pand, .por, .pxor, .pandn, .pmov, .pnot] (w / 268435456 % 16) (rArgs w)
  | 9 => some (.b (bArgs w))
  | 10 => pick [.bp, .call] (w / 2048 % 2) (jArgs w)
  | 11 => pick [.callr] (w / 536870912 % 8) (iArgs w)
  | 12 => pick [.bqNz, .bqZ] (w / 131072 % 8) (bqArgs w)
  | 13 => pick [.ldb, .ldh, .ldw, .ldd, .ldbn, .ldhn, .ldwn] (w / 131072 % 8) (lArgs w)
  | 14 => pick [.stb, .sth, .stw, .std] (w / 131072 % 8) (lArgs w)
  | 15 => pick [.ldacq, .strel, .ldl, .stc] (w / 268435456 % 16) (aArgs w)
  | 16 => pick [.fadd, .fsub, .fmul, .fdiv, .fsqrt, .fmin, .fmax, .fma, .fnma, .fcvti, .fcvtf, .fcvtp] (w / 268435456 % 16) (rArgs w)
  | 17 => pick [.faddD, .fsubD, .fmulD, .fdivD, .fsqrtD, .fminD, .fmaxD, .fmaD, .fnmaD, .fcvtiD, .fcvtfD, .fcvtpD] (w / 268435456 % 16) (rArgs w)
  | 18 => pick [.csrr, .csrw, .csrx] (w / 536870912 % 8) (iArgs w)
  | 19 => pick [.svc, .trap, .tret, .uiret, .idle, .nop, .brk, .exit] (w / 268435456 % 16) (rArgs w)
  | 20 => pick [.vadd, .vsub, .vmul, .vmulh, .vmulhn, .vmin, .vmax, .vminn, .vmaxn, .vand, .vor, .vxor, .vandn, .vshl, .vshr, .vsra] (w / 268435456 % 16) (vArgs w)
  | 21 => pick [.vsadd, .vssub, .vsaddn, .vssubn, .vabsd, .vclz, .vpopc, .vneg] (w / 268435456 % 16) (vArgs w)
  | 22 => pick [.vfadd, .vfsub, .vfmul, .vfma, .vfms, .vfnma, .vfdiv, .vfsqrt, .vfmin, .vfmax, .vfabs, .vfneg, .vfclass] (w / 268435456 % 16) (vArgs w)
  | 23 => some (.vcmp (vCmpArgs w))
  | 24 => some (.vfcmp (vCmpArgs w))
  | 25 => pick [.kand, .kor, .kxor, .kandn, .knot, .kmov, .kpopc, .kfirst] (w / 268435456 % 16) (vArgs w)
  | 26 => if w / 134217728 % 32 == 1 then some (.vmvX (vArgs w)) else pick [.vmv, .vbcast, .vsel, .vslideup, .vslidedn, .vgathr, .vcompr, .vexpnd, .viota, .vexts, .vinss, .vrowmv, .vtrn] (w / 268435456 % 16) (vArgs w)
  | 27 => pick [.vcvt, .vcbenc, .vcbdec, .vpack, .vunpk] (w / 268435456 % 16) (vArgs w)
  | 28 => pick [.vredo, .vredt, .vredmax, .vredmin, .vredand, .vredor, .vdoto, .vdott] (w / 268435456 % 16) (vArgs w)
  | 29 => pick [.vexp2, .vlog2, .vrcp, .vrsq, .vsin, .vcos, .vtanh, .vsigm] (w / 268435456 % 16) (vArgs w)
  | 30 => pick [.vmrg, .vmrgi, .vbsrch] (w / 268435456 % 16) (vArgs w)
  | 31 => pick [.vconf, .vsetl, .vclaim, .vclaimp, .vsett, .vcbld, .wthset] (w / 268435456 % 16) (rArgs w)
  | 32 => some (.vld (mArgs w))
  | 33 => some (.vst (mArgs w))
  | 34 => some (.vstn (mArgs w))
  | 35 => some (.vldcl (mArgs w))
  | 36 => some (.vstcl (mArgs w))
  | 37 => some (.vgll (mArgs w))
  | 38 => some (.vscc (mArgs w))
  | 39 => some (.vlda (mArgs w))
  | 40 => some (.vstl (mArgs w))
  | 41 => pick [.qdrain, .fence, .efence, .waitge, .waitdc, .bar, .hgive, .htake] (w / 268435456 % 16) (rArgs w)
  | 42 => pick [.enq, .deq, .venq, .vdeq, .stream, .charm, .chstat, .chclr] (w / 268435456 % 16) (rArgs w)
  | 43 => pick [.tdep, .tcpy, .ttak, .tcpyn, .ttakn, .treg, .tfree] (w / 268435456 % 16) (rArgs w)
  | 44 => pick [.gsub, .gadd, .gscale, .gdot, .gcross, .glen, .gcvt, .gxfm, .gtag, .gsettag, .gchk, .gretag] (w / 268435456 % 16) (vArgs w)
  | 45 => pick [.fnew, .ffree, .fupd, .fsplit, .frepar, .ffence] (w / 268435456 % 16) (rArgs w)
  | 46 => pick [.gcell, .hins, .hlook, .hclr] (w / 268435456 % 16) (vArgs w)
  | 47 => pick [.wfwd, .winv, .wtag, .wsettag] (w / 268435456 % 16) (vArgs w)
  | 48 => pick [.mcfg, .mldb, .mmac, .mdrain, .mzero, .mwait, .msync, .mstep] (w / 268435456 % 16) (rArgs w)
  | 49 => pick [.launch, .spawn, .steal, .taskget, .yield] (w / 268435456 % 16) (rArgs w)
  | 50 => pick [.tlbi, .msq, .migrate, .keyld, .actbl, .preempt, .resume] (w / 268435456 % 16) (rArgs w)
  | 51 => pick [.pfx, .pfxCopy] (w / 131072) (pArgs w)
  | _ => none

/-- R33: the compact form of a halfword. -/
noncomputable def compactFormOf (w : Nat) : Option Instr :=
  if w / 2 % 32 == 31 then some (.cNop (kArgs w))
  else pick [.cAdd, .cSub, .cAnd, .cOr, .cXor, .cShl, .cShr, .cAddi, .cMov, .cLdd, .cStd, .cBnz] (w / 2 % 32) (kArgs w)

/-- A form is an instruction when it is well formed (R8). -/
def accept : Option Instr → Except DecodeError Instr
  | none => .error .unassigned
  | some i => if i.wf then .ok i else .error .badField

/-- Decode a 32-bit word (bit 0 set). -/
noncomputable def decodeWord (w : Nat) : Except DecodeError Instr := accept (formOf w)

/-- Decode a compact halfword (bit 0 clear). -/
noncomputable def decodeHalf (w : Nat) : Except DecodeError Instr := accept (compactFormOf w)

/-- R26: cut the first instruction from a stream of bytes, lowest address first: the instruction and its length. -/
noncomputable def decode : List Byte → Except DecodeError (Instr × Nat)
  | b0 :: b1 :: rest =>
    let h := b0.toNat + 256 * b1.toNat
    if h % 2 == 0 then (decodeHalf h).map fun i => (i, 2)
    else match rest with
      | b2 :: b3 :: _ => (decodeWord (h + 65536 * (b2.toNat + 256 * b3.toNat))).map fun i => (i, 4)
      | _ => .error .truncated
  | _ => .error .truncated

/-! The encoder (R27, R28). A word is the sum of its fields, each at its place. -/

/-- A flag as a number. -/
def bitNat (b : Bool) : Nat := if b then 1 else 0

def rWord (major func : Nat) (o : RArgs) : Nat :=
  1 + 2 * major + 128 * o.d.toNat + 4096 * o.a.toNat + 131072 * o.b.toNat + 4194304 * o.guard.toNat
    + 33554432 * bitNat o.neg + 67108864 * o.stall.toNat + 268435456 * func
def iWord (major func : Nat) (o : IArgs) : Nat :=
  1 + 2 * major + 128 * o.d.toNat + 4096 * o.a.toNat + 131072 * o.imm.toNat + 536870912 * func
def uWord (major : Nat) (o : UArgs) : Nat := 1 + 2 * major + 128 * o.d.toNat + 4096 * o.imm.toNat
def cWord (major form : Nat) (o : CArgs) : Nat :=
  1 + 2 * major + 128 * o.d1.toNat + 1024 * o.d2.toNat + 8192 * o.a.toNat + 262144 * o.b.toNat
    + 8388608 * o.guard.toNat + 67108864 * bitNat o.neg + 134217728 * form + 268435456 * o.cond.toNat
def bWord (major : Nat) (o : BArgs) : Nat :=
  1 + 2 * major + 128 * o.a.toNat + 4096 * o.b.toNat + 131072 * o.cond.toNat + 1048576 * o.off.toNat
def bqWord (major cond : Nat) (o : BqArgs) : Nat :=
  1 + 2 * major + 128 * o.a.toNat + 4096 * o.b.toNat + 131072 * cond + 1048576 * o.off.toNat
def jWord (major link : Nat) (o : JArgs) : Nat :=
  1 + 2 * major + 128 * o.pred.toNat + 1024 * bitNat o.neg + 2048 * link + 4096 * o.off.toNat
def lWord (major size : Nat) (o : LArgs) : Nat :=
  1 + 2 * major + 128 * o.d.toNat + 4096 * o.a.toNat + 131072 * size + 1048576 * o.imm.toNat
    + 33554432 * o.cls.toNat + 536870912 * o.ctr.toNat
def aWord (major func : Nat) (o : AArgs) : Nat :=
  1 + 2 * major + 128 * o.d.toNat + 4096 * o.a.toNat + 131072 * o.data.toNat + 4194304 * o.scope.toNat
    + 67108864 * o.size.toNat + 268435456 * func
def vWord (major func : Nat) (o : VArgs) : Nat :=
  1 + 2 * major + 128 * o.d.toNat + 4096 * o.a.toNat + 131072 * o.b.toNat + 4194304 * o.mask.toNat
    + 33554432 * bitNat o.neg + 67108864 * bitNat o.t + 134217728 * bitNat o.x + 268435456 * func
def vCmpWord (major : Nat) (o : VCmpArgs) : Nat :=
  1 + 2 * major + 128 * o.d.toNat + 4096 * o.a.toNat + 131072 * o.b.toNat + 4194304 * o.mask.toNat
    + 33554432 * bitNat o.neg + 67108864 * bitNat o.t + 134217728 * bitNat o.x + 268435456 * o.cond.toNat
def mWord (major : Nat) (o : MArgs) : Nat :=
  1 + 2 * major + 128 * o.d.toNat + 4096 * o.a.toNat + 131072 * o.b.toNat + 4194304 * o.mask.toNat
    + 33554432 * bitNat o.neg + 67108864 * o.cls.toNat + 1073741824 * o.mode.toNat
def pWord (major copy : Nat) (o : PArgs) : Nat :=
  1 + 2 * major + 128 * o.copy.toNat + 4096 * o.guard.toNat + 32768 * bitNat o.neg + 65536 * bitNat o.isK
    + 131072 * copy
def kWord (op : Nat) (o : KArgs) : Nat := 2 * op + 64 * o.a.toNat + 2048 * o.b.toNat

/-- The encoder: the word or halfword of an instruction; an event has none, and answers 0. -/
def Instr.word : Instr → Nat
  | .reset _ => 0
  | .memoryReadRequest _ => 0
  | .memoryWriteRequest _ => 0
  | .lineFill _ => 0
  | .lineWriteback _ => 0
  | .parityDelta _ => 0
  | .writebackComplete _ => 0
  | .reconstructionHold _ => 0
  | .stackLost _ => 0
  | .rebuildStripe => 0
  | .tupleRequestStep _ => 0
  | .tupleWithdraw _ => 0
  | .tupleReply _ => 0
  | .countedOpComplete _ => 0
  | .pinAdmit _ => 0
  | .watermarkRelease => 0
  | .engineStreamStart _ => 0
  | .landing _ => 0
  | .streamFail _ => 0
  | .userInterruptEntry => 0
  | .userFrameFaultEntry _ => 0
  | .trapEntry _ => 0
  | .pendingErrorTrap => 0
  | .wakeInterrupt => 0
  | .mgmtInterrupt => 0
  | .preemptionPoint => 0
  | .stripAgeExpiry => 0
  | .stripRewind _ => 0
  | .idleTimeout => 0
  | .dispatchPacket => 0
  | .dependenceRead _ => 0
  | .placeUnit _ => 0
  | .launchDoneAdd _ => 0
  | .qtail _ => 0
  | .qctl _ => 0
  | .ownwin _ => 0
  | .mbdone _ => 0
  | .mbAttest _ => 0
  | .mbKeyLoad _ => 0
  | .mbAccessEntry _ => 0
  | .mbErrorCounts _ => 0
  | .mbFirmwareStage _ => 0
  | .mbPowerCap _ => 0
  | .mbCertChain _ => 0
  | .mbUnknownCommand _ => 0
  | .registerWrite _ => 0
  | .frctl _ => 0
  | .bqpush _ => 0
  | .efcclr => 0
  | .mseqRestart _ => 0
  | .mseqAbandon _ => 0
  | .weightLoad _ => 0
  | .seqBLoad _ => 0
  | .seqARow _ => 0
  | .drainGroup _ => 0
  | .seqZeroRows _ => 0
  | .seqStop _ => 0
  | .ulianeDataFlit _ => 0
  | .ulianeIdleFlit _ => 0
  | .ulianeAckFlit _ => 0
  | .ulianeRetryFlit _ => 0
  | .linkDown _ => 0
  | .cxlSnoop _ => 0
  | .correctedError _ => 0
  | .powerThrottle _ => 0
  | .waitgeRecheck => 0
  | .add o => rWord 0 0 o
  | .sub o => rWord 0 1 o
  | .and o => rWord 0 2 o
  | .or o => rWord 0 3 o
  | .xor o => rWord 0 4 o
  | .andn o => rWord 0 5 o
  | .shl o => rWord 0 6 o
  | .shr o => rWord 0 7 o
  | .sra o => rWord 0 8 o
  | .rotl o => rWord 0 9 o
  | .min o => rWord 0 10 o
  | .max o => rWord 0 11 o
  | .minn o => rWord 0 12 o
  | .maxn o => rWord 0 13 o
  | .mul o => rWord 1 0 o
  | .mulh o => rWord 1 1 o
  | .mulhn o => rWord 1 2 o
  | .div o => rWord 1 3 o
  | .divn o => rWord 1 4 o
  | .rem o => rWord 1 5 o
  | .remn o => rWord 1 6 o
  | .clz o => rWord 2 0 o
  | .ctz o => rWord 2 1 o
  | .popc o => rWord 2 2 o
  | .sextb o => rWord 2 3 o
  | .sexth o => rWord 2 4 o
  | .sextw o => rWord 2 5 o
  | .zextb o => rWord 2 6 o
  | .zexth o => rWord 2 7 o
  | .zextw o => rWord 2 8 o
  | .addi o => iWord 3 0 o
  | .andi o => iWord 3 1 o
  | .ori o => iWord 3 2 o
  | .xori o => iWord 3 3 o
  | .shli o => iWord 3 4 o
  | .shri o => iWord 3 5 o
  | .srai o => iWord 3 6 o
  | .lih o => uWord 4 o
  | .addpc o => uWord 5 o
  | .cmp o => cWord 6 0 o
  | .cmpImm o => cWord 6 1 o
  | .fcmp o => cWord 7 0 o
  | .fcmpD o => cWord 7 1 o
  | .pand o => rWord 8 0 o
  | .por o => rWord 8 1 o
  | .pxor o => rWord 8 2 o
  | .pandn o => rWord 8 3 o
  | .pmov o => rWord 8 4 o
  | .pnot o => rWord 8 5 o
  | .b o => bWord 9 o
  | .bp o => jWord 10 0 o
  | .call o => jWord 10 1 o
  | .callr o => iWord 11 0 o
  | .bqNz o => bqWord 12 0 o
  | .bqZ o => bqWord 12 1 o
  | .ldb o => lWord 13 0 o
  | .ldh o => lWord 13 1 o
  | .ldw o => lWord 13 2 o
  | .ldd o => lWord 13 3 o
  | .ldbn o => lWord 13 4 o
  | .ldhn o => lWord 13 5 o
  | .ldwn o => lWord 13 6 o
  | .stb o => lWord 14 0 o
  | .sth o => lWord 14 1 o
  | .stw o => lWord 14 2 o
  | .std o => lWord 14 3 o
  | .ldacq o => aWord 15 0 o
  | .strel o => aWord 15 1 o
  | .ldl o => aWord 15 2 o
  | .stc o => aWord 15 3 o
  | .fadd o => rWord 16 0 o
  | .fsub o => rWord 16 1 o
  | .fmul o => rWord 16 2 o
  | .fdiv o => rWord 16 3 o
  | .fsqrt o => rWord 16 4 o
  | .fmin o => rWord 16 5 o
  | .fmax o => rWord 16 6 o
  | .fma o => rWord 16 7 o
  | .fnma o => rWord 16 8 o
  | .fcvti o => rWord 16 9 o
  | .fcvtf o => rWord 16 10 o
  | .fcvtp o => rWord 16 11 o
  | .faddD o => rWord 17 0 o
  | .fsubD o => rWord 17 1 o
  | .fmulD o => rWord 17 2 o
  | .fdivD o => rWord 17 3 o
  | .fsqrtD o => rWord 17 4 o
  | .fminD o => rWord 17 5 o
  | .fmaxD o => rWord 17 6 o
  | .fmaD o => rWord 17 7 o
  | .fnmaD o => rWord 17 8 o
  | .fcvtiD o => rWord 17 9 o
  | .fcvtfD o => rWord 17 10 o
  | .fcvtpD o => rWord 17 11 o
  | .csrr o => iWord 18 0 o
  | .csrw o => iWord 18 1 o
  | .csrx o => iWord 18 2 o
  | .svc o => rWord 19 0 o
  | .trap o => rWord 19 1 o
  | .tret o => rWord 19 2 o
  | .uiret o => rWord 19 3 o
  | .idle o => rWord 19 4 o
  | .nop o => rWord 19 5 o
  | .brk o => rWord 19 6 o
  | .exit o => rWord 19 7 o
  | .vadd o => vWord 20 0 o
  | .vsub o => vWord 20 1 o
  | .vmul o => vWord 20 2 o
  | .vmulh o => vWord 20 3 o
  | .vmulhn o => vWord 20 4 o
  | .vmin o => vWord 20 5 o
  | .vmax o => vWord 20 6 o
  | .vminn o => vWord 20 7 o
  | .vmaxn o => vWord 20 8 o
  | .vand o => vWord 20 9 o
  | .vor o => vWord 20 10 o
  | .vxor o => vWord 20 11 o
  | .vandn o => vWord 20 12 o
  | .vshl o => vWord 20 13 o
  | .vshr o => vWord 20 14 o
  | .vsra o => vWord 20 15 o
  | .vsadd o => vWord 21 0 o
  | .vssub o => vWord 21 1 o
  | .vsaddn o => vWord 21 2 o
  | .vssubn o => vWord 21 3 o
  | .vabsd o => vWord 21 4 o
  | .vclz o => vWord 21 5 o
  | .vpopc o => vWord 21 6 o
  | .vneg o => vWord 21 7 o
  | .vfadd o => vWord 22 0 o
  | .vfsub o => vWord 22 1 o
  | .vfmul o => vWord 22 2 o
  | .vfma o => vWord 22 3 o
  | .vfms o => vWord 22 4 o
  | .vfnma o => vWord 22 5 o
  | .vfdiv o => vWord 22 6 o
  | .vfsqrt o => vWord 22 7 o
  | .vfmin o => vWord 22 8 o
  | .vfmax o => vWord 22 9 o
  | .vfabs o => vWord 22 10 o
  | .vfneg o => vWord 22 11 o
  | .vfclass o => vWord 22 12 o
  | .vcmp o => vCmpWord 23 o
  | .vfcmp o => vCmpWord 24 o
  | .kand o => vWord 25 0 o
  | .kor o => vWord 25 1 o
  | .kxor o => vWord 25 2 o
  | .kandn o => vWord 25 3 o
  | .knot o => vWord 25 4 o
  | .kmov o => vWord 25 5 o
  | .kpopc o => vWord 25 6 o
  | .kfirst o => vWord 25 7 o
  | .vmv o => vWord 26 0 o
  | .vmvX o => vWord 26 0 o
  | .vbcast o => vWord 26 1 o
  | .vsel o => vWord 26 2 o
  | .vslideup o => vWord 26 3 o
  | .vslidedn o => vWord 26 4 o
  | .vgathr o => vWord 26 5 o
  | .vcompr o => vWord 26 6 o
  | .vexpnd o => vWord 26 7 o
  | .viota o => vWord 26 8 o
  | .vexts o => vWord 26 9 o
  | .vinss o => vWord 26 10 o
  | .vrowmv o => vWord 26 11 o
  | .vtrn o => vWord 26 12 o
  | .vcvt o => vWord 27 0 o
  | .vcbenc o => vWord 27 1 o
  | .vcbdec o => vWord 27 2 o
  | .vpack o => vWord 27 3 o
  | .vunpk o => vWord 27 4 o
  | .vredo o => vWord 28 0 o
  | .vredt o => vWord 28 1 o
  | .vredmax o => vWord 28 2 o
  | .vredmin o => vWord 28 3 o
  | .vredand o => vWord 28 4 o
  | .vredor o => vWord 28 5 o
  | .vdoto o => vWord 28 6 o
  | .vdott o => vWord 28 7 o
  | .vexp2 o => vWord 29 0 o
  | .vlog2 o => vWord 29 1 o
  | .vrcp o => vWord 29 2 o
  | .vrsq o => vWord 29 3 o
  | .vsin o => vWord 29 4 o
  | .vcos o => vWord 29 5 o
  | .vtanh o => vWord 29 6 o
  | .vsigm o => vWord 29 7 o
  | .vmrg o => vWord 30 0 o
  | .vmrgi o => vWord 30 1 o
  | .vbsrch o => vWord 30 2 o
  | .vconf o => rWord 31 0 o
  | .vsetl o => rWord 31 1 o
  | .vclaim o => rWord 31 2 o
  | .vclaimp o => rWord 31 3 o
  | .vsett o => rWord 31 4 o
  | .vcbld o => rWord 31 5 o
  | .wthset o => rWord 31 6 o
  | .vld o => mWord 32 o
  | .vst o => mWord 33 o
  | .vstn o => mWord 34 o
  | .vldcl o => mWord 35 o
  | .vstcl o => mWord 36 o
  | .vgll o => mWord 37 o
  | .vscc o => mWord 38 o
  | .vlda o => mWord 39 o
  | .vstl o => mWord 40 o
  | .qdrain o => rWord 41 0 o
  | .fence o => rWord 41 1 o
  | .efence o => rWord 41 2 o
  | .waitge o => rWord 41 3 o
  | .waitdc o => rWord 41 4 o
  | .bar o => rWord 41 5 o
  | .hgive o => rWord 41 6 o
  | .htake o => rWord 41 7 o
  | .enq o => rWord 42 0 o
  | .deq o => rWord 42 1 o
  | .venq o => rWord 42 2 o
  | .vdeq o => rWord 42 3 o
  | .stream o => rWord 42 4 o
  | .charm o => rWord 42 5 o
  | .chstat o => rWord 42 6 o
  | .chclr o => rWord 42 7 o
  | .tdep o => rWord 43 0 o
  | .tcpy o => rWord 43 1 o
  | .ttak o => rWord 43 2 o
  | .tcpyn o => rWord 43 3 o
  | .ttakn o => rWord 43 4 o
  | .treg o => rWord 43 5 o
  | .tfree o => rWord 43 6 o
  | .gsub o => vWord 44 0 o
  | .gadd o => vWord 44 1 o
  | .gscale o => vWord 44 2 o
  | .gdot o => vWord 44 3 o
  | .gcross o => vWord 44 4 o
  | .glen o => vWord 44 5 o
  | .gcvt o => vWord 44 6 o
  | .gxfm o => vWord 44 7 o
  | .gtag o => vWord 44 8 o
  | .gsettag o => vWord 44 9 o
  | .gchk o => vWord 44 10 o
  | .gretag o => vWord 44 11 o
  | .fnew o => rWord 45 0 o
  | .ffree o => rWord 45 1 o
  | .fupd o => rWord 45 2 o
  | .fsplit o => rWord 45 3 o
  | .frepar o => rWord 45 4 o
  | .ffence o => rWord 45 5 o
  | .gcell o => vWord 46 0 o
  | .hins o => vWord 46 1 o
  | .hlook o => vWord 46 2 o
  | .hclr o => vWord 46 3 o
  | .wfwd o => vWord 47 0 o
  | .winv o => vWord 47 1 o
  | .wtag o => vWord 47 2 o
  | .wsettag o => vWord 47 3 o
  | .mcfg o => rWord 48 0 o
  | .mldb o => rWord 48 1 o
  | .mmac o => rWord 48 2 o
  | .mdrain o => rWord 48 3 o
  | .mzero o => rWord 48 4 o
  | .mwait o => rWord 48 5 o
  | .msync o => rWord 48 6 o
  | .mstep o => rWord 48 7 o
  | .launch o => rWord 49 0 o
  | .spawn o => rWord 49 1 o
  | .steal o => rWord 49 2 o
  | .taskget o => rWord 49 3 o
  | .yield o => rWord 49 4 o
  | .tlbi o => rWord 50 0 o
  | .msq o => rWord 50 1 o
  | .migrate o => rWord 50 2 o
  | .keyld o => rWord 50 3 o
  | .actbl o => rWord 50 4 o
  | .preempt o => rWord 50 5 o
  | .resume o => rWord 50 6 o
  | .pfx o => pWord 51 0 o
  | .pfxCopy o => pWord 51 1 o
  | .cAdd o => kWord 0 o
  | .cSub o => kWord 1 o
  | .cAnd o => kWord 2 o
  | .cOr o => kWord 3 o
  | .cXor o => kWord 4 o
  | .cShl o => kWord 5 o
  | .cShr o => kWord 6 o
  | .cAddi o => kWord 7 o
  | .cMov o => kWord 8 o
  | .cLdd o => kWord 9 o
  | .cStd o => kWord 10 o
  | .cBnz o => kWord 11 o
  | .cNop o => kWord 31 o
  | .migrationComplete _ => 0
  | .ulianeLinkUp _ => 0
  | .hostWindowNoAnswer _ => 0
  | .laneGroupArbitration _ => 0

/-- An instruction's length in bytes (R26); an event has none. -/
def Instr.size : Instr → Nat
  | .reset _ => 0
  | .memoryReadRequest _ => 0
  | .memoryWriteRequest _ => 0
  | .lineFill _ => 0
  | .lineWriteback _ => 0
  | .parityDelta _ => 0
  | .writebackComplete _ => 0
  | .reconstructionHold _ => 0
  | .stackLost _ => 0
  | .rebuildStripe => 0
  | .tupleRequestStep _ => 0
  | .tupleWithdraw _ => 0
  | .tupleReply _ => 0
  | .countedOpComplete _ => 0
  | .pinAdmit _ => 0
  | .watermarkRelease => 0
  | .engineStreamStart _ => 0
  | .landing _ => 0
  | .streamFail _ => 0
  | .userInterruptEntry => 0
  | .userFrameFaultEntry _ => 0
  | .trapEntry _ => 0
  | .pendingErrorTrap => 0
  | .wakeInterrupt => 0
  | .mgmtInterrupt => 0
  | .preemptionPoint => 0
  | .stripAgeExpiry => 0
  | .stripRewind _ => 0
  | .idleTimeout => 0
  | .dispatchPacket => 0
  | .dependenceRead _ => 0
  | .placeUnit _ => 0
  | .launchDoneAdd _ => 0
  | .qtail _ => 0
  | .qctl _ => 0
  | .ownwin _ => 0
  | .mbdone _ => 0
  | .mbAttest _ => 0
  | .mbKeyLoad _ => 0
  | .mbAccessEntry _ => 0
  | .mbErrorCounts _ => 0
  | .mbFirmwareStage _ => 0
  | .mbPowerCap _ => 0
  | .mbCertChain _ => 0
  | .mbUnknownCommand _ => 0
  | .registerWrite _ => 0
  | .frctl _ => 0
  | .bqpush _ => 0
  | .efcclr => 0
  | .mseqRestart _ => 0
  | .mseqAbandon _ => 0
  | .weightLoad _ => 0
  | .seqBLoad _ => 0
  | .seqARow _ => 0
  | .drainGroup _ => 0
  | .seqZeroRows _ => 0
  | .seqStop _ => 0
  | .ulianeDataFlit _ => 0
  | .ulianeIdleFlit _ => 0
  | .ulianeAckFlit _ => 0
  | .ulianeRetryFlit _ => 0
  | .linkDown _ => 0
  | .cxlSnoop _ => 0
  | .correctedError _ => 0
  | .powerThrottle _ => 0
  | .waitgeRecheck => 0
  | .add _ => 4
  | .sub _ => 4
  | .and _ => 4
  | .or _ => 4
  | .xor _ => 4
  | .andn _ => 4
  | .shl _ => 4
  | .shr _ => 4
  | .sra _ => 4
  | .rotl _ => 4
  | .min _ => 4
  | .max _ => 4
  | .minn _ => 4
  | .maxn _ => 4
  | .mul _ => 4
  | .mulh _ => 4
  | .mulhn _ => 4
  | .div _ => 4
  | .divn _ => 4
  | .rem _ => 4
  | .remn _ => 4
  | .clz _ => 4
  | .ctz _ => 4
  | .popc _ => 4
  | .sextb _ => 4
  | .sexth _ => 4
  | .sextw _ => 4
  | .zextb _ => 4
  | .zexth _ => 4
  | .zextw _ => 4
  | .addi _ => 4
  | .andi _ => 4
  | .ori _ => 4
  | .xori _ => 4
  | .shli _ => 4
  | .shri _ => 4
  | .srai _ => 4
  | .lih _ => 4
  | .addpc _ => 4
  | .cmp _ => 4
  | .cmpImm _ => 4
  | .fcmp _ => 4
  | .fcmpD _ => 4
  | .pand _ => 4
  | .por _ => 4
  | .pxor _ => 4
  | .pandn _ => 4
  | .pmov _ => 4
  | .pnot _ => 4
  | .b _ => 4
  | .bp _ => 4
  | .call _ => 4
  | .callr _ => 4
  | .bqNz _ => 4
  | .bqZ _ => 4
  | .ldb _ => 4
  | .ldh _ => 4
  | .ldw _ => 4
  | .ldd _ => 4
  | .ldbn _ => 4
  | .ldhn _ => 4
  | .ldwn _ => 4
  | .stb _ => 4
  | .sth _ => 4
  | .stw _ => 4
  | .std _ => 4
  | .ldacq _ => 4
  | .strel _ => 4
  | .ldl _ => 4
  | .stc _ => 4
  | .fadd _ => 4
  | .fsub _ => 4
  | .fmul _ => 4
  | .fdiv _ => 4
  | .fsqrt _ => 4
  | .fmin _ => 4
  | .fmax _ => 4
  | .fma _ => 4
  | .fnma _ => 4
  | .fcvti _ => 4
  | .fcvtf _ => 4
  | .fcvtp _ => 4
  | .faddD _ => 4
  | .fsubD _ => 4
  | .fmulD _ => 4
  | .fdivD _ => 4
  | .fsqrtD _ => 4
  | .fminD _ => 4
  | .fmaxD _ => 4
  | .fmaD _ => 4
  | .fnmaD _ => 4
  | .fcvtiD _ => 4
  | .fcvtfD _ => 4
  | .fcvtpD _ => 4
  | .csrr _ => 4
  | .csrw _ => 4
  | .csrx _ => 4
  | .svc _ => 4
  | .trap _ => 4
  | .tret _ => 4
  | .uiret _ => 4
  | .idle _ => 4
  | .nop _ => 4
  | .brk _ => 4
  | .exit _ => 4
  | .vadd _ => 4
  | .vsub _ => 4
  | .vmul _ => 4
  | .vmulh _ => 4
  | .vmulhn _ => 4
  | .vmin _ => 4
  | .vmax _ => 4
  | .vminn _ => 4
  | .vmaxn _ => 4
  | .vand _ => 4
  | .vor _ => 4
  | .vxor _ => 4
  | .vandn _ => 4
  | .vshl _ => 4
  | .vshr _ => 4
  | .vsra _ => 4
  | .vsadd _ => 4
  | .vssub _ => 4
  | .vsaddn _ => 4
  | .vssubn _ => 4
  | .vabsd _ => 4
  | .vclz _ => 4
  | .vpopc _ => 4
  | .vneg _ => 4
  | .vfadd _ => 4
  | .vfsub _ => 4
  | .vfmul _ => 4
  | .vfma _ => 4
  | .vfms _ => 4
  | .vfnma _ => 4
  | .vfdiv _ => 4
  | .vfsqrt _ => 4
  | .vfmin _ => 4
  | .vfmax _ => 4
  | .vfabs _ => 4
  | .vfneg _ => 4
  | .vfclass _ => 4
  | .vcmp _ => 4
  | .vfcmp _ => 4
  | .kand _ => 4
  | .kor _ => 4
  | .kxor _ => 4
  | .kandn _ => 4
  | .knot _ => 4
  | .kmov _ => 4
  | .kpopc _ => 4
  | .kfirst _ => 4
  | .vmv _ => 4
  | .vmvX _ => 4
  | .vbcast _ => 4
  | .vsel _ => 4
  | .vslideup _ => 4
  | .vslidedn _ => 4
  | .vgathr _ => 4
  | .vcompr _ => 4
  | .vexpnd _ => 4
  | .viota _ => 4
  | .vexts _ => 4
  | .vinss _ => 4
  | .vrowmv _ => 4
  | .vtrn _ => 4
  | .vcvt _ => 4
  | .vcbenc _ => 4
  | .vcbdec _ => 4
  | .vpack _ => 4
  | .vunpk _ => 4
  | .vredo _ => 4
  | .vredt _ => 4
  | .vredmax _ => 4
  | .vredmin _ => 4
  | .vredand _ => 4
  | .vredor _ => 4
  | .vdoto _ => 4
  | .vdott _ => 4
  | .vexp2 _ => 4
  | .vlog2 _ => 4
  | .vrcp _ => 4
  | .vrsq _ => 4
  | .vsin _ => 4
  | .vcos _ => 4
  | .vtanh _ => 4
  | .vsigm _ => 4
  | .vmrg _ => 4
  | .vmrgi _ => 4
  | .vbsrch _ => 4
  | .vconf _ => 4
  | .vsetl _ => 4
  | .vclaim _ => 4
  | .vclaimp _ => 4
  | .vsett _ => 4
  | .vcbld _ => 4
  | .wthset _ => 4
  | .vld _ => 4
  | .vst _ => 4
  | .vstn _ => 4
  | .vldcl _ => 4
  | .vstcl _ => 4
  | .vgll _ => 4
  | .vscc _ => 4
  | .vlda _ => 4
  | .vstl _ => 4
  | .qdrain _ => 4
  | .fence _ => 4
  | .efence _ => 4
  | .waitge _ => 4
  | .waitdc _ => 4
  | .bar _ => 4
  | .hgive _ => 4
  | .htake _ => 4
  | .enq _ => 4
  | .deq _ => 4
  | .venq _ => 4
  | .vdeq _ => 4
  | .stream _ => 4
  | .charm _ => 4
  | .chstat _ => 4
  | .chclr _ => 4
  | .tdep _ => 4
  | .tcpy _ => 4
  | .ttak _ => 4
  | .tcpyn _ => 4
  | .ttakn _ => 4
  | .treg _ => 4
  | .tfree _ => 4
  | .gsub _ => 4
  | .gadd _ => 4
  | .gscale _ => 4
  | .gdot _ => 4
  | .gcross _ => 4
  | .glen _ => 4
  | .gcvt _ => 4
  | .gxfm _ => 4
  | .gtag _ => 4
  | .gsettag _ => 4
  | .gchk _ => 4
  | .gretag _ => 4
  | .fnew _ => 4
  | .ffree _ => 4
  | .fupd _ => 4
  | .fsplit _ => 4
  | .frepar _ => 4
  | .ffence _ => 4
  | .gcell _ => 4
  | .hins _ => 4
  | .hlook _ => 4
  | .hclr _ => 4
  | .wfwd _ => 4
  | .winv _ => 4
  | .wtag _ => 4
  | .wsettag _ => 4
  | .mcfg _ => 4
  | .mldb _ => 4
  | .mmac _ => 4
  | .mdrain _ => 4
  | .mzero _ => 4
  | .mwait _ => 4
  | .msync _ => 4
  | .mstep _ => 4
  | .launch _ => 4
  | .spawn _ => 4
  | .steal _ => 4
  | .taskget _ => 4
  | .yield _ => 4
  | .tlbi _ => 4
  | .msq _ => 4
  | .migrate _ => 4
  | .keyld _ => 4
  | .actbl _ => 4
  | .preempt _ => 4
  | .resume _ => 4
  | .pfx _ => 4
  | .pfxCopy _ => 4
  | .cAdd _ => 2
  | .cSub _ => 2
  | .cAnd _ => 2
  | .cOr _ => 2
  | .cXor _ => 2
  | .cShl _ => 2
  | .cShr _ => 2
  | .cAddi _ => 2
  | .cMov _ => 2
  | .cLdd _ => 2
  | .cStd _ => 2
  | .cBnz _ => 2
  | .cNop _ => 2
  | .migrationComplete _ => 0
  | .ulianeLinkUp _ => 0
  | .hostWindowNoAnswer _ => 0
  | .laneGroupArbitration _ => 0

/-- The bytes of n, lowest first (R4). -/
def bytesOf : Nat → Nat → List Byte
  | 0, _ => []
  | k + 1, n => BitVec.ofNat 8 n :: bytesOf k (n / 256)

/-- The bytes an instruction occupies, lowest address first (R26). -/
def encode (i : Instr) : List Byte := bytesOf i.size i.word

/-- The host's probe: the instruction whose bits are w, numbered as the opcode table numbers them. -/
noncomputable def decodeTableWord (nbits w : Nat) : Option Instr :=
  match decode (bytesOf (max 4 ((nbits + 7) / 8)) w) with
  | .ok (i, _) => some i
  | .error _ => none

end Sys2Proof
end

