-- ==== Sys2Proof/Machine/Data.lean ====
section
/-! DEFINITION. Bit fields of numbers, little-endian bytes (R4), and sorted lists of keyed data. -/

namespace Sys2Proof.Machine

/-- Bits hi to lo of n (R4). -/
def bits (n hi lo : Nat) : Nat := n / 2 ^ lo % 2 ^ (hi + 1 - lo)

/-- Bit i of n. -/
def bit (n i : Nat) : Bool := n / 2 ^ i % 2 == 1

/-- n with bits hi to lo replaced by v. -/
def setBits (n hi lo v : Nat) : Nat :=
  n % 2 ^ lo + 2 ^ lo * (v % 2 ^ (hi + 1 - lo)) + 2 ^ (hi + 1) * (n / 2 ^ (hi + 1))

/-- The field of a word, and a word with a field replaced. -/
def wbits (w : Word) (hi lo : Nat) : Nat := bits w.toNat hi lo
def wset (w : Word) (hi lo v : Nat) : Word := BitVec.ofNat 64 (setBits w.toNat hi lo v)
def wbit (w : Word) (i : Nat) : Bool := bit w.toNat i

/-- n as a word, modulo 2^64. -/
def word (n : Nat) : Word := BitVec.ofNat 64 n

/-- R4: the number whose bytes, lowest first, these are. -/
def natOfBytes : List Byte → Nat
  | [] => 0
  | b :: bs => b.toNat + 256 * natOfBytes bs

/-- The two's complement value of the low w bits of n. -/
def signed (w n : Nat) : Int :=
  let m := n % 2 ^ w
  if w = 0 then 0 else if 2 ^ (w - 1) ≤ m then (m : Int) - (2 ^ w : Nat) else m

/-- An integer modulo 2^w. -/
def wrap (w : Nat) (i : Int) : Nat := (i % ((2 ^ w : Nat) : Int)).toNat

/-- Bytes from..from+n-1 of a list, zero past its end. -/
def slice (bs : List Byte) (off n : Nat) : List Byte :=
  let l := (bs.drop off).take n
  l ++ List.replicate (n - l.length) 0

/-- Field of n bytes at offset off. -/
def leAt (bs : List Byte) (off n : Nat) : Nat := natOfBytes (slice bs off n)

/-- The ranges of at most `unit` bytes, cut at multiples of it, that n bytes from a touch. -/
def cutAt (unit : Nat) : Nat → Nat → Nat → List (Nat × Nat)
  | 0, _, _ => []
  | fuel + 1, a, n =>
    if n = 0 then [] else
      let k := min n (unit - a % unit)
      (a, k) :: cutAt unit fuel (a + k) (n - k)

/-- R66: the 32-byte sectors' shares of n bytes from a. -/
def sectors (a n : Nat) : List (Nat × Nat) := cutAt 32 (n / 32 + 2) a n

/-! Sorted lists of keyed data. -/

/-- The entry of key k. -/
def look {β : Type} (k : Nat) : List (Nat × β) → Option β
  | [] => none
  | (j, v) :: t => if j = k then some v else look k t

/-- The entry of key k, or d. -/
def lookD {β : Type} (d : β) (k : Nat) (l : List (Nat × β)) : β := (look k l).getD d

/-- Set key k, keeping keys rising. -/
def put {β : Type} (k : Nat) (v : β) : List (Nat × β) → List (Nat × β)
  | [] => [(k, v)]
  | (j, w) :: t =>
    if j = k then (k, v) :: t else if k < j then (k, v) :: (j, w) :: t else (j, w) :: put k v t

/-- Remove key k. -/
def cut {β : Type} (k : Nat) (l : List (Nat × β)) : List (Nat × β) := l.filter fun e => e.1 != k

end Sys2Proof.Machine
end

