-- ==== Sys2Proof/Machine/Crypto.lean ====
section
/-! DEFINITION. Check values (R66), AES-256 (FIPS 197), XTS on 32-byte data units (R64), key unwrapping (RFC 3394,
R392), and SHA-384 (FIPS 180-4, R395). -/

namespace Sys2Proof.Machine

/-- One bit step of CRC-16 with polynomial 0x8BB7, most significant bit first. -/
def crcStep (c : BitVec 16) : BitVec 16 := if c.msb then (c <<< 1) ^^^ 0x8BB7 else c <<< 1

/-- R66: the check value of bytes in ascending address order. -/
def crc16 (bs : List Byte) : BitVec 16 :=
  bs.foldl (fun c b => (List.replicate 8 ()).foldl (fun c _ => crcStep c) (c ^^^ BitVec.ofNat 16 (256 * b.toNat))) 0

/-- Multiplication by x in GF(2^8) modulo x^8 + x^4 + x^3 + x + 1. -/
def xtime (b : Byte) : Byte := if b.msb then (b <<< 1) ^^^ 0x1B else b <<< 1

/-- Multiplication in GF(2^8). -/
def gmul (a b : Byte) : Byte :=
  ((List.range 8).foldl (fun (acc : Byte × Byte) i =>
    (if b.getLsbD i then acc.1 ^^^ acc.2 else acc.1, xtime acc.2)) (0, a)).1

/-- a^(2^n). -/
def gsquares (a : Byte) : Nat → Byte
  | 0 => a
  | n + 1 => gsquares (gmul a a) n

/-- The inverse in GF(2^8), a^254; 0 for 0. -/
def ginv (a : Byte) : Byte :=
  ((List.range 7).map fun i => gsquares a (i + 1)).foldl gmul 1

/-- The AES S-box and its inverse. -/
def sbox (a : Byte) : Byte :=
  let b := ginv a
  b ^^^ b.rotateLeft 1 ^^^ b.rotateLeft 2 ^^^ b.rotateLeft 3 ^^^ b.rotateLeft 4 ^^^ 0x63
def sboxInv (a : Byte) : Byte :=
  ginv (a.rotateLeft 1 ^^^ a.rotateLeft 3 ^^^ a.rotateLeft 6 ^^^ 0x05)

/-- Bytewise exclusive or. -/
def xorBytes (a b : List Byte) : List Byte := List.zipWith (· ^^^ ·) a b

/-- The next four bytes of the AES-256 key schedule: word i from words i-1 and i-8. -/
def keyWord (i : Nat) (rcon : Byte) (prev old : List Byte) : List Byte :=
  let t := if i % 8 = 0 then xorBytes ((prev.drop 1 ++ prev.take 1).map sbox) [rcon, 0, 0, 0]
    else if i % 8 = 4 then prev.map sbox else prev
  xorBytes t old

/-- The AES-256 key schedule, newest word first. -/
def keySchedule : Nat → Nat → Byte → List (List Byte) → List (List Byte)
  | 0, _, _, ws => ws
  | n + 1, i, rcon, ws =>
    let w := keyWord i rcon (ws.headD []) (ws.getD 7 [])
    keySchedule n (i + 1) (if i % 8 = 0 then xtime rcon else rcon) (w :: ws)

/-- The fifteen round keys of a 256-bit key (byte 0 of the key in its lowest bits). -/
def roundKeys (key : BitVec 256) : List (List Byte) :=
  let kb := bytesOf 32 key.toNat
  let first := ((List.range 8).map fun i => slice kb (4 * i) 4).reverse
  let ws := (keySchedule 52 8 1 first).reverse
  (List.range 15).map fun r => (List.range 4).flatMap fun j => ws.getD (4 * r + j) []

/-- MixColumns with the row of coefficients cs. -/
def mixColumns (cs : List Byte) (st : List Byte) : List Byte :=
  (List.range 16).map fun i =>
    let col := slice st (4 * (i / 4)) 4
    ((List.range 4).map fun j => gmul (cs.getD ((j + 4 - i % 4) % 4) 0) (col.getD j 0)).foldl (· ^^^ ·) 0

/-- ShiftRows by +1 or (inverse) +3 columns a row. -/
def shiftRows (k : Nat) (st : List Byte) : List Byte :=
  (List.range 16).map fun i => st.getD ((i + 4 * (k * (i % 4))) % 16) 0

/-- AES-256 encryption of a 16-byte block. -/
def aesEncrypt (key : BitVec 256) (blk : List Byte) : List Byte :=
  let rks := roundKeys key
  let st0 := xorBytes blk (rks.getD 0 [])
  let mid := (List.range 13).foldl (fun st r =>
    xorBytes (mixColumns [2, 3, 1, 1] (shiftRows 1 (st.map sbox))) (rks.getD (r + 1) [])) st0
  xorBytes (shiftRows 1 (mid.map sbox)) (rks.getD 14 [])

/-- AES-256 decryption of a 16-byte block. -/
def aesDecrypt (key : BitVec 256) (blk : List Byte) : List Byte :=
  let rks := roundKeys key
  let st0 := xorBytes blk (rks.getD 14 [])
  let mid := (List.range 13).foldl (fun st r =>
    mixColumns [14, 11, 13, 9] (xorBytes ((shiftRows 3 st).map sboxInv) (rks.getD (13 - r) []))) st0
  xorBytes ((shiftRows 3 mid).map sboxInv) (rks.getD 0 [])

/-- Multiplication of an XTS tweak by the primitive element. -/
def tweakNext (t : List Byte) : List Byte :=
  let n := natOfBytes t
  let d := n * 2 % 2 ^ 128
  bytesOf 16 (if bit n 127 then (BitVec.ofNat 128 d ^^^ 0x87).toNat else d)

/-- R64: one 32-byte sector under AES-256-XTS, its two blocks through `cipher`. -/
def xts (cipher : List Byte → List Byte) (tweakKey : BitVec 256) (tweak : Nat) (sector : List Byte) : List Byte :=
  let t0 := aesEncrypt tweakKey (bytesOf 16 tweak)
  let t1 := tweakNext t0
  xorBytes t0 (cipher (xorBytes t0 (slice sector 0 16))) ++ xorBytes t1 (cipher (xorBytes t1 (slice sector 16 16)))

/-- RFC 3394: one unwrapping step: t runs from 48 down to 1 over the eight 64-bit blocks. -/
def unwrapSteps (kek : BitVec 256) : Nat → List Byte → List (List Byte) → List Byte × List (List Byte)
  | 0, a, rs => (a, rs)
  | t + 1, a, rs =>
    let i := t % 8
    let blk := aesDecrypt kek (xorBytes a (bytesOf 8 (t + 1)).reverse ++ rs.getD i [])
    unwrapSteps kek t (blk.take 8) (rs.set i (blk.drop 8))

/-- R392: AES-KW unwrapping of a 72-byte blob: the 64 key bytes, or none if the integrity check fails. -/
def unwrap (kek : BitVec 256) (blob : List Byte) : Option (List Byte) :=
  let (a, rs) := unwrapSteps kek 48 (slice blob 0 8) ((List.range 8).map fun i => slice blob (8 + 8 * i) 8)
  if a = List.replicate 8 0xA6 then some rs.flatten else none

/-! SHA-384 (FIPS 180-4), for R395. -/

/-- The round constants: the first 64 bits of the fractions of the cube roots of the first 80 primes. -/
def shaK0 : List Word :=
  [0x428A2F98D728AE22, 0x7137449123EF65CD, 0xB5C0FBCFEC4D3B2F, 0xE9B5DBA58189DBBC,
   0x3956C25BF348B538, 0x59F111F1B605D019, 0x923F82A4AF194F9B, 0xAB1C5ED5DA6D8118,
   0xD807AA98A3030242, 0x12835B0145706FBE, 0x243185BE4EE4B28C, 0x550C7DC3D5FFB4E2,
   0x72BE5D74F27B896F, 0x80DEB1FE3B1696B1, 0x9BDC06A725C71235, 0xC19BF174CF692694,
   0xE49B69C19EF14AD2, 0xEFBE4786384F25E3, 0x0FC19DC68B8CD5B5, 0x240CA1CC77AC9C65]
/-- The next twenty. -/
def shaK1 : List Word :=
  [0x2DE92C6F592B0275, 0x4A7484AA6EA6E483, 0x5CB0A9DCBD41FBD4, 0x76F988DA831153B5,
   0x983E5152EE66DFAB, 0xA831C66D2DB43210, 0xB00327C898FB213F, 0xBF597FC7BEEF0EE4,
   0xC6E00BF33DA88FC2, 0xD5A79147930AA725, 0x06CA6351E003826F, 0x142929670A0E6E70,
   0x27B70A8546D22FFC, 0x2E1B21385C26C926, 0x4D2C6DFC5AC42AED, 0x53380D139D95B3DF,
   0x650A73548BAF63DE, 0x766A0ABB3C77B2A8, 0x81C2C92E47EDAEE6, 0x92722C851482353B]
/-- The next twenty. -/
def shaK2 : List Word :=
  [0xA2BFE8A14CF10364, 0xA81A664BBC423001, 0xC24B8B70D0F89791, 0xC76C51A30654BE30,
   0xD192E819D6EF5218, 0xD69906245565A910, 0xF40E35855771202A, 0x106AA07032BBD1B8,
   0x19A4C116B8D2D0C8, 0x1E376C085141AB53, 0x2748774CDF8EEB99, 0x34B0BCB5E19B48A8,
   0x391C0CB3C5C95A63, 0x4ED8AA4AE3418ACB, 0x5B9CCA4F7763E373, 0x682E6FF3D6B2B8A3,
   0x748F82EE5DEFB2FC, 0x78A5636F43172F60, 0x84C87814A1F0AB72, 0x8CC702081A6439EC]
/-- The last twenty. -/
def shaK3 : List Word :=
  [0x90BEFFFA23631E28, 0xA4506CEBDE82BDE9, 0xBEF9A3F7B2C67915, 0xC67178F2E372532B,
   0xCA273ECEEA26619C, 0xD186B8C721C0C207, 0xEADA7DD6CDE0EB1E, 0xF57D4F7FEE6ED178,
   0x06F067AA72176FBA, 0x0A637DC5A2C898A6, 0x113F9804BEF90DAE, 0x1B710B35131C471B,
   0x28DB77F523047D84, 0x32CAAB7B40C72493, 0x3C9EBE0A15C9BEBC, 0x431D67C49C100D4C,
   0x4CC5D4BECB3E42B6, 0x597F299CFC657E2A, 0x5FCB6FAB3AD6FAEC, 0x6C44198C4A475817]
/-- The initial value: the same of the square roots of the ninth to sixteenth primes. -/
def shaStart : List Word :=
  [0xCBBB9D5DC1059ED8, 0x629A292A367CD507, 0x9159015A3070DD17, 0x152FECD8F70E5939,
   0x67332667FFC00B31, 0x8EB44A8768581511, 0xDB0C2E0D64F98FA7, 0x47B5481DBEFA4FA4]

/-- A message's words: its bytes, 0x80, zeros, and its length in bits, in blocks of sixteen words of eight bytes, most
significant first. -/
def shaWord (bs : List Byte) : Word := word (bs.foldl (fun n b => 256 * n + b.toNat) 0)
def shaPad (bs : List Byte) : List Byte :=
  bs ++ 0x80 :: List.replicate ((239 - bs.length % 128) % 128) 0 ++ (bytesOf 16 (8 * bs.length)).reverse
def shaBlocks (bs : List Byte) : List (List Word) :=
  let p := shaPad bs
  (List.range (p.length / 128)).map fun i => (List.range 16).map fun j => shaWord (slice p (128 * i + 8 * j) 8)

/-- The message schedule, newest word first: one more word a round. -/
def shaSchedule : Nat → List Word → List Word
  | 0, ws => ws
  | n + 1, ws =>
    let a := ws.getD 14 0
    let b := ws.getD 1 0
    shaSchedule n ((ws.getD 15 0 + (a.rotateRight 1 ^^^ a.rotateRight 8 ^^^ a >>> 7) + ws.getD 6 0
      + (b.rotateRight 19 ^^^ b.rotateRight 61 ^^^ b >>> 6)) :: ws)
/-- One round, on the eight working words. -/
def shaRound (st : List Word) (k w : Word) : List Word :=
  match st with
  | [a, b, c, d, e, f, g, h] =>
    let t := h + (e.rotateRight 14 ^^^ e.rotateRight 18 ^^^ e.rotateRight 41) + (e &&& f ^^^ ~~~e &&& g) + k + w
    let u := (a.rotateRight 28 ^^^ a.rotateRight 34 ^^^ a.rotateRight 39) + (a &&& b ^^^ a &&& c ^^^ b &&& c)
    [t + u, a, b, c, d + t, e, f, g]
  | _ => st
def shaBlock (st : List Word) (block : List Word) : List Word :=
  let ws := (shaSchedule 64 block.reverse).reverse
  List.zipWith (· + ·) st (((shaK0 ++ shaK1 ++ shaK2 ++ shaK3).zip ws).foldl (fun st (k, w) => shaRound st k w) st)
/-- The digest's 48 bytes. -/
def sha384 (bs : List Byte) : List Byte :=
  (((shaBlocks bs).foldl shaBlock shaStart).take 6).flatMap fun w => (bytesOf 8 w.toNat).reverse

end Sys2Proof.Machine
end

