-- ==== Sys2Proof/Machine/State.lean ====
section
/-! DEFINITION. The machine's state, as plain data, and `State.reset`. Every structure's default values are the
values at reset (or, for a hart's record, at launch: R168, R334); log 2, 4, 5 and 6 name those the spec does not give. -/

namespace Sys2Proof.Machine

/-- R364: the three modes. -/
inductive Mode where
  | user | supervisor | machine
  deriving DecidableEq, Repr

/-- What a hart is: a solo hart, a crew member (R159) or a cluster's matrix control core (R267). -/
inductive Role where
  | solo | loader | computer | storer | control
  deriving DecidableEq, Repr

/-- Why a step stops. -/
inductive Fault where
  /-- Raised by every hart word when the slot whose turn it is holds no running hart: nothing issues there
  (R322, R377, R381). Safe: the machine stops where no word is executed. -/
  | noHart
  deriving DecidableEq, Repr

/-- Why an instruction has no meaning. -/
inductive Refusal where
  /-- Raised by an arm of `exec` whose instruction is not modelled. Safe: nothing is claimed of it. -/
  | notModelled (mnemonic : String)
  deriving DecidableEq, Repr

/-- R364: one bank of trap registers. -/
structure Bank where
  epc : Word := 0
  cause : Word := 0
  tval : Word := 0
  status : Word := 0
  pfxs : Word := 0
  tvec : Word := 0
  scratch : Word := 0
  evstart : Word := 0
  deriving DecidableEq, Repr

/-- One physical vector row: its bits (R154), row tag and dirty mark (R162), and saved extent in bytes (R382). -/
structure VRow where
  bits : BitVec 4096 := 0
  tag : BitVec 6 := 0
  mark : Option Nat := none
  extent : Nat := 0
  deriving DecidableEq, Repr

/-- R163: one codebook slot: scale exponent and entries, whose number is the count. -/
structure CodeSlot where
  scale : Int := 0
  entries : List (BitVec 16) := []
  deriving DecidableEq, Repr

/-- The hart's CSRs that hold a value of their own, whole, RZ bits zero. -/
structure Csrs where
  fcsr : Word := 0          -- R182
  schk : Word := 0          -- R167
  tupctl : Word := 0x77     -- R97: PMASK 7, DC 7
  rowstr : Word := 0        -- R139
  ncount : Word := 0        -- R149
  notify : Word := 0        -- R149
  uivec : Word := 0         -- R126
  uepc : Word := 0          -- R126
  uicause : Word := 0       -- R126
  scout : Word := 64        -- R117
  mrgcnt : Word := 0        -- R233
  ufvec : Word := 0         -- R246
  ufcause : Word := 0       -- R246
  cbsel : Word := 0         -- R167
  htab : Word := 0          -- R262
  wdef : Word := 3          -- R298
  share : Word := 0         -- R336
  indmask : Word := 0xFFFFFFFE  -- R373
  taskq : Word := 0         -- R338
  ptroot : Word := 0        -- R73
  cerout : Word := 0        -- R115
  ufdeleg : Word := 0       -- R246
  deriving DecidableEq, Repr

/-- The matrix control core's own CSRs (R279); MSEQ, MSA and MSB lie with the quadrants. -/
structure MatrixCsrs where
  mtype : Word := 0x70
  mstat : Word := 0
  deriving DecidableEq, Repr

/-- A live prefix (R45): its guard, its copy, its word and its address. -/
structure Prefix where
  isK : Bool
  neg : Bool
  guard : Nat
  copy : Option Nat
  word : Nat
  addr : Word
  deriving DecidableEq, Repr

/-- A register or predicate that a fixed-latency result is on its way to (R36). -/
inductive Reg where
  | s (n : Nat)
  | p (n : Nat)
  deriving DecidableEq, Repr

/-- R36, R315: a pending result: where, its value, the cycle from which it is readable, the FCSR flags it raises, whether an
s24 to s31 among them is the shadow bank's (R126), and whether its consumers wait in hardware (R37). -/
structure Pending where
  reg : Option Reg
  value : Word
  ready : Nat
  flags : Nat
  shadow : Bool := false
  locked : Bool := false
  deriving DecidableEq, Repr

/-- A translated access: virtual and physical address, key and Z of the leaf, whether user mode made it, and the entry it
was translated through: address space and range (none untranslated). -/
structure Access where
  va : Nat
  pa : Nat
  key : Nat
  z : Bool
  user : Bool
  entry : Option (Nat × Nat × Nat)
  deriving DecidableEq, Repr

/-- R40: what an outstanding counted operation is. -/
inductive OpKind where
  /-- A scalar load: its accesses and their bytes, whether natural, class. -/
  | load (parts : List (Access × Nat)) (natural : Bool) (cls : Nat)
  /-- A scalar store still in the strip buffer: its number there. -/
  | store (seq : Nat)
  /-- A DEQ of a port (R272). -/
  | deq (port : Nat)
  /-- A tuple request: its number, func and v register (R98). -/
  | tuple (request func vreg : Nat)
  /-- A CHSTAT of a channel (R123). -/
  | chstat (channel : Nat)
  deriving DecidableEq, Repr

/-- R40: an outstanding counted operation: its kind, counter (7 for none), destination and copy, the value already
bound to it, the value a load would have had at issue, its mark of belonging to the current strip (R376), whether it was issued in a
user-level handler (R126), the number of its word in the hart's issue order (R370), and the link and flit that carry a peer's
read (R397). -/
structure CountedOp where
  kind : OpKind
  counter : Nat
  dest : Option Nat
  copy : Option Nat
  value : Option Word := none
  first : Option Word := none
  inStrip : Bool := true
  shadow : Bool := false
  order : Nat := 0
  flit : Option (Nat × Nat) := none
  deriving DecidableEq, Repr

/-- R370: a pending error: its cause code, the value TVAL gets, and the number of its word in issue order. -/
structure PendingError where
  cause : Nat
  tval : Word
  order : Nat := 0
  deriving DecidableEq, Repr

/-- Why the current word waits (the model's own; R355, R378). -/
inductive Wait where
  | register      -- a register with a counted write outstanding (R37), or a full counter (R40)
  | ring          -- a ring or branch queue (R160, R161)
  | port          -- an engine port (R271 to R274)
  | channel (va n : Nat)   -- a channel's watermark, for an access of n bytes (R112)
  | failed (va : Nat)      -- none: a channel over the access that waited has failed (R114)
  | engine        -- a channel's stream queue (R108)
  | stop          -- within one step: a channel's stop (R124), a PREEMPT's answer (R381)
  | pins          -- pin slots (R81)
  | tuple         -- a tuple request or the request table (R98, R383)
  | progress (va : Nat) (least : Word) (stall : Nat)   -- a WAITGE's word, threshold and stall count (R359)
  | order         -- WAITDC, BAR, HTAKE, IDLE, QDRAIN, EXIT (R355, R321, R322)
  | matrix        -- the sequencers (R289)
  | hold (pa : Nat)        -- a line with a write that a migration holds (R85)
  | migration     -- a MIGRATE's own migration (R84)
  | launch        -- LAUNCH's wait for room (R341)
  deriving DecidableEq, Repr

/-- R374: one buffered store: its number, its access, its bytes and its class (none is classless); for the packed elements of
R140, the bits of each byte that it writes (none listed: whole bytes); and the number of its word in issue order (R370). -/
structure Buffered where
  seq : Nat
  acc : Access
  bytes : List Byte
  cls : Option Nat
  mask : List Byte := []
  order : Nat := 0
  deriving DecidableEq, Repr

/-- R373, R126: a checkpoint: the registers as the hart names them, and whether a user-level handler took it. -/
structure Checkpoint where
  s : Vector Word 32
  handler : Bool
  mask : Word
  p : Vector Bool 8
  lastd : BitVec 5
  vl : Nat
  vt : Vector Word 2
  efc : Vector (BitVec 32) 8
  ncount : Word
  fcsr : Word
  pc : Word
  deriving DecidableEq, Repr

/-- R373 to R376: the strip: buffered stores oldest first, the next store's number, STRIPST's fields, the checkpoint,
the cycle of the strip's first buffered store, and whether the strip's age has expired (R375 WHY 4). -/
structure Strip where
  buf : List Buffered := []
  nextSeq : Nat := 0
  rewinds : Nat := 0
  retry : Bool := false
  early : Bool := false
  why : Nat := 0
  check : Option Checkpoint := none
  firstStore : Option Nat := none
  aged : Bool := false
  deriving DecidableEq, Repr

/-- R82: one translation that a core holds: address space, range and leaf. -/
structure TlbEntry where
  asn : Nat
  va : Nat
  size : Nat
  leaf : Word
  deriving DecidableEq, Repr

/-- R25, R81, R82, R359, R361: what an issued word that waits keeps: its bytes, the registers and predicates as it read them
at issue, the translations it was given, whether a pre-emption may fall in its wait (R378), VSTART at issue, and, for one that
settles on entry to the vector queue (R368), its stall count and whether it is a vector instruction. A word held at issue keeps
nothing. -/
structure Latch where
  bytes : List Byte
  s : Vector Word 32
  shadow : Vector Word 8
  p : Vector Bool 8
  given : List TlbEntry
  stops : Bool
  start : Nat
  settled : Option (Nat × Bool)
  deriving DecidableEq, Repr

/-- R335: a word in the hart's vector queue: what it read at issue, its address and prefix, and its place in issue order. -/
structure Queued where
  latch : Latch
  pc : Word
  pfx : Option Prefix
  order : Nat
  deriving DecidableEq, Repr

/-- One hart. -/
structure Hart where
  /-- A hart runs in this slot. A stopped hart (R377) occupies its slot and does not run. -/
  live : Bool := false
  stopped : Bool := false
  role : Role := .solo
  stage : Nat := 0
  /-- R327, R332, R336: class, width and the lane groups bound. -/
  cls : Nat := 2
  width : Nat := 0
  groups : List Nat := []
  /-- R331: the launch whose completion counts this hart, and R334's ordinal and harts per stage. -/
  launch : Nat := 0
  ordinal : Nat := 0
  peers : Nat := 1
  pc : Word := 0
  mode : Mode := .machine
  s : Vector Word 32 := Vector.replicate 32 0
  shadow : Vector Word 8 := Vector.replicate 8 0
  p : Vector Bool 8 := Vector.replicate 8 false
  k : Vector (Vector (BitVec 8192) 8) 8 := Vector.replicate 8 (Vector.replicate 8 0)
  rows : Vector VRow 32 := Vector.replicate 32 {}
  /-- log2 of the span (R154). -/
  span : Nat := 0
  vl : Nat := 0
  vt : Vector Word 2 := Vector.replicate 2 0x205
  vstart : Nat := 0
  cbs : Vector CodeSlot 4 := Vector.replicate 4 {}
  wth : Vector Word 8 := Vector.replicate 8 0
  efc : Vector (BitVec 32) 8 := Vector.replicate 8 0
  deps : Vector Nat 8 := Vector.replicate 8 0
  lastd : BitVec 5 := 0
  csr : Csrs := {}
  mx : MatrixCsrs := {}
  sup : Bank := {}
  mach : Bank := {}
  inHandler : Bool := false
  uiLastd : BitVec 5 := 0
  pfx : Option Prefix := none
  link : Option Nat := none
  vlink : List Nat := []
  pend : List Pending := []
  clock : Nat := 0
  ops : List CountedOp := []
  errs : List PendingError := []
  waiting : Option Wait := none
  latch : Option Latch := none
  /-- The translations given so far to the word in hand (R82). -/
  given : List TlbEntry := []
  /-- Words completed, the model's own count for issue order (R370). -/
  words : Nat := 0
  /-- R335: the vector queue behind the front end, oldest first; the model's own mark of a word that is being queued. -/
  vq : List Queued := []
  queueing : Bool := false
  /-- R144: the VGLL or VSCC in hand has been admitted. -/
  admitted : Bool := false
  /-- R160: what a word stopped part-way has built of the rows that it pushes, by ring. -/
  staged : List (Nat × List VRow) := []
  /-- R376: the physical rows that the word in hand has written before it completes, as they were before it. -/
  before : List (Nat × VRow) := []
  /-- R85: lines that the word in hand waited for while a migration held their writes, each with its new place. -/
  moved : List (Nat × Nat) := []
  strip : Strip := {}
  /-- R372: vector instructions issued since launch. -/
  vcount : Nat := 0
  /-- R338: records in the deque. -/
  deque : Nat := 0
  /-- R321: the cycle at which a waiting IDLE began. -/
  idleFrom : Option Nat := none
  /-- R15: that IDLE's stall count. -/
  idleStall : Nat := 0
  deriving DecidableEq, Repr

/-- A pre-emption requested of a slot (R381): the image's translated parts, and the slot that asked. -/
structure PreemptReq where
  parts : List (Access × Nat)
  requester : Nat
  deriving DecidableEq, Repr

/-- A parked steal (R343): the thief's slot, and the steal's number, the model's own. -/
structure Steal where
  slot : Nat
  num : Nat
  deriving DecidableEq, Repr

/-- R339: a hart's mailbox, inbox, RET, and PEND: the number of its parked steal, if it has one. -/
structure Mail where
  mailbox : List Steal := []
  inbox : Option (List Byte) := none
  pendSteal : Option Nat := none
  ret : Bool := false
  deriving DecidableEq, Repr

/-- What stays with a hart slot (R271, R339, R381): its mail, and that of pre-empted harts by the number of their pre-emption
(log 16); reply FIFO, WAKE, a pre-emption requested of its hart, and the supervisor CSRs that a launch leaves as they are
(R168, R334). -/
structure Slot where
  mail : Mail := {}
  aside : List (Nat × Mail) := []
  reply : List Word := []
  wake : Bool := false
  preempt : Option PreemptReq := none
  /-- R381: the answer of a pre-emption this slot's hart asked for. -/
  answer : Option Word := none
  ufdeleg : Word := 0
  cerout : Word := 0
  deriving DecidableEq, Repr

/-- R160, R161: a crew's queues: four lq rings, four sq rings, two branch queues. -/
structure Crew where
  rings : Vector (List VRow) 8 := Vector.replicate 8 []
  bqs : Vector (List Word) 2 := Vector.replicate 2 []
  deriving DecidableEq, Repr

/-- R109: a channel's state. -/
inductive ChanState where
  | idle | armed | running | done | failed
  deriving DecidableEq, Repr

/-- R122: a stream queued to the engine, with the translation and rights captured at issue (R115). -/
structure Stream where
  src : Nat
  first : Nat
  n : Nat
  routine : Nat
  param : Nat
  /-- R117: a variable-ratio routine, and the chunks between its scout and data passes. -/
  scouted : Bool
  dist : Nat
  root : Word
  mode : Mode
  /-- R115: the table routine's code address; the vendor routines have none. -/
  entry : Nat
  /-- The elements the routine produced, oldest first, and the failure after them; none until it starts. -/
  output : Option (List (Nat × List Byte)) := none
  failAfter : Option Nat := none
  deriving DecidableEq, Repr

/-- R109: a channel. -/
structure Channel where
  state : ChanState := .idle
  owner : Nat := 0
  base : Nat := 0
  esize : Nat := 0
  expected : Nat := 0
  issued : Nat := 0
  landed : Nat := 0
  /-- Elements landed beyond the contiguous prefix (R111). -/
  ahead : List Nat := []
  fcause : Nat := 0
  uie : Bool := false
  uip : Bool := false
  held : Bool := false
  /-- The number of the owner's pre-emption (R125). -/
  image : Nat := 0
  /-- The owner's CHCLR is stopping the engine (R124). -/
  clearing : Bool := false
  streams : List Stream := []
  deriving DecidableEq, Repr

/-- R361: a barrier: the round's count, the slots that have arrived, and those whose round has closed. -/
structure Barrier where
  count : Nat := 0
  arrived : List Nat := []
  released : List Nat := []
  deriving DecidableEq, Repr

/-- R337: a lane group's arbiter. -/
structure Arbiter where
  pointer : Nat := 0
  fresh : Bool := false
  deficits : List (Nat × Nat) := []
  bound : Option Nat := none
  deriving DecidableEq, Repr

/-- R81: pins held or waited for: the slot, the entries (address space, range), and whether they are held. -/
structure PinUse where
  coord : Nat
  pages : List (Nat × Nat × Nat)
  admitted : Bool
  deriving DecidableEq, Repr

/-- One core. -/
structure CoreState where
  channels : Vector Channel 16 := Vector.replicate 16 {}
  barriers : Vector Barrier 8 := Vector.replicate 8 {}
  arbiters : Vector Arbiter 4 := Vector.replicate 4 {}
  tlb : List TlbEntry := []
  pins : List PinUse := []
  deriving DecidableEq, Repr

/-- A port row (R273): format (FMT and SEW of the pushing slot), tag and values. -/
structure PortRow where
  fmt : Nat
  sew : Nat
  tag : BitVec 6
  vals : List Nat
  deriving DecidableEq, Repr

/-- An accumulator row (R280): 8,192 bits, tag, FRESH. -/
structure AccRow where
  bits : BitVec 8192 := 0
  tag : BitVec 6 := 0
  fresh : Bool := true
  deriving DecidableEq, Repr

/-- A quadrant's drain configuration (R286): OUT (none is the default configuration's), HLEV, THRIDX, bias values, the
output codebook and its exponent, thresholds. -/
structure Drain where
  out : Option Nat := none
  hlev : Nat := 0
  thr : Nat := 0
  bias : Option (List Nat) := none
  scale : Int := 0
  book : List (BitVec 16) := []
  thresholds : Word := 0
  deriving DecidableEq, Repr

/-- A quadrant of the matrix engine (R267, R268): its ports, accumulator rows and configuration; whether its sequencer is
carrying a command out; MSEQ, MSA and MSB; the MTYPE and the place in issue order (R278) of the command; the granule of
the k-block in progress and the one after its block (R282); and the B block loaded in the array. -/
structure Quadrant where
  aPort : List PortRow := []
  outPort : List PortRow := []
  acc : List (Nat × AccRow) := []
  drain : Drain := {}
  running : Bool := false
  seq : Word := 0
  opa : Word := 0
  opb : Word := 0
  mtype : Word := 0x70
  order : Nat := 0
  g : Nat := 0
  next : Nat := 0
  block : List Byte := []
  deriving DecidableEq, Repr

/-- A copy the weight loader has to make (R277): its translated source, first granule, number of granules, place in issue
order (R278), and, once it has been read, its granules with whether each is poisoned. -/
structure WeightCopy where
  parts : List (Access × Nat)
  granule : Nat
  count : Nat
  order : Nat
  data : Option (List (BitVec 512 × Bool)) := none
  deriving DecidableEq, Repr

/-- One cluster. Its weight buffer is held by granules of 64 bytes (R275), and its TLB serves all its cores (R82). -/
structure Cluster where
  tlb : List TlbEntry := []
  ownwin : Vector Word 16 := Vector.replicate 16 0
  cmds : List Word := []
  quads : Vector Quadrant 4 := Vector.replicate 4 {}
  weights : List (Nat × BitVec 512) := []
  poisoned : List Nat := []
  loader : List WeightCopy := []
  /-- MMACs and MLDBs issued, the model's own count for R278. -/
  issued : Nat := 0
  deriving DecidableEq, Repr

/-- What a sector of memory holds beside its bytes (R66 to R68). -/
inductive Flaw where
  | poison | failed
  deriving DecidableEq, Repr

/-- R55, R90: a stored image: tag, four slots, four check values. -/
structure Image where
  tag : Nat := 1
  slots : Vector (BitVec 256) 4 := Vector.replicate 4 0
  checks : Vector (BitVec 16) 4 := Vector.replicate 4 0
  deriving DecidableEq, Repr

/-- A cached line's record (R86, R90, R64): dirty, the Z attribute and the key slot of its latest write. -/
structure CacheRec where
  dirty : Bool := false
  z : Bool := false
  key : Nat := 0
  deriving DecidableEq, Repr

/-- HBM beneath the cache. -/
structure Hbm where
  images : List (Nat × Image) := []
  parity : List (Nat × Image) := []
  cache : List (Nat × CacheRec) := []
  /-- R56: parity deltas sent and not applied, oldest first, by line; and the lines that are parity-pending. -/
  deltas : List (Nat × Image) := []
  pending : List Nat := []
  /-- R59: the stacks lost, oldest first; R61: the stripes remapped lie below `prog`; R63: CLOVEST's other fields. -/
  lost : List Nat := []
  prog : Nat := 0
  evt : Bool := false
  cause : Nat := 0
  cloveState : Nat := 0
  /-- R86: lines evicted to make room, the model's own count. -/
  evictions : Nat := 0
  deriving DecidableEq, Repr

/-- R65: a key slot: empty, or two 256-bit keys. -/
structure KeyPair where
  data : BitVec 256
  tweak : BitVec 256
  deriving DecidableEq, Repr

/-- R327: a launch packet as the dispatcher keeps it: N, class, width, shape, stage count less one, harts, the clusters
that may hold them, arguments, entry addresses (the kernel's, or a crew's three), span, address space, mode, TVEC and MTVEC
of its harts, and the virtual addresses of its dependence word (with the threshold) and its completion word. -/
structure Packet where
  n : Word
  cls : Nat
  width : Nat
  shape : Nat
  stages : Nat
  harts : Nat
  clmask : Nat
  args : List Word
  entries : List Word
  span : Nat
  root : Word
  mode : Mode
  tvec : Word
  mtvec : Word
  dep : Option (Nat × Word)
  done : Option Nat
  deriving DecidableEq, Repr

/-- R325: one launch queue; a cluster queue's packets (R341), and the packet at the head once its dependence has been met
(R329). -/
structure Queue where
  qctl : Word := 0x300
  qbase : Word := 0
  head : Nat := 0
  tail : Nat := 0
  code : Nat := 0
  qtvec : Word := 0
  qmtvec : Word := 0
  fifo : List Packet := []
  accepted : Nat := 0
  depMet : Option Packet := none
  deriving DecidableEq, Repr

/-- R329 to R334: a launch taken by the dispatcher: its packet and queue, the units still to place (by ordinal), the harts
still to finish, and the pool's cursor (R172). -/
structure Launch where
  packet : Packet
  queue : Nat
  waiting : List Nat
  unfinished : Nat
  cursor : Nat := 0
  deriving DecidableEq, Repr

/-- R95, R106: a live tuple region: its number and its pages: granule address, key and Z of the leaf. -/
structure Region where
  num : Nat
  pages : List (Nat × Nat × Bool)
  deriving DecidableEq, Repr

/-- R95, R101: a slot that holds a tuple: region, home slice, the slot's address (its fields lie in memory there), field
count, arrival number. -/
structure Tuple where
  region : Nat
  slice : Nat
  pa : Nat
  n : Nat
  arrival : Nat
  deriving DecidableEq, Repr

/-- R100, R101: a tuple request: its number, the hart's slot, func, region, translated base, home slice, fields, mask of
concrete fields, handle, the v register with VT0's TAIL and MAXVL, whether machine mode made it; whether it is parked and
with which arrival number, and whether its withdrawal has been sent (R105), and that by a pre-emption (R383). -/
structure TupleReq where
  num : Nat
  coord : Nat
  func : Nat
  region : Nat
  pa : Nat
  slice : Nat
  fields : List Word
  mask : List Bool
  handle : Word
  vreg : Nat
  tail : Bool
  maxvl : Nat
  machine : Bool
  parked : Bool := false
  arrival : Nat := 0
  withdrawn : Bool := false
  saving : Bool := false
  deriving DecidableEq, Repr

/-- A reply on its way back to a hart (R102): the request, status, served fields and whether one is poison (R104), a fault
of the home slice (R99), and whether it answers a withdrawal (R105). -/
structure TupleReply where
  req : TupleReq
  status : Nat := 0
  served : Option (List Word) := none
  poison : Bool := false
  fault : Option Nat := none
  gone : Bool := false
  deriving DecidableEq, Repr

/-- The tuple space. -/
structure TupleSpace where
  regions : List Region := []
  tuples : List Tuple := []
  requests : List TupleReq := []
  replies : List TupleReply := []
  next : Nat := 0
  arrivals : Nat := 0
  deriving DecidableEq, Repr

/-- R396, R397: a data flit kept for replay: its number, the acknowledgement it carries, what it carries, its 256 bytes, the
snapshot of the sender's header table after it, and how often it has been asked for again. -/
structure Flit where
  seq : Nat
  ack : Nat
  msgs : List PeerMsg
  bytes : List Byte
  table : List (BitVec 128)
  retries : Nat := 0
  deriving DecidableEq, Repr

/-- R396, R397: one Uliane link: the numbers of the next flit to send and of the one expected, the header tables (of 64 recent
headers) of what it sends and of what it receives, and its flits. -/
structure Link where
  up : Bool := false
  peer : Nat := 0
  nextSeq : Nat := 0
  expect : Nat := 0
  sending : List (BitVec 128) := []
  receiving : List (BitVec 128) := []
  replay : List Flit := []
  sent : List Flit := []
  retryAsked : Option Nat := none
  deriving DecidableEq, Repr

/-- R390, R391, R394, R398, R386: the management controller. -/
structure Mgmt where
  mbdb : Word := 0
  mgtgt : Word := 0
  pending : Bool := false
  /-- The command the controller runs (R390). -/
  running : Option Nat := none
  staged : Option (List Byte) := none
  /-- R394, R395: the management firmware and the machine-mode firmware that were verified at reset. -/
  firmware : List Byte := []
  machineFirmware : List Byte := []
  /-- R394: no image was good: the device stays in reset. -/
  inReset : Bool := false
  boots : Nat := 0
  cap : Nat := 4200
  throttled : Bool := false
  /-- R398: what the sensors read last: power in watts and the inlet's temperature. -/
  watts : Nat := 0
  inlet : Nat := 0
  /-- R386, R390: by array, of which 0 to 15 are the HBM stacks: errors counted, errors marked, arrays raised to nominal
  voltage, arrays declared failing, and uncorrectable errors. -/
  counts : List (Nat × Nat) := []
  marked : List (Nat × Nat) := []
  nominal : List Nat := []
  failing : List Nat := []
  uncorrectable : List (Nat × Nat) := []
  deriving DecidableEq, Repr

/-- R84: a migration: where the granule goes, the address space and virtual address of its leaf, and the leaf's key and Z. -/
structure Migration where
  dest : Nat
  asn : Nat
  va : Nat
  key : Nat
  z : Bool
  deriving DecidableEq, Repr

/-- A write on its way: one that a migrating granule holds (R85), or one that a link carries to a peer (R397; the link and
its flit): its address and bytes, the bits it replaces (all, with no mask), its key and Z, its virtual address and the
entry that translated it (R83), whether its page is STRONG (R80), and who is acknowledged at its end: a hart's slot with the
number of its counted store in the strip and of its word in issue order (R370), a requester with its tag, or a channel whose
element lands (R111): core, channel and element. -/
structure HeldWrite where
  pa : Nat
  bytes : List Byte
  mask : List Byte := []
  key : Nat := 0
  z : Bool := false
  va : Nat := 0
  entry : Option (Nat × Nat × Nat) := none
  link : Option (Nat × Nat) := none
  coord : Option Nat := none
  store : Option Nat := none
  order : Nat := 0
  strong : Bool := false
  ack : Option (Nat × Nat) := none
  landing : Option (Nat × Nat × Nat) := none
  deriving DecidableEq, Repr

/-- R85: a read, by a requester that is no hart, of a line with a held write: the requester with its tag, the address and
length, the address that it waits at, and the lines that have moved meanwhile. -/
structure HeldRead where
  initiator : Nat
  tag : Nat
  pa : Nat
  n : Nat
  waits : Nat
  moved : List (Nat × Nat) := []
  deriving DecidableEq, Repr

/-- What a pre-empted hart has that its image does not hold (log 15): the physical address of its image and the image's first
64 bytes, by which it is known again (log 16); its launch, stage, ordinal and peers, the LASTD that its handler's UIRET restores
(R51), the withdrawn operations' copies, banks and row windows, and the rows it has built for a ring (R160). -/
structure Away where
  image : Nat
  header : List Byte
  launch : Nat
  stage : Nat
  ordinal : Nat
  peers : Nat
  uiLastd : BitVec 5
  ops : List (CountedOp × Option TupleReq)
  staged : List (Nat × List VRow)
  deriving DecidableEq, Repr

/-- The device outside its clusters. A launch's number is at least 1. -/
structure Device where
  queues : List (Nat × Queue) := []
  launches : List (Nat × Launch) := []
  nextLaunch : Nat := 1
  robin : Vector Nat 4 := Vector.replicate 4 0
  access : List (Nat × BitVec 128) := []
  keys : List (Nat × KeyPair) := []
  hwkey : Word := 0
  migrating : List (Nat × Migration) := []
  heldWrites : List HeldWrite := []
  heldReads : List HeldRead := []
  /-- Pre-empted harts by the number of their pre-emption, and the next number. -/
  away : List (Nat × Away) := []
  preempted : Nat := 0
  frctl : Word := 0
  /-- R53, within one step: the host does not answer. -/
  silent : Bool := false
  /-- R343: the number of the next steal. -/
  nextSteal : Nat := 0
  /-- R108: by engine, the channel after the one it served last: core * 16 + channel + 1. -/
  served : List (Nat × Nat) := []
  /-- R236: nodes whose bad record has been reported. -/
  badNodes : List Nat := []
  msix : List Nat := []
  mgmt : Mgmt := {}
  links : Vector Link 18 := Vector.replicate 18 {}
  number : Nat := 0
  deriving DecidableEq, Repr

/-- An answer to a requester that is no hart (R87): its number, the tag and the bytes, or none for a denial (R71), and
whether it carries poison in the link's own form (R67). -/
structure Reply where
  initiator : Nat
  tag : Nat
  bytes : Option (List Byte)
  poison : Bool := false
  deriving DecidableEq, Repr

/-- Who moves next (log 1): a hart's slot, an event, or the passing of cycles. -/
inductive Turn where
  | hart (coord : Nat)
  | event (i : Instr)
  | tick (cycles : Nat)
  deriving DecidableEq, Repr

/-- The machine. -/
structure State where
  /-- The slot whose hart moves, in COORD's layout (R167), and its hart. -/
  cur : Nat := 0
  h : Hart := {}
  harts : List (Nat × Hart) := []
  slots : List (Nat × Slot) := []
  crews : List (Nat × Crew) := []
  cores : List (Nat × CoreState) := []
  clusters : List (Nat × Cluster) := []
  mem : List Host.Cell := []
  flaws : List (Nat × Flaw) := []
  hbm : Hbm := {}
  tuples : TupleSpace := {}
  dev : Device := {}
  agenda : List Turn := []
  replies : List Reply := []
  freeCount : Nat := 0
  deriving DecidableEq, Repr

/-- R424 and the reset columns of the register tables: every field at its reset value. -/
def State.reset : State := {}

end Sys2Proof.Machine
end

