-- ==== Sys2Proof/Machine/Mem.lean ====
section
/-! DEFINITION. The bytes of memory, over the whole physical address space (R53). The list holds the coherent plaintext
of every byte, in one canonical form: addresses strictly rising, and no entry that equals what an unlisted byte reads
as. -/

namespace Sys2Proof.Machine

/-- What a byte that nothing has written reads as: R424 for HBM; log 2 for the other memories. -/
def Memory.blank : Byte := 0

/-- The canonical form. -/
def Memory.wf : List Host.Cell → Bool
  | [] => true
  | (_, b) :: [] => b != Memory.blank
  | (a, b) :: (a', b') :: t => b != Memory.blank && decide (a < a') && Memory.wf ((a', b') :: t)

/-- The byte at an address. -/
def Memory.read (m : List Host.Cell) (a : Nat) : Byte :=
  match m with
  | [] => Memory.blank
  | (j, b) :: t => if j = a then b else if a < j then Memory.blank else Memory.read t a

/-- Write one byte, keeping the canonical form. -/
def Memory.write (a : Nat) (b : Byte) : List Host.Cell → List Host.Cell
  | [] => if b = Memory.blank then [] else [(a, b)]
  | (j, c) :: t =>
    if j = a then (if b = Memory.blank then t else (a, b) :: t)
    else if a < j then (if b = Memory.blank then (j, c) :: t else (a, b) :: (j, c) :: t)
    else (j, c) :: Memory.write a b t

/-- n bytes from an address, lowest first. -/
def Memory.readBytes (m : List Host.Cell) : Nat → Nat → List Byte
  | _, 0 => []
  | a, n + 1 => Memory.read m a :: Memory.readBytes m (a + 1) n

/-- Write bytes from an address. -/
def Memory.writeBytes (a : Nat) : List Byte → List Host.Cell → List Host.Cell
  | [], m => m
  | b :: bs, m => Memory.writeBytes (a + 1) bs (Memory.write a b m)

end Sys2Proof.Machine
end

