-- ==== Sys2Proof/Machine/Slices.lean ====
section
/-! DEFINITION. What lies between the memory-side cache and HBM: the map of lines (R54), stored images and their
encodings (R55, R90 to R92), encryption (R64), Clove parity (R55 to R63), fills and writebacks (R56, R92, R93), and the
breaking of link tags (R88). -/

namespace Sys2Proof.Machine

/-- R54: a data line's number, stripe, position, stacks, slice and home slices; `line` is its address. -/
def lineNum (line : Nat) : Nat := bits line 39 7
def stripeOf (line : Nat) : Nat := lineNum line / 15
def parityStack (s : Nat) : Nat := s % 16
def dataStack (line : Nat) : Nat := (stripeOf line + 1 + lineNum line % 15) % 16
def homeSlice (line : Nat) : Nat := 4 * dataStack line + stripeOf line % 4
def stripeLines (s : Nat) : List Nat := (List.range 15).map fun j => (15 * s + j) * 128

/-- The line of an address. -/
def lineOf (pa : Nat) : Nat := pa / 128 * 128

/-- R91: tag, element size, delta size and sectors of the delta encodings. -/
def deltaForms : List (Nat × Nat × Nat × Nat) :=
  [(3, 8, 1, 1), (4, 8, 2, 2), (5, 8, 4, 3), (6, 4, 1, 2), (7, 4, 2, 3), (8, 2, 1, 3)]

/-- Sectors a stored image of this tag uses. -/
def tagSectors (tag : Nat) : Nat :=
  if tag = 0 then 4 else if tag = 2 then 1 else ((deltaForms.find? fun f => f.1 == tag).map fun f => f.2.2.2).getD 0

/-- The elements of a line at element size e. -/
def lineElems (e : Nat) (bs : List Byte) : List Nat := (List.range (128 / e)).map fun i => leAt bs (e * i) e

/-- R91: base and deltas, if every delta fits. -/
def deltaEncode (e d : Nat) (bs : List Byte) : Option (List Byte) :=
  let es := lineElems e bs
  let b := es.headD 0
  let ds := es.map fun x => signed (8 * e) (x + 2 ^ (8 * e) - b)
  if ds.all fun x => decide (-(2 ^ (8 * d - 1) : Int) ≤ x ∧ x < 2 ^ (8 * d - 1)) then
    some (bytesOf e b ++ ds.flatMap fun x => bytesOf d (wrap (8 * d) x))
  else none

/-- R91: decoding. -/
def deltaDecode (e d : Nat) (bs : List Byte) : List Byte :=
  let b := leAt bs 0 e
  (List.range (128 / e)).flatMap fun i => bytesOf e (wrap (8 * e) ((b : Int) + signed (8 * d) (leAt bs (e + d * i) d)))

/-- R90, R91: the chosen tag and its stored bytes: the fewest sectors, then the lower tag. -/
def chooseEncoding (eligible : Bool) (bs : List Byte) : Nat × List Byte :=
  if !eligible then (0, bs) else
  let zero := if bs.all (· == 0) then [(1, ([] : List Byte))] else []
  let const := if (lineElems 8 bs).all (· == leAt bs 0 8) then [(2, slice bs 0 8)] else []
  let deltas := deltaForms.filterMap fun (tag, e, d, _) => (deltaEncode e d bs).map fun st => (tag, st)
  (zero ++ const ++ deltas).foldl
    (fun best c => if tagSectors c.1 < tagSectors best.1 then c else best) (0, bs)

/-- R65: the keys of a slot. -/
def keyOf (s : State) (slot : Nat) : Option KeyPair :=
  if slot = 0 then
    let b := Config.bootKeys s.dev.mgmt.boots
    some ⟨b.setWidth 256, (b >>> 256).setWidth 256⟩
  else look slot s.dev.keys

/-- R64: a slot's bytes enciphered or deciphered: n is the slot's index in the image of the line. -/
def sealSlot (k : KeyPair) (line n : Nat) (bs : List Byte) : BitVec 256 :=
  BitVec.ofNat 256 (natOfBytes (xts (aesEncrypt k.data) k.tweak (line / 128 * 4 + n) bs))
def openSlot (k : KeyPair) (line n : Nat) (v : BitVec 256) : List Byte :=
  xts (aesDecrypt k.data) k.tweak (line / 128 * 4 + n) (bytesOf 32 v.toNat)

/-- R67: the poison form's bytes. -/
def poisonBytes : List Byte := List.replicate 32 0xFF

/-- R90, R92: the stored image of a line's four sectors (their bytes and flaws) under a key. A flawed sector is stored in
the poison form. -/
def imageOf (k : KeyPair) (line : Nat) (z : Bool) (bs : List Byte) (flaw : Nat → Option Flaw) : Image :=
  let bad := (List.range 4).map fun n => (flaw (line + 32 * n)).isSome
  if bad.all id then { tag := 15 } else
  let (tag, st) := chooseEncoding (z && !bad.any id) bs
  let used := tagSectors tag
  let slotBytes := fun n => if bad.getD n false then poisonBytes else slice st (32 * n) 32
  { tag := tag
    slots := Vector.ofFn fun (i : Fin 4) => if i.val < used then sealSlot k line i.val (slotBytes i.val) else 0
    checks := Vector.ofFn fun (i : Fin 4) =>
      if i.val < used then
        (if bad.getD i.val false then ~~~ crc16 (slotBytes i.val) else crc16 (slotBytes i.val))
      else 0 }

/-- R92: the four plaintext sectors of a stored image, each with its flaw. DESIGN CHOICE: a slot of a compressed line that fails
its check poisons the line and is not reported as an uncorrectable error of its own; the rule gives the poison alone. -/
def decodeImage (k : KeyPair) (line : Nat) (im : Image) : List (List Byte × Option Flaw) :=
  let used := tagSectors im.tag
  let slot := fun n => openSlot k line n (im.slots[n]?.getD 0)
  let ok := fun n => im.checks[n]?.getD 0 == crc16 (slot n)
  if 9 ≤ im.tag then List.replicate 4 (poisonBytes, some .poison)
  else if im.tag = 0 then (List.range 4).map fun n =>
    (slot n, if ok n then none
      else if slot n == poisonBytes && im.checks[n]?.getD 0 == ~~~ crc16 poisonBytes then some .poison
      else some .failed)
  else if (List.range used).any fun n => !ok n then List.replicate 4 (poisonBytes, some .poison)
  else
    let st := (List.range used).flatMap slot
    let bs := if im.tag = 1 then List.replicate 128 0
      else if im.tag = 2 then (List.replicate 16 (slice st 0 8)).flatten
      else match deltaForms.find? fun f => f.1 == im.tag with
        | some (_, e, d, _) => deltaDecode e d st
        | none => List.replicate 128 0
    (List.range 4).map fun n => (slice bs (32 * n) 32, none)

/-- R55: exclusive or of images, field by field. -/
def xorImage (a b : Image) : Image :=
  { tag := Nat.xor a.tag b.tag
    slots := Vector.ofFn fun (i : Fin 4) => a.slots[i.val]?.getD 0 ^^^ b.slots[i.val]?.getD 0
    checks := Vector.ofFn fun (i : Fin 4) => a.checks[i.val]?.getD 0 ^^^ b.checks[i.val]?.getD 0 }

/-- R424: what HBM holds for a line, or a parity line, that was never written. -/
def Hbm.image (hb : Hbm) (line : Nat) : Image := lookD {} line hb.images
def Hbm.parityOf (hb : Hbm) (s : Nat) : Image := lookD {} s hb.parity

/-- R61: whether stripe s is remapped. -/
def Hbm.remapped (hb : Hbm) (s : Nat) : Bool :=
  match hb.lost with
  | [] => false
  | x :: _ => parityStack s != x && (hb.cloveState == 2 || decide (s < hb.prog))

/-- R94's CLOVE: 0 as with all stacks in service, 1 on a lost stack and not remapped, 2 remapped, 3 unrecoverable. -/
def Hbm.place (hb : Hbm) (line : Nat) : Nat :=
  let s := stripeOf line
  match hb.lost with
  | [] => 0
  | [x] => if dataStack line ≠ x then 0 else if hb.remapped s then 2 else 1
  | x :: rest =>
    if rest.contains (dataStack line) then 3
    else if dataStack line ≠ x then 0
    else if hb.remapped s && !rest.contains (parityStack s) then 2 else 3

/-- R60, R61: whether writes to a line of stripe s update parity. -/
def Hbm.parityLive (hb : Hbm) (s : Nat) : Bool :=
  hb.cloveState < 2 && !hb.lost.contains (parityStack s) && !hb.remapped s

/-- R60: the image of a lost line: the other images and the parity. -/
def Hbm.rebuilt (hb : Hbm) (line : Nat) : Image :=
  ((stripeLines (stripeOf line)).filter (· != line)).foldl (fun a l => xorImage a (hb.image l))
    (hb.parityOf (stripeOf line))

/-- R57: some line of the stripe is parity-pending. -/
def Hbm.stripePending (hb : Hbm) (s : Nat) : Bool := hb.pending.any fun l => stripeOf l == s

/-- The image a read of the line returns; none when it cannot be rebuilt (R62). -/
def Hbm.stored (hb : Hbm) (line : Nat) : Option Image :=
  match hb.place line with
  | 3 => none
  | 1 => some (hb.rebuilt line)
  | _ => some (hb.image line)

/-- Put a line's sectors into the coherent memory. -/
def installLine (line : Nat) (secs : List (List Byte × Option Flaw)) (s : State) : State :=
  secs.zipIdx.foldl (fun s (sec, n) =>
    { s with
      mem := Memory.writeBytes (line + 32 * n) sec.1 s.mem
      flaws := match sec.2 with
        | some f => put (line + 32 * n) f s.flaws
        | none => cut (line + 32 * n) s.flaws }) s

/-- Whether the memory-side cache holds the line. -/
def cached (s : State) (line : Nat) : Bool := (look line s.hbm.cache).isSome

/-- R88: break the links on a line, but for those of the hart in slot `by`. -/
def breakLinks (line : Nat) (by' : Option Nat) (s : State) : State :=
  let br := fun (h : Hart) => { h with
    link := if h.link = some line then none else h.link
    vlink := h.vlink.filter (· != line) }
  { s with
    h := if by' = some s.cur then s.h else br s.h
    harts := s.harts.map fun e => if by' = some e.1 then e else (e.1, br e.2) }

/-- R390, R386: the array that an address lies in: the HBM stacks are numbers 0 to 15, the scratchpads follow by cluster and
core, and one number stands for the rest. DESIGN CHOICE: the spec numbers no array. -/
def arrayOf (pa : Nat) : Nat :=
  if pa < 0xF000000000 then dataStack (pa / 128 * 128)
  else if 0x100000000000 ≤ pa && decide (pa < 0x100080000000) then 16 + (pa - 0x100000000000) / 2 ^ 20
  else 16 + 2048

/-- R390: an uncorrectable error of an array is counted. -/
def countUncorrectable (array : Nat) (s : State) : State :=
  let m := s.dev.mgmt
  { s with dev := { s.dev with mgmt := { m with uncorrectable := put array (lookD 0 array m.uncorrectable + 1) m.uncorrectable } } }

/-- R67: a failed sector among n bytes is reported, and becomes poison. -/
def reportFailed (pa n : Nat) (s : State) : State :=
  (sectors pa n).foldl (fun s p =>
    let sec := p.1 / 32 * 32
    if look sec s.flaws = some .failed then countUncorrectable (arrayOf sec) { s with flaws := put sec .poison s.flaws }
    else s) s

/-- R56 steps 1 to 4, R92: start a line's writeback: the new image goes to its place, and the delta to the parity slice. -/
def startWriteback (line : Nat) (s0 : State) : State :=
  match look line s0.hbm.cache with
  | none => s0
  | some r =>
    if !r.dirty then s0 else
    match keyOf s0 r.key with
    | none => s0
    | some k =>
      let s := reportFailed line 128 s0
      let bs := Memory.readBytes s.mem line 128
      let im := imageOf k line r.z bs fun a => look a s.flaws
      let hb := { s.hbm with cache := put line { r with dirty := false } s.hbm.cache }
      let st := stripeOf line
      { s with hbm := match hb.place line with
        | 3 => hb
        | 1 =>
          let others := (stripeLines st).filter (· != line)
          { hb with parity := put st (others.foldl (fun a l => xorImage a (hb.image l)) im) hb.parity }
        | _ =>
          let hb' := { hb with images := put line im hb.images }
          if hb.parityLive st then
            { hb' with
              deltas := hb.deltas ++ [(line, xorImage (hb.image line) im)]
              pending := if hb.pending.contains line then hb.pending else hb.pending ++ [line] }
          else hb' }

/-- R56: the parity slice applies the oldest delta of a line. -/
def applyDelta (line : Nat) (s : State) : State :=
  match look line s.hbm.deltas with
  | none => s
  | some d =>
    let hb := s.hbm
    let st := stripeOf line
    { s with hbm := { hb with
      deltas := hb.deltas.eraseP fun e => e.1 == line
      parity := put st (xorImage (hb.parityOf st) d) hb.parity } }

/-- R56: both acknowledgements have arrived: the line is no longer parity-pending. -/
def endWriteback (line : Nat) (s : State) : State :=
  if (look line s.hbm.deltas).isSome then s
  else { s with hbm := { s.hbm with pending := s.hbm.pending.filter (· != line) } }

/-- R57: the writebacks of a stripe finish, as a hold waits for. -/
def settleStripe (st : Nat) (s : State) : State :=
  let s1 := ((s.hbm.deltas.map (·.1)).filter fun l => stripeOf l == st).foldl (fun s l => applyDelta l s) s
  { s1 with hbm := { s1.hbm with pending := s1.hbm.pending.filter fun l => stripeOf l != st } }
/-- R57: a missing line that HBM rebuilds is held until its stripe's writebacks have finished. -/
def settleFor (line : Nat) (s : State) : State :=
  if !cached s line && s.hbm.place line == 1 then settleStripe (stripeOf line) s else s

/-- A whole writeback: the hold that a parity-only write takes (R60), the image, its parity and its acknowledgements. -/
def writebackLine (line : Nat) (s : State) : State :=
  let st := stripeOf line
  settleStripe st (startWriteback line (if s.hbm.place line = 1 then settleStripe st s else s))

/-- R88: eviction: the line leaves the cache and its links break. -/
def dropLine (line : Nat) (s : State) : State :=
  breakLinks line none { s with hbm := { s.hbm with cache := cut line s.hbm.cache } }

/-- R92: a tag that the table does not give is reported where HBM returns it. -/
def reportTag (line : Nat) (im : Image) (s : State) : State :=
  if 9 ≤ im.tag && decide (im.tag < 15) then countUncorrectable (arrayOf line) s else s

/-- R86: lines of a full set give up one of their 16 ways to a line that misses (log 45): it is written back and evicted. -/
def makeRoom (line : Nat) (s : State) : State :=
  if s.hbm.cache.length < 16 then s else
  let set' := (s.hbm.cache.map (·.1)).filter fun l =>
    homeSlice l == homeSlice line && Config.cacheSet l % 2048 == Config.cacheSet line % 2048
  if set'.length < 16 then s else
  let old := set'.getD (Config.victimWay s.hbm.evictions % 16) 0
  dropLine old (writebackLine old { s with hbm := { s.hbm with evictions := s.hbm.evictions + 1 } })

/-- R92, R93: bring a line into the cache under a key. A line that HBM holds no written image of reads as it did at
reset (R424). An unrecoverable line is poison (R62). -/
def fillLine (key line : Nat) (s0 : State) : State :=
  if cached s0 line then s0 else
  let s := makeRoom line s0
  let s1 := { s with hbm := { s.hbm with cache := put line { key := key } s.hbm.cache } }
  match s.hbm.stored line, keyOf s key with
  | none, _ => installLine line (List.replicate 4 (poisonBytes, some .poison)) s1
  | some im, some k =>
    if s.hbm.place line ≠ 1 && (look line s.hbm.images).isNone then s1
    else reportTag line im (installLine line (decodeImage k line im) s1)
  | some _, none => s1

end Sys2Proof.Machine
end

