-- ==== Sys2Proof/Machine/Phys.lean ====
section
/-! DEFINITION. Requests by physical address: what an address names (R53, R128, R325, R387, R391, R422), the checks at the
target (R70, R71, R65, R128, R129, R133, R423), the device registers, and the two requests, read and write, that every
agent makes. -/

namespace Sys2Proof.Machine

/-- Cause codes of R365 that requests raise. 0 stands for a request that a migration holds (R85). -/
def cAccess : Nat := 0x14
def cAlign : Nat := 0x16
def cOwner : Nat := 0x17

/-- Who makes a request, and how: initiator (R69), key slot and Z of the leaf (R64, R90), cluster (R128), the hart's slot in
COORD's layout (R88, R133), whether it is the hart's own access, whether it is made in user mode, and in machine mode
(R325), whether a migration leaves it where it is, as it does a frame record (R235), and the lines that it waited for while a
migration held their writes, with their new places (R85). -/
structure Ctx where
  initiator : Nat := 0x3F0
  key : Nat := 0
  z : Bool := false
  cluster : Option Nat := none
  coord : Option Nat := none
  own : Bool := true
  user : Bool := false
  machine : Bool := false
  direct : Bool := false
  moved : List (Nat × Nat) := []
  deriving DecidableEq, Repr

/-- A device register of 8 bytes (R423). -/
inductive DevReg where
  | ownwin (cluster w : Nat)
  | queue (q off : Nat)
  | clovest | mbdone | mgtgt | mbdb | hwkey
  deriving DecidableEq, Repr

/-- What a physical address names. -/
inductive Target where
  | hbm | scratch (cluster core off : Nat) | reg (r : DevReg) | buffer | peer (d : Nat) | host | reserved
  deriving DecidableEq, Repr

/-- The queue registers of a launch-queue block (R325). -/
def queueTarget (off : Nat) : Target :=
  if off % 64 < 0x38 then .reg (.queue (off / 64) (off % 64 / 8)) else .reserved

/-- R53, R422: what an address names. -/
def targetOf (pa : Nat) : Target :=
  if pa < 0xF000000000 then .hbm
  else if pa < 0x100000000000 then .reserved
  else if pa < 0x100080000000 then
    let o := pa - 0x100000000000
    if bits o 26 20 < 96 then .scratch (o / 2 ^ 27) (bits o 26 20) (o % 2 ^ 20) else .reserved
  else if pa < 0x180000000000 then .reserved
  else if pa < 0x180000100000 then
    let o := pa - 0x180000000000
    if o % 65536 < 0x80 then .reg (.ownwin (o / 65536) (o % 65536 / 8)) else .reserved
  else if pa < 0x190000000000 then .reserved
  else if pa < 0x190000001000 then queueTarget (pa - 0x190000000000)
  else if 0x190000010000 ≤ pa && pa < 0x190000010008 then .reg .clovest
  else if 0x190000020000 ≤ pa && pa < 0x190000022000 then .buffer
  else if 0x190000022008 ≤ pa && pa < 0x190000022010 then .reg .mbdone
  else if 0x190000022010 ≤ pa && pa < 0x190000022018 then .reg .mgtgt
  else if pa < 0x4000000000000 then .reserved
  else if pa < 0x5000000000000 then .peer ((pa - 0x4000000000000) / 2 ^ 40)
  else if pa < 0x8000000000000 then .reserved
  else if pa < 0x10000000000000 then .host
  else .reserved

/-- R387: what a BAR0 offset names. -/
def barTarget (off : Nat) : Target :=
  if off < 0x1000 then queueTarget off
  else if 0x10000 ≤ off && off < 0x12000 then .buffer
  else if 0x12000 ≤ off && off < 0x12008 then .reg .mbdb
  else if 0x20000 ≤ off && off < 0x20008 then .reg .hwkey
  else if 0x20008 ≤ off && off < 0x20010 then .reg .clovest
  else .reserved

/-- R70: a window of the access table. -/
def windowAllows (e : BitVec 128) (granule : Nat) (rd wr : Bool) : Bool :=
  let n := e.toNat
  bit n 63 && decide (bits n 35 0 ≤ granule) && decide (granule ≤ bits n 99 64)
    && (!rd || bit n 61) && (!wr || bit n 62)

/-- R69, R70: the access-table check; the entry of window w of initiator i is number 8 i + w. -/
def accessAllowed (s : State) (initiator pa : Nat) (rd wr : Bool) : Bool :=
  initiator == 0x3F0 ||
    (List.range 8).any fun w => windowAllows (lookD 0 (8 * initiator + w) s.dev.access) (pa / 65536) rd wr

/-! State of clusters, cores, slots, crews and queues by number. -/

def clusterOf (s : State) (c : Nat) : Cluster := lookD {} c s.clusters
def setCluster (c : Nat) (v : Cluster) (s : State) : State := { s with clusters := put c v s.clusters }
def coreOf (s : State) (n : Nat) : CoreState := lookD {} n s.cores
def setCore (n : Nat) (v : CoreState) (s : State) : State := { s with cores := put n v s.cores }
def slotOf (s : State) (n : Nat) : Slot := lookD {} n s.slots
def setSlot (n : Nat) (v : Slot) (s : State) : State := { s with slots := put n v s.slots }
def queueOf (s : State) (q : Nat) : Queue := lookD {} q s.dev.queues
def setQueue (q : Nat) (v : Queue) (s : State) : State := { s with dev := { s.dev with queues := put q v s.dev.queues } }

/-- COORD's layout (R167): cluster, core and slot of a slot's number; the number of its core. -/
def coordCluster (c : Nat) : Nat := bits c 19 16
def coordCore (c : Nat) : Nat := bits c 14 8
def coordSlot (c : Nat) : Nat := bits c 2 0
def coordOf (cluster core slot : Nat) : Nat := cluster * 65536 + core * 256 + slot
def coreIndex (c : Nat) : Nat := coordCluster c * 256 + coordCore c
/-- The slot's number within its cluster, core * 8 + slot (R132). -/
def slotInCluster (c : Nat) : Nat := coordCore c * 8 + coordSlot c

/-- The hart in a slot. -/
def hartAt (s : State) (coord : Nat) : Option Hart :=
  if coord = s.cur then some s.h else look coord s.harts
def setHart (coord : Nat) (h : Hart) (s : State) : State :=
  if coord = s.cur then { s with h := h } else { s with harts := put coord h s.harts }

/-- R389: raise an MSI-X vector. -/
def raiseMsix (v : Nat) (s : State) : State := { s with dev := { s.dev with msix := s.dev.msix ++ [v] } }

/-- R63: CLOVEST. DESIGN CHOICE: with memory FAILED, LOST and CAUSE keep the first lost stack and its cause. The spec does
not say which of two lost stacks they report. -/
def clovest (hb : Hbm) : Nat :=
  2 ^ 63 * bitNat hb.evt
    + 2 ^ 32 * (if hb.cloveState = 2 then 0x1FFFFFFF else if hb.cloveState = 0 then 0 else min hb.prog 0x1FFFFFFF)
    + 256 * hb.cause + 16 * (hb.lost.headD 0) + hb.cloveState

/-- R325: the queue's STOP. -/
def Queue.stopped (q : Queue) : Bool := wbit q.qctl 1
/-- R326: the tail is out of range. -/
def Queue.badTail (q : Queue) : Bool :=
  decide (q.tail < q.head) || decide (q.tail - q.head > 2 ^ wbits q.qbase 4 0)
/-- Stop a queue with a code and raise vector 4 (R328, R389). -/
def stopQueue (n code : Nat) (s : State) : State :=
  let q := queueOf s n
  raiseMsix 4 (setQueue n { q with qctl := wset q.qctl 1 1 1, code := code } s)

/-- R325: a write to QCTL of a value already merged; `stop` says that the write covers STOP with a 1. -/
def writeQctl (machine : Bool) (n : Nat) (v : Word) (stop : Bool) (s : State) : State :=
  let q := queueOf s n
  let old := q.qctl
  let priv := if wbits v 11 10 = 3 || (wbits v 11 10 = 2 && !machine) then wbits old 11 10 else wbits v 11 10
  let merged := word (bits v.toNat 63 20 * 2 ^ 20 + priv * 1024 + wbits v 9 8 * 256
    + 2 * wbits old 1 1 + wbits v 0 0)
  let s1 := setQueue n { q with qctl := merged } s
  if !(stop && q.stopped) then s1 else
  let q1 := { q with qctl := wset merged 1 1 0, code := 0 }
  if q.code = 5 then
    let s2 := setQueue n q1 s1
    if q1.badTail then stopQueue n 5 s2 else s2
  else setQueue n { q1 with head := q.head + 1, depMet := none } s1

/-- R326: a write to QTAIL: the doorbell. A tail that is not above the head leaves no packet at it (R329). -/
def writeQtail (n : Nat) (v : Word) (s : State) : State :=
  if 48 ≤ n then s else
  let q0 := queueOf s n
  let q := { q0 with tail := v.toNat, depMet := if v.toNat ≤ q0.head then none else q0.depMet }
  let s1 := setQueue n q s
  if q.badTail then stopQueue n 5 s1 else s1

/-- R132: the bytes a window descriptor covers, as page numbers within a core's scratchpad. -/
def windowPages (d : Word) : Nat × Nat × Nat :=
  (wbits d 26 20, wbits d 19 12, wbits d 19 12 + wbits d 11 4)

/-- R132: a write to window descriptor w of a cluster, of a value already merged. -/
def writeOwnwin (c w : Nat) (v : Word) (s : State) : State :=
  let cl := clusterOf s c
  let old := cl.ownwin[w]?.getD 0
  let holder := if wbits v 41 32 < 768 then wbits v 41 32 else wbits old 41 32
  let core := if wbits v 26 20 < 96 then wbits v 26 20 else wbits old 26 20
  let base := word (wbits old 51 42 * 2 ^ 42 + holder * 2 ^ 32 + core * 2 ^ 20
    + wbits v 19 12 * 4096 + wbits v 11 4 * 16)
  let (k, lo, hi) := windowPages base
  let clash := (List.range 16).any fun i =>
    let d := cl.ownwin[i]?.getD 0
    let (k', lo', hi') := windowPages d
    i != w && wbit d 63 && k' == k && decide (lo ≤ hi') && decide (lo' ≤ hi)
  let valid := wbit v 63 && decide (hi ≤ 255) && !clash
  setCluster c { cl with ownwin := cl.ownwin.setIfInBounds w (wset base 63 63 (bitNat valid)) } s

/-- R391: machine mode's answer to a mailbox command. -/
def writeMbdone (v : Word) (s : State) : State :=
  let m := s.dev.mgmt
  let mbdb := word (2 ^ 62 + wbits v 15 0 * 2 ^ 32)
  raiseMsix 0 { s with dev := { s.dev with mgmt := { m with mbdb := mbdb, running := none } } }

/-- R390: a write that covers MBDB's CMD. -/
def startCommand (code : Nat) (s : State) : State :=
  let m := s.dev.mgmt
  if wbit m.mbdb 63 then s
  else if code = 0 || 7 < code then
    raiseMsix 0 { s with dev := { s.dev with mgmt := { m with mbdb := word (2 ^ 62 + 2 ^ 32) } } }
  else
    { s with dev := { s.dev with mgmt := { m with
        mbdb := wset m.mbdb 63 63 1, running := some code, pending := m.pending || code = 2 || code = 3 } } }

/-- A register's value (R423). -/
def readReg (s : State) : DevReg → Nat
  | .ownwin c w => ((clusterOf s c).ownwin[w]?.getD 0).toNat
  | .queue n off =>
    let q := queueOf s n
    if 48 ≤ n && off ≠ 0 then 0 else
    match off with
    | 0 => q.qctl.toNat
    | 1 => q.qbase.toNat
    | 2 => q.head % 2 ^ 64
    | 3 => q.tail
    | 4 => q.code
    | 5 => q.qtvec.toNat
    | _ => q.qmtvec.toNat
  | .clovest => clovest s.hbm
  | .mbdone => 0
  | .mgtgt => s.dev.mgmt.mgtgt.toNat
  | .mbdb => s.dev.mgmt.mbdb.toNat
  | .hwkey => s.dev.hwkey.toNat

/-- R423: a write of bytes at offset off of a register: merge, apply the field rules, trigger its effects. -/
def writeReg (machine : Bool) (r : DevReg) (off : Nat) (bs : List Byte) (s : State) : State :=
  let n := bs.length
  let written := natOfBytes bs * 2 ^ (8 * off)
  let old := readReg s r
  let v := word (setBits old (8 * (off + n) - 1) (8 * off) (natOfBytes bs))
  match r with
  | .ownwin c w => writeOwnwin c w v s
  | .queue q o =>
    let qs := queueOf s q
    match o with
    | 0 => writeQctl machine q v (bit written 1 && off = 0) s
    | 1 =>
      if 48 ≤ q then s else
      let lg := wbits v 4 0
      let lg' := if lg = 0 || 16 < lg then wbits qs.qbase 4 0 else lg
      setQueue q { qs with qbase := word (wbits v 51 8 * 256 + lg'), depMet := none } s
    | 3 => writeQtail q v s
    | 5 => if 48 ≤ q then s else setQueue q { qs with qtvec := word (wbits v 63 2 * 4) } s
    | 6 => if 48 ≤ q || !machine then s else setQueue q { qs with qmtvec := word (wbits v 63 2 * 4) } s
    | _ => s
  | .clovest => if bit written 63 then { s with hbm := { s.hbm with evt := false } } else s
  | .mbdone => if off < 2 then writeMbdone v s else s
  | .mgtgt =>
    let t := coordOf (wbits v 19 16) (wbits v 14 8) (wbits v 2 0)
    { s with dev := { s.dev with mgmt := { s.dev.mgmt with mgtgt := word t } } }
  | .mbdb =>
    let m := s.dev.mgmt
    let s1 := if bit written 62 then { s with dev := { s.dev with mgmt := { m with mbdb := wset m.mbdb 62 62 0 } } } else s
    if off < 2 then startCommand (wbits v 15 0) s1 else s1
  | .hwkey => { s with dev := { s.dev with hwkey := word (wbits v 11 0) } }

/-- R423: a register takes naturally aligned accesses of 1, 2, 4 or 8 bytes. -/
def regAligned (pa n : Nat) : Bool := (n == 1 || n == 2 || n == 4 || n == 8) && pa % n == 0

/-- R53: a link to the device is up. -/
def peerUp (s : State) (d : Nat) : Bool := d != s.dev.number && s.dev.links.toList.any fun l => l.up && l.peer == d

/-- R133: whether a user-mode access of slot `by` passes the owned windows at a scratchpad byte. -/
def ownerPasses (s : State) (c core off by' : Nat) : Bool :=
  (clusterOf s c).ownwin.toList.all fun d =>
    let (k, lo, hi) := windowPages d
    !(wbit d 63 && k == core && decide (lo ≤ off / 4096) && decide (off / 4096 ≤ hi))
      || (!wbit d 62 && wbits d 41 32 == by')

/-- The granule of an address (R84). -/
def granuleOf (pa : Nat) : Nat := pa / 65536

/-- R84: the granule of an address of HBM is migrating. -/
def migratingAt (s : State) (pa : Nat) : Bool := targetOf pa == .hbm && (look (granuleOf pa) s.dev.migrating).isSome
/-- R84: where an address lies once its granule's migration is over. -/
def newPlace (s : State) (pa : Nat) : Nat :=
  match look (granuleOf pa) s.dev.migrating with
  | some m => m.dest * 65536 + pa % 65536
  | none => pa
/-- R85, R397: a write of a line among n bytes is held, or on its way to a peer. A held line has its old address and its
new one. -/
def heldOver (s : State) (pa n : Nat) : Bool :=
  let near := fun (a : Nat) => decide (pa / 128 ≤ a / 128) && decide (a / 128 ≤ (pa + n - 1) / 128)
  s.dev.heldWrites.any fun w => near w.pa || near (newPlace s w.pa)

/-- The checks a request meets at its target before it has any effect: the failing cause, if any. A read of a line with a
held write, or of a peer's line with a write on its way, has cause 0: it waits (R85). -/
def checkRequest (c : Ctx) (pa n : Nat) (rd wr : Bool) (s : State) : Option Nat :=
  match targetOf pa with
  | .hbm =>
    if !accessAllowed s c.initiator pa rd wr then some cAccess
    else if (keyOf s c.key).isNone then some cAccess
    else if rd && heldOver s pa n then some 0
    else none
  | .scratch cl core off =>
    if c.cluster ≠ some cl then some cAccess
    else if c.user && !ownerPasses s cl core off (slotInCluster (c.coord.getD 0)) then some cOwner
    else none
  | .reg (.ownwin cl _) =>
    if c.cluster ≠ some cl then some cAccess else if regAligned pa n then none else some cAlign
  | .reg _ => if regAligned pa n then none else some cAlign
  | .buffer => none
  | .peer d =>
    if !peerUp s d || decide (0xF000000000 ≤ pa % 2 ^ 40) then some cAccess
    else if rd && heldOver s pa n then some 0
    else none
  | .host => if s.dev.silent then some cAccess else none
  | .reserved => some cAccess

/-- R67: the bytes read of a sector with its check: a failed one is reported, and so is each poison read of a line that
can no longer be rebuilt (R62). -/
def checked (pa n : Nat) (bs : List Byte) (s : State) : State × List Byte × Bool :=
  match look (pa / 32 * 32) s.flaws with
  | some .failed => (reportFailed pa n s, bs, true)
  | some .poison =>
    (if targetOf pa == .hbm && s.hbm.place (lineOf pa) == 3 then countUncorrectable (arrayOf pa) s else s, bs, true)
  | none => (s, bs, false)

/-! Flits (R396). -/

/-- R396: the CRC-32 register after n more bits, the highest first, of a value. DESIGN CHOICE, here and in `crc32`: the rule
gives the polynomial; the register starts at all ones, each byte enters with its highest bit first, and nothing is inverted. -/
def crcBits (v : Nat) : Nat → Nat → Nat
  | 0, r => r
  | n + 1, r =>
    let r' := 2 * r % 2 ^ 32
    crcBits v n (if bit r 31 != bit v n then Nat.xor r' 0x04C11DB7 else r')
/-- R396: the CRC-32 of bytes. -/
def crc32 (bs : List Byte) : BitVec 32 := BitVec.ofNat 32 (bs.foldl (fun r b => crcBits b.toNat 8 r) 0xFFFFFFFF)

/-- R396: bytes 0 to 251 of a flit. -/
def flitBody (kind seq ack : Nat) (payload : BitVec 1984) : List Byte :=
  bytesOf 2 (seq % 4096 + 4096 * kind) ++ bytesOf 2 (ack % 4096) ++ bytesOf 248 payload.toNat
/-- R396: the headers that a table keeps. -/
def headerRoom : Nat := 64
/-- R396: a header table after a flit. -/
def nextHeaders (table : List (BitVec 128)) (payload : BitVec 1984) : List (BitVec 128) :=
  (Config.headersAfter table payload).take headerRoom

/-- R396: flits that may be outstanding on a link. -/
def replayFlits : Nat := 1024
/-- R396: the first k flits of a link are acknowledged: they leave the replay buffer, and those that waited for its room are
sent. -/
def freeFlits (k : Nat) (l : Link) : Link :=
  { l with replay := l.replay.drop k, sent := l.sent ++ (l.replay.drop replayFlits).take k }
/-- R396: a data flit of a link with one message, of which the flit's number is the tag: it acknowledges the last flit received
in order, and its table snapshot is the sender's table after it. -/
def flitOf (l : Link) (msg : Nat → PeerMsg) : Flit :=
  let payload := Config.flitPayload l.sending [msg l.nextSeq]
  let body := flitBody 0 l.nextSeq (l.expect + 4095) payload
  { seq := l.nextSeq, ack := (l.expect + 4095) % 4096, msgs := [msg l.nextSeq]
    bytes := body ++ bytesOf 4 (crc32 body).toNat, table := nextHeaders l.sending payload }
/-- R396: link i sends a flit. Beyond the replay buffer's room it waits. -/
def sendOn (i : Nat) (msg : Nat → PeerMsg) (s : State) : State :=
  let l := s.dev.links[i]?.getD {}
  let f := flitOf l msg
  { s with dev := { s.dev with links := s.dev.links.setIfInBounds i { l with
      nextSeq := (l.nextSeq + 1) % 4096, sending := f.table, replay := l.replay ++ [f]
      sent := if l.replay.length < replayFlits then l.sent ++ [f] else l.sent } } }
/-- R396: the link that requests to a device take: the lowest that is up to it. -/
def linkTo (d : Nat) (s : State) : Option Nat :=
  (List.range 18).find? fun i => ((s.dev.links[i]?.map fun l => l.up && l.peer == d)).getD false

/-- One sector's share of a read: its bytes and whether the sector is flawed; a failed one is reported (R67). A peer's answer
is there at once, and may be that its access table denies the read (R53, log 44). -/
def readPiece (c : Ctx) (pa n : Nat) (s : State) : Except Nat (State × List Byte × Bool) :=
  match checkRequest c pa n true false s with
  | some e => .error e
  | none =>
    match targetOf pa with
    | .reg r => .ok (s, bytesOf n (readReg s r / 2 ^ (8 * (pa % 8))), false)
    | .hbm =>
      let s1 := fillLine c.key (lineOf pa) (settleFor (lineOf pa) s)
      .ok (checked pa n (Memory.readBytes s1.mem pa n) s1)
    | .peer d =>
      if Config.peerRefuses s.freeCount s.h.clock pa then .error cAccess else
      let s1 := match linkTo d s with
        | some i => sendOn i (fun tag => .read tag (pa % 2 ^ 40) n) s
        | none => s
      .ok (checked pa n (Memory.readBytes s1.mem pa n) { s1 with freeCount := s1.freeCount + 1 })
    | _ => .ok (checked pa n (Memory.readBytes s.mem pa n) s)

/-- A merge into memory: R68 for a partial store to a flawed sector. -/
def mergeBytes (c : Ctx) (pa : Nat) (bs : List Byte) (s0 : State) : State × Bool :=
  let s := if bs.length < 32 then reportFailed pa bs.length s0 else s0
  let sec := pa / 32 * 32
  let bad := (look sec s.flaws).isSome && bs.length < 32
  let s1 := { s with
    mem := Memory.writeBytes pa bs s.mem
    flaws := if bad then put sec .poison s.flaws else cut sec s.flaws }
  (breakLinks (lineOf pa) (if c.own then c.coord else none) s1, bad)

/-- A write that does not perform at once: its address and bytes, the bits it replaces, and the flit that carries it. A
hart's own keeps its slot. -/
def holdWrite (c : Ctx) (pa : Nat) (bs mask : List Byte) (flit : Option (Nat × Nat)) (s : State) : State :=
  { s with dev := { s.dev with heldWrites := s.dev.heldWrites ++
    [{ pa := pa, bytes := bs, mask := mask, key := c.key, z := c.z, link := flit
       coord := if c.own then c.coord else none }] } }

/-- R85: where a migration holds a write: at its old address, to a migrating granule, or to the new granule behind a held
write of the same line. -/
def holdPlace (c : Ctx) (pa : Nat) (s : State) : Option Nat :=
  if c.direct || targetOf pa != .hbm then none
  else if migratingAt s pa then some pa
  else if !heldOver s pa 1 then none
  else (s.dev.migrating.find? fun e => e.2.dest == granuleOf pa).map fun e => e.1 * 65536 + pa % 65536

/-- R85, R397: a write that a migration holds, or that a link carries to a peer; none when it performs at once. -/
def divert (c : Ctx) (pa : Nat) (bs mask : List Byte) (s : State) : Option State :=
  match targetOf pa with
  | .hbm => (holdPlace c pa s).map fun a => holdWrite c a bs mask none s
  | .peer d => some (
    match linkTo d s with
    | none => s
    | some i =>
      holdWrite c pa bs mask (some (i, (s.dev.links[i]?.getD {}).nextSeq))
        (sendOn i (fun tag => .write tag (pa % 2 ^ 40) bs mask) s))
  | _ => none

/-- One sector's share of a write: the state after, and whether it merged into a flawed sector (R68). -/
def writePiece (c : Ctx) (pa : Nat) (bs : List Byte) (s : State) : Except Nat (State × Bool) :=
  match checkRequest c pa bs.length false true s with
  | some e => .error e
  | none =>
    match divert c pa bs [] s with
    | some s1 => .ok (s1, false)
    | none =>
      match targetOf pa with
      | .reg r => .ok (writeReg c.machine r (pa % 8) bs s, false)
      | .hbm =>
        let line := lineOf pa
        let s1 := fillLine c.key line (settleFor line s)
        let s2 := { s1 with hbm := { s1.hbm with
          cache := put line { dirty := true, z := c.z, key := c.key } s1.hbm.cache } }
        .ok (mergeBytes c pa bs s2)
      | _ => .ok (mergeBytes c pa bs s)

/-- A read request of n bytes: the bytes and the first flawed sector, or the cause of its refusal and the address. -/
def readPieces (c : Ctx) : List (Nat × Nat) → State → Except (Nat × Nat) (State × List Byte × Option Nat)
  | [], s => .ok (s, [], none)
  | (a, k) :: ps, s =>
    match readPiece c a k s with
    | .error e => .error (e, a)
    | .ok (s1, bs, bad) =>
      match readPieces c ps s1 with
      | .error e => .error e
      | .ok (s2, bs', bad') => .ok (s2, bs ++ bs', if bad then some (a / 32 * 32) else bad')
/-- R85: where a sector that has moved meanwhile lies now. -/
def movedTo (moved : List (Nat × Nat)) (pa : Nat) : Nat :=
  match look (lineOf pa) moved with
  | some l => l + pa % 128
  | none => pa
/-- R423: an access that reaches a register and is not naturally aligned, or is wider than 8 bytes. -/
def registerMisfit (ps : List (Nat × Nat)) (pa n : Nat) : Bool :=
  !regAligned pa n && ps.any fun p => match targetOf p.1 with
    | .reg _ => true
    | _ => false
/-- The first cause for which a request of sectors is refused, with its address; an access that does not fit a register is
refused as a whole (R423). -/
def refusal (c : Ctx) (ps : List (Nat × Nat)) (pa n : Nat) (rd wr : Bool) (s : State) : Option (Nat × Nat) :=
  match ps.findSome? fun p => (checkRequest c p.1 p.2 rd wr s).map fun e => (e, p.1) with
  | some e => some e
  | none => if registerMisfit ps pa n then some (cAlign, pa) else none
def physRead (c : Ctx) (pa n : Nat) (s : State) : Except (Nat × Nat) (State × List Byte × Option Nat) :=
  if registerMisfit (sectors pa n) pa n then
    match refusal c (sectors pa n) pa n true false s with
    | some e => .error e
    | none => .error (cAlign, pa)
  else readPieces c ((sectors pa n).map fun p => (movedTo c.moved p.1, p.2)) s

/-- A write request: the state after and the first flawed sector it merged into, or the cause of its refusal and the
address. A refused write has no effect: every share is checked before one performs. -/
def writePieces (c : Ctx) : List (Nat × Nat) → List Byte → State → Except (Nat × Nat) (State × Option Nat)
  | [], _, s => .ok (s, none)
  | (a, k) :: ps, bs, s =>
    match writePiece c a (bs.take k) s with
    | .error e => .error (e, a)
    | .ok (s1, bad) =>
      match writePieces c ps (bs.drop k) s1 with
      | .error e => .error e
      | .ok (s2, bad') => .ok (s2, if bad then some (a / 32 * 32) else bad')
def physWrite (c : Ctx) (pa : Nat) (bs : List Byte) (s : State) : Except (Nat × Nat) (State × Option Nat) :=
  let ps := sectors pa bs.length
  match refusal c ps pa bs.length false true s with
  | some e => .error e
  | none => writePieces c ps bs s

/-- A byte with the bits of a mask replaced. -/
def mergeBits (old new mask : Byte) : Byte := (old &&& ~~~mask) ||| (new &&& mask)
/-- R140: a write of the bits of a mask, of all with no mask. A sector of which bits stay is merged into (R68). The merge reads
at the target: the access table is asked for W alone (R70). -/
def writeMasked (c : Ctx) (pa : Nat) (bs mask : List Byte) (s : State) : Except (Nat × Nat) (State × Option Nat) :=
  if mask.isEmpty then physWrite c pa bs s
  else
    match refusal c (sectors pa bs.length) pa bs.length false true s with
    | some e => .error e
    | none =>
    if (divert c pa [] [] s).isSome then .ok ((sectors pa bs.length).foldl (fun s p =>
        (divert c p.1 ((bs.drop (p.1 - pa)).take p.2) ((mask.drop (p.1 - pa)).take p.2) s).getD s) s, none)
    else
    match physRead { c with initiator := 0x3F0 } pa bs.length s with
    | .error e => .error e
    | .ok (s1, old, bad) =>
      let flawed := (sectors pa bs.length).filter fun p => (look (p.1 / 32 * 32) s1.flaws).isSome
      match physWrite c pa (bs.zipIdx.map fun (b, i) => mergeBits (old.getD i 0) b (mask.getD i 0xFF)) s1 with
      | .error e => .error e
      | .ok (s2, bad') =>
        .ok ({ s2 with flaws := flawed.foldl (fun f p => put (p.1 / 32 * 32) .poison f) s2.flaws }, bad.or bad')

/-- R85: the writes held since there were n of them are marked by f, which is told of the last. -/
def stampHeld (n : Nat) (f : Bool → HeldWrite → HeldWrite) (s : State) : State :=
  let ws := s.dev.heldWrites
  { s with dev := { s.dev with heldWrites := ws.mapIdx fun i w => if n ≤ i then f (i + 1 == ws.length) w else w } }

/-- The answer to a requester (R87); a peer's goes back in a flit (R396). -/
def answer (initiator tag : Nat) (bytes : Option (List Byte)) (poison : Bool) (s : State) : State :=
  let s1 := { s with replies := s.replies ++ [{ initiator := initiator, tag := tag, bytes := bytes, poison := poison }] }
  if initiator < 0x100 || decide (0x200 ≤ initiator) then s1 else
  match linkTo (initiator - 0x100) s1 with
  | some i => sendOn i (fun _ => .answer tag bytes poison) s1
  | none => s1

/-- R64, R69, R388, R90: the context of a requester that is no hart: host requests take HWKEY's key; a peer's take key slot 0. -/
def requestCtx (initiator : Nat) (s : State) : Ctx :=
  { initiator := initiator, key := if initiator = 0x50 then wbits s.dev.hwkey 11 0 else 0
    cluster := if initiator < 16 then some initiator else none, own := false, machine := initiator == 0x3F0 }
/-- R87, R71: a read performs, and its answer goes back. One that meets a held line is kept, in order (R85). -/
def serveRead (r : HeldRead) (s : State) : State :=
  match physRead { requestCtx r.initiator s with moved := r.moved } r.pa r.n s with
  | .error (0, a) => { s with dev := { s.dev with heldReads := s.dev.heldReads ++ [{ r with waits := a }] } }
  | .error _ => answer r.initiator r.tag none false s
  | .ok (s1, bs, bad) => answer r.initiator r.tag (some bs) bad.isSome s1

end Sys2Proof.Machine
end

