-- ==== Sys2Proof/Machine/Weights.lean ====
section
/-! DEFINITION. The weight buffer (R275) and MSEQ's fields (R284), and what the weight loader's copies wait for (R277, R278). -/

namespace Sys2Proof.Machine

/-- The slot of a cluster's matrix control core (R267). -/
def matrixCoord (c : Nat) : Nat := coordOf c 127 0

/-! MSEQ's fields (R284). -/
def seqActive (w : Word) : Bool := wbit w 63
def seqHold (w : Word) : Bool := wbit w 62
def seqCmd (w : Word) : Nat := wbits w 61 59
def seqErr (w : Word) : Nat := wbits w 58 56
def seqKb (w : Word) : Nat := wbits w 40 32
def seqBld (w : Word) : Bool := wbit w 28
def seqRows (w : Word) : Nat := wbits w 12 0
def seqWord (cmd kb : Nat) (bld : Bool) (rows : Nat) : Word :=
  word (cmd * 2 ^ 59 + kb * 2 ^ 32 + bitNat bld * 2 ^ 28 + rows)

/-! The weight buffer. -/

/-- n bytes of the buffer from the start of granule g. -/
def weightBytes (cl : Cluster) (g n : Nat) : List Byte :=
  ((List.range ((n + 63) / 64)).flatMap fun i => bytesOf 64 (lookD 0 (g + i) cl.weights).toNat).take n

/-- R275: payload bytes of a FORM. -/
def payloadSize (form nnz : Nat) : Nat :=
  match form with
  | 0 => 131072
  | 1 => 65536
  | 2 => 32 + 32768
  | 3 => 128 + 52432
  | 4 => 512 + 65536
  | 5 => 8192 + 2 * nnz
  | _ => 131072
/-- Granules of the block at g, by its header alone. -/
def blockGranules (cl : Cluster) (g : Nat) : Nat :=
  let hd := weightBytes cl g 8
  1 + (payloadSize (leAt hd 0 1) (leAt hd 4 4) + 63) / 64

/-- The granule of k-block n of an MMAC. -/
def blockStart (cl : Cluster) : Nat → Nat → Nat
  | g, 0 => g
  | g, n + 1 => blockStart cl (g + blockGranules cl g) n

/-- The granules of n blocks from granule g: each block's first and number. -/
def blockSpans (cl : Cluster) : Nat → Nat → List (Nat × Nat)
  | 0, _ => []
  | n + 1, g => (g, blockGranules cl g) :: blockSpans cl n (g + blockGranules cl g)

/-- R282: the blocks that a quadrant's MMAC has still to fetch. -/
def unfetched (cl : Cluster) (k : Quadrant) : List (Nat × Nat) :=
  let loaded := seqBld k.seq && !k.block.isEmpty
  blockSpans cl (wbits k.opb 40 32 - seqKb k.seq - bitNat loaded) (if loaded then k.next else k.g)

/-- R278: a quadrant's MMAC, earlier than a copy, has still to fetch one of its granules. -/
def fetchesFirst (cl : Cluster) (w : WeightCopy) (k : Quadrant) : Bool :=
  (k.running || seqActive k.seq) && seqCmd k.seq == 2 && decide (k.order < w.order) &&
    (unfetched cl k).any fun b => decide (w.granule < b.1 + b.2) && decide (b.1 < w.granule + w.count)
def fetchPending (cl : Cluster) (w : WeightCopy) : Bool := cl.quads.toList.any (fetchesFirst cl w)

/-- R277: a copy whose source has still to be read. What has been read is written to the buffer when R278 lets it be, which no
access of the control core waits for (log 51). -/
def WeightCopy.unread (w : WeightCopy) : Bool := w.data.isNone
/-- R277: the loader has reads to make. -/
def loadsDue (cl : Cluster) : Bool := cl.loader.any WeightCopy.unread

end Sys2Proof.Machine
end

