-- ==== Sys2Proof/Machine/Access.lean ====
section
/-! DEFINITION. A hart's accesses: the ways a word ends (`Exc`), translation (R72 to R82), the strip buffer (R373 to R375),
channel watermarks (R112), and the loads and stores that meanings call. -/

namespace Sys2Proof.Machine

/-- How a word ends other than by completing. The state it carries holds what the word had done. -/
inductive Exc where
  /-- A fault or a trap word: its cause (R365) and TVAL. -/
  | trap (cause : Nat) (tval : Word)
  /-- A frame fault: its number (R245), its tag and the element. -/
  | frame (code tag elem : Nat)
  /-- The word waits and is issued again. -/
  | wait (w : Wait)
  /-- Poison or a failed sector is consumed (R67, R376). -/
  | poison (addr : Nat)
  deriving DecidableEq, Repr

/-- A part of a word's work. -/
abbrev Act := EStateM Exc State

def trapWith {α : Type} (cause : Nat) (tval : Word) : Act α := throw (.trap cause tval)
def waitFor {α : Type} (w : Wait) : Act α := throw (.wait w)
/-- Act on the current hart. -/
def getH : Act Hart := do return (← get).h
def modH (f : Hart → Hart) : Act Unit := modify fun s => { s with h := f s.h }
/-- A check of an instruction: its cause when it fails. -/
def require (ok : Bool) (cause : Nat) (tval : Word) : Act Unit := if ok then pure () else trapWith cause tval

/-! Cause codes (R365). -/
def cIllegal : Nat := 0x01
def cIllegalPair : Nat := 0x02
def cPrivileged : Nat := 0x03
def cRole : Nat := 0x04
def cStallShort : Nat := 0x05
def cSvc : Nat := 0x06
def cTrap : Nat := 0x07
def cBreak : Nat := 0x08
def cPageInvalid : Nat := 0x10
def cPageFormat : Nat := 0x11
def cPagePerm : Nat := 0x12
def cType : Nat := 0x13
def cPins : Nat := 0x15
def cMemForm : Nat := 0x18
def cVtypeForm : Nat := 0x19
def cCbOrder : Nat := 0x1A
def cCbForm : Nat := 0x1B
def cSyncForm : Nat := 0x1C
def cTaskForm : Nat := 0x1D
def cLaunchForm : Nat := 0x1E
def cPortForm : Nat := 0x1F
def cMatrixForm : Nat := 0x20
def cChannelBusy : Nat := 0x21
def cChannelForm : Nat := 0x22
def cChannelFailed : Nat := 0x23
def cOvercommit : Nat := 0x24
def cTupleForm : Nat := 0x25
def cTupleRegion : Nat := 0x26
def cCtxForm : Nat := 0x27
def cGeomForm : Nat := 0x2E
def cFrameForm : Nat := 0x2F
def cUncorrectable : Nat := 0x30
def cMachineCheck : Nat := 0x31

/-- What an access needs (R77). -/
inductive AccKind where
  | read | write | rmw | fetch
  deriving DecidableEq, Repr

/-- A translation: the physical address and the leaf's key, Z and type, and the entry used (R81). -/
structure Xlat where
  pa : Nat
  key : Nat
  z : Bool
  typ : Nat
  entry : Nat × Nat × Nat
  deriving DecidableEq, Repr

/-- R72: canonical virtual addresses. -/
def canonical (va : Nat) : Bool := bits va 63 54 == 0 || bits va 63 54 == 0x3FF

/-- A hart's requests (R69). -/
def ctxOf (coord : Nat) (mode : Mode) (key : Nat) (z : Bool) : Ctx :=
  { initiator := if mode = .machine then 0x3F0 else coordCluster coord
    key := key, z := z, cluster := some (coordCluster coord), coord := some coord
    user := mode == .user, machine := mode == .machine }

/-- R349: a byte of memory as the hart sees it, its buffered stores laid over. -/
def overlay (buf : List Buffered) (pa : Nat) (x : Byte) : Byte :=
  buf.foldl (fun x b => if b.acc.pa ≤ pa ∧ pa < b.acc.pa + b.bytes.length then
    mergeBits x (b.bytes.getD (pa - b.acc.pa) 0) (b.mask.getD (pa - b.acc.pa) 0xFF) else x) x
/-- The byte that the strip buffer holds whole for a physical address. -/
def buffered (buf : List Buffered) (pa : Nat) : Option Byte :=
  if buf.any fun b => b.mask.isEmpty && decide (b.acc.pa ≤ pa) && decide (pa < b.acc.pa + b.bytes.length) then
    some (overlay buf pa 0)
  else none

/-- Why a walk fails: a cause, poison in a table (R76), or a line that a migration holds, for which the walk waits (R85). -/
inductive WalkFail where
  | cause (c : Nat)
  | poison (addr : Nat)
  | held (pa : Nat)
  deriving DecidableEq, Repr

/-- For whom a walk is made: the hart's buffered stores, which it sees (R74), and the lines that the hart's word has waited for
(R85); for another requester, nothing. -/
structure Walker where
  buf : List Buffered := []
  moved : List (Nat × Nat) := []

/-- R74: read a table entry as the walker does. -/
def readEntry (w : Walker) (pa : Nat) (s : State) : Except WalkFail (State × Word) :=
  match physRead { moved := w.moved } pa 8 s with
  | .error (0, a) => .error (.held a)
  | .error (c, _) => .error (.cause c)
  | .ok (_, _, some a) => .error (.poison a)
  | .ok (s1, bs, none) =>
    .ok (s1, word (natOfBytes (bs.zipIdx.map fun (b, i) => overlay w.buf (pa + i) b)))

/-- R75: an entry's fields. -/
def ptePa (e : Word) : Nat := wbits e 63 28
def pteRights (e : Word) : Nat := wbits e 12 7
def pteIsPointer (e : Word) : Bool := pteRights e == 0
/-- R76: a pointer with a field it must leave zero. -/
def pointerBad (e : Word) : Bool :=
  wbits e 27 13 != 0 || wbits e 6 1 != 0
/-- R76: a leaf with a reserved or inconsistent field; lvl is 2 or 3. -/
def leafBad (e : Word) (lvl va : Nat) : Bool :=
  let r := pteRights e
  (lvl == 2 && wbits e 40 28 != 0)
    || decide (4 < wbits e 15 13) || decide (1 < wbits e 6 4)
    || (bit r 4 && !bit r 5) || (bit r 1 && !bit r 2)
    || (wbit e 3 && wbits e 15 13 != 0)
    || (wbits e 6 4 == 1 && (if lvl == 3 then wbits e 32 28 != bits va 20 16 else wbits e 45 41 != bits va 33 29))

/-- R74, R79: the OR of A and D follows the hart's buffered store of the entry's byte, when it has one. -/
def orBuffered (buf : List Buffered) (a : Nat) (m : Byte) : Option (List Buffered) :=
  match buf.reverse.findIdx? fun b => decide (b.acc.pa ≤ a) && decide (a < b.acc.pa + b.bytes.length) with
  | none => none
  | some j =>
    some (buf.modify (buf.length - 1 - j) fun b =>
      let i := a - b.acc.pa
      { b with bytes := b.bytes.modify i fun x => x ||| m, mask := b.mask.modify i fun x => x ||| m })

/-- R74, R76, R79: walk; the leaf (with A, and D for a write, set), its level, and the leaf's address. -/
def walk (w : Walker) (root va : Nat) (write : Bool) (s : State) :
    Except WalkFail (State × Word × Nat) := do
  let fmt {α : Type} : Except WalkFail α := .error (.cause cPageFormat)
  let (s, e1) ← readEntry w (root * 65536 + bits va 54 42 * 8) s
  if !wbit e1 0 then .error (.cause cPageInvalid) else
  if !pteIsPointer e1 || pointerBad e1 then fmt else
  let a2 := ptePa e1 * 65536 + bits va 41 29 * 8
  let (s, e2) ← readEntry w a2 s
  if !wbit e2 0 then .error (.cause cPageInvalid) else
  let mark := fun (a : Nat) (e : Word) (s : State) =>
    let e' := e ||| (if write then 6 else 2)
    if e' = e then (s, e') else
    match orBuffered w.buf a (if write then 6 else 2) with
    | some buf' => ({ s with h := { s.h with strip := { s.h.strip with buf := buf' } } }, e')
    | none =>
      match physWrite {} a (bytesOf 1 e'.toNat) s with
      | .ok (s', _) => (s', e')
      | .error _ => (s, e')
  if !pteIsPointer e2 then
    if leafBad e2 2 va then fmt else
      let (s, e) := mark a2 e2 s
      pure (s, e, 2)
  else if pointerBad e2 then fmt else
  let a3 := ptePa e2 * 65536 + bits va 28 16 * 8
  let (s, e3) ← readEntry w a3 s
  if !wbit e3 0 then .error (.cause cPageInvalid) else
  if pteIsPointer e3 || leafBad e3 3 va then fmt else
    let (s, e) := mark a3 e3 s
    pure (s, e, 3)

/-- R78: the range a leaf stands for: its first virtual address, its size, and its first physical granule. -/
def leafRange (e : Word) (lvl va : Nat) : Nat × Nat × Nat :=
  let cont := wbits e 6 4 == 1
  let size := (if lvl = 3 then 65536 else 2 ^ 29) * (if cont then 32 else 1)
  (va / size * size, size, ptePa e * 65536 / size * size)

/-- R77: whether a leaf grants an access. -/
def rightsOk (e : Word) (kind : AccKind) (mode : Mode) : Bool :=
  let r := pteRights e
  let (rd, wr, ex) := if mode = .user then (bit r 5, bit r 4, bit r 3) else (bit r 2, bit r 1, bit r 0)
  match kind with
  | .read => rd
  | .write => wr
  | .rmw => rd && wr
  | .fetch => ex

/-- R72: the page type of an untranslated access. -/
def untranslatedType (pa : Nat) : Nat :=
  if 0x100000000000 ≤ pa && pa < 0x200000000000 then
    (match targetOf pa with
      | .scratch .. => 0
      | _ => 2)
  else 0

/-- Whether an entry serves an access of an address space at v: a write needs D (R79). -/
def TlbEntry.serves (t : TlbEntry) (asn v : Nat) (wr : Bool) : Bool :=
  t.asn == asn && decide (t.va ≤ v) && decide (v < t.va + t.size) && (!wr || wbit t.leaf 2)

/-! The TLBs (R82). -/

/-- Entries that a core's TLB and a cluster's hold. -/
def coreEntries : Nat := 512
def clusterEntries : Nat := 16384
/-- An entry enters a TLB with room for `room`: it takes the place of one for its range, or where none is left, of the n-th
victim's (log 45). -/
def enterTlb (room n : Nat) (t : TlbEntry) (tlb : List TlbEntry) : List TlbEntry :=
  let keep := tlb.filter fun u => !(u.asn == t.asn && u.va == t.va && u.size == t.size)
  (if keep.length < room then keep else keep.eraseIdx (Config.tlbVictim n % room)) ++ [t]
/-- The slot of the dispatcher, which keeps no translation for a later packet. -/
def dispatcherCoord : Nat := coordOf 0 126 0
/-- An entry enters the TLB of a slot's core and that of its cluster. -/
def keepEntry (coord : Nat) (t : TlbEntry) (s : State) : State :=
  let n := s.freeCount
  let core := coreOf s (coreIndex coord)
  let s1 := setCore (coreIndex coord) { core with tlb := enterTlb coreEntries n t core.tlb } { s with freeCount := n + 1 }
  if coord = dispatcherCoord then s1 else
  let cl := clusterOf s1 (coordCluster coord)
  setCluster (coordCluster coord) { cl with tlb := enterTlb clusterEntries n t cl.tlb } s1

/-- R78, R79, R82: the entry for an access: one that the core's TLB or the cluster's holds, else the walk's; both then hold it. -/
def findEntry (coord : Nat) (w : Walker) (ptroot : Word) (v : Nat) (wr : Bool) (s : State) :
    Except WalkFail (State × TlbEntry) :=
  let asn := wbits ptroot 7 0
  match (coreOf s (coreIndex coord)).tlb.find? fun t => t.serves asn v wr with
  | some t => .ok (s, t)
  | none =>
    match (if coord = dispatcherCoord then none
      else (clusterOf s (coordCluster coord)).tlb.find? fun t => t.serves asn v wr) with
    | some t => .ok (keepEntry coord t s, t)
    | none =>
      match walk w (wbits ptroot 63 28) v wr s with
      | .error e => .error e
      | .ok (s1, e, lvl) =>
        let (base, size, _) := leafRange e lvl v
        .ok (keepEntry coord ⟨asn, base, size, e⟩ s1, ⟨asn, base, size, e⟩)

/-- R129: the pages of the cluster register blocks. -/
def registerBlock (pa : Nat) : Bool := decide (0x180000000000 ≤ pa) && decide (pa < 0x180000100000)

/-- R77, R129: an access through an entry: its rights, and the types that its target admits. -/
def TlbEntry.xlat (t : TlbEntry) (mode : Mode) (v : Nat) (kind : AccKind) : Except WalkFail Xlat :=
  let pa := ptePa t.leaf * 65536 / t.size * t.size + (v - t.va)
  let typ := wbits t.leaf 15 13
  let bad := match targetOf pa with
    | .scratch .. => typ != 0 && typ != 1
    | _ => registerBlock pa && typ != 2
  if !rightsOk t.leaf kind mode then .error (.cause cPagePerm)
  else if (kind == .fetch && typ != 0) || bad then .error (.cause cType)
  else .ok ⟨pa, wbits t.leaf 27 16, wbit t.leaf 3, typ, (t.asn, t.va, t.size)⟩

/-- R72, R77: an untranslated access. A fetch is of a NORMAL target. -/
def untranslated (va : Nat) (kind : AccKind) : Except WalkFail Xlat :=
  if kind == .fetch && untranslatedType va != 0 then .error (.cause cType)
  else .ok ⟨va, 0, false, untranslatedType va, (0, 0, 0)⟩

/-- R72 to R79 with R129: translate for a hart in slot `coord` under a root, ASN and mode. DESIGN CHOICE: a walk whose access
then faults PAGE_PERM or TYPE leaves no trace: it sets neither A nor D, and no TLB holds its leaf. The spec does not say. -/
def translateFor (coord : Nat) (w : Walker) (ptroot : Word) (mode : Mode) (va : Nat) (kind : AccKind)
    (s : State) : Except WalkFail (State × Xlat) :=
  if mode = .machine then (untranslated va kind).map fun x => (s, x)
  else if !canonical va then .error (.cause cPageInvalid)
  else
    match findEntry coord w ptroot (va % 2 ^ 55) (kind == .write || kind == .rmw) s with
    | .error e => .error e
    | .ok (s1, t) => (t.xlat mode (va % 2 ^ 55) kind).map fun x => (s1, x)

/-- The current hart as a walk is made for it. -/
def Hart.walker (h : Hart) : Walker := ⟨h.strip.buf, h.moved⟩

/-- R82: translate for the word in hand: it keeps each translation that it was given. -/
def translateKept (mode : Mode) (va : Nat) (kind : AccKind) (s : State) : Except WalkFail (State × Xlat) :=
  let v := va % 2 ^ 55
  let wr := kind == .write || kind == .rmw
  if mode = .machine then (untranslated va kind).map fun x => (s, x)
  else if !canonical va then .error (.cause cPageInvalid)
  else
    match s.h.given.find? fun t => t.serves (wbits s.h.csr.ptroot 7 0) v wr with
    | some t => (t.xlat mode v kind).map fun x => (s, x)
    | none =>
      match findEntry s.cur s.h.walker s.h.csr.ptroot v wr s with
      | .error e => .error e
      | .ok (s1, t) => (t.xlat mode v kind).map fun x => ({ s1 with h := { s1.h with given := s1.h.given ++ [t] } }, x)

/-- R104, R272, R113: an acquire that has not completed: a tuple copy or take, a DEQ, a CHSTAT. -/
def openAcquire (o : CountedOp) : Bool :=
  match o.kind with
  | .tuple _ f _ => decide (1 ≤ f)
  | .deq _ => true
  | .chstat _ => true
  | _ => false
/-- R80: a store of the hart to a STRONG page is on its way: no later access performs before it. -/
def strongOut (coord : Nat) (s : State) : Bool := s.dev.heldWrites.any fun w => w.strong && w.coord == some coord
/-- R104, R351, R80: a memory access waits until every earlier acquire has completed, and every earlier STRONG store. -/
def acquiresDone : Act Unit := do
  let s ← get
  if s.h.ops.any openAcquire || strongOut s.cur s then waitFor .tuple
/-- R85: a hart's writes that a migration holds, which are not acknowledged. -/
def heldBy (coord : Nat) (s : State) : Bool := s.dev.heldWrites.any fun w => w.coord == some coord
/-- The hart's requests that have not performed: tuple requests whose home slice has still to take its step (R403), and
writes that a migration holds (R85). -/
def unstepped (s : State) : Bool :=
  s.tuples.requests.any (fun q => q.coord == s.cur && !q.parked) || heldBy s.cur s

/-- Translate for the current hart, with the rights of a mode. -/
def translateNow (mode : Mode) (va : Nat) (kind : AccKind) : Act Xlat := do
  match translateKept mode va kind (← get) with
  | .ok (s1, x) => set s1; pure x
  | .error (.held a) => waitFor (.hold a)
  | .error (.cause c) => trapWith c (word va)
  | .error (.poison a) => throw (.poison a)
/-- The same for a memory access, once every earlier acquire has completed. -/
def translateAs (mode : Mode) (va : Nat) (kind : AccKind) : Act Xlat := do
  acquiresDone
  translateNow mode va kind
def translate (va : Nat) (kind : AccKind) : Act Xlat := do translateAs (← getH).mode va kind

/-- The parts of an access, cut where translations may change, each with its translation (R74, R81). The fault of a
straddling access names the first byte of the page that faults. -/
def translateParts (kind : AccKind) : List (Nat × Nat) → Act (List (Nat × Nat × Xlat))
  | [] => pure []
  | (va, n) :: ps => do
    let x ← translate va kind
    return (va, n, x) :: (← translateParts kind ps)
def translateRange (va n : Nat) (kind : AccKind) : Act (List (Nat × Nat × Xlat)) :=
  translateParts kind ((cutAt 65536 (n / 65536 + 2) va n).map fun (a, k) => (a % 2 ^ 64, k))

/-! The strip buffer. -/

/-- R40: a counted operation of the current hart has completed. -/
def lowerCounter (h : Hart) (c : Nat) : Hart :=
  if 6 ≤ c then h else { h with deps := h.deps.setIfInBounds c (h.deps[c]?.getD 0 - 1) }

/-- R370: an error becomes pending, behind those of earlier words. -/
def insertErr (e : PendingError) : List PendingError → List PendingError
  | [] => [e]
  | x :: xs => if e.order < x.order then e :: x :: xs else x :: insertErr e xs
def Hart.addErr (h : Hart) (e : PendingError) : Hart := { h with errs := insertErr e h.errs }

/-- R374, R370: a buffered store's write; a refusal or a merge into a flawed sector becomes a pending error. -/
def writeBuffered (b : Buffered) (s : State) : State :=
  let mode := if b.acc.user then Mode.user else if b.acc.entry = none then .machine else .supervisor
  let fail := fun (cause at' : Nat) (s : State) =>
    { s with h := s.h.addErr ⟨cause, word (b.acc.va + (at' - b.acc.pa)), b.order⟩ }
  match writeMasked (ctxOf s.cur mode b.acc.key b.acc.z) b.acc.pa b.bytes b.mask s with
  | .error (e, at') => fail e at' s
  | .ok (s1, none) => s1
  | .ok (s1, some at') => fail cUncorrectable at' s1
/-- R40: the current hart's counted store of a strip number completes. -/
def endStore (seq : Nat) (h : Hart) : Hart :=
  let mine := fun (o : CountedOp) => o.kind == .store seq
  match h.ops.find? mine with
  | none => h
  | some o => lowerCounter { h with ops := h.ops.filter fun o => !mine o } o.counter
/-- R85, R83, R370: the writes held since there were n of them are of an access: the entry that translated it, the addresses
the hart used, and its word's place in issue order. The last of them ends a counted store. -/
def stampAccess (n : Nat) (a : Access) (order : Nat) (store : Option Nat) (s : State) : State :=
  stampHeld n (fun last w => { w with
    va := a.va + (w.pa % 65536 - a.pa % 65536), entry := a.entry, order := order
    store := if last then store else none }) s

/-- R374: one buffered store performs. A counted store completes with it, or where it is held or on its way to a peer with
its acknowledgement (R85, R397). -/
def performBuffered (b : Buffered) (s : State) : State :=
  let s1 := writeBuffered b s
  if s.dev.heldWrites.length < s1.dev.heldWrites.length then
    stampAccess s.dev.heldWrites.length b.acc b.order (some b.seq) s1
  else { s1 with h := endStore b.seq s1.h }

/-- R374: every buffered store of the current hart performs, in the order issued. -/
def performStrip (s : State) : State :=
  let buf := s.h.strip.buf
  buf.foldl (fun s b => performBuffered b s)
    { s with h := { s.h with strip := { s.h.strip with buf := [] } } }

/-- R375: early commit, with its WHY. -/
def earlyCommit (why : Nat) (s : State) : State :=
  let s1 := performStrip s
  { s1 with h := { s1.h with strip := { s1.h.strip with early := true, why := why } } }
def commit (why : Nat) : Act Unit := modify (earlyCommit why)

/-- Read the parts of an access at their points of coherence, the hart's own buffered bytes laid over (R349). -/
def readParts : List (Access × Nat) → Act (List Byte × Option Nat)
  | [] => pure ([], none)
  | (a, n) :: ps => do
    let s ← get
    let held := (List.range n).map fun i => buffered s.h.strip.buf (a.pa + i)
    let (bs, bad) ← if held.all Option.isSome then pure (held.map fun o => o.getD 0, none) else do
      let mode := if a.user then Mode.user else if a.entry = none then .machine else .supervisor
      match physRead { ctxOf s.cur mode a.key a.z with moved := s.h.moved } a.pa n s with
      | .error (0, at') => waitFor (.hold at')
      | .error (e, at') => trapWith e (word (a.va + (at' - a.pa)))
      | .ok (s1, bs, bad) =>
        set s1
        pure (bs.zipIdx.map fun (b, i) => overlay s.h.strip.buf (a.pa + i) b, bad)
    let (rest, bad') ← readParts ps
    pure (bs ++ rest, bad.or bad')

/-- R135: the value a load of these bytes writes. -/
def loadValue (natural : Bool) (bs : List Byte) : Word :=
  let n := natOfBytes bs
  if natural then word n else BitVec.ofInt 64 (signed (8 * bs.length) n)

/-- The value of a load whose parts are read now. -/
def readValue (parts : List (Access × Nat)) (natural : Bool) : Act Word := do
  let (bs, bad) ← readParts parts
  match bad with
  | some a => throw (.poison a)
  | none => return loadValue natural bs
/-- An act that falls back on a value where it fails other than by waiting. -/
def orValue (act : Act Word) (v : Word) : Act Word := fun s =>
  match act s with
  | .error (.wait w) s1 => .error (.wait w) s1
  | .error _ s1 => .ok v s1
  | r => r
/-- R351, R376: an outstanding load performs: its value. Where its bytes can be read no more, or are poison, it has performed
at issue, where the fault would have been its own (R324). A read of a peer's memory performed there when it was sent
(log 44). -/
def loadNow (o : CountedOp) (parts : List (Access × Nat)) (natural : Bool) : Act Word := do
  match o.value, o.first with
  | some v, _ => return v
  | none, none => readValue parts natural
  | none, some v => if o.flit.isSome then return v else orValue (readValue parts natural) v

/-- R351: outstanding loads that must perform first perform now: `first` picks them. -/
def bindLoads (first : CountedOp → Bool) : Act Unit := do
  let n := (← getH).ops.length
  (List.range n).forM fun i => do
    match (← getH).ops[i]? with
    | some o =>
      match o.kind with
      | .load parts natural _ =>
        if first o && o.value.isNone then
          let v ← loadNow o parts natural
          modH fun h => { h with ops := h.ops.set i { o with value := some v } }
        else pure ()
      | _ => pure ()
    | none => pure ()

/-- R351: an outstanding load of the class, or overlapping the bytes. -/
def loadConflicts (cls : Option Nat) (parts : List (Nat × Nat)) (o : CountedOp) : Bool :=
  match o.kind with
  | .load ps _ c =>
    cls.isNone || cls == some c || ps.any fun (a, n) => parts.any fun (pa, k) => decide (a.pa < pa + k) && decide (pa < a.pa + n)
  | _ => false

/-- R277, R351: the control core's copies into the weight buffer, class c0, have been read, where a later access of the class
(none is every one), or of bytes that they overlap, must perform after them. -/
def weightsRead (cls : Option Nat) (parts : List (Nat × Nat)) : Act Unit := do
  let s ← get
  if s.h.role == .control then
    let cl := clusterOf s (coordCluster s.cur)
    let touch := cl.loader.any fun w => w.unread && w.parts.any fun (a, n) =>
      parts.any fun (pa, k) => decide (a.pa < pa + k) && decide (pa < a.pa + n)
    if loadsDue cl && (cls.isNone || cls == some 0 || touch) then waitFor .matrix

/-- R137, R403: every earlier access but the copies into the weight buffer performs: tuple requests, outstanding loads, then
the strip buffer. -/
def performOwn (why : Nat) : Act Unit := do
  if unstepped (← get) then waitFor .tuple
  bindLoads fun _ => true
  commit why
  if unstepped (← get) then waitFor .tuple

/-- R137, R277: every earlier access performs. -/
def performEarlier (why : Nat) : Act Unit := do
  weightsRead none []
  performOwn why

/-- R112, R114: a core's channels whose range from the watermark up an access of n bytes touches. -/
def channelsOver (s : State) (core va n : Nat) : List Channel :=
  (coreOf s core).channels.toList.filter fun c =>
    let wm := c.base + c.landed * 2 ^ c.esize
    let limit := c.base + c.expected * 2 ^ c.esize
    (c.state == .armed || c.state == .running || c.state == .failed) && decide (va < limit) && decide (wm < va + n)
def blockingChannels (s : State) (va n : Nat) : List Channel := channelsOver s (coreIndex s.cur) va n

/-- R112, R114: wait on the channels of the core for bytes va to va+n-1. -/
def watermark (va n : Nat) : Act Unit := do
  let chans := blockingChannels (← get) va n
  let low := fun (c : Channel) => max va (c.base + c.landed * 2 ^ c.esize)
  match (chans.filter fun c => c.state == .failed).map low with
  | a :: as => trapWith cChannelFailed (word (as.foldl min a))
  | [] => if chans.isEmpty then pure () else do
    commit 3
    waitFor (.channel va n)

/-- The record of a translated part. -/
def accessOf (s : State) (va : Nat) (x : Xlat) : Access :=
  ⟨va, x.pa, x.key, x.z, s.h.mode == .user, if s.h.mode = .machine then none else some x.entry⟩

/-- Checks of an ordinary access after its translation: page type (R80), alignment on DEVICE and STRONG (R135). -/
def plainChecks (va align : Nat) (parts : List (Nat × Nat × Xlat)) : Act Unit := do
  if parts.any fun p => p.2.2.typ == 4 then trapWith cType (word va)
  if parts.any (fun p => p.2.2.typ == 2 || p.2.2.typ == 3) && va % align != 0 then trapWith cAlign (word va)

/-- R374, R375, R80: what a load of the class does before it reads: on a STRONG page every earlier access performs. -/
def loadCommits (cls : Option Nat) (parts : List (Nat × Nat × Xlat)) : Act Unit := do
  if parts.any fun p => p.2.2.typ == 3 then performEarlier 2 else
  weightsRead cls (parts.map fun (_, n, x) => (x.pa, n))
  let h ← getH
  let held := parts.all fun (_, n, x) => (List.range n).all fun i => (buffered h.strip.buf (x.pa + i)).isSome
  if parts.any fun p => p.2.2.typ == 2 then
    bindLoads fun _ => true
    commit 2
  else
    bindLoads (loadConflicts cls (parts.map fun p => (p.2.2.pa, p.2.1)))
    if !held && h.strip.buf.any (fun b => cls.isNone || b.cls.isNone || b.cls == cls) then commit 3

/-- A load of n bytes at a virtual address, aligned to `align` on DEVICE pages, in a class (none is classless): the
bytes. Consuming poison ends the word (R67). -/
def loadBytes (cls : Option Nat) (va n align : Nat) : Act (List Byte) := do
  let parts ← translateRange va n .read
  plainChecks va align parts
  watermark va n
  loadCommits cls parts
  let s ← get
  let (bs, bad) ← readParts (parts.map fun (a, k, x) => (accessOf s a x, k))
  match bad with
  | some a => throw (.poison a)
  | none => pure bs

/-- R374: put a store into the strip buffer; a 1,025th sector commits it first. -/
def bufferStore (cls : Option Nat) (a : Access) (bs : List Byte) (mask : List Byte := []) : Act Nat := do
  let secs := fun (buf : List Buffered) =>
    (buf.flatMap fun b => (sectors b.acc.pa b.bytes.length).map fun p => p.1 / 32).dedup
  let h ← getH
  let new := ((sectors a.pa bs.length).map fun p => p.1 / 32).filter fun k => !(secs h.strip.buf).contains k
  if 1024 < (secs h.strip.buf).length + new.length then commit 1
  let seq := (← getH).strip.nextSeq
  modH fun h => { h with strip := { h.strip with
    buf := h.strip.buf ++ [⟨seq, a, bs, cls, mask, h.words⟩], nextSeq := seq + 1
    firstStore := some (h.strip.firstStore.getD h.clock) } }
  pure seq

/-- A write that performs at once, and whether it was not refused. A scalar store's refusal is precise; a vector element's is
pending (R370). -/
def tryWrite (vector : Bool) (a : Access) (bs : List Byte) (mask : List Byte := []) : Act Bool := do
  let s ← get
  let c := ctxOf s.cur s.h.mode a.key a.z
  let place := fun (p : Nat) => word (a.va + (p - a.pa))
  match writeMasked c a.pa bs mask s with
  | .error (0, p) => waitFor (.hold p)
  | .error (e, p) =>
    if vector then
      modH fun h => h.addErr ⟨e, place p, h.words⟩
      return false
    else trapWith e (place p)
  | .ok (s1, bad) =>
    set (stampAccess s.dev.heldWrites.length a s.h.words none s1)
    match bad with
    | some p => modH fun h => h.addErr ⟨cUncorrectable, place p, h.words⟩
    | none => pure ()
    return true
/-- R80: the same on a page of a type: what is held of a store to a STRONG page is marked. -/
def tryWriteOn (vector : Bool) (typ : Nat) (a : Access) (bs : List Byte) (mask : List Byte := []) : Act Bool := do
  let n := (← get).dev.heldWrites.length
  let ok ← tryWrite vector a bs mask
  if typ == 3 then modify (stampHeld n fun _ w => { w with strong := true })
  return ok
def writeNow (vector : Bool) (typ : Nat) (a : Access) (bs : List Byte) (mask : List Byte := []) : Act Unit := do
  let _ ← tryWriteOn vector typ a bs mask

/-- Store translated parts: buffered on NORMAL and WC pages (R374), at once on DEVICE and STRONG (R375 WHY 2). Answers the
number of the last buffered store. -/
def storeParts (cls : Option Nat) (vector : Bool) : List (Nat × Nat × Xlat) → List Byte → List Byte → Act (Option Nat)
  | [], _, _ => pure none
  | (va, n, x) :: ps, bs, mask => do
    let a := accessOf (← get) va x
    weightsRead cls [(x.pa, n)]
    let mine ← if x.typ == 2 || x.typ == 3 then do
        performEarlier 2
        writeNow vector x.typ a (bs.take n) (mask.take n)
        pure none
      else do
        bindLoads (loadConflicts cls [(x.pa, n)])
        let q ← bufferStore cls a (bs.take n) (mask.take n)
        pure (some q)
    return (← storeParts cls vector ps (bs.drop n) (mask.drop n)).or mine

/-- A store of bytes at a virtual address, in a class. -/
def storeBytes (cls : Option Nat) (va align : Nat) (bs : List Byte) : Act (Option Nat) := do
  let parts ← translateRange va bs.length .write
  plainChecks va align parts
  watermark va bs.length
  storeParts cls false parts bs []

/-! Pin slots (R81). -/

/-- The pins of a slot are released. -/
def releasePins (coord : Nat) (s : State) : State :=
  let c := coreOf s (coreIndex coord)
  if c.pins.any fun p => p.coord == coord then
    setCore (coreIndex coord) { c with pins := c.pins.filter fun p => p.coord != coord } s
  else s

def pinsHeld (c : CoreState) : Nat := ((c.pins.filter fun p => p.admitted).map fun p => p.pages.length).sum

/-- R81: the waiting instruction that is admitted next: the oldest, a PROMPT hart's ahead of the others. -/
def nextPin (s : State) (c : CoreState) : Option PinUse :=
  let ws := c.pins.filter fun p => !p.admitted
  (ws.find? fun p => ((hartAt s p.coord).map (·.cls)) == some 0).or ws.head?

/-- R81: admit the next waiting instruction of a core, if its slots are free. -/
def admitNext (core : Nat) (s : State) : State :=
  let c := coreOf s core
  match nextPin s c with
  | none => s
  | some w =>
    if pinsHeld c + w.pages.length ≤ 1024 then
      setCore core { c with pins := c.pins.map fun p => if p = w then { w with admitted := true } else p } s
    else s

/-- R81: pin the entries that the current word uses, or wait for admission. -/
def admitPins (pages : List (Nat × Nat × Nat)) : Act Unit := do
  if pages.isEmpty then return
  if 1024 < pages.length then trapWith cPins 0
  let s ← get
  let ci := coreIndex s.cur
  let mine := (coreOf s ci).pins.find? fun p => p.coord == s.cur
  match mine with
  | some p => if p.admitted then return
  | none =>
    modify fun s => let c := coreOf s ci; setCore ci { c with pins := c.pins ++ [⟨s.cur, pages, false⟩] } s
  modify (admitNext ci)
  let s ← get
  if !((coreOf s ci).pins.any fun p => p.coord == s.cur && p.admitted) then waitFor .pins

/-- Write translated parts at once. -/
def writeNowParts (vector : Bool) : List (Nat × Nat × Xlat) → List Byte → Act Unit
  | [], _ => pure ()
  | (a, n, x) :: ps, bs => do
    writeNow vector x.typ (accessOf (← get) a x) (bs.take n)
    writeNowParts vector ps (bs.drop n)

/-- A store that performs at once, after every earlier access (a release: R137). -/
def storeRelease (why va : Nat) (bs : List Byte) : Act Unit := do
  let parts ← translateRange va bs.length .write
  plainChecks va 1 parts
  watermark va bs.length
  performEarlier why
  writeNowParts false parts bs

end Sys2Proof.Machine
end

