-- ==== Sys2Proof/Machine/Num.lean ====
section
/-! DEFINITION. Number formats (R178 to R181) and exact arithmetic on the values they stand for. -/

namespace Sys2Proof.Machine

/-- R180: an interchange format: bits of exponent and of fraction. -/
structure Fmt where
  eb : Nat
  fb : Nat
  deriving DecidableEq, Repr

def fp64 : Fmt := ⟨11, 52⟩
def fp32 : Fmt := ⟨8, 23⟩
def fp16 : Fmt := ⟨5, 10⟩
def bf16 : Fmt := ⟨8, 7⟩

namespace Fmt
def width (F : Fmt) : Nat := 1 + F.eb + F.fb
def bias (F : Fmt) : Nat := 2 ^ (F.eb - 1) - 1
/-- The exponent of the smallest normal number, and of the smallest subnormal one. -/
def emin (F : Fmt) : Int := 1 - F.bias
def qmin (F : Fmt) : Int := F.emin - F.fb
/-- The patterns of infinity, of the largest finite number and of the sign bit. -/
def inf (F : Fmt) : Nat := (2 ^ F.eb - 1) * 2 ^ F.fb
def largest (F : Fmt) : Nat := F.inf - 1
def signBit (F : Fmt) : Nat := 2 ^ (F.eb + F.fb)
/-- R181: the canonical quiet NaN. -/
def canonNan (F : Fmt) : Nat := F.inf + 2 ^ (F.fb - 1)
end Fmt

/-- A value (R190): a NaN (signalling or not), an infinity, or a real: magnitude m * 2^e, and, when `more` holds,
something strictly between that and (m+1) * 2^e. -/
inductive Val where
  | nan (sig : Bool)
  | inf (neg : Bool)
  | num (neg : Bool) (m : Nat) (e : Int) (more : Bool)
  deriving DecidableEq, Repr

/-- R190: val(b, F). -/
def val (F : Fmt) (b : Nat) : Val :=
  let neg := bit b (F.eb + F.fb)
  let ex := bits b (F.eb + F.fb - 1) F.fb
  let fr := b % 2 ^ F.fb
  if ex = 2 ^ F.eb - 1 then (if fr = 0 then .inf neg else .nan (!bit b (F.fb - 1)))
  else if ex = 0 then .num neg fr F.qmin false
  else .num neg (2 ^ F.fb + fr) (F.qmin + (ex - 1 : Nat)) false

/-- m * 2^k as a natural number, k not negative. -/
def shiftUp (m : Nat) (k : Int) : Nat := m * 2 ^ k.toNat

/-- The finest exponent that an inexact real is held at: below every format's half quantum. -/
def fine : Int := -1200

def ofInt (i : Int) : Val := .num (decide (i < 0)) i.natAbs 0 false

/-- The integer below a real at exponent e, and whether it lies strictly above it. e is at most the real's own. -/
def floorAt (e : Int) : Val → Int × Bool
  | .num neg m e' more =>
    let k := shiftUp m (e' - e)
    if neg then (if more then (-(k : Int) - 1, true) else (-(k : Int), false)) else (k, more)
  | _ => (0, false)
/-- A real from the integer below it. -/
def ofFloor (lo : Int) (e : Int) (more : Bool) : Val :=
  if lo < 0 then .num true (if more then (-lo - 1).toNat else (-lo).toNat) e more else .num false lo.toNat e more

namespace Val
def isNan : Val → Bool
  | .nan _ => true
  | _ => false
def isSig : Val → Bool
  | .nan s => s
  | _ => false
def isInf : Val → Bool
  | .inf _ => true
  | _ => false
def finite : Val → Bool
  | .num .. => true
  | _ => false
def isZero : Val → Bool
  | .num _ m _ more => m == 0 && !more
  | _ => false
def negative : Val → Bool
  | .nan _ => false
  | .inf n => n
  | .num n _ _ _ => n
def negate : Val → Val
  | .nan s => .nan s
  | .inf n => .inf (!n)
  | .num n m e more => .num (!n) m e more
def abs : Val → Val
  | .nan s => .nan s
  | .inf _ => .inf false
  | .num _ m e more => .num false m e more
def expOf : Val → Int
  | .num _ _ e _ => e
  | _ => 0
/-- A real times 2^k. -/
def scale (k : Int) : Val → Val
  | .num n m e more => .num n m (e + k) more
  | v => v

/-- The sum of two reals; `down` is RDN's sign of an exact zero (R181). At most one has `more`. -/
def addReal (down : Bool) (a b : Val) : Val :=
  if a.isZero && b.isZero then .num (if a.negative = b.negative then a.negative else down) 0 0 false
  else
    let e := min a.expOf b.expOf
    let (x, mx) := floorAt e a
    let (y, my) := floorAt e b
    if x + y = 0 && !(mx || my) then .num down 0 e false else ofFloor (x + y) e (mx || my)

/-- The order of two numbers that are not NaN: -1, 0 or 1; zeros are equal. -/
def cmp (a b : Val) : Int :=
  match a, b with
  | .inf x, .inf y => if x = y then 0 else if x then -1 else 1
  | .inf x, _ => if x then -1 else 1
  | _, .inf y => if y then 1 else -1
  | _, _ =>
    let e := min a.expOf b.expOf
    let (x, mx) := floorAt e a
    let (y, my) := floorAt e b
    if x < y then -1 else if y < x then 1 else if mx = my then 0 else if my then -1 else 1
end Val

/-- The sum of many exact reals: +0 for none, -0 when every one is -0. -/
def sumReals (vs : List Val) : Val :=
  match vs with
  | [] => .num false 0 0 false
  | v :: rest => rest.foldl (Val.addReal false) v

/-- n / d as a real of a sign: exact when it divides, else at exponent `fine`. -/
def quotient (neg : Bool) (m : Nat) (em : Int) (d : Nat) (ed : Int) : Val :=
  let k := em - ed - fine
  let n := if 0 ≤ k then m * 2 ^ k.toNat else m
  let d' := if 0 ≤ k then d else d * 2 ^ (-k).toNat
  .num neg (n / d') fine (n % d' != 0)

/-- The integer square root, bit by bit from bit i downward. -/
def sqrtFrom (n : Nat) : Nat → Nat → Nat
  | 0, r => r
  | i + 1, r => let c := r + 2 ^ i; sqrtFrom n i (if c * c ≤ n then c else r)
def isqrt (n : Nat) : Nat := sqrtFrom n (Nat.log2 n / 2 + 1) 0

/-- The square root of m * 2^e, at exponent `fine`. -/
def rootReal (m : Nat) (e : Int) : Val :=
  let k := e - 2 * fine
  let n := if 0 ≤ k then m * 2 ^ k.toNat else m / 2 ^ (-k).toNat
  let r := isqrt n
  .num false r fine (r * r != n || (k < 0 && m % 2 ^ (-k).toNat != 0))

/-- floor(log2 |v|) of a finite non-zero v (R190). -/
def expo : Val → Int
  | .num _ m e _ => Nat.log2 m + e
  | _ => 0

end Sys2Proof.Machine
end

