-- ==== Sys2Proof/Machine/Flags.lean ====
section
/-! DEFINITION. Rounding with its flags (R182, R188, R190), and the arithmetic that sets flags: each operation answers a
pattern and the flags it raises, as FCSR's bits 4 to 0. -/

namespace Sys2Proof.Machine

/-! FCSR's flags (R182). -/
def flNX : Nat := 1
def flUF : Nat := 2
def flOF : Nat := 4
def flDZ : Nat := 8
def flNV : Nat := 16
def flagIf (c : Bool) (f : Nat) : Nat := if c then f else 0
def orFlags (fs : List Nat) : Nat := fs.foldl Nat.lor 0

/-- R188: rounding modes, in the coding of RM and RND; rmm, to nearest with ties away from zero, is the engines' cores' alone
(R115). EFB rounds as RNE here (R190). -/
inductive Rnd where
  | rne | rtz | rdn | rup | rmm
  deriving DecidableEq, Repr
def rndOf (n : Nat) : Rnd := if n = 1 then .rtz else if n = 2 then .rdn else if n = 3 then .rup else .rne

/-- Whether a magnitude with a fraction above it rounds up: lsb, the fraction against one half (-1, 0, 1). -/
def roundsUp (r : Rnd) (neg lsb : Bool) (half : Int) : Bool :=
  match r with
  | .rne => decide (0 < half) || (half == 0 && lsb)
  | .rtz => false
  | .rdn => neg
  | .rup => !neg
  | .rmm => decide (0 ≤ half)

/-- m2 / 2^k rounded to an integer, and whether that was inexact. -/
def roundShift (r : Rnd) (neg : Bool) (m2 : Nat) (k : Nat) : Nat × Bool :=
  let q := m2 / 2 ^ k
  let rem := m2 % 2 ^ k
  let half : Int := if k = 0 then -1 else if 2 ^ (k - 1) < rem then 1 else if rem = 2 ^ (k - 1) then 0 else -1
  (if rem != 0 && roundsUp r neg (q % 2 == 1) half then q + 1 else q, rem != 0)

/-- m2 * 2^e at the quantum 2^q: an integer and whether inexact. -/
def roundTo (r : Rnd) (neg : Bool) (m2 : Nat) (e q : Int) : Nat × Bool :=
  if q ≤ e then (m2 * 2 ^ (e - q).toNat, false) else roundShift r neg m2 (q - e).toNat

/-- R188: round a non-zero real to a format. -/
def roundReal (F : Fmt) (r : Rnd) (neg : Bool) (m : Nat) (e : Int) (more : Bool) : Nat × Nat :=
  let m2 := 2 * m + (if more then 1 else 0)
  let e2 := e - 1
  let ex := Nat.log2 m2 + e2
  let q := max (ex - F.fb) F.qmin
  let (mant, inexact) := roundTo r neg m2 e2 q
  let pat := (q - F.qmin).toNat * 2 ^ F.fb + mant
  let sign := if neg then F.signBit else 0
  if F.inf ≤ pat then
    let toInf := match r with
      | .rne => true
      | .rtz => false
      | .rdn => neg
      | .rup => !neg
      | .rmm => true
    (sign + (if toInf then F.inf else F.largest), flOF + flNX)
  else
    let tiny := decide (ex < F.emin) && decide ((roundTo r neg m2 e2 (ex - F.fb)).1 < 2 ^ (F.fb + 1) ∨ ex + 1 < F.emin)
    (sign + pat, flagIf inexact flNX + flagIf (inexact && tiny) flUF)

/-- R190: round(v, F, m); a NaN gives the canonical NaN. -/
def round (F : Fmt) (r : Rnd) : Val → Nat × Nat
  | .nan _ => (F.canonNan, 0)
  | .inf n => ((if n then F.signBit else 0) + F.inf, 0)
  | .num n m e more =>
    if m = 0 && !more then (if n then F.signBit else 0, 0) else roundReal F r n m e more

/-! Exact operations on values, with NV. -/

def sigFlag (vs : List Val) : Nat := flagIf (vs.any Val.isSig) flNV

/-- a + b; `down` is RDN. -/
def addVal (down : Bool) (a b : Val) : Val × Nat :=
  match a, b with
  | .nan _, _ => (.nan false, sigFlag [a, b])
  | _, .nan _ => (.nan false, sigFlag [a, b])
  | .inf x, .inf y => if x = y then (.inf x, 0) else (.nan false, flNV)
  | .inf x, _ => (.inf x, 0)
  | _, .inf y => (.inf y, 0)
  | _, _ => (Val.addReal down a b, 0)

/-- a * b. -/
def mulVal (a b : Val) : Val × Nat :=
  let neg := a.negative != b.negative
  match a, b with
  | .nan _, _ => (.nan false, sigFlag [a, b])
  | _, .nan _ => (.nan false, sigFlag [a, b])
  | .inf _, _ => if b.isZero then (.nan false, flNV) else (.inf neg, 0)
  | _, .inf _ => if a.isZero then (.nan false, flNV) else (.inf neg, 0)
  | .num _ m e _, .num _ n f _ => (.num neg (m * n) (e + f) false, 0)

/-- a / b. -/
def divVal (a b : Val) : Val × Nat :=
  let neg := a.negative != b.negative
  match a, b with
  | .nan _, _ => (.nan false, sigFlag [a, b])
  | _, .nan _ => (.nan false, sigFlag [a, b])
  | .inf _, .inf _ => (.nan false, flNV)
  | .inf _, _ => (.inf neg, 0)
  | _, .inf _ => (.num neg 0 0 false, 0)
  | .num _ m e _, .num _ n f _ =>
    if n = 0 then (if m = 0 then (.nan false, flNV) else (.inf neg, flDZ))
    else (quotient neg m e n f, 0)

/-- The square root; that of -0 is -0. -/
def sqrtVal (a : Val) : Val × Nat :=
  match a with
  | .nan s => (.nan false, flagIf s flNV)
  | .inf n => if n then (.nan false, flNV) else (.inf false, 0)
  | .num n m e _ => if m = 0 then (a, 0) else if n then (.nan false, flNV) else (rootReal m e, 0)

/-- a * b + c with one rounding to come; an infinity times zero raises NV whatever c is. -/
def fmaVal (down : Bool) (a b c : Val) : Val × Nat :=
  let (p, f) := mulVal a b
  let (s, g) := addVal down p c
  (s, Nat.lor f g)

/-- Round an exact result, with its flags. -/
def roundWith (F : Fmt) (r : Rnd) (v : Val × Nat) : Nat × Nat :=
  let (b, f) := round F r v.1
  (b, Nat.lor v.2 f)

/-- Whether a sum's exact zero is negative (R181). -/
def Rnd.down (r : Rnd) : Bool := r == .rdn

def addF (F : Fmt) (r : Rnd) (a b : Nat) : Nat × Nat := roundWith F r (addVal r.down (val F a) (val F b))

/-- R190: fmin_num and fmax_num, on patterns. -/
def minMax (F : Fmt) (isMax : Bool) (a b : Nat) : Nat × Nat :=
  let x := val F a
  let y := val F b
  let f := sigFlag [x, y]
  if x.isNan && y.isNan then (F.canonNan, f)
  else if x.isNan then (b, f)
  else if y.isNan then (a, f)
  else
    let less := if x.isZero && y.isZero then x.negative && !y.negative else decide (x.cmp y < 0)
    (if isMax then (if less then b else a) else if less || x.cmp y = 0 && !(y.negative && !x.negative) then a else b, f)

/-- A real rounded to an integer, and whether inexactly. -/
def roundInt (r : Rnd) (neg : Bool) (m : Nat) (e : Int) (more : Bool) : Int × Bool :=
  let (k, ix) := roundTo r neg (2 * m + (if more then 1 else 0)) (e - 1) 0
  (if neg then -(k : Int) else k, ix)

/-- R190: sat(v, n, S). -/
def loOf (n : Nat) (sgn : Bool) : Int := if sgn then -(2 ^ (n - 1) : Int) else 0
def hiOf (n : Nat) (sgn : Bool) : Int := if sgn then 2 ^ (n - 1) - 1 else 2 ^ n - 1
def sat (v : Int) (n : Nat) (sgn : Bool) : Int := max (loOf n sgn) (min v (hiOf n sgn))

/-- R190: cvt_int(v, n, S, m). -/
def cvtInt (v : Val) (n : Nat) (sgn : Bool) (r : Rnd) : Int × Nat :=
  match v with
  | .nan _ => (0, flNV)
  | .inf neg => (if neg then loOf n sgn else hiOf n sgn, flNV)
  | .num neg m e more =>
    let (k, ix) := roundInt r neg m e more
    if sat k n sgn ≠ k then (sat k n sgn, flNV) else (k, flagIf ix flNX)

/-! Sums (R193, R194). -/

/-- R193: the ordered sum over the present elements. -/
def sumO (F : Fmt) (r : Rnd) (acc : Nat) (xs : List (Option Nat)) : Nat × Nat :=
  xs.foldl (fun (a, f) x =>
    match x with
    | none => (a, f)
    | some b => let (s, g) := addF F r a b; (s, Nat.lor f g)) (acc, 0)

/-- One level of the tree: neighbours added. -/
def pairUp (F : Fmt) (r : Rnd) : List (Option Nat) → List (Option Nat) × Nat
  | a :: b :: t =>
    let (rest, f) := pairUp F r t
    match a, b with
    | some x, some y => let (s, g) := addF F r x y; (some s :: rest, Nat.lor f g)
    | x, y => (x.or y :: rest, f)
  | l => (l, 0)
/-- R194: the tree sum: none when nothing is present. -/
def treeLevels (F : Fmt) (r : Rnd) : Nat → List (Option Nat) → Option Nat × Nat
  | 0, l => (l.headD none, 0)
  | n + 1, l =>
    let (l', f) := pairUp F r l
    let (x, g) := treeLevels F r n l'
    (x, Nat.lor f g)
def sumT (F : Fmt) (r : Rnd) (xs : List (Option Nat)) : Option Nat × Nat :=
  treeLevels F r (Nat.log2 xs.length + 1) xs

/-- R195's exact block sum: S of products, with NV. -/
def blockSum (ps : List (Val × Val)) : Val × Nat :=
  let prods := ps.map fun (a, b) => mulVal a b
  let f := orFlags (prods.map (·.2))
  let vs := prods.map (·.1)
  let posInf := vs.any (fun v => v == .inf false)
  let negInf := vs.any (fun v => v == .inf true)
  if vs.any Val.isNan then (.nan false, Nat.lor f (flagIf (posInf && negInf) flNV))
  else if posInf && negInf then (.nan false, flNV)
  else if posInf then (.inf false, f)
  else if negInf then (.inf true, f)
  else (sumReals vs, f)

/-- Groups of n elements. -/
def groupsOf {α : Type} (n : Nat) : Nat → List α → List (List α)
  | 0, _ => []
  | fuel + 1, l => if l.isEmpty then [] else l.take n :: groupsOf n fuel (l.drop n)

/-- R195: mac_fp32 over BF16 values. -/
def macFp32 (acc : Nat) (ps : List (Val × Val)) : Nat × Nat :=
  (groupsOf 16 (ps.length / 16 + 1) ps).foldl (fun (a, f) blk =>
    let (s, g) := blockSum blk
    let (y, h) := roundWith fp32 .rne (addVal false (val fp32 a) s)
    (y, orFlags [f, g, h])) (acc, 0)

/-- R197: slices(x, s): E, and the digits d[t] of each element for t = 1 .. s. -/
def slicesOf (xs : List Val) (s : Nat) : Int × List (List Int) :=
  let es := (xs.filter fun v => !v.isZero).map expo
  let ex := match es with
    | [] => 0
    | e :: rest => rest.foldl max e
  let digits := fun (v : Val) =>
    match v with
    | .num neg m e _ =>
      let k := e + 7 * s - ex - 1
      let y := if 0 ≤ k then m * 2 ^ k.toNat else m / 2 ^ (-k).toNat
      (List.range s).map fun t =>
        let d : Int := y / 2 ^ (7 * (s - (t + 1))) % 128
        if neg then -d else d
    | _ => List.replicate s 0
  (ex, xs.map digits)

/-- R197: dot_slices: the exact sum, and its rounding; R198 for NaNs and infinities. -/
def dotSlices (a b : List Val) (s : Nat) : Val × Nat :=
  if (a ++ b).any fun v => !v.finite then (.nan false, flNV) else
  let (ea, da) := slicesOf a s
  let (eb, db) := slicesOf b s
  let pair := fun (x y : List Int) =>
    ((x.zipIdx 1).map fun ((dx : Int), t) => ((y.zipIdx 1).map fun ((dy : Int), u) =>
      if t + u ≤ s + 1 then dx * dy * ((2 ^ (7 * (2 * s - t - u)) : Nat) : Int) else (0 : Int)).sum).sum
  let t : Int := ((da.zip db).map fun (x, y) => pair x y).sum
  let (p, f) := round fp64 .rne (.num (decide (t < 0)) t.natAbs (ea + eb + 2 - 14 * s) false)
  (val fp64 p, f)

end Sys2Proof.Machine
end

