-- ==== Sys2Proof/Machine/Coding.lean ====
section
/-! DEFINITION. Codes and coefficients: the layout of elements (R140, R155), codebooks (R163, R184, R185), Haar blocks
(R291 to R294) and vtype words (R24, R156). -/

namespace Sys2Proof.Machine

/-! Elements in a row. -/

/-- R155: the place of element i. -/
def elemAt (sew i : Nat) : Nat := if sew = 6 then 32 * (i / 5) + 6 * (i % 5) else sew * i
/-- R190: elem. -/
def getElem (row : Nat) (sew i : Nat) : Nat := row / 2 ^ elemAt sew i % 2 ^ sew
/-- Element i replaced; at SEW 6 bits 30 and 31 of its word become zero (R154). -/
def setElem (row : Nat) (sew i v : Nat) : Nat :=
  let r := setBits row (elemAt sew i + sew - 1) (elemAt sew i) v
  if sew = 6 then setBits r (32 * (i / 5) + 31) (32 * (i / 5) + 30) 0 else r

/-! vtype words. -/

def sewOf (w : Word) : Nat := [4, 6, 8, 16, 32, 64, 128].getD (wbits w 2 0) 0
def fmtINT : Nat := 0
def fmtFLOAT : Nat := 1
def fmtBF16 : Nat := 2
def fmtCODE : Nat := 3
def fmtGEOM : Nat := 4

/-- R24: a slot's contents. -/
structure VType where
  word : Word
  sew : Nat
  fmt : Nat
  rows : Nat
  tailZero : Bool
  maskZero : Bool
  rnd : Nat
  cb : Nat
  scope : Nat
  deriving DecidableEq, Repr
def vtypeOf (w : Word) : VType :=
  ⟨w, sewOf w, wbits w 5 3, wbits w 8 6 + 1, wbit w 9, wbit w 10, wbits w 13 11, wbits w 15 14, wbits w 19 16⟩

/-- R156: legal vtype words. -/
def vtypeLegal (w : Word) : Bool :=
  let v := vtypeOf w
  wbits w 63 20 == 0 && decide (v.rnd ≤ 4) && decide (v.scope ≤ 8) &&
    (match v.fmt with
      | 0 => [4, 8, 16, 32, 64].contains v.sew
      | 1 => [16, 32, 64].contains v.sew
      | 2 => v.sew == 16
      | 3 => [4, 6, 8].contains v.sew
      | 4 => v.sew == 128
      | _ => false)

/-- The floating-point format of a slot, if it has one. -/
def VType.float (v : VType) : Option Fmt :=
  if v.fmt = fmtBF16 then some bf16
  else if v.fmt = fmtFLOAT then (if v.sew = 16 then some fp16 else if v.sew = 32 then some fp32 else some fp64)
  else none

/-- R154: MAXVL at a span of 2^lg. -/
def maxVl (sew lg : Nat) : Nat :=
  if sew = 6 then 640 * 2 ^ lg else if sew = 128 then 32 * 2 ^ lg else 4096 * 2 ^ lg / sew

/-! Codebooks. -/

/-- R163, R184: the exact value of an entry. -/
def entryVal (scale : Int) (b : BitVec 16) : Val := (val bf16 b.toNat).scale scale
/-- R184: cb_decode. -/
def cbDecode (c : CodeSlot) (j : Nat) : Val := entryVal c.scale (c.entries[j]?.getD 0)
/-- R185: the nearest entry, the lower on equal distances. -/
def nearest (v : Val) : List Val → Nat → Nat × Val → Nat
  | [], _, best => best.1
  | c :: cs, i, best =>
    let d := if c.finite then (Val.addReal false v c.negate).abs else .inf false
    if d.cmp best.2 < 0 then nearest v cs (i + 1) (i, d) else nearest v cs (i + 1) best
/-- R185: cb_encode. -/
def cbEncode (c : CodeSlot) (v : Val) : Nat × Nat :=
  match v with
  | .nan _ => (0, flNV)
  | .inf n => (if n then 0 else c.entries.length - 1, 0)
  | .num .. =>
    let j := nearest v (c.entries.map (entryVal c.scale)) 0 (0, .inf false)
    (j, flagIf ((cbDecode c j).cmp v != 0) flNX)

/-- R175, R275, R286: the first entry that is a NaN or not above the one before it. -/
def tableFault (es : List (BitVec 16)) : Option Nat :=
  (List.range es.length).find? fun i =>
    let v := val bf16 (es[i]?.getD 0).toNat
    v.isNan || (i != 0 && (let u := val bf16 (es[i - 1]?.getD 0).toNat; u.isNan || !decide (u.cmp v < 0)))

/-- BF16 entries of a byte table. -/
def entriesOf (n : Nat) (bs : List Byte) : List (BitVec 16) :=
  (List.range n).map fun i => BitVec.ofNat 16 (leAt bs (2 * i) 2)

/-! Haar blocks: a column is the list of its eight patterns. -/

/-- Half the sum or half the difference, one rounding (R292). -/
def halfF (F : Fmt) (x y : Nat) (minus : Bool) : Nat × Nat :=
  let b := val F y
  let (v, f) := addVal false (val F x) (if minus then b.negate else b)
  roundWith F .rne (v.scale (-1), f)
/-- The sum or difference, one rounding (R293). -/
def sumF (F : Fmt) (x y : Nat) (minus : Bool) : Nat × Nat :=
  let b := val F y
  roundWith F .rne (addVal false (val F x) (if minus then b.negate else b))

/-- One level of the forward transform on the first 2h rows. -/
def haarStep (F : Fmt) (h : Nat) (c : List Nat) : List Nat × Nat :=
  let at' := fun i => c.getD i 0
  let a := (List.range h).map fun m => halfF F (at' (2 * m)) (at' (2 * m + 1)) false
  let d := (List.range h).map fun m => halfF F (at' (2 * m)) (at' (2 * m + 1)) true
  ((a ++ d).map (·.1) ++ c.drop (2 * h), orFlags ((a ++ d).map (·.2)))
/-- R292: the forward transform to L levels. -/
def haarForward (F : Fmt) (levels : Nat) (col : List Nat) : List Nat × Nat :=
  (List.range levels).foldl (fun (c, f) l =>
    let (c', g) := haarStep F (4 / 2 ^ l) c
    (c', Nat.lor f g)) (col, 0)

/-- One level of reconstruction. -/
def haarBack (F : Fmt) (h : Nat) (c : List Nat) : List Nat × Nat :=
  let at' := fun i => c.getD i 0
  let ys := (List.range h).flatMap fun m =>
    [sumF F (at' m) (at' (h + m)) false, sumF F (at' m) (at' (h + m)) true]
  (ys.map (·.1) ++ c.drop (2 * h), orFlags (ys.map (·.2)))
/-- R293: reconstruction from L levels. -/
def haarInverse (F : Fmt) (levels : Nat) (col : List Nat) : List Nat × Nat :=
  (List.range levels).foldl (fun (c, f) l =>
    let (c', g) := haarBack F (8 / 2 ^ (levels - l)) c
    (c', Nat.lor f g)) (col, 0)

/-- R291: the level whose detail row r holds, 0 for an approximation row. -/
def detailLevel (levels r : Nat) : Nat :=
  if r < 8 / 2 ^ levels then 0 else if r < 2 then 3 else if r < 4 then 2 else 1

/-- R294: threshold one coefficient of row r, whose bits x have the value v. -/
def thresholdVal (v : Val) (w : Word) (levels r x : Nat) : Nat :=
  match detailLevel levels r with
  | 0 => x
  | l + 1 =>
    if !v.isNan && decide (v.abs.cmp (val bf16 (wbits w (16 * l + 15) (16 * l))) < 0) then 0 else x

def thresholdOne (F : Fmt) (w : Word) (levels r x : Nat) : Nat := thresholdVal (val F x) w levels r x

/-! Row tags (R162). -/
def tagHaar (t : BitVec 6) : Bool := bit t.toNat 0
def tagLevels (t : BitVec 6) : Nat := bits t.toNat 2 1
def tagThr (t : BitVec 6) : Nat := bits t.toNat 5 3
def haarTag (levels thr : Nat) : BitVec 6 := BitVec.ofNat 6 (1 + 2 * levels + 8 * thr)

/-- R204: the LEVELS of eight rows' tags that form a well-formed block. -/
def blockLevels (tags : List (BitVec 6)) : Option Nat :=
  match tags with
  | [] => none
  | t :: _ => if tags.all fun u => tagHaar u && tagLevels u == tagLevels t then some (tagLevels t) else none

end Sys2Proof.Machine
end

