-- ==== Sys2Proof/Machine/Sequencer.lean ====
section
/-! DEFINITION. The matrix engine's own agents: the weight loader (R277, R278), the decompressor (R275, R276), the four
sequencers (R281 to R285) and the drain (R287), one step at a time. -/

namespace Sys2Proof.Machine

/-- A cluster's quadrant. -/
def quadOf (s : State) (c q : Nat) : Quadrant := (clusterOf s c).quads[q]?.getD {}
def setQuad (c q : Nat) (v : Quadrant) (s : State) : State :=
  let cl := clusterOf s c
  setCluster c { cl with quads := cl.quads.setIfInBounds q v } s

/-- R279: OR flags into the control core's MSTAT. -/
def raiseMstat (c f : Nat) (s : State) : State :=
  match hartAt s (matrixCoord c) with
  | some h => setHart (matrixCoord c) { h with mx := { h.mx with mstat := h.mx.mstat ||| word f } } s
  | none => s

/-- R279: MTYPE's fields. -/
def mtMode (w : Word) : Nat := wbits w 1 0
def mtSlices (w : Word) : Nat := wbits w 6 4

/-! The weight buffer. -/

/-- Granules of the buffer (R275). -/
def granules : Nat := 196608
/-- R282: the FORMs a mode accepts. -/
def formAllowed (mode form : Nat) : Bool :=
  if mode = 1 then form == 1 else if mode = 2 then form == 6 else form == 0 || (2 ≤ form && form ≤ 5)
/-- The width of a FORM's codes; none without a codebook. -/
def formSew (form : Nat) : Option Nat := if form = 2 then some 4 else if form = 3 then some 6 else if form = 4 then some 8 else none

/-- Set bits of bytes. -/
def popBytes (bs : List Byte) : Nat := (bs.map fun b => ((List.range 8).filter fun i => bit b.toNat i).length).sum

/-- R275, R276, R277: the block at granule g, or the ERR with which the fetch stops. -/
def blockAt (cl : Cluster) (g mode : Nat) : Except Nat (List Byte) :=
  if granules ≤ g then .error 2 else
  if cl.poisoned.contains g then .error 3 else
  let hd := weightBytes cl g 64
  let form := leAt hd 0 1
  let nnz := leAt hd 4 4
  if !formAllowed mode form || (leAt hd 1 1 != 0 && (formSew form).isNone) || leAt hd 2 2 != 0
    || (nnz != 0 && form != 5) || leAt hd 8 56 != 0 then .error 1 else
  let k := blockGranules cl g
  if granules < g + k then .error 2 else
  if (List.range k).any fun i => cl.poisoned.contains (g + i) then .error 3 else
  let size := payloadSize form nnz
  let body := weightBytes cl (g + 1) (64 * (k - 1))
  let badTable := match formSew form with
    | some w => (tableFault (entriesOf (2 ^ w) body)).isSome
    | none => false
  if badTable || (form == 5 && popBytes (body.take 8192) != nnz) || (body.drop size).any (· != 0) then .error 1
  else .ok (hd ++ body)

/-- The first c runs of n bytes. -/
def chunks (n : Nat) : Nat → List Byte → List (List Byte)
  | 0, _ => []
  | c + 1, bs => bs.take n :: chunks n c (bs.drop n)

/-- Packed codes (R140). -/
def codesOf (sew : Nat) (bs : List Byte) : List Nat :=
  if sew = 4 then bs.flatMap fun b => [b.toNat % 16, b.toNat / 16]
  else if sew = 6 then (chunks 4 ((bs.length + 3) / 4) bs).flatMap fun c =>
    (List.range 5).map fun i => bits (natOfBytes c) (6 * i + 5) (6 * i)
  else bs.map fun b => b.toNat

/-- R276: the values of FORM 5: those listed stand where the bitmap is set. -/
def sparseVals : List Bool → List Val → List Val
  | [], _ => []
  | true :: bs, v :: vs => v :: sparseVals bs vs
  | _ :: bs, vs => .num false 0 0 false :: sparseVals bs vs

/-- R276: the n values of a block's B, in order. -/
def blockVals (n : Nat) (bs : List Byte) : List Val :=
  let form := leAt bs 0 1
  let body := bs.drop 64
  let wide := fun (F : Fmt) (w n : Nat) (bs : List Byte) => (chunks w n bs).map fun c => val F (natOfBytes c)
  match formSew form with
  | some w =>
    let table := (wide bf16 2 (2 ^ w) body).map fun v => v.scale (signed 8 (leAt bs 1 1))
    ((codesOf w (body.drop (2 * 2 ^ w))).take n).map fun c => table.getD c (.num false 0 0 false)
  | none =>
    if form = 0 then wide bf16 2 n body
    else if form = 5 then
      sparseVals ((body.take (n / 8)).flatMap fun b => (List.range 8).map fun i => bit b.toNat i)
        (wide bf16 2 (leAt bs 4 4) (body.drop (n / 8)))
    else if form = 6 then wide fp64 8 n body
    else (body.take n).map fun b => ofInt b.toInt

/-! Accumulator rows (R280). -/

/-- The bits of an accumulator's value, and the number of values, in a mode. -/
def accWidth (mode : Nat) : Nat := if mode = 2 then 64 else 32
def accCount (mode : Nat) : Nat := if mode = 2 then 128 else 256
def accVals (mode : Nat) (b : BitVec 8192) : List Nat :=
  (List.range (accCount mode)).map fun i => getElem b.toNat (accWidth mode) i
def packRow (sew : Nat) (vs : List Nat) : Nat :=
  (vs.zipIdx).foldl (fun r (v, i) => setElem r sew i v) 0

/-- A list cut into rows of k values. -/
def rowsOf {α : Type} (k : Nat) : Nat → List α → List (List α)
  | 0, _ => []
  | c + 1, l => l.take k :: rowsOf k c (l.drop k)
/-- R276: a block's columns: element 256k + n (128k + n in FP64 mode) is B's at row k and column n. -/
def blockColumns (mode : Nat) (bs : List Byte) : List (List Val) :=
  let k := accCount mode
  let rows := rowsOf k k (blockVals (k * k) bs)
  (List.range k).map fun n => rows.map fun r => r.getD n (.num false 0 0 false)

/-- R282, R195 to R198: one accumulator value plus the product of an A row and a column. -/
def macOne (mode slices : Nat) (acc : Nat) (a : List Val) (b : List Val) : Nat × Nat :=
  if mode = 1 then
    let num := fun (v : Val) => (match v with
      | .num n m _ _ => if n then -(m : Int) else m
      | _ => 0)
    (wrap 32 ((acc : Int) + ((a.zip b).map fun (x, y) => num x * num y).sum), 0)
  else if mode = 2 then
    let (d, f) := dotSlices a b slices
    let (y, g) := roundWith fp64 .rne (addVal false (val fp64 acc) d)
    (y, Nat.lor f g)
  else macFp32 acc (a.zip b)

/-- R273: the values of an A port row. -/
def aRowVals (r : PortRow) : List Val :=
  r.vals.map fun x =>
    if r.fmt = fmtINT then ofInt (signed 8 x) else if r.fmt = fmtBF16 then val bf16 x else val fp64 x
/-- R282: the A row format of a mode. -/
def aRowMatches (mode : Nat) (r : PortRow) : Bool :=
  if mode = 1 then r.fmt == fmtINT else if mode = 2 then r.fmt == fmtFLOAT else r.fmt == fmtBF16

/-! Commands. -/

/-- How a step of a sequencer ends: it waits (on a port, at an interruption point or not), it has moved (and is at an
interruption point or not), or its command has ended. -/
inductive SeqOut where
  | waits (point : Bool)
  | moved (point : Bool)
  | ended
  deriving DecidableEq, Repr

/-- The command finishes: MSEQ becomes 0 (R285). -/
def seqFinish (c q : Nat) (s : State) : State :=
  setQuad c q { quadOf s c q with running := false, seq := 0, block := [] } s
/-- R283: the sequencer stops with an error. -/
def seqFail (c q err : Nat) (s : State) : State :=
  let k := quadOf s c q
  setQuad c q { k with running := false, seq := wset (wset (wset k.seq 63 63 1) 62 62 1) 58 56 err } s
/-- R284: the sequencer stops at a point. -/
def seqHalt (c q : Nat) (s : State) : State :=
  let k := quadOf s c q
  if k.running then setQuad c q { k with running := false, seq := wset (wset k.seq 63 63 1) 62 62 1, block := [] } s else s

/-- R278: an earlier MLDB still has to write one of these granules. -/
def loaderPending (cl : Cluster) (order g k : Nat) : Bool :=
  cl.loader.any fun w => decide (w.order < order) && decide (w.granule < g + k) && decide (g < w.granule + w.count)

/-- R276: fetch k-block `kb` of quadrant q's MMAC: none while it waits. -/
def fetchBlock (c q : Nat) (s : State) : Option (Except Nat (List Byte)) :=
  let k := quadOf s c q
  let cl := clusterOf s c
  if loaderPending cl k.order k.g 1 || loaderPending cl k.order k.g (blockGranules cl k.g) then none
  else some (blockAt cl k.g (mtMode k.mtype))

/-- R282: a step of MMAC: a B load, a reload after a restart, one A row, or the end of a k-block. -/
def macStep (c q : Nat) (s : State) : State × SeqOut :=
  let k := quadOf s c q
  if !seqBld k.seq || k.block.isEmpty then
    match fetchBlock c q s with
    | none => (s, .waits false)
    | some (.error e) => (seqFail c q e s, .ended)
    | some (.ok b) =>
      (setQuad c q { k with
        seq := wset k.seq 28 28 1, block := b, next := k.g + blockGranules (clusterOf s c) k.g } s, .moved (!seqBld k.seq))
  else if wbits k.opb 24 12 ≤ seqRows k.seq then
    if seqKb k.seq + 1 < wbits k.opb 40 32 then
      (setQuad c q { k with seq := seqWord 2 (seqKb k.seq + 1) false 0, block := [], g := k.next } s, .moved false)
    else (seqFinish c q s, .ended)
  else match k.aPort with
  | [] => (s, .waits true)
  | r :: rest =>
    let mode := mtMode k.mtype
    if !aRowMatches mode r then (seqFail c q 4 (setQuad c q { k with aPort := rest } s), .ended) else
    let m := seqRows k.seq
    let n := wbits k.opb 11 0 + m
    let old := lookD {} n k.acc
    let a := aRowVals r
    let vals := ((accVals mode old.bits).zip (blockColumns mode k.block)).map fun (x, b) =>
      macOne mode (mtSlices k.mtype) x a b
    let mix := !old.fresh && (tagHaar r.tag != tagHaar old.tag || tagLevels r.tag != tagLevels old.tag)
    let row : AccRow := ⟨BitVec.ofNat 8192 (packRow (accWidth mode) (vals.map (·.1))),
      if old.fresh then r.tag else old.tag, false⟩
    let f := orFlags (vals.map (·.2))
    (setQuad c q { k with aPort := rest, acc := put n row k.acc, seq := wset k.seq 12 0 (m + 1) }
      (raiseMstat c (f + flagIf mix 32) s), .moved ((m + 1) % 64 == 0))

/-- R288, R280: a row as MZERO leaves it. -/
def zeroRow (c q n : Nat) (s : State) : State :=
  let k := quadOf s c q
  setQuad c q { k with acc := cut n k.acc } s

/-- R288: MZERO's step: one row. -/
def zeroStep (c q : Nat) (s : State) : State × SeqOut :=
  let k := quadOf s c q
  let m := seqRows k.seq
  if wbits k.opa 24 12 ≤ m then (seqFinish c q s, .ended) else
  let s1 := zeroRow c q (wbits k.opa 11 0 + m) s
  (setQuad c q { quadOf s1 c q with seq := wset k.seq 12 0 (m + 1) } s1, .moved ((m + 1) % 64 == 0))

/-! The drain (R287). -/

/-- R287 stage 4: the format of OUT: FMT, SEW. -/
def outFormat (out : Nat) : Nat × Nat :=
  match out with
  | 0 => (fmtFLOAT, 32)
  | 1 => (fmtBF16, 16)
  | 2 => (fmtCODE, 4)
  | 3 => (fmtCODE, 6)
  | 4 => (fmtCODE, 8)
  | 5 => (fmtINT, 32)
  | _ => (fmtFLOAT, 64)
/-- R286: OUT in force; the default is the accumulator's format. -/
def Drain.outNow (d : Drain) (mode : Nat) : Nat := d.out.getD (if mode = 1 then 5 else if mode = 2 then 6 else 0)

/-- Stage 1: a row with the bias. -/
def biasRow (mode : Nat) (bias vs : List Nat) : List Nat × Nat :=
  let ys := (vs.zip bias).map fun (v, b) =>
    if mode = 1 then ((v + b) % 2 ^ 32, 0) else addF (if mode = 2 then fp64 else fp32) .rne v b
  (ys.map (·.1), orFlags (ys.map (·.2)))

/-- Stage 2 of a group of eight FP32 rows: its columns through reconstruction and transform. -/
def transformRows (levels : Option Nat) (hlev : Nat) (rows : List (List Nat)) : List (List Nat) × Nat :=
  if levels = some hlev then (rows, 0) else
  let cols := (List.range 256).map fun i =>
    let col := rows.map fun r => r.getD i 0
    let (c1, f1) := match levels with
      | some l => haarInverse fp32 l col
      | none => (col, 0)
    let (c2, f2) := haarForward fp32 hlev c1
    (c2, Nat.lor f1 f2)
  ((List.range 8).map fun j => cols.map fun (c, _) => c.getD j 0, orFlags (cols.map (·.2)))

/-- Stage 4 of one value. -/
def quantise (d : Drain) (out x : Nat) : Nat × Nat :=
  if out = 1 then round bf16 .rne (val fp32 x) |> fun (y, f) => (y, Nat.lor f (sigFlag [val fp32 x]))
  else if 2 ≤ out && out ≤ 4 then cbEncode ⟨d.scale, d.book⟩ (val fp32 x)
  else (x, 0)

/-- R287: one group's port rows, and flags: n rows from accumulator row r0. -/
def drainRows (k : Quadrant) (r0 n : Nat) : List PortRow × Nat :=
  let mode := mtMode k.mtype
  let d := k.drain
  let accRow := fun (r : Nat) => lookD ({} : AccRow) r k.acc
  let base := r0 / 8 * 8
  let block := blockLevels ((List.range 8).map fun j => (accRow (base + j)).tag)
  let rows0 := (List.range n).map fun j =>
    let vs := accVals mode (accRow (r0 + j)).bits
    match d.bias, block with
    | none, _ => (vs, 0)
    | some b, some l => if detailLevel l (r0 + j - base) = 0 then biasRow mode b vs else (vs, 0)
    | some b, none => biasRow mode b vs
  let (rows1, f1) := if d.hlev = 0 then (rows0.map (·.1), 0) else transformRows block d.hlev (rows0.map (·.1))
  let levels := if d.hlev = 0 then block else some d.hlev
  let F := if mode = 2 then fp64 else fp32
  let rows2 := rows1.zipIdx.map fun (vs, j) =>
    match levels with
    | some l => vs.map fun x =>
      thresholdVal (if mode = 1 then ofInt (signed 32 x) else val F x) d.thresholds l (r0 + j - base) x
    | none => vs
  let out := d.outNow mode
  let rows3 := rows2.map fun vs => vs.map (quantise d out)
  let (fmt, sew) := outFormat out
  let ports := rows3.zipIdx.map fun (vs, j) =>
    ({ fmt := fmt, sew := sew
       tag := if d.hlev = 0 then (accRow (r0 + j)).tag else haarTag d.hlev d.thr
       vals := vs.map (·.1) } : PortRow)
  (ports, orFlags (f1 :: rows0.map (·.2) ++ rows3.flatMap fun vs => vs.map (·.2)))

/-- R287: a step of MDRAIN: one group. -/
def drainStep (c q : Nat) (s : State) : State × SeqOut :=
  let k := quadOf s c q
  let n := if k.drain.hlev = 0 then 1 else 8
  let m := seqRows k.seq
  if wbits k.opa 24 12 ≤ m then (seqFinish c q s, .ended) else
  if 64 < k.outPort.length + n then (s, .waits true) else
  let r0 := wbits k.opa 11 0 + m
  let (ports, f) := drainRows k r0 n
  let k1 := { k with
    outPort := k.outPort ++ ports
    acc := if wbit k.opa 32 then (List.range n).foldl (fun a j => cut (r0 + j) a) k.acc else k.acc }
  (setQuad c q { k1 with seq := wset k.seq 12 0 (m + n) } (raiseMstat c f s), .moved ((m + n) % 8 == 0))

/-- A step of a quadrant's command. -/
def seqStep (c q : Nat) (s : State) : State × SeqOut :=
  let k := quadOf s c q
  if !k.running then (s, .ended) else
  match seqCmd k.seq with
  | 2 => macStep c q s
  | 3 => drainStep c q s
  | 4 => zeroStep c q s
  | _ => (seqFinish c q s, .ended)

/-! The weight loader. -/

/-- R277, R112: the channels of the control core over a copy's source. -/
def copyChannels (c : Nat) (w : WeightCopy) (s : State) : List Channel :=
  w.parts.flatMap fun (a, n) => channelsOver s (coreIndex (matrixCoord c)) a.va n

/-- R277: the loader reads one granule: its bytes, and whether it is to be marked poisoned. A granule that cannot be read
(R69, R114) is marked. The loader's initiator is its cluster's, whatever the mode (R69). -/
def readGranule (c : Nat) (parts : List (Access × Nat)) (off : Nat) (s : State) : State × List Byte × Bool :=
  let rec at' (o : Nat) : List (Access × Nat) → Option (Access × Nat)
    | [] => none
    | (a, n) :: ps => if o < n then some (a, a.pa + o) else at' (o - n) ps
  match at' off parts with
  | none => (s, List.replicate 64 0, true)
  | some (a, pa) =>
    let mode := if a.user then Mode.user else if a.entry = none then .machine else .supervisor
    if !(channelsOver s (coreIndex (matrixCoord c)) (a.va + (pa - a.pa)) 64).isEmpty then (s, List.replicate 64 0, true) else
    match physRead { ctxOf (matrixCoord c) mode a.key a.z with initiator := c } pa 64 s with
    | .ok (s1, bs, bad) => (s1, bs, bad.isSome)
    | .error _ => (s, List.replicate 64 0, true)

/-- R277: the weight loader reads the source of its oldest unread copy, once no channel's range and no migration holds it, and
its pins are released. -/
def readWeights (c : Nat) (s : State) : Option State :=
  match (clusterOf s c).loader.find? WeightCopy.unread with
  | none => none
  | some w =>
    if (copyChannels c w s).any (fun h => h.state != .failed) || w.parts.any (fun p => heldOver s p.1.pa p.2) then none else
    let (s1, data) := (List.range w.count).foldl (fun (s, l) i =>
      let (s1, bs, bad) := readGranule c w.parts (64 * i) s
      (s1, (BitVec.ofNat 512 (natOfBytes bs), bad) :: l)) (s, [])
    let cl := clusterOf s1 c
    let core := coreOf s1 (coreIndex (matrixCoord c))
    some (setCluster c { cl with loader := cl.loader.map fun u => if u = w then { w with data := some data.reverse } else u }
      (setCore (coreIndex (matrixCoord c)) { core with pins := core.pins.eraseP fun p => p.coord == matrixCoord c } s1))

/-- R275, R277: a granule of the buffer written, poisoned or not. -/
def Cluster.setGranule (cl : Cluster) (g : Nat) (v : BitVec 512) (bad : Bool) : Cluster :=
  { cl with
    weights := put g v cl.weights
    poisoned := if bad then (if cl.poisoned.contains g then cl.poisoned else cl.poisoned ++ [g])
      else cl.poisoned.filter (· != g) }
/-- R277, R278: the oldest copy, once read, is written to the buffer when no earlier MMAC has still to fetch a granule of it. -/
def writeWeights (c : Nat) (s : State) : Option State :=
  let cl := clusterOf s c
  match cl.loader with
  | [] => none
  | w :: rest =>
    match w.data with
    | none => none
    | some data =>
      if fetchPending cl w then none else
      some (setCluster c { (data.zipIdx.foldl (fun (cl : Cluster) (d, i) => cl.setGranule (w.granule + i) d.1 d.2) cl) with
        loader := rest } s)

/-- R277: the weight loader's work: the oldest copy that has not been read is read, and the oldest of all is written. -/
def loadWeights (c : Nat) (s : State) : Option State :=
  match readWeights c s with
  | some s1 => some ((writeWeights c s1).getD s1)
  | none => writeWeights c s

/-! Stopping (R284). -/

/-- A quadrant runs on to its next interruption point and stops there. One whose block waits for a copy that cannot be made yet
is at none: it runs on. -/
def runToPoint (c q : Nat) : Nat → State → State
  | 0, s => s
  | n + 1, s =>
    match seqStep c q s with
    | (s1, .ended) => s1
    | (s1, .moved true) => seqHalt c q s1
    | (s1, .waits true) => seqHalt c q s1
    | (s1, .moved false) => runToPoint c q n s1
    | (s1, .waits false) => match loadWeights c s1 with
      | some s2 => runToPoint c q n s2
      | none => s1

/-- The loader finishes what it can. -/
def finishLoads (c : Nat) : Nat → State → State
  | 0, s => s
  | n + 1, s => match loadWeights c s with
    | some s1 => finishLoads c n s1
    | none => s

/-- Steps enough for a quadrant to reach its next interruption point, with the reading and writing of every copy. -/
def pointFuel (s : State) (c : Nat) : Nat := 200 + 2 * (clusterOf s c).loader.length
/-- R284: the control core takes a trap: every busy quadrant stops at its next interruption point, and the weight loader does
what it can. -/
def stopQuadrants (c : Nat) (s : State) : State :=
  let fuel := pointFuel s c
  let s1 := (List.range 4).foldl (fun s q => if (quadOf s c q).running then runToPoint c q fuel s else s) s
  finishLoads c fuel s1
/-- R284: what a trap entry of the control core waits for: a quadrant that is at no interruption point, and the loader's reads
(log 51). -/
def unitsBusy (c : Nat) (s : State) : Bool :=
  loadsDue (clusterOf s c) || (clusterOf s c).quads.toList.any fun k => k.running

/-- R279, R289: a quadrant is busy while its command runs or is stopped (R268). -/
def quadBusy (k : Quadrant) : Bool := k.running || seqActive k.seq

end Sys2Proof.Machine
end

