-- ==== Sys2Proof/Machine/Ops.lean ====
section
/-! DEFINITION. The shared operations: registers and results (R30, R36 to R38, R51), taking a trap and returning (R364 to
R371), user-level entry (R126, R127, R247), checkpoints and rewind (R373, R376), and the issue of a word with the checks of
R35 and the prefix rules of R45 to R50. -/

namespace Sys2Proof.Machine

/-- The outcome of a step. -/
abbrev Result := Host.Outcome State Fault Refusal

/-! Registers. -/

/-- R153, R126: an s register as the hart names it: s0 reads zero; in a user-level handler s24 to s31 are the shadow bank. -/
def Hart.reg (h : Hart) (n : Nat) : Word :=
  if n = 0 then 0 else if h.inHandler && decide (24 ≤ n) then h.shadow[n - 24]?.getD 0 else h.s[n]?.getD 0
/-- R30: a write to s0 is discarded. -/
def Hart.setRegIn (shadow : Bool) (h : Hart) (n : Nat) (v : Word) : Hart :=
  if n = 0 then h
  else if shadow && decide (24 ≤ n) then { h with shadow := h.shadow.setIfInBounds (n - 24) v }
  else { h with s := h.s.setIfInBounds n v }
def Hart.setReg (h : Hart) (n : Nat) (v : Word) : Hart := h.setRegIn h.inHandler n v
/-- R153, R30: p7 reads true and discards writes. -/
def Hart.pred (h : Hart) (n : Nat) : Bool := n == 7 || h.p[n]?.getD false
def Hart.setPred (h : Hart) (n : Nat) (v : Bool) : Hart := if n = 7 then h else { h with p := h.p.setIfInBounds n v }

/-- R182: OR flags into FCSR. -/
def Hart.raiseFlags (h : Hart) (f : Nat) : Hart := { h with csr := { h.csr with fcsr := h.csr.fcsr ||| word f } }

/-- One pending result lands, in the bank that it was issued to (R126). -/
def landOne (h : Hart) (r : Pending) : Hart :=
  let h1 := match r.reg with
    | some (.s n) => h.setRegIn r.shadow n r.value
    | some (.p n) => h.setPred n (r.value != 0)
    | none => h
  h1.raiseFlags r.flags
/-- R36: the results readable at the hart's clock land, in order. -/
def Hart.land (h : Hart) : Hart :=
  (h.pend.filter fun r => decide (r.ready ≤ h.clock)).foldl landOne
    { h with pend := h.pend.filter fun r => decide (h.clock < r.ready) }
/-- R39: every pending result lands. -/
def Hart.landAll (h : Hart) : Hart := h.pend.foldl landOne { h with pend := [], clock := h.pend.foldl (fun c r => max c r.ready) h.clock }

/-- R37, R126: a counted operation has a write to the s register outstanding, in the bank the hart names. -/
def Hart.countedOn (h : Hart) (n : Nat) : Bool :=
  n != 0 && h.ops.any fun o => (o.dest == some n || o.copy == some n) && (decide (n < 24) || o.shadow == h.inHandler)
/-- R36, R126: a result is pending to the s register that the hart names. -/
def Pending.goesTo (r : Pending) (h : Hart) (n : Nat) : Bool :=
  r.reg == some (.s n) && (decide (n < 24) || r.shadow == h.inHandler)
/-- R38, R43: reading this s register now is early; a result that its consumers wait for (R37) is not. -/
def Hart.earlyReg (h : Hart) (n : Nat) : Bool :=
  n != 0 && (h.pend.any (fun r => !r.locked && r.goesTo h n) || h.countedOn n)
def Hart.earlyPred (h : Hart) (n : Nat) : Bool := n != 7 && h.pend.any fun r => r.reg == some (.p n)

/-- The live prefix's destination copy (R47). -/
def Hart.copyReg (h : Hart) : Option Nat := h.pfx.bind fun p => p.copy

/-- R51, R47, R36: write an s destination and its copy with a latency and flags; LASTD becomes d at issue. `locked` says that
consumers wait for it (R37). -/
def Hart.result (h : Hart) (d : Nat) (v : Word) (lat flags : Nat) (locked : Bool := false) : Hart :=
  let h1 := { h with lastd := BitVec.ofNat 5 d }
  let regs := d :: h.copyReg.toList
  if lat ≤ 1 then (regs.foldl (fun h r => h.setReg r v) h1).raiseFlags flags
  else { h1 with pend := h1.pend ++ regs.zipIdx.map fun (r, i) =>
    { reg := if r = 0 then none else some (.s r), value := v, ready := h.clock + lat
      flags := if i = 0 then flags else 0, shadow := h.inHandler, locked := locked } }
def writeD (d : BitVec 5) (v : Word) (lat : Nat := 1) (flags : Nat := 0) (locked : Bool := false) : Act Unit :=
  modH fun h => h.result d.toNat v lat flags locked
/-- Write predicates with a latency and flags (R307, R308). -/
def Hart.predResult (h : Hart) (ps : List (Nat × Bool)) (lat flags : Nat) : Hart :=
  if lat ≤ 1 then (ps.foldl (fun h e => h.setPred e.1 e.2) h).raiseFlags flags
  else { h with pend := h.pend ++ (ps.map fun e =>
      ({ reg := if e.1 = 7 then none else some (.p e.1), value := if e.2 then 1 else 0, ready := h.clock + lat, flags := 0 } : Pending))
    ++ [{ reg := none, value := 0, ready := h.clock + lat, flags := flags }] }
def readS (n : BitVec 5) : Act Word := do return (← getH).reg n.toNat

/-! Traps. -/

def modeNum : Mode → Nat
  | .user => 0
  | .supervisor => 1
  | .machine => 2
def modeOf (n : Nat) : Mode := if n = 0 then .user else if n = 1 then .supervisor else .machine

/-- R366: whether a trap goes to the machine bank. -/
def toMachine (h : Hart) (cause : Nat) (int : Bool) : Bool :=
  h.mode == .machine || (!int && cause == cMachineCheck) || (!int && cause == cSvc && h.mode == .supervisor)

/-- R365: the codes that CAUSE takes: no other is written. -/
def causeKnown (int : Bool) (cause : Nat) : Bool :=
  if int then cause == 1 || cause == 2
  else (decide (1 ≤ cause) && decide (cause ≤ 8)) || (decide (0x10 ≤ cause) && decide (cause ≤ 0x27))
    || (decide (0x29 ≤ cause) && decide (cause ≤ 0x31))

/-- R366: the bank that a trap writes. -/
def trapBank (b : Bank) (h : Hart) (cause : Nat) (int imp : Bool) (tval epc : Word) (pfxs : Option Nat) : Bank :=
  { b with
    epc := epc
    cause := word (cause % 256 + 2 ^ 63 * bitNat int + 2 ^ 62 * bitNat imp)
    tval := tval
    status := word (h.lastd.toNat * 256 + bitNat h.inHandler * 64 + wbits b.status 2 2 * 8 + modeNum h.mode)
    pfxs := (match pfxs with
      | some w => word (2 ^ 32 + w)
      | none => 0)
    evstart := word (h.vstart % 2 ^ 17) }

/-- R81: a pin not yet admitted is asked for no more. -/
def dropWaitingPin (coord : Nat) (s : State) : State :=
  let c := coreOf s (coreIndex coord)
  if c.pins.any fun p => !p.admitted && p.coord == coord then
    setCore (coreIndex coord) { c with pins := c.pins.filter fun p => p.admitted || p.coord != coord } s
  else s

/-- R81: a hart's pins are released, but for those of the control core's queued copies (R277). -/
def endPins (s : State) : State := if s.h.role == .control then dropWaitingPin s.cur s else releasePins s.cur s
/-- R284, R81: before a trap, the control core's quadrants stop, and pins are released. -/
def quietUnits (s : State) : State :=
  endPins (if s.h.role == .control then stopQuadrants (coordCluster s.cur) s else s)

/-- R369, R284: a trap entry waits for the words of the vector queue, and the control core's for its quadrants and the weight
loader. -/
def entryWaits (s : State) : Bool :=
  !s.h.vq.isEmpty || (s.h.role == .control && unitsBusy (coordCluster s.cur) (quietUnits s))

/-- A trap entry, or its wait: the word in hand is issued again. -/
def whenEntered (f : State → State) (s : State) : State :=
  if !entryWaits s then f s else
  let s1 := quietUnits s
  { s1 with h := { s1.h with waiting := some .matrix, clock := s1.h.clock + 1 } }

/-- R381: a trap ends the PREEMPT that the word in hand has asked for (log 16). -/
def dropRequests (coord : Nat) (s : State) : State :=
  if (slotOf s coord).answer.isNone && !s.slots.any (fun e => (e.2.preempt.map fun r => r.requester) == some coord) then s else
  { s with slots := s.slots.map fun e => (e.1, { e.2 with
      preempt := if (e.2.preempt.map fun r => r.requester) == some coord then none else e.2.preempt
      answer := if e.1 = coord then none else e.2.answer }) }

/-- What a hart keeps of the word in hand when it leaves it: nothing. -/
def Hart.leave (h : Hart) : Hart :=
  { h with waiting := none, latch := none, given := [], moved := [], before := [], admitted := false
           idleFrom := none, idleStall := 0 }

/-- R366, R377, R284, R81: taking a trap: the units stop, pending results land, the strip buffer performs (WHY 5), the bank
saves the state, the links break, and the hart goes to the bank's vector in the bank's mode. A MACHINE_CHECK is reported to
the host (R377, R389); in machine mode it stops the hart. -/
def takeTrap (cause : Nat) (int imp : Bool) (tval epc : Word) (pfxs : Option Nat) (s : State) : State :=
  let s0 := quietUnits (dropRequests s.cur s)
  let s1 := earlyCommit 5 { s0 with h := s0.h.landAll.leave }
  let s2 := if cause = cMachineCheck && !int then raiseMsix 2 s1 else s1
  let h := s2.h
  if h.mode = .machine && cause = cMachineCheck && !int then { s2 with h := { h with live := false, stopped := true } }
  else
    let m := toMachine h cause int
    let bank := trapBank (if m then h.mach else h.sup) h cause int imp tval epc pfxs
    let h1 := { h with
      vstart := 0, inHandler := false, link := none, vlink := [], pfx := none
      mode := if m then .machine else .supervisor
      pc := word (wbits bank.tvec 63 2 * 4) }
    { s2 with h := if m then { h1 with mach := bank } else { h1 with sup := bank } }

/-- R367: returning from a trap through the bank of the hart's mode. DESIGN CHOICE: R50 has TRET run the word at EPC as the
successor and then clear the valid bit of PFXS; here the bit clears in TRET, with the prefix live again, before the successor
runs: a successor that reads PFXS, or an image taken before it, finds it clear. -/
def returnFromTrap (h : Hart) : Hart :=
  let m := h.mode == .machine
  let b := if m then h.mach else h.sup
  let b' := { b with status := wset b.status 2 2 (wbits b.status 3 3), pfxs := wset b.pfxs 32 32 0 }
  let w := wbits b.pfxs 31 0
  let h1 := { h with
    mode := modeOf (wbits b.status 1 0)
    inHandler := wbit b.status 6
    lastd := BitVec.ofNat 5 (wbits b.status 12 8)
    vstart := wbits b.evstart 16 0
    pc := b.epc
    pfx := if wbit b.pfxs 32 then
        some ⟨bit w 16, bit w 15, bits w 14 12, if bit w 17 then some (bits w 11 7) else none, w, b.epc - 4⟩
      else none }
  if m then { h1 with mach := b' } else { h1 with sup := b' }

/-- R126, R247: entry to a user-level handler: the strip commits (WHY 5), LASTD is saved, the shadow bank is switched in.
DESIGN CHOICE: a prefix that is live when its successor's frame fault is delegated is lost: no register saves it, the spec
is silent, and UIRET to UEPC runs the word without it. -/
def enterUser (ret target : Word) (s : State) : State :=
  let s0 := endPins (dropRequests s.cur s)
  let s1 := earlyCommit 5 { s0 with h := s0.h.landAll.leave }
  let h := s1.h
  { s1 with h := { h with
    csr := { h.csr with uepc := ret }
    uiLastd := h.lastd, inHandler := true, link := none, vlink := [], pfx := none
    pc := target } }

/-- R246: the word of UFCAUSE. -/
def ufcauseWord (code tag elem : Nat) : Word := word (tag % 2 ^ 32 * 2 ^ 32 + elem % 2 ^ 17 * 256 + code)

/-- R247: a frame fault goes to user level when it is delegated. -/
def frameDelegated (h : Hart) (code : Nat) : Bool :=
  wbit h.csr.ufdeleg code && wbit h.csr.ufvec 0 && h.mode == .user && !h.inHandler

/-! Strips (R372 to R376). -/

/-- R373: the checkpoint a hart takes, with the address of the word after the checkpointing word. -/
def Hart.checkpoint (h : Hart) (next : Word) : Checkpoint :=
  ⟨Vector.ofFn fun (i : Fin 32) => h.reg i.val, h.inHandler, h.csr.indmask, h.p, h.lastd, h.vl, h.vt, h.efc, h.csr.ncount, h.csr.fcsr, next⟩

/-- R373, R374: take a checkpoint: the buffer performs, and a new strip opens. -/
def takeCheckpoint (next : Word) (s : State) : State :=
  let s1 := performStrip s
  let h := s1.h
  { s1 with h := { h with
    strip := { h.strip with
             check := some (h.landAll.checkpoint next), early := false, retry := false
             firstStore := none, aged := false }
    ops := h.ops.map fun o => { o with inStrip := false } } }

/-- R376: whether the strip can rewind. -/
def canRewind (h : Hart) : Bool :=
  !h.strip.early && !wbit h.csr.indmask 0 && !h.strip.retry && h.strip.check.isSome

/-- R376: the results of an unfinished word are discarded: the rows that it has written are as they were before it, and what it
has built for a ring is gone. -/
def Hart.discard (h : Hart) : Hart :=
  { h with rows := h.before.foldl (fun rs e => rs.setIfInBounds e.1 e.2) h.rows, staged := [], vq := [] }

/-- R376: the rewind. -/
def rewind (s0 : State) : State :=
  let s := endPins s0
  let h := s.h.discard
  match h.strip.check with
  | none => s
  | some c =>
    let mine := h.ops.filter fun o => o.inStrip
    let h0 := mine.foldl (fun h o => lowerCounter h o.counter) { h with ops := h.ops.filter fun o => !o.inStrip }
    let h1 := ((List.range 32).filter fun i => wbit c.mask i).foldl (fun h i => h.setRegIn c.handler i (c.s[i]?.getD 0)) h0.leave
    { s with h := { h1 with
      p := c.p, lastd := c.lastd, vl := c.vl, vt := c.vt, efc := c.efc
      csr := { h0.csr with ncount := c.ncount, fcsr := c.fcsr }
      pend := [], vstart := 0, pfx := none, pc := c.pc
      strip := { h0.strip with buf := [], firstStore := none, aged := false, retry := true, rewinds := min (h0.strip.rewinds + 1) 0xFFFF } } }

/-- The prefix word that PFXS saves when the current word is resumed (R50). -/
def Hart.savedPfx (h : Hart) : Option Nat := h.pfx.map fun p => p.word

/-- R376: poison (or a failed sector) is consumed at an address, or a lane check fails: rewind or escalate. -/
def containError (data : Bool) (addr : Nat) (s : State) : State :=
  if canRewind s.h then rewind s
  else whenEntered (fun s =>
    if s.h.strip.early || s.h.strip.check.isNone || !data then
      takeTrap cMachineCheck false true (word (if data then addr else 0)) s.h.pc s.h.savedPfx s
    else takeTrap cUncorrectable false false (word addr) s.h.pc s.h.savedPfx s) s

/-! Issue. -/

/-- What guards a word (R29, R46): nothing of its own, a predicate, or a mask read per element, which never holds
when it is k7 negated. -/
inductive GuardKind where
  | none
  | pred (neg : Bool) (g : Nat)
  | mask (never : Bool)
  deriving DecidableEq, Repr

/-- The destination a prefix's copy may follow (R47). -/
inductive DestKind where
  | none
  | s (n : Nat)
  | v
  deriving DecidableEq, Repr

/-- What the checks of R35 need to know of a word: its encoding, length and major (0x40 stands for compact forms), guard,
stall count, destinations, sources, lowest mode, whether its address makes a crew computer trap ROLE (R34), whether it may
follow a prefix (R48) and take a lent k guard (R46), whether it is a vector instruction (R372), whether, once admitted,
it is not stopped part-way (R144), and whether it settles on entry to the vector queue, with every register of its own read
(R368). -/
structure Info where
  word : Nat
  size : Nat := 4
  major : Nat
  guard : GuardKind := .none
  stall : Nat := 0
  dest : DestKind := .none
  reads : List Nat := []
  readsP : List Nat := []
  destsP : List Nat := []
  alsoS : List Nat := []
  level : Mode := .user
  address : Bool := false
  pairable : Bool := true
  kPair : Bool := false
  vector : Bool := false
  linked : Bool := false
  settles : Bool := false

/-- How a word that has completed leaves the pc. -/
inductive Flow where
  /-- To the next word. -/
  | seq
  /-- To a target: a taken branch (R315). -/
  | jump (target : Word)
  /-- The word lends a prefix to the next word (R45). -/
  | lend (p : Prefix)
  /-- The word has set the pc, and its stall cycles follow (R15). -/
  | set
  /-- The word has set the pc, or ended the hart. -/
  | done
  deriving DecidableEq, Repr

/-- R366, R50, R8: a trap of the word in hand. -/
def wordTrap (word' : Nat) (cause : Nat) (tval : Word) (s : State) : State :=
  let decodeTrap := decide (1 ≤ cause) && decide (cause ≤ 4)
  let tv := if decodeTrap then word word' else tval
  whenEntered (fun s =>
    match s.h.pfx with
    | some p => if decodeTrap then takeTrap cause false false tv p.addr none s
      else takeTrap cause false false tv s.h.pc (some p.word) s
    | none => takeTrap cause false false tv s.h.pc none s) s

/-- What becomes of a word that does not complete. A word that waits is issued again a cycle later. -/
def deliver (word' : Nat) (e : Exc) (s : State) : State :=
  match e with
  | .wait w => { s with h := { s.h with waiting := some w, clock := s.h.clock + 1 } }
  | .trap c v => wordTrap word' c v s
  | .frame code tag elem =>
    let v := ufcauseWord code tag elem
    if frameDelegated s.h code then
      let s1 := enterUser s.h.pc (word (wbits s.h.csr.ufvec 63 2 * 4)) s
      { s1 with h := { s1.h with vstart := 0, csr := { s1.h.csr with ufcause := v } } }
    else wordTrap word' (0x28 + code) v s
  | .poison a => containError true a (reportFailed (a / 32 * 32) 32 s)

/-- A word that has completed, or was suppressed by its guard. -/
def finish (i : Info) (f : Flow) (h : Hart) : Hart :=
  let h1 := { h.leave with words := h.words + 1, vcount := if i.vector then h.vcount + 1 else h.vcount }
  match f with
  | .seq => { h1 with pc := h.pc + BitVec.ofNat 64 i.size, clock := h.clock + 1 + i.stall, pfx := none }
  | .jump t => { h1 with pc := t, clock := h.clock + 3, pfx := none }
  | .lend p => { h1 with pc := h.pc + BitVec.ofNat 64 i.size, clock := h.clock + 1, pfx := some p }
  | .set => { h1 with clock := h.clock + 1 + i.stall }
  | .done => { h1 with clock := h.clock + 1 }

/-- R46: the guard that governs the whole word: its own predicate and a lent p guard. -/
def Hart.guardHolds (h : Hart) (g : GuardKind) : Bool :=
  let own := match g with
    | .pred neg n => h.pred n != neg
    | .mask never => !never
    | .none => true
  let lent := match h.pfx with
    | some p => p.isK || (h.pred p.guard != p.neg)
    | none => true
  own && lent

/-- The predicates a word's guard reads. -/
def Hart.guardReads (h : Hart) (g : GuardKind) : List Nat :=
  (match g with
    | .pred _ n => [n]
    | _ => []) ++ (match h.pfx with
    | some p => if p.isK then [] else [p.guard]
    | none => [])

/-- R34: where a major may run. -/
def majorAllowed (role : Role) (major : Nat) : Bool :=
  if role == .control then
    !((decide (0x14 ≤ major) && decide (major ≤ 0x28)) || (decide (0x2B ≤ major) && decide (major ≤ 0x2F)) || major == 0x31)
  else major != 0x30

/-- R46 to R48: whether a word may be the successor of the live prefix. -/
def pairAllowed (h : Hart) (i : Info) : Bool :=
  match h.pfx with
  | none => true
  | some p => i.pairable && (!p.isK || i.kPair) && (p.copy.isNone || i.dest != .none)

/-- R37: the destinations of the word whose older write is pending, with their cycle; none when one waits on a counted
operation. -/
def destReady (h : Hart) (i : Info) : Option Nat :=
  let ds := match i.dest with
    | .s n => n :: h.copyReg.toList ++ i.alsoS
    | _ => []
  if ds.any h.countedOn then none
  else some ((h.pend.filter fun r =>
      ds.any (fun n => r.goesTo h n) || i.destsP.any fun n => r.reg == some (.p n)).foldl (fun c r => max c r.ready) h.clock)

/-- R37: the cycle from which the word's sources that consumers wait for are readable. -/
def Hart.lockedReady (h : Hart) (reads : List Nat) : Nat :=
  (h.pend.filter fun r => r.locked && reads.any fun n => r.goesTo h n).foldl (fun c r => max c r.ready) h.clock

/-! The registers of a word that waits (R25, R359, R361). -/

/-- The word goes on with the registers, predicates and translations that it read at issue. -/
def Hart.takeLatch (h : Hart) (l : Latch) : Hart :=
  { h with s := l.s, shadow := l.shadow, p := l.p, given := l.given, latch := none }
/-- What the word has written stays; the rest is as it has become meanwhile in `real`. -/
def Hart.leaveLatch (h real : Hart) (l : Latch) : Hart :=
  let pick := fun {α : Type} [DecidableEq α] (new old now : α) => if new = old then now else new
  { h with
    s := Vector.ofFn fun (i : Fin 32) => pick h.s[i] l.s[i] real.s[i]
    shadow := Vector.ofFn fun (i : Fin 8) => pick h.shadow[i] l.shadow[i] real.shadow[i]
    p := Vector.ofFn fun (i : Fin 8) => pick h.p[i] l.p[i] real.p[i] }

/-- R378, R144, R124: whether a pre-emption may fall in a wait of the word: not where a channel stops, not in an admitted
VGLL or VSCC, and in another vector word where it has done nothing, at an element-group boundary, or in a watermark's wait
(R408). `start` is VSTART at issue. -/
def waitStops (i : Info) (start : Nat) (w : Wait) (s : State) : Bool :=
  let group := 1024 / (vtypeOf s.h.vt[0]).sew
  match w with
  | .stop => false
  | .channel .. => true
  | .pins => true
  | _ => if i.linked then !s.h.admitted else !i.vector || s.h.vstart == start || s.h.vstart % group == 0

/-- R25, R82: a word that waits keeps what it read at issue, unless it is held at issue (R378). -/
def latchWait (i : Info) (l : Latch) (w : Wait) (s : State) : State :=
  let held := !i.vector && s.h.given.isEmpty && (w == .register || w == .tuple || w == .engine)
  { s with h := { s.h with
    latch := if held then none else some { l with given := s.h.given, stops := waitStops i l.start w s }
    given := [] } }

/-- The body of a word that has issued, with the registers of its latch. -/
def runLatched (i : Info) (l : Latch) (body : Act Flow) : Act Flow := fun s =>
  match body { s with h := s.h.takeLatch l } with
  | .ok f s1 => .ok f { s1 with h := s1.h.leaveLatch s.h l }
  | .error (.wait w) s1 => .error (.wait w) (latchWait i l w { s1 with h := s1.h.leaveLatch s.h l })
  | .error e s1 => .error e { s1 with h := s1.h.leaveLatch s.h l }

/-- The body of a word that issues now. -/
def runFirst (i : Info) (body : Act Flow) : Act Flow := fun s =>
  match body s with
  | .error (.wait w) s1 =>
    .error (.wait w) (latchWait i ⟨bytesOf i.size i.word, s.h.s, s.h.shadow, s.h.p, [], true, s.h.vstart, if i.settles then some (i.stall, i.vector) else none⟩ w s1)
  | r => r

/-- R35: the checks of a word in their order; whether its guard holds. `legal` holds the word's own ILLEGAL checks,
`pairLegal` those of a vector copy (R47), `later` the PRIVILEGED and ROLE checks that are the word's own. The word waits for
an uncounted tuple operation (R102), for its destinations (R37), and for sources that hardware waits for (R37). -/
def issueChecks (i : Info) (legal pairLegal later : Act Unit) : Act Bool := do
  modH Hart.land
  let h ← getH
  if h.ops.any fun o => o.counter == 7 then waitFor .tuple
  require (majorAllowed h.role i.major) cIllegal 0
  legal
  require (pairAllowed h i) cIllegalPair 0
  if h.copyReg.isSome && i.dest == .v then pairLegal
  require (decide (modeNum i.level ≤ modeNum h.mode)) cPrivileged 0
  require (!(i.address && h.role == .computer)) cRole 0
  later
  match destReady h i with
  | none => waitFor .register
  | some c => modH fun h => { h with clock := c }.land
  let h ← getH
  let chk := wbit h.csr.schk 0
  require (!(chk && (h.guardReads i.guard).any h.earlyPred)) cStallShort 0
  if !h.guardHolds i.guard then return false
  modH fun h => { h with clock := h.lockedReady i.reads }.land
  let h ← getH
  require (!(chk && (i.reads.any h.earlyReg || i.readsP.any h.earlyPred))) cStallShort 0
  return true

/-- A word's checks, then its effect. A word that has issued and waits goes on with its latch; one whose channel has failed
meanwhile faults (R114). -/
def issueAct (i : Info) (legal pairLegal later : Act Unit) (body : Act Flow) : Act Flow := do
  match (← getH).waiting with
  | some (.failed va) => trapWith cChannelFailed (word va)
  | _ => pure ()
  match (← getH).latch with
  | some l => do
    modH Hart.land
    runLatched i l body
  | none =>
    if ← issueChecks i legal pairLegal later then runFirst i body else return .seq

/-- One word of the current hart, issued. -/
def issue (i : Info) (body : Act Flow) (s : State) (legal : Act Unit := pure ()) (pairLegal : Act Unit := pure ())
    (later : Act Unit := pure ()) : Result :=
  if !s.h.live then .fault .noHart else
  match issueAct i legal pairLegal later body s with
  | .ok f s1 => .next { s1 with h := finish i f s1.h }
  | .error e s1 => .next (deliver i.word e s1)

/-- A body that goes on to the next word. -/
def andNext (a : Act Unit) : Act Flow := do a; return .seq

/-! The information of each format's words. -/

def rInfo (major func : Nat) (o : RArgs) (dest : DestKind := .none) (reads : List (BitVec 5) := []) : Info :=
  { word := rWord major func o, major := major, guard := .pred o.neg o.guard.toNat, stall := o.stall.toNat
    dest := dest, reads := reads.map fun r => r.toNat }
def iInfo (major func : Nat) (o : IArgs) (dest : DestKind) (reads : List (BitVec 5)) : Info :=
  { word := iWord major func o, major := major, dest := dest, reads := reads.map fun r => r.toNat }
/-- R368: the V-format words that settle on entry to the vector queue: VINT to VMRG, WAVE, GLEN, GXFM, GTAG, GSETTAG, GCHK and
GCELL. -/
def settlesEarly (major func : Nat) : Bool :=
  (decide (0x14 ≤ major) && decide (major ≤ 0x1E)) || major == 0x2F
    || (major == 0x2C && [5, 7, 8, 9, 10].contains func) || (major == 0x2E && func == 0)
def vInfo (major func : Nat) (o : VArgs) (dest : DestKind) (reads : List (BitVec 5) := []) : Info :=
  { settles := settlesEarly major func && (dest == .v || dest == .none)
    word := vWord major func o, major := major, guard := .mask (o.mask == 7 && o.neg), dest := dest, reads := reads.map fun r => r.toNat
    kPair := true, vector := true }
def kInfo (op : Nat) (o : KArgs) (dest : DestKind) (reads : List Nat) : Info :=
  { word := kWord op o, size := 2, major := 0x40, dest := dest, reads := reads }

end Sys2Proof.Machine
end

