-- ==== Sys2Proof/Machine/Operands.lean ====
section
/-! DEFINITION. Operand forms: immediates, branch targets, scalar memory addresses, and the information that each format
gives the checks of R35. -/

namespace Sys2Proof.Machine

/-- R305: sext(imm20 << 12, 32). -/
def upperImm (imm : BitVec 20) : Word := ((imm.setWidth 32) <<< 12).signExtend 64

/-- R310: a branch's target: (pc AND NOT 3) + 4 sext(offset). -/
def branchTarget {n : Nat} (pc : Word) (off : BitVec n) : Word := (pc &&& ~~~3) + 4 * off.signExtend 64

/-- R310: the link: (pc + 7) AND NOT 3. -/
def linkAddress (pc : Word) : Word := (pc + 7) &&& ~~~3

/-- R135: an L-format address: s[a] + imm5 scaled by the access size. -/
def lAddress (h : Hart) (o : LArgs) (size : Nat) : Nat := (h.reg o.a.toNat + word (o.imm.toNat * size)).toNat

/-! Formats without a guard field (R306), and format C (R27). -/

def uInfo (major : Nat) (o : UArgs) : Info := { word := uWord major o, major := major, dest := .s o.d.toNat }
def cInfo (major form : Nat) (o : CArgs) (reads : List (BitVec 5)) : Info :=
  { word := cWord major form o, major := major, guard := .pred o.neg o.guard.toNat
    reads := reads.map (fun r => r.toNat), destsP := [o.d1.toNat, o.d2.toNat] }
def lInfo (major size : Nat) (o : LArgs) (dest : DestKind) (reads : List (BitVec 5)) : Info :=
  { word := lWord major size o, major := major, dest := dest, reads := reads.map (fun r => r.toNat), address := true }
def aInfo (func : Nat) (o : AArgs) (dest : DestKind) (reads : List (BitVec 5)) : Info :=
  { word := aWord 0x0F func o, major := 0x0F, dest := dest, reads := reads.map (fun r => r.toNat), address := true }
def mInfo (major : Nat) (o : MArgs) (dest : DestKind) (reads : List (BitVec 5)) : Info :=
  { word := mWord major o, major := major, guard := .mask (o.mask == 7 && o.neg), dest := dest, reads := reads.map (fun r => r.toNat)
    address := true, kPair := true, vector := true }

/-- A counter field: none for 7 (R17, R42). -/
def counterOf (c : Nat) : Option Nat := if c < 6 then some c else none

/-- R40: a word that would take a counter above 63 waits at issue. -/
def counterRoom (c : Nat) : Act Unit := do
  if c < 6 && decide (63 ≤ (← getH).deps[c]?.getD 0) then waitFor .register
def raiseCounter (c : Nat) : Act Unit :=
  modH fun h => if c < 6 then { h with deps := h.deps.setIfInBounds c (h.deps[c]?.getD 0 + 1) } else h

/-- R40: issue a counted operation on counter c, with its destination and the prefix's copy; LASTD becomes d (R51). -/
def addOp (kind : OpKind) (c : Nat) (dest : Option Nat) : Act Unit := do
  raiseCounter c
  modH fun h => { h with
    ops := h.ops ++ [{ kind := kind, counter := c, dest := dest, copy := if dest.isSome then h.copyReg else none
                       shadow := h.inHandler, order := h.words }]
    lastd := match dest with
      | some d => BitVec.ofNat 5 d
      | none => h.lastd }

end Sys2Proof.Machine
end

