-- ==== Sys2Proof/Machine/Alu.lean ====
section
/-! DEFINITION. Integer words: ALU, MULDIV, BITS, immediates, LIH and ADDPC (R302 to R306), the predicates CMP and PLOG
(R307, R309), and the compact forms of the same operations (R52, R323). -/

namespace Sys2Proof.Machine

/-- R302: sD := f a b, readable after `lat` cycles. -/
def binaryWord (major func : Nat) (f : Word → Word → Word) (lat : Nat) (o : RArgs) (s : State) : Result :=
  issue (rInfo major func o (.s o.d.toNat) [o.a, o.b]) (andNext do
    let h ← getH
    writeD o.d (f (h.reg o.a.toNat) (h.reg o.b.toNat)) lat) s

/-- R315: the cycles of a division whose dividend has this magnitude. -/
def divCycles (a : Nat) : Nat := 4 + ((if a = 0 then 0 else Nat.log2 a + 1) + 3) / 4

/-- R303, R315, R37: sD := f a b, a division's result, which its consumers wait for. -/
def divideWord (func : Nat) (f : Word → Word → Word) (size : Word → Nat) (o : RArgs) (s : State) : Result :=
  issue (rInfo 1 func o (.s o.d.toNat) [o.a, o.b]) (andNext do
    let h ← getH
    let a := h.reg o.a.toNat
    writeD o.d (f a (h.reg o.b.toNat)) (divCycles (size a)) 0 true) s

/-- R302: sD := f a, b zero. -/
def unaryWord (major func : Nat) (f : Word → Word) (o : RArgs) (s : State) : Result :=
  issue (rInfo major func o (.s o.d.toNat) [o.a]) (andNext do
    let h ← getH
    writeD o.d (f (h.reg o.a.toNat))) s

/-- R304: sD := f a imm12. -/
def immWord (func : Nat) (f : Word → BitVec 12 → Word) (o : IArgs) (s : State) : Result :=
  issue (iInfo 0x03 func o (.s o.d.toNat) [o.a]) (andNext do
    let h ← getH
    writeD o.d (f (h.reg o.a.toNat) o.imm)) s

/-- R302: a shift amount is the low six bits. -/
def shamt (b : Word) : Nat := b.toNat % 64

def minS (a b : Word) : Word := if a.slt b then a else b
def maxS (a b : Word) : Word := if a.slt b then b else a
def minN (a b : Word) : Word := if a.ult b then a else b
def maxN (a b : Word) : Word := if a.ult b then b else a

/-- R302: the high half of the signed and of the natural product. -/
def mulHigh (a b : Word) : Word := BitVec.ofInt 64 (a.toInt * b.toInt / 2 ^ 64)
def mulHighN (a b : Word) : Word := word (a.toNat * b.toNat / 2 ^ 64)

/-- R303. -/
def divS (a b : Word) : Word := if b = 0 then BitVec.allOnes 64 else a.sdiv b
def divN (a b : Word) : Word := if b = 0 then BitVec.allOnes 64 else a.udiv b
def remS (a b : Word) : Word := if b = 0 then a else a.srem b
def remN (a b : Word) : Word := if b = 0 then a else a.umod b

/-- R302: leading zeros, trailing zeros and set bits of the low w bits of n. -/
def leadingZeros (w n : Nat) : Nat := if n = 0 then w else w - 1 - Nat.log2 n
def trailingZeros (w n : Nat) : Nat := ((List.range w).find? fun i => bit n i).getD w
def popCount (w n : Nat) : Nat := ((List.range w).filter fun i => bit n i).length

/-- sext(a, n) and zext(a, n). -/
def sextLow (n : Nat) (a : Word) : Word := (a.setWidth n).signExtend 64
def zextLow (n : Nat) (a : Word) : Word := (a.setWidth n).setWidth 64

/-- ADD (R302). sD := a + b. -/
def execAdd (o : RArgs) (s : State) : Result := binaryWord 0 0 (fun a b => a + b) 1 o s

/-- SUB (R302). sD := a − b. -/
def execSub (o : RArgs) (s : State) : Result := binaryWord 0 1 (fun a b => a - b) 1 o s

/-- AND (R302). sD := a AND b. -/
def execAnd (o : RArgs) (s : State) : Result := binaryWord 0 2 (fun a b => a &&& b) 1 o s

/-- OR (R302). sD := a OR b. -/
def execOr (o : RArgs) (s : State) : Result := binaryWord 0 3 (fun a b => a ||| b) 1 o s

/-- XOR (R302). sD := a XOR b. -/
def execXor (o : RArgs) (s : State) : Result := binaryWord 0 4 (fun a b => a ^^^ b) 1 o s

/-- ANDN (R302). sD := a AND NOT b. -/
def execAndn (o : RArgs) (s : State) : Result := binaryWord 0 5 (fun a b => a &&& ~~~b) 1 o s

/-- SHL (R302). sD := a shifted left. -/
def execShl (o : RArgs) (s : State) : Result := binaryWord 0 6 (fun a b => a <<< shamt b) 1 o s

/-- SHR (R302). sD := a shifted right, zeros in. -/
def execShr (o : RArgs) (s : State) : Result := binaryWord 0 7 (fun a b => a >>> shamt b) 1 o s

/-- SRA (R302). sD := a shifted right, sign copies in. -/
def execSra (o : RArgs) (s : State) : Result := binaryWord 0 8 (fun a b => a.sshiftRight (shamt b)) 1 o s

/-- ROTL (R302). sD := a rotated left. -/
def execRotl (o : RArgs) (s : State) : Result := binaryWord 0 9 (fun a b => a.rotateLeft (shamt b)) 1 o s

/-- MIN (R302). The signed minimum. -/
def execMin (o : RArgs) (s : State) : Result := binaryWord 0 10 minS 1 o s

/-- MAX (R302). The signed maximum. -/
def execMax (o : RArgs) (s : State) : Result := binaryWord 0 11 maxS 1 o s

/-- MINN (R302). The natural minimum. -/
def execMinn (o : RArgs) (s : State) : Result := binaryWord 0 12 minN 1 o s

/-- MAXN (R302). The natural maximum. -/
def execMaxn (o : RArgs) (s : State) : Result := binaryWord 0 13 maxN 1 o s

/-- MUL (R302). The low 64 bits of the product, after three cycles (R36). -/
def execMul (o : RArgs) (s : State) : Result := binaryWord 1 0 (fun a b => a * b) 3 o s

/-- MULH (R302). The high 64 bits of the signed product, after three cycles. -/
def execMulh (o : RArgs) (s : State) : Result := binaryWord 1 1 mulHigh 3 o s

/-- MULHN (R302). The high 64 bits of the natural product, after three cycles. -/
def execMulhn (o : RArgs) (s : State) : Result := binaryWord 1 2 mulHighN 3 o s

/-- DIV (R303). Signed quotient, with the edge cases of R303; consumers wait (R37). -/
def execDiv (o : RArgs) (s : State) : Result := divideWord 3 divS (fun a => a.toInt.natAbs) o s

/-- DIVN (R303). Natural quotient, with the edge cases of R303; consumers wait (R37). -/
def execDivn (o : RArgs) (s : State) : Result := divideWord 4 divN (fun a => a.toNat) o s

/-- REM (R303). Signed remainder, with the edge cases of R303; consumers wait (R37). -/
def execRem (o : RArgs) (s : State) : Result := divideWord 5 remS (fun a => a.toInt.natAbs) o s

/-- REMN (R303). Natural remainder, with the edge cases of R303; consumers wait (R37). -/
def execRemn (o : RArgs) (s : State) : Result := divideWord 6 remN (fun a => a.toNat) o s

/-- CLZ (R302). Leading zeros. -/
def execClz (o : RArgs) (s : State) : Result := unaryWord 2 0 (fun a => word (leadingZeros 64 a.toNat)) o s

/-- CTZ (R302). Trailing zeros. -/
def execCtz (o : RArgs) (s : State) : Result := unaryWord 2 1 (fun a => word (trailingZeros 64 a.toNat)) o s

/-- POPC (R302). Set bits. -/
def execPopc (o : RArgs) (s : State) : Result := unaryWord 2 2 (fun a => word (popCount 64 a.toNat)) o s

/-- SEXTB (R302). sext(a, 8). -/
def execSextb (o : RArgs) (s : State) : Result := unaryWord 2 3 (sextLow 8) o s

/-- SEXTH (R302). sext(a, 16). -/
def execSexth (o : RArgs) (s : State) : Result := unaryWord 2 4 (sextLow 16) o s

/-- SEXTW (R302). sext(a, 32). -/
def execSextw (o : RArgs) (s : State) : Result := unaryWord 2 5 (sextLow 32) o s

/-- ZEXTB (R302). zext(a, 8). -/
def execZextb (o : RArgs) (s : State) : Result := unaryWord 2 6 (zextLow 8) o s

/-- ZEXTH (R302). zext(a, 16). -/
def execZexth (o : RArgs) (s : State) : Result := unaryWord 2 7 (zextLow 16) o s

/-- ZEXTW (R302). zext(a, 32). -/
def execZextw (o : RArgs) (s : State) : Result := unaryWord 2 8 (zextLow 32) o s

/-- ADDI (R304). sD := a + sext(imm12). -/
def execAddi (o : IArgs) (s : State) : Result := immWord 0 (fun a i => a + i.signExtend 64) o s

/-- ANDI (R304). sD := a AND sext(imm12). -/
def execAndi (o : IArgs) (s : State) : Result := immWord 1 (fun a i => a &&& i.signExtend 64) o s

/-- ORI (R304). sD := a OR sext(imm12). -/
def execOri (o : IArgs) (s : State) : Result := immWord 2 (fun a i => a ||| i.signExtend 64) o s

/-- XORI (R304). sD := a XOR sext(imm12). -/
def execXori (o : IArgs) (s : State) : Result := immWord 3 (fun a i => a ^^^ i.signExtend 64) o s

/-- SHLI (R304). sD := a << imm. -/
def execShli (o : IArgs) (s : State) : Result := immWord 4 (fun a i => a <<< (i.toNat % 64)) o s

/-- SHRI (R304). sD := a >> imm, zeros in. -/
def execShri (o : IArgs) (s : State) : Result := immWord 5 (fun a i => a >>> (i.toNat % 64)) o s

/-- SRAI (R304). sD := a >> imm, sign copies in. -/
def execSrai (o : IArgs) (s : State) : Result := immWord 6 (fun a i => a.sshiftRight (i.toNat % 64)) o s

/-- LIH (R305). sD := sext(imm20 << 12, 32). -/
def execLih (o : UArgs) (s : State) : Result :=
  issue (uInfo 0x04 o) (andNext do writeD o.d (upperImm o.imm)) s

/-- ADDPC (R305). sD := pc + sext(imm20 << 12, 32). -/
def execAddpc (o : UArgs) (s : State) : Result :=
  issue (uInfo 0x05 o) (andNext do
    let h ← getH
    writeD o.d (h.pc + upperImm o.imm)) s

/-! Predicates (R307, R309). -/

/-- R307: the conditions 0 to 11 of CMP. -/
def compare (cond : Nat) (a b : Word) : Bool :=
  match cond with
  | 0 => a == b
  | 1 => a != b
  | 2 => a.slt b
  | 3 => !a.slt b
  | 4 => a.ult b
  | 5 => !a.ult b
  | 6 => !b.slt a
  | 7 => b.slt a
  | 8 => !b.ult a
  | 9 => b.ult a
  | 10 => (a &&& b) != 0
  | _ => (a &&& b) == 0

/-- R307: the immediate of a compare: sign-extended, or one bit for BSET and BCLR. -/
def compareImm (cond : Nat) (imm : BitVec 5) : Word := if cond < 10 then imm.signExtend 64 else word (2 ^ imm.toNat)

/-- R307: write a compare's destinations: the condition and its complement. -/
def writeCompare (o : CArgs) (c : Bool) (lat flags : Nat) : Act Unit :=
  modH fun h => h.predResult [(o.d1.toNat, c), (o.d2.toNat, !c)] lat flags

/-- CMP (R307). Register form. -/
def execCmp (o : CArgs) (s : State) : Result :=
  issue (cInfo 0x06 0 o [o.a, o.b]) (andNext do
    let h ← getH
    writeCompare o (compare o.cond.toNat (h.reg o.a.toNat) (h.reg o.b.toNat)) 1 0) s

/-- CMP_IMM (R307). Immediate form. -/
def execCmpImm (o : CArgs) (s : State) : Result :=
  issue (cInfo 0x06 1 o [o.a]) (andNext do
    let h ← getH
    writeCompare o (compare o.cond.toNat (h.reg o.a.toNat) (compareImm o.cond.toNat o.b)) 1 0) s

/-- R309: pD := f pA pB. -/
def plogWord (func : Nat) (f : Bool → Bool → Bool) (o : RArgs) (s : State) : Result :=
  issue { rInfo 0x08 func o with readsP := [o.a.toNat, o.b.toNat], destsP := [o.d.toNat] } (andNext do
    let h ← getH
    modH fun h' => h'.predResult [(o.d.toNat, f (h.pred o.a.toNat) (h.pred o.b.toNat))] 1 0) s

/-- PAND (R309). pD := pA AND pB. -/
def execPand (o : RArgs) (s : State) : Result := plogWord 0 (fun a b => a && b) o s

/-- POR (R309). pD := pA OR pB. -/
def execPor (o : RArgs) (s : State) : Result := plogWord 1 (fun a b => a || b) o s

/-- PXOR (R309). pD := pA XOR pB. -/
def execPxor (o : RArgs) (s : State) : Result := plogWord 2 (fun a b => a != b) o s

/-- PANDN (R309). pD := pA AND NOT pB. -/
def execPandn (o : RArgs) (s : State) : Result := plogWord 3 (fun a b => a && !b) o s

/-- PMOV (R309). pD := pA. -/
def execPmov (o : RArgs) (s : State) : Result :=
  issue { rInfo 0x08 4 o with readsP := [o.a.toNat], destsP := [o.d.toNat] } (andNext do
    let h ← getH
    modH fun h' => h'.predResult [(o.d.toNat, h.pred o.a.toNat)] 1 0) s

/-- PNOT (R309). pD := NOT pA. -/
def execPnot (o : RArgs) (s : State) : Result :=
  issue { rInfo 0x08 5 o with readsP := [o.a.toNat], destsP := [o.d.toNat] } (andNext do
    let h ← getH
    modH fun h' => h'.predResult [(o.d.toNat, !h.pred o.a.toNat)] 1 0) s

/-! Compact forms (R52, R323). -/

/-- R52: a := s[LASTD] op s[b]. -/
def compactWord (op : Nat) (f : Word → Word → Word) (o : KArgs) (s : State) : Result :=
  issue (kInfo op o (.s o.a.toNat) [s.h.lastd.toNat, o.b.toNat]) (andNext do
    let h ← getH
    writeD o.a (f (h.reg h.lastd.toNat) (h.reg o.b.toNat))) s

/-- C_ADD (R323). sA := s[LASTD] + s[b]. -/
def execCAdd (o : KArgs) (s : State) : Result := compactWord 0 (fun a b => a + b) o s

/-- C_SUB (R323). sA := s[LASTD] − s[b]. -/
def execCSub (o : KArgs) (s : State) : Result := compactWord 1 (fun a b => a - b) o s

/-- C_AND (R323). sA := s[LASTD] AND s[b]. -/
def execCAnd (o : KArgs) (s : State) : Result := compactWord 2 (fun a b => a &&& b) o s

/-- C_OR (R323). sA := s[LASTD] OR s[b]. -/
def execCOr (o : KArgs) (s : State) : Result := compactWord 3 (fun a b => a ||| b) o s

/-- C_XOR (R323). sA := s[LASTD] XOR s[b]. -/
def execCXor (o : KArgs) (s : State) : Result := compactWord 4 (fun a b => a ^^^ b) o s

/-- C_SHL (R323). sA := s[LASTD] << s[b]. -/
def execCShl (o : KArgs) (s : State) : Result := compactWord 5 (fun a b => a <<< shamt b) o s

/-- C_SHR (R323). sA := s[LASTD] >> s[b], zeros in. -/
def execCShr (o : KArgs) (s : State) : Result := compactWord 6 (fun a b => a >>> shamt b) o s

/-- C_ADDI (R323). sA := s[LASTD] + sext(imm5). -/
def execCAddi (o : KArgs) (s : State) : Result :=
  issue (kInfo 7 o (.s o.a.toNat) [s.h.lastd.toNat]) (andNext do
    let h ← getH
    writeD o.a (h.reg h.lastd.toNat + o.b.signExtend 64)) s

/-- C_MOV (R323). sA := s[b]. -/
def execCMov (o : KArgs) (s : State) : Result :=
  issue (kInfo 8 o (.s o.a.toNat) [o.b.toNat]) (andNext do
    let h ← getH
    writeD o.a (h.reg o.b.toNat)) s

/-- C_NOP (R323). Nothing. -/
def execCNop (o : KArgs) (s : State) : Result :=
  issue (kInfo 31 o .none []) (andNext (pure ())) s

end Sys2Proof.Machine
end

