-- ==== Sys2Proof/Machine/Compress.lean ====
section
/-! DEFINITION. What the copy engines decompress (R116): LZ4 blocks, and Zstandard frames (RFC 8878, log 9). A decoder holds
its output newest first. -/

namespace Sys2Proof.Machine

/-- How a decoder ends: with success, having met malformed input, or unable to read a source byte (its offset). -/
inductive Ending where
  | good
  | malformed
  | unread (at' : Nat)
  deriving DecidableEq, Repr, Inhabited

/-- A match: n bytes copied from `dist` back, one by one. -/
def copyBack : Nat → Nat → List Byte → List Byte
  | 0, _, out => out
  | n + 1, dist, out => copyBack n dist (out.getD (dist - 1) 0 :: out)

/-! LZ4 blocks (R116 routine 2): sequences of a token, literals and a match. -/

/-- A length whose 15 continues in bytes of 255. -/
def lz4Length : Nat → List Byte → Nat → Option (Nat × List Byte)
  | 0, _, _ => none
  | _ + 1, [], _ => none
  | n + 1, b :: bs, v => if b = 255 then lz4Length n bs (v + 255) else some (v + b.toNat, bs)
def lz4Ext (nib : Nat) (bs : List Byte) : Option (Nat × List Byte) :=
  if nib = 15 then lz4Length (bs.length + 1) bs 15 else some (nib, bs)

/-- Decode a block that declares `size` bytes, until `want` of them; the output newest first. -/
def lz4Decode (want size : Nat) : Nat → List Byte → List Byte → Option (List Byte)
  | 0, _, _ => none
  | _ + 1, [], _ => none
  | fuel + 1, tok :: bs, out =>
    match lz4Ext (tok.toNat / 16) bs with
    | none => none
    | some (lit, bs1) =>
      if bs1.length < lit then none else
      let out1 := (bs1.take lit).reverse ++ out
      let bs2 := bs1.drop lit
      if want < size && want ≤ out1.length then some out1
      else if bs2.isEmpty then (if out1.length = size then some out1 else none)
      else if bs2.length < 2 then none else
      let dist := leAt bs2 0 2
      if dist = 0 || out1.length < dist then none else
      match lz4Ext (tok.toNat % 16) (bs2.drop 2) with
      | none => none
      | some (m, bs3) =>
        let out2 := copyBack (m + 4) dist out1
        if want < size && want ≤ out2.length then some out2
        else if size < out2.length then none
        else lz4Decode want size fuel bs3 out2
/-- The first `want` bytes of a block of `size` bytes; none when it is malformed before they are produced. -/
def lz4Block (want size : Nat) (bs : List Byte) : Option (List Byte) :=
  (lz4Decode want size (bs.length + 1) bs []).map fun o => o.reverse.take want

/-! XXH64, the content checksum. -/

def xxhPrime (n : Nat) : Word :=
  [0x9E3779B185EBCA87, 0xC2B2AE3D27D4EB4F, 0x165667B19E3779F9, 0x85EBCA77C2B2AE63, 0x27D4EB2F165667C5].getD n 0
def xxhRound (acc x : Word) : Word := (acc + x * xxhPrime 1).rotateLeft 31 * xxhPrime 0
def xxhMerge (h v : Word) : Word := (h ^^^ xxhRound 0 v) * xxhPrime 0 + xxhPrime 3
/-- The stripes of 32 bytes, four lanes. -/
def xxhStripes : Nat → List Byte → List Word → List Word
  | 0, _, v => v
  | n + 1, bs, v => xxhStripes n (bs.drop 32) (v.zipIdx.map fun (a, i) => xxhRound a (BitVec.ofNat 64 (leAt bs (8 * i) 8)))
/-- The bytes after the stripes. -/
def xxhTail : Nat → List Byte → Word → Word
  | 0, _, h => h
  | n + 1, bs, h =>
    if 8 ≤ bs.length then
      xxhTail n (bs.drop 8) ((h ^^^ xxhRound 0 (BitVec.ofNat 64 (leAt bs 0 8))).rotateLeft 27 * xxhPrime 0 + xxhPrime 3)
    else if 4 ≤ bs.length then
      xxhTail n (bs.drop 4) ((h ^^^ (BitVec.ofNat 64 (leAt bs 0 4) * xxhPrime 0)).rotateLeft 23 * xxhPrime 1 + xxhPrime 2)
    else match bs with
      | [] => h
      | b :: bs => xxhTail n bs ((h ^^^ (b.setWidth 64 * xxhPrime 4)).rotateLeft 11 * xxhPrime 0)
def xxh64 (bs : List Byte) : Word :=
  let n := bs.length / 32
  let lanes := xxhStripes n bs [xxhPrime 0 + xxhPrime 1, xxhPrime 1, 0, 0 - xxhPrime 0]
  let sums := (lanes.zip [1, 7, 12, 18]).foldl (fun (h : Word) e => h + e.1.rotateLeft e.2) 0
  let h0 := if n = 0 then xxhPrime 4 else lanes.foldl xxhMerge sums
  let h1 := xxhTail bs.length (bs.drop (32 * n)) (h0 + BitVec.ofNat 64 bs.length)
  let h2 := (h1 ^^^ (h1 >>> 33)) * xxhPrime 1
  let h3 := (h2 ^^^ (h2 >>> 29)) * xxhPrime 2
  h3 ^^^ (h3 >>> 32)

/-! Bit streams that are read from their end (RFC 8878 section 4). -/

/-- The bits, and how many of them are left; fewer than none once more have been read than there were, as zeros. -/
structure Back where
  value : Nat
  left : Int
  deriving DecidableEq, Repr

/-- The last byte's highest bit marks the end. -/
def Back.of (bs : List Byte) : Option Back :=
  let v := natOfBytes bs
  if bs.getLastD 0 = 0 then none else some ⟨v - 2 ^ v.log2, v.log2⟩
def Back.read (b : Back) (k : Nat) : Nat × Back :=
  let left := b.left - k
  (if 0 ≤ left then b.value / 2 ^ left.toNat % 2 ^ k else b.value % 2 ^ b.left.toNat * 2 ^ (k - b.left.toNat), ⟨b.value, left⟩)

/-! Finite-state entropy (RFC 8878 section 4.1). -/

/-- A state: its symbol, and the next state's base and bits. -/
structure FseCell where
  symbol : Nat
  bits : Nat
  base : Nat
  deriving DecidableEq, Repr
structure FseTable where
  log : Nat
  cells : List FseCell
  deriving DecidableEq, Repr
def FseTable.at' (t : FseTable) (i : Nat) : FseCell := t.cells.getD i ⟨0, 0, 0⟩

/-- The run of zero probabilities that two-bit flags give from a position: its length, and the position after it. -/
def fseZeros (v : Nat) : Nat → Nat → Nat × Nat
  | 0, pos => (0, pos)
  | n + 1, pos =>
    let r := v / 2 ^ pos % 4
    if r = 3 then let (k, p) := fseZeros v n (pos + 2); (k + 3, p) else (r, pos + 2)
/-- The probabilities that a description gives (−1 is "less than one"), and the position after them. -/
def fseCounts (v : Nat) : Nat → Nat → Nat → List Int → Option (List Int × Nat)
  | 0, pos, remaining, acc => if remaining = 0 then some (acc.reverse, pos) else none
  | n + 1, pos, remaining, acc =>
    if remaining = 0 then some (acc.reverse, pos) else
    let width := (remaining + 1).log2 + 1
    let x := v / 2 ^ pos % 2 ^ width
    let half := 2 ^ (width - 1)
    let few := 2 ^ width - 2 - remaining
    let (val, used) := if x % half < few then (x % half, width - 1) else (if half ≤ x then x - few else x, width)
    let cost := if val = 0 then 1 else val - 1
    if remaining < cost then none
    else if val = 1 then
      let (k, pos1) := fseZeros v 256 (pos + used)
      fseCounts v n pos1 remaining (List.replicate (k + 1) 0 ++ acc)
    else fseCounts v n (pos + used) (remaining - cost) (((val : Int) - 1) :: acc)

/-- The symbol of each state: those of probability −1 from the end down, the others spread by a fixed step. -/
def fseSymbols (log : Nat) (counts : List Int) : List Nat :=
  let size := 2 ^ log
  let rare := (counts.zipIdx.filter fun c => c.1 == -1).map fun c => c.2
  let places := ((List.range size).map fun k => k * (size / 2 + size / 8 + 3) % size).filter fun p => decide (p < size - rare.length)
  let usual := counts.zipIdx.flatMap fun c => List.replicate c.1.toNat c.2
  let at' := places.zip usual ++ rare.zipIdx.map fun r => (size - 1 - r.2, r.1)
  (List.range size).map fun i => ((at'.find? fun e => e.1 == i).map fun e => e.2).getD 0
/-- The table of a distribution: a symbol's states, in ascending order, take its range in turn. -/
def fseTable (log : Nat) (counts : List Int) : FseTable :=
  let start := counts.map fun c => if c = -1 then 1 else c.toNat
  let build := fun (acc : List Nat × List FseCell) (sym : Nat) =>
    let x := acc.1.getD sym 0
    let nb := log - x.log2
    (acc.1.set sym (x + 1), ⟨sym, nb, x * 2 ^ nb - 2 ^ log⟩ :: acc.2)
  ⟨log, ((fseSymbols log counts).foldl build (start, [])).2.reverse⟩
/-- A table's description at the head of some bytes, and the bytes after it. -/
def fseRead (maxLog maxSymbol : Nat) (bs : List Byte) : Option (FseTable × List Byte) := do
  let v := natOfBytes (bs.take 512)
  let log := v % 16 + 5
  if maxLog < log then none
  let (counts, pos) ← fseCounts v 256 4 (2 ^ log) []
  if maxSymbol + 1 < counts.length || bs.length < (pos + 7) / 8 then none
  return (fseTable log counts, bs.drop ((pos + 7) / 8))

/-! Huffman coding (RFC 8878 section 4.2). -/

/-- A symbol and its code's length for each value of the next `bits` bits. -/
structure HufTable where
  bits : Nat
  cells : List (Nat × Nat)
  deriving DecidableEq, Repr

/-- The table of the weights of all symbols but the last, whose weight completes them. -/
def hufTable (weights : List Nat) : Option HufTable :=
  let sum := (weights.map fun w => if w = 0 then 0 else 2 ^ (w - 1)).sum
  let top := sum.log2 + 1
  let left := 2 ^ top - sum
  if sum = 0 || decide (11 < top) || left != 2 ^ left.log2 then none else
  let all := (weights ++ [left.log2 + 1]).zipIdx
  some ⟨top, (List.range top).flatMap fun w =>
    (all.filter fun e => e.1 == w + 1).flatMap fun e => List.replicate (2 ^ w) (e.2, top - w)⟩

/-- Weights coded by two states in turn, until the bits are used up. -/
def fseWeights (t : FseTable) : Nat → Back → Nat → Nat → List Nat → Option (List Nat)
  | 0, _, _, _, _ => none
  | n + 1, b, s1, s2, acc =>
    let c := t.at' s1
    let (x, b1) := b.read c.bits
    if b1.left < 0 then some (((t.at' s2).symbol :: c.symbol :: acc).reverse)
    else fseWeights t n b1 s2 (c.base + x) (c.symbol :: acc)
/-- A tree's description at the head of some bytes, and the bytes after it. -/
def hufRead (bs : List Byte) : Option (HufTable × List Byte) := do
  let n := leAt bs 0 1
  let size := if n < 128 then n else (n - 126) / 2
  let body := (bs.drop 1).take size
  if bs.length < 1 + size then none
  let weights ← if n < 128 then do
      let (t, rest) ← fseRead 6 255 body
      let b ← Back.of rest
      let (s1, b1) := b.read t.log
      let (s2, b2) := b1.read t.log
      if b2.left < 0 then none
      fseWeights t 255 b2 s1 s2 []
    else some (((body.flatMap fun x => [x.toNat / 16, x.toNat % 16])).take (n - 127))
  if 255 < weights.length then none
  return (← hufTable weights, bs.drop (1 + size))
/-- n symbols of a stream, which uses its bits up. -/
def hufStream (t : HufTable) : Nat → Back → List Byte → Option (List Byte)
  | 0, b, acc => if b.left = 0 then some acc.reverse else none
  | n + 1, b, acc =>
    let c := t.cells.getD (b.read t.bits).1 (0, 0)
    if b.left < c.2 then none else hufStream t n ⟨b.value, b.left - c.2⟩ (BitVec.ofNat 8 c.1 :: acc)
/-- n symbols of one stream, or of four whose first three sizes stand before them. -/
def hufStreams (t : HufTable) (one : Bool) (n : Nat) (bs : List Byte) : Option (List Byte) :=
  if one then (Back.of bs).bind fun b => hufStream t n b [] else do
  let a := leAt bs 0 2
  let b := leAt bs 2 2
  let c := leAt bs 4 2
  let k := (n + 3) / 4
  let body := bs.drop 6
  if bs.length < 6 || body.length < a + b + c || n < 3 * k then none
  let stream := fun (m off len : Nat) => (Back.of ((body.drop off).take len)).bind fun b => hufStream t m b []
  return (← stream k 0 a) ++ (← stream k a b) ++ (← stream k (a + b) c) ++ (← stream (n - 3 * k) (a + b + c) body.length)

/-! Blocks (RFC 8878 section 3.1.1.2 and 3.1.1.3). -/

/-- A frame's header: its window, its content's size where it states one, and whether a checksum follows. -/
structure ZFrame where
  window : Nat
  content : Option Nat
  checksum : Bool
  deriving DecidableEq, Repr
def ZFrame.blockMax (f : ZFrame) : Nat := min f.window 131072
/-- What a block leaves to the next: the content so far, the last three offsets, and the tables. -/
structure ZState where
  out : List Byte := []
  offsets : Nat × Nat × Nat := (1, 4, 8)
  huf : Option HufTable := none
  lit : Option FseTable := none
  off : Option FseTable := none
  len : Option FseTable := none
  deriving DecidableEq, Repr

/-- A literals section at the head of a block: its literals, the bytes after it and the Huffman table then. -/
def literals (limit : Nat) (prev : Option HufTable) (bs : List Byte) : Option (List Byte × List Byte × Option HufTable) := do
  let b0 := leAt bs 0 1
  let fmt := b0 / 4 % 4
  if b0 % 4 ≤ 1 then
    let (head, size) := if fmt % 2 = 0 then (1, b0 / 8) else if fmt = 1 then (2, leAt bs 0 2 / 16) else (3, leAt bs 0 3 / 16)
    let body := bs.drop head
    if limit < size || bs.length < head then none
    if b0 % 4 = 0 then
      if body.length < size then none
      return (body.take size, body.drop size, prev)
    else match body with
      | [] => none
      | b :: rest => return (List.replicate size b, rest, prev)
  else
    let (head, w) := if fmt ≤ 1 then (3, 10) else if fmt = 2 then (4, 14) else (5, 18)
    let h := leAt bs 0 head
    let size := h / 16 % 2 ^ w
    let comp := h / 2 ^ (4 + w) % 2 ^ w
    let body := bs.drop head
    if limit < size || bs.length < head || body.length < comp then none
    let (t, streams) ← if b0 % 4 = 2 then hufRead (body.take comp) else prev.map fun t => (t, body.take comp)
    return (← hufStreams t (fmt == 0) size streams, body.drop comp, some t)

/-- Literal length codes from 16 on, and match length codes from 32 on: base and bits. -/
def litCodes : List (Nat × Nat) := [(16, 1), (18, 1), (20, 1), (22, 1), (24, 2), (28, 2), (32, 3), (40, 3), (48, 4), (64, 6)]
  ++ (List.range 10).map fun i => (2 ^ (i + 7), i + 7)
def matchCodes : List (Nat × Nat) := [(35, 1), (37, 1), (39, 1), (41, 1), (43, 2), (47, 2), (51, 3), (59, 3), (67, 4), (83, 4),
  (99, 5)] ++ (List.range 10).map fun i => (2 ^ (i + 7) + 3, i + 7)
def litCode (c : Nat) : Nat × Nat := if c < 16 then (c, 0) else litCodes.getD (c - 16) (0, 0)
def matchCode (c : Nat) : Nat × Nat := if c < 32 then (c + 3, 0) else matchCodes.getD (c - 32) (0, 0)

/-- The predefined distributions. -/
def litDefault : FseTable := fseTable 6 ([4, 3] ++ List.replicate 11 2 ++ [1, 1, 1] ++ List.replicate 9 2 ++ [3, 2]
  ++ List.replicate 5 1 ++ List.replicate 4 (-1))
def matchDefault : FseTable := fseTable 6 ([1, 4, 3] ++ List.replicate 6 2 ++ List.replicate 37 1 ++ List.replicate 7 (-1))
def offsetDefault : FseTable := fseTable 5 (List.replicate 6 1 ++ List.replicate 3 2 ++ List.replicate 15 1 ++ List.replicate 5 (-1))

/-- The table that a mode gives: predefined, of one symbol, described, or the last one; and the bytes after it. -/
def codeTable (mode maxLog maxSymbol : Nat) (default prev : Option FseTable) (bs : List Byte) : Option (FseTable × List Byte) :=
  match mode with
  | 0 => default.map fun t => (t, bs)
  | 1 => match bs with
    | [] => none
    | b :: rest => if maxSymbol < b.toNat then none else some (⟨0, [⟨b.toNat, 0, 0⟩]⟩, rest)
  | 2 => fseRead maxLog maxSymbol bs
  | _ => prev.map fun t => (t, bs)

/-- n sequences (literal length, match length, offset value), which use the bits up. -/
def sequences (tl tf tm : FseTable) : Nat → Back → Nat → Nat → Nat → List (Nat × Nat × Nat) → Option (List (Nat × Nat × Nat))
  | 0, b, _, _, _, acc => if b.left = 0 then some acc.reverse else none
  | n + 1, b, sl, so, sm, acc =>
    let cl := tl.at' sl
    let co := tf.at' so
    let cm := tm.at' sm
    let (x, b1) := b.read co.symbol
    let (y, b2) := b1.read (matchCode cm.symbol).2
    let (z, b3) := b2.read (litCode cl.symbol).2
    let seq := ((litCode cl.symbol).1 + z, (matchCode cm.symbol).1 + y, 2 ^ co.symbol + x)
    if b3.left < 0 then none
    else if n = 0 then sequences tl tf tm n b3 sl so sm (seq :: acc)
    else
      let (i, b4) := b3.read cl.bits
      let (j, b5) := b4.read cm.bits
      let (k, b6) := b5.read co.bits
      sequences tl tf tm n b6 (cl.base + i) (co.base + k) (cm.base + j) (seq :: acc)

/-- The offset that a value names, and the last three then; a literal length of 0 shifts the values. -/
def offsetOf (value lits : Nat) (o : Nat × Nat × Nat) : Nat × (Nat × Nat × Nat) :=
  let (a, b, c) := o
  match (if value ≤ 3 then value + (if lits = 0 then 1 else 0) else 0) with
  | 0 => (value - 3, (value - 3, a, b))
  | 1 => (a, o)
  | 2 => (b, (b, a, c))
  | 3 => (c, (c, a, b))
  | _ => (a - 1, (a - 1, a, b))

/-- Sequences carried out: the literals left, the last offsets and the content. -/
def runSequences (window : Nat) : List (Nat × Nat × Nat) → List Byte → Nat × Nat × Nat → List Byte →
    Option (List Byte × (Nat × Nat × Nat) × List Byte)
  | [], lits, o, out => some (lits, o, out)
  | (ll, ml, value) :: rest, lits, o, out =>
    let out1 := (lits.take ll).reverse ++ out
    let (dist, o1) := offsetOf value ll o
    if lits.length < ll || dist == 0 || decide (min window out1.length < dist) then none
    else runSequences window rest (lits.drop ll) o1 (copyBack ml dist out1)

/-- A compressed block. -/
def zBlock (f : ZFrame) (bs : List Byte) (st : ZState) : Option ZState := do
  let (lits, body, huf) ← literals f.blockMax st.huf bs
  let b0 := leAt body 0 1
  let (head, n) := if b0 < 128 then (1, b0) else if b0 < 255 then (2, (b0 - 128) * 256 + leAt body 1 1) else (3, leAt body 1 2 + 0x7F00)
  if body.length < head then none
  if n = 0 then
    if head != 1 || body.length != 1 then none
    return { st with out := lits.reverse ++ st.out, huf := huf }
  else
    let modes := leAt body head 1
    if body.length ≤ head || modes % 4 != 0 then none
    let (tl, r1) ← codeTable (modes / 64) 9 35 (some litDefault) st.lit (body.drop (head + 1))
    let (tf, r2) ← codeTable (modes / 16 % 4) 8 31 (some offsetDefault) st.off r1
    let (tm, r3) ← codeTable (modes / 4 % 4) 9 52 (some matchDefault) st.len r2
    let b ← Back.of r3
    let (sl, b1) := b.read tl.log
    let (so, b2) := b1.read tf.log
    let (sm, b3) := b2.read tm.log
    let seqs ← sequences tl tf tm n b3 sl so sm []
    let (rest, o, out) ← runSequences f.window seqs lits st.offsets st.out
    let out1 := rest.reverse ++ out
    if f.blockMax + st.out.length < out1.length then none
    return { out := out1, offsets := o, huf := huf, lit := some tl, off := some tf, len := some tm }

/-! Frames (RFC 8878 section 3.1). -/

/-- n bytes of a source. -/
def sourceBytes (src : Nat → Option Byte) : Nat → Nat → Except Ending (List Byte)
  | 0, _ => .ok []
  | n + 1, o => do
    match src o with
    | none => .error (.unread o)
    | some b => return b :: (← sourceBytes src n (o + 1))
def orMalformed {α : Type} (x : Option α) : Except Ending α :=
  match x with
  | some a => .ok a
  | none => .error .malformed

/-- A frame's header after its magic, and the offset after it. R116: a window beyond 8 MiB or a dictionary is malformed. -/
def zHeader (src : Nat → Option Byte) (o : Nat) : Except Ending (ZFrame × Nat) := do
  let d := leAt (← sourceBytes src 1 o) 0 1
  let single := d.testBit 5
  let wn := if single then 0 else 1
  let dn := [0, 1, 2, 4].getD (d % 4) 0
  let cn := if d / 64 = 0 then (if single then 1 else 0) else 2 ^ (d / 64)
  let hd ← sourceBytes src (wn + dn + cn) (o + 1)
  let w := leAt hd 0 1
  let content := leAt hd (wn + dn) cn + (if cn = 2 then 256 else 0)
  let window := if single then content else 2 ^ (w / 8 + 10) + 2 ^ (w / 8 + 7) * (w % 8)
  if d.testBit 3 || leAt hd wn dn != 0 || decide (8388608 < window) then throw .malformed
  return (⟨window, if cn = 0 then none else some content, d.testBit 2⟩, o + 1 + wn + dn + cn)

/-- A place between the parts of a source: its offset, and inside a frame whether a checksum follows the frame's blocks. -/
abbrev ZPlace := Nat × Option Bool
/-- The place after a block. -/
def ZPlace.after (f : ZFrame) (last : Bool) (o : Nat) : ZPlace :=
  if last then (o + (if f.checksum then 4 else 0), none) else (o, some f.checksum)

/-- How the decoding of a frame ends: whole, with the offset after it; with as much as is wanted, after a block; or in a
failure of the part at an offset. -/
inductive ZEnd where
  | whole (next : Nat)
  | enough (place : ZPlace)
  | failed (e : Ending) (o : Nat)
  deriving DecidableEq, Repr

/-- A block at an offset: the state then, whether it is the last, and the offset after it. -/
def zNext (src : Nat → Option Byte) (f : ZFrame) (o : Nat) (st : ZState) : Except Ending (ZState × Bool × Nat) := do
  let hd := leAt (← sourceBytes src 3 o) 0 3
  let size := hd / 8
  let last := hd.testBit 0
  if f.blockMax < size then throw .malformed
  match hd / 2 % 4 with
  | 0 => return ({ st with out := (← sourceBytes src size (o + 3)).reverse ++ st.out }, last, o + 3 + size)
  | 1 => return ({ st with out := (← sourceBytes src 1 (o + 3)).flatMap (List.replicate size) ++ st.out }, last, o + 4)
  | 2 => return (← orMalformed (zBlock f (← sourceBytes src size (o + 3)) st), last, o + 3 + size)
  | _ => throw .malformed
/-- R116: what is checked after a frame's last block: its content's size and its checksum. The offset after it. -/
def zFinish (src : Nat → Option Byte) (f : ZFrame) (o : Nat) (st : ZState) : Except Ending Nat := do
  if (f.content.getD st.out.length) != st.out.length then throw .malformed
  if !f.checksum then return o
  if leAt (← sourceBytes src 4 o) 0 4 != (xxh64 st.out.reverse).toNat % 2 ^ 32 then throw .malformed
  return o + 4
/-- A frame's blocks, until `want` bytes of content. R116: input beyond what is wanted is not decoded. A block that fails, or
a last block after which a check fails, produces nothing. -/
def zBlocks (src : Nat → Option Byte) (f : ZFrame) (want : Nat) : Nat → Nat → ZState → List Byte × ZEnd
  | 0, o, st => (st.out, .failed .malformed o)
  | n + 1, o, st =>
    match zNext src f o st with
    | .error e => (st.out, .failed e o)
    | .ok (st1, last, o1) =>
      if want < st1.out.length || (want == st1.out.length && !last) then (st1.out, .enough (.after f last o1))
      else if last then
        match zFinish src f o1 st1 with
        | .ok o2 => (st1.out, .whole o2)
        | .error e => (st.out, .failed e o)
      else zBlocks src f want n o1 st1
/-- One frame after its magic; what it adds to some content. -/
def zFrame (src : Nat → Option Byte) (want o : Nat) : List Byte × ZEnd :=
  match zHeader src o with
  | .error e => ([], .failed e o)
  | .ok (f, o1) => zBlocks src f want (2 ^ 64) o1 {}

def zMagic : Nat := 0xFD2FB528
/-- R116 routine 3: frames from an offset on, and skippable frames, until `want` bytes: the content, newest first, the ending
and the place reached. -/
def zFrames (src : Nat → Option Byte) (want : Nat) : Nat → Nat → List Byte → List Byte × Ending × ZPlace
  | 0, o, out => (out, .malformed, (o, none))
  | n + 1, o, out =>
    if want ≤ out.length then (out, .good, (o, none)) else
    match sourceBytes src 4 o with
    | .error e => (out, e, (o, none))
    | .ok m =>
      if leAt m 0 4 / 16 = 0x184D2A5 then
        match sourceBytes src 4 (o + 4) with
        | .error e => (out, e, (o, none))
        | .ok k => zFrames src want n (o + 8 + leAt k 0 4) out
      else if leAt m 0 4 ≠ zMagic then (out, .malformed, (o, none))
      else
        match zFrame src (want - out.length) (o + 4) with
        | (c, .whole o1) => zFrames src want n o1 (c ++ out)
        | (c, .enough p) => (c ++ out, .good, p)
        | (c, .failed e o1) => (c ++ out, e, (o1, none))
/-- R117: the place after the header at a place, as the scout pass finds it. -/
def zScout (src : Nat → Option Byte) (p : ZPlace) : Except Ending ZPlace := do
  match p.2 with
  | some checksum =>
    let hd := leAt (← sourceBytes src 3 p.1) 0 3
    return .after ⟨0, none, checksum⟩ (hd.testBit 0) (p.1 + 3 + (if hd / 2 % 4 = 1 then 1 else hd / 8))
  | none =>
    let m ← sourceBytes src 4 p.1
    if leAt m 0 4 / 16 = 0x184D2A5 then
      let k ← sourceBytes src 4 (p.1 + 4)
      return (p.1 + 8 + leAt k 0 4, none)
    if leAt m 0 4 ≠ zMagic then throw .malformed
    let (f, o) ← zHeader src (p.1 + 4)
    return (o, some f.checksum)
/-- R116 codec 2: the first `want` bytes of the one frame of `size` bytes that some bytes hold. -/
def zOne (want size : Nat) (bs : List Byte) : Option (List Byte) :=
  if leAt bs 0 4 ≠ zMagic then none else
  match zFrame (fun o => bs[o]?) (if want = size then size + 1 else want) 4 with
  | (c, .whole _) => if c.length = size then some (c.reverse.take want) else none
  | (c, .enough _) => if want < size then some (c.reverse.take want) else none
  | (_, .failed _ _) => none

end Sys2Proof.Machine
end

