-- ==== Sys2Proof/Machine/Engine.lean ====
section
/-! DEFINITION. A copy engine's work (R108, R114, R118): its translations and its reads. -/

namespace Sys2Proof.Machine

/-- FCAUSE values (R109). -/
def fcSource : Nat := 1
/-- No cause of a failure: the engine waits for the end of a migration (R85), and does its work again. -/
def fcHold : Nat := 0
def fcTranslation : Nat := 2
def fcMalformed : Nat := 3

/-- An engine's work: it fails with an FCAUSE. -/
abbrev Eng := EStateM Nat State

/-- Where a stream runs: its core, its channel's owner slot, and the translation captured at issue. -/
structure EngCtx where
  core : Nat
  owner : Nat
  root : Word
  mode : Mode
  deriving DecidableEq, Repr

/-- The copy engine of a core's quadrant (R108, R332): core numbers 0 to 95 fall in quadrants of 24. DESIGN CHOICE: the matrix
control core's channels are served by engine 3 of its cluster; the spec gives no quadrant to core 127. -/
def engineOf (core : Nat) : Nat := 4 * (core / 256) + min 3 (core % 256 / 24)
/-- R69, R108, R133: the engine's requests. -/
def engCtx (e : EngCtx) (key : Nat) (z : Bool) : Ctx :=
  { initiator := 0x10 + engineOf e.core, key := key, z := z, cluster := some (e.core / 256)
    coord := some (e.core * 256 + e.owner), own := false, user := e.mode == .user, machine := e.mode == .machine }

/-- Translate for a stream; a failed walk is FCAUSE 2, a poisoned table FCAUSE 1 (R114). -/
def engTranslate (e : EngCtx) (va : Nat) (kind : AccKind) : Eng Xlat := do
  match translateFor (e.core * 256 + e.owner) {} e.root e.mode (va % 2 ^ 64) kind (← get) with
  | .ok (s, x) =>
    set s
    pure x
  | .error (.held _) => throw fcHold
  | .error (.cause _) => throw fcTranslation
  | .error (.poison a) => do
    modify (reportFailed (a / 32 * 32) 32)
    throw fcSource

/-- R115, R118: an engine's load of n source bytes. -/
def engRead (e : EngCtx) (va n : Nat) : Eng (List Byte) := do
  let pieces ← (cutAt 65536 (n / 65536 + 2) va n).mapM fun (a, k) => do
    let x ← engTranslate e a .read
    if x.typ = 4 then throw fcTranslation
    match physRead (engCtx e x.key x.z) x.pa k (← get) with
    | .ok (s, _, some _) => do
      set s
      throw fcSource
    | .ok (s, bs, none) =>
      set s
      pure bs
    | .error (0, _) => throw fcHold
    | .error _ => throw fcTranslation
  pure pieces.flatten

end Sys2Proof.Machine
end

