-- ==== Sys2Proof/Machine/RvCore.lean ====
section
/-! DEFINITION. The core of a copy engine as a table routine sees it (R115): its registers, its loads and stores, and the
compressed instructions. The instruction set is RV64GC with V 1.0, which R115 names (log 10). -/

namespace Sys2Proof.Machine

/-- What a run of a routine does not change: whose it is, the bytes it may land, the top of its stack, and the number that
selects its stack's bytes at entry. -/
structure RvEnv where
  eng : EngCtx
  dst : Nat
  size : Nat
  top : Nat
  fill : Nat
  deriving DecidableEq, Repr

/-- R115: the core in user mode, VLEN 512. The vector registers are one number of 32 * 512 bits, v0 lowest. What a routine
has stored in its stack and in its landings is held by address, newest first. -/
structure Rv where
  pc : Nat
  x : Vector Word 32 := Vector.replicate 32 0
  f : Vector Word 32 := Vector.replicate 32 0
  v : Nat := 0
  fcsr : Nat := 0
  vstart : Nat := 0
  vl : Nat := 0
  /-- vtype; none is vill. -/
  vtype : Option Nat := none
  /-- vxsat in bit 0, vxrm in bits 2:1. -/
  vcsr : Nat := 0
  reserved : Option (Nat × Nat) := none
  stack : List (Nat × Byte) := []
  landed : List (Nat × Byte) := []
  deriving DecidableEq, Repr

abbrev RvM := StateT Rv Eng

/-- R115: an illegal instruction, ecall, ebreak or forbidden store: FCAUSE 3. -/
def illegal {α : Type} : RvM α := throw fcMalformed
def legal (b : Bool) : RvM Unit := if b then pure () else illegal
def orIllegal {α : Type} (a : Option α) : RvM α :=
  match a with
  | some x => pure x
  | none => illegal

def Rv.reg (r : Rv) (i : Nat) : Word := if i = 0 then 0 else r.x[i]?.getD 0
def Rv.setReg (r : Rv) (i : Nat) (w : Word) : Rv := if i = 0 then r else { r with x := r.x.setIfInBounds i w }
def Rv.freg (r : Rv) (i : Nat) : Nat := (r.f[i]?.getD 0).toNat
def Rv.setFreg (r : Rv) (i n : Nat) : Rv := { r with f := r.f.setIfInBounds i (word n) }
def Rv.raise (r : Rv) (flags : Nat) : Rv := { r with fcsr := r.fcsr ||| flags }

/-! Memory. -/

/-- R115: the 64 KiB stack in the stream buffer. -/
def RvEnv.inStack (c : RvEnv) (a : Nat) : Bool := decide (c.top - 65536 ≤ a) && decide (a < c.top)
/-- R115: the bytes whose stores are the stream's landings. -/
def RvEnv.lands (c : RvEnv) (a : Nat) : Bool := decide (c.dst ≤ a) && decide (a < c.dst + c.size)
/-- A byte of the stack, or one that the routine has stored itself. -/
def ownByte (c : RvEnv) (r : Rv) (a : Nat) : Option Byte :=
  if c.inStack a then some (((r.stack.find? fun e => e.1 == a).map fun e => e.2).getD (Config.streamBuffer c.fill (a - (c.top - 65536))))
  else (r.landed.find? fun e => e.1 == a).map fun e => e.2
/-- The addresses of n bytes from a. -/
def rvAddrs (a n : Nat) : List Nat := (List.range n).map fun i => (a + i) % 2 ^ 64

/-- R115: an ordinary load, by the issuing hart's translation and rights; the bytes of the stack are the engine's own. -/
def rvLoad (c : RvEnv) (a n : Nat) : RvM Nat := do
  let r ← get
  let as := rvAddrs a n
  let one := fun (b : Nat) => if c.inStack b then pure [0] else engRead c.eng b 1
  let bs ← liftM (if as.any c.inStack then List.flatten <$> as.mapM one else engRead c.eng a n)
  return natOfBytes ((as.zip bs).map fun (b, y) => (ownByte c r b).getD y)
/-- R115: a store lands an element's bytes, or writes the stack; any other fails the stream. -/
def rvStore (c : RvEnv) (a n v : Nat) : RvM Unit := do
  let as := rvAddrs a n
  legal (as.all fun b => c.inStack b || c.lands b)
  let new := as.zip (bytesOf n v)
  modify fun r => { r with
    stack := (new.filter fun e => c.inStack e.1).reverse ++ r.stack
    landed := (new.filter fun e => !c.inStack e.1).reverse ++ r.landed }

/-- R115: two bytes of the code image, read by physical address (log 10). -/
def rvFetch (c : RvEnv) (pc : Nat) : RvM Nat := do
  match physRead { initiator := 0x10 + engineOf c.eng.core } (pc % 2 ^ 52) 2 (← (get : Eng State)) with
  | .error (0, _) => throw fcHold
  | .error _ => throw fcTranslation
  | .ok (s, _, some _) => do
    (set s : Eng Unit)
    throw fcSource
  | .ok (s, bs, none) => do
    (set s : Eng Unit)
    return natOfBytes bs

/-! Fields and immediates of a 32-bit instruction. -/

def rvRd (w : Nat) : Nat := bits w 11 7
def rvF3 (w : Nat) : Nat := bits w 14 12
def rvA (w : Nat) : Nat := bits w 19 15
def rvB (w : Nat) : Nat := bits w 24 20
def rvF7 (w : Nat) : Nat := bits w 31 25
def immI (w : Nat) : Int := signed 12 (bits w 31 20)
def immS (w : Nat) : Int := signed 12 (bits w 31 25 * 32 + bits w 11 7)
def immB (w : Nat) : Int := signed 13 (bits w 31 31 * 4096 + bits w 7 7 * 2048 + bits w 30 25 * 32 + bits w 11 8 * 2)
def immU (w : Nat) : Int := signed 32 (bits w 31 12 * 4096)
def immJ (w : Nat) : Int := signed 21 (bits w 31 31 * 2 ^ 20 + bits w 19 12 * 4096 + bits w 20 20 * 2048 + bits w 30 21 * 2)
def wordI (i : Int) : Word := BitVec.ofInt 64 i

/-! Compressed instructions: each is a 32-bit one. -/

def encR (op f3 f7 rd a b : Nat) : Nat := op + rd * 2 ^ 7 + f3 * 2 ^ 12 + a * 2 ^ 15 + b * 2 ^ 20 + f7 * 2 ^ 25
def encI (op f3 rd a : Nat) (imm : Int) : Nat := op + rd * 2 ^ 7 + f3 * 2 ^ 12 + a * 2 ^ 15 + wrap 12 imm * 2 ^ 20
def encS (op f3 a b imm : Nat) : Nat := encR op f3 (imm / 32) (imm % 32) a b
def encB (f3 a : Nat) (imm : Int) : Nat :=
  let k := wrap 13 imm
  encR 0x63 f3 (bits k 12 12 * 64 + bits k 10 5) (bits k 4 1 * 2 + bits k 11 11) a 0
def encJ (rd : Nat) (imm : Int) : Nat :=
  let k := wrap 21 imm
  0x6F + rd * 2 ^ 7 + (bits k 19 12 + bits k 11 11 * 2 ^ 8 + bits k 10 1 * 2 ^ 9 + bits k 20 20 * 2 ^ 19) * 2 ^ 12

/-- The short fields: a register x8 to x15, and the signed and unsigned immediates. -/
def cReg (h lo : Nat) : Nat := 8 + bits h (lo + 2) lo
def cImm (h : Nat) : Int := signed 6 (bits h 12 12 * 32 + bits h 6 2)
def cWord (h : Nat) : Nat := bits h 12 10 * 8 + bits h 6 6 * 4 + bits h 5 5 * 64
def cDouble (h : Nat) : Nat := bits h 12 10 * 8 + bits h 6 5 * 64
def cDoubleSp (h : Nat) : Nat := bits h 12 12 * 32 + bits h 6 5 * 8 + bits h 4 2 * 64

def expand0 (h : Nat) : Option Nat :=
  let d := cReg h 2
  let a := cReg h 7
  match bits h 15 13 with
  | 0 =>
    let imm := bits h 12 11 * 16 + bits h 10 7 * 64 + bits h 6 6 * 4 + bits h 5 5 * 8
    if imm = 0 then none else some (encI 0x13 0 d 2 imm)
  | 1 => some (encI 0x07 3 d a (cDouble h))
  | 2 => some (encI 0x03 2 d a (cWord h))
  | 3 => some (encI 0x03 3 d a (cDouble h))
  | 5 => some (encS 0x27 3 a d (cDouble h))
  | 6 => some (encS 0x23 2 a d (cWord h))
  | 7 => some (encS 0x23 3 a d (cDouble h))
  | _ => none
def expand1 (h : Nat) : Option Nat :=
  let d := rvRd h
  let a := cReg h 7
  let b := cReg h 2
  let imm := cImm h
  match bits h 15 13 with
  | 0 => some (encI 0x13 0 d d imm)
  | 1 => if d = 0 then none else some (encI 0x1B 0 d d imm)
  | 2 => some (encI 0x13 0 d 0 imm)
  | 3 =>
    if imm = 0 then none
    else if d = 2 then
      some (encI 0x13 0 2 2 (signed 10 (bits h 12 12 * 512 + bits h 6 6 * 16 + bits h 5 5 * 64 + bits h 4 3 * 128 + bits h 2 2 * 32)))
    else some (0x37 + d * 2 ^ 7 + wrap 20 imm * 2 ^ 12)
  | 4 =>
    match bits h 11 10 with
    | 0 => some (encI 0x13 5 a a (wrap 6 imm))
    | 1 => some (encI 0x13 5 a a (1024 + wrap 6 imm))
    | 2 => some (encI 0x13 7 a a imm)
    | _ =>
      match bits h 12 12 * 4 + bits h 6 5 with
      | 0 => some (encR 0x33 0 32 a a b)
      | 1 => some (encR 0x33 4 0 a a b)
      | 2 => some (encR 0x33 6 0 a a b)
      | 3 => some (encR 0x33 7 0 a a b)
      | 4 => some (encR 0x3B 0 32 a a b)
      | 5 => some (encR 0x3B 0 0 a a b)
      | _ => none
  | 5 => some (encJ 0 (signed 12 (bits h 12 12 * 2048 + bits h 11 11 * 16 + bits h 10 9 * 256 + bits h 8 8 * 1024 + bits h 7 7 * 64
      + bits h 6 6 * 128 + bits h 5 3 * 2 + bits h 2 2 * 32)))
  | k => some (encB (k - 6) a (signed 9 (bits h 12 12 * 256 + bits h 11 10 * 8 + bits h 6 5 * 64 + bits h 4 3 * 2 + bits h 2 2 * 32)))
def expand2 (h : Nat) : Option Nat :=
  let d := rvRd h
  let b := bits h 6 2
  match bits h 15 13 with
  | 0 => some (encI 0x13 1 d d (wrap 6 (cImm h)))
  | 1 => some (encI 0x07 3 d 2 (cDoubleSp h))
  | 2 => if d = 0 then none else some (encI 0x03 2 d 2 (bits h 12 12 * 32 + bits h 6 4 * 4 + bits h 3 2 * 64 : Nat))
  | 3 => if d = 0 then none else some (encI 0x03 3 d 2 (cDoubleSp h))
  | 4 =>
    if bits h 12 12 = 0 then
      (if b != 0 then some (encR 0x33 0 0 d 0 b) else if d = 0 then none else some (encI 0x67 0 0 d 0))
    else if b != 0 then some (encR 0x33 0 0 d d b)
    else some (if d = 0 then 0x00100073 else encI 0x67 0 1 d 0)
  | 5 => some (encS 0x27 3 2 b (bits h 12 10 * 8 + bits h 9 7 * 64))
  | 6 => some (encS 0x23 2 2 b (bits h 12 9 * 4 + bits h 8 7 * 64))
  | _ => some (encS 0x23 3 2 b (bits h 12 10 * 8 + bits h 9 7 * 64))
/-- The instruction that 16 bits stand for. -/
def expand16 (h : Nat) : Option Nat :=
  match h % 4 with
  | 0 => expand0 h
  | 1 => expand1 h
  | _ => expand2 h

end Sys2Proof.Machine
end

