-- ==== Sys2Proof/Machine/ScalarFp.lean ====
section
/-! DEFINITION. The scalar floating-point words (R316, R317) and the compares FCMP (R308). -/

namespace Sys2Proof.Machine

/-- R182: the scalar rounding mode. -/
def Hart.rm (h : Hart) : Rnd := rndOf (wbits h.csr.fcsr 7 5)

/-- R316: sD := round(op a b d), flags to FCSR; `acc` says that sD is the accumulator, `locked` that consumers wait (R37). -/
def arithWord (major func : Nat) (F : Fmt) (lat : Nat) (op : Rnd → Val → Val → Val → Val × Nat) (acc : Bool)
    (o : RArgs) (s : State) (locked : Bool := false) : Result :=
  issue (rInfo major func o (.s o.d.toNat) (if acc then [o.a, o.b, o.d] else [o.a, o.b])) (andNext do
    let h ← getH
    let v := fun (r : BitVec 5) => val F (h.reg r.toNat).toNat
    let (y, f) := roundWith F h.rm (op h.rm (v o.a) (v o.b) (v o.d))
    writeD o.d (word y) lat f locked) s

/-- R316: FMIN and FMAX. -/
def minMaxWord (major func : Nat) (F : Fmt) (isMax : Bool) (o : RArgs) (s : State) : Result :=
  issue (rInfo major func o (.s o.d.toNat) [o.a, o.b]) (andNext do
    let h ← getH
    let v := fun (r : BitVec 5) => (h.reg r.toNat).toNat % 2 ^ F.width
    let (y, f) := minMax F isMax (v o.a) (v o.b)
    writeD o.d (word y) 4 f) s

/-- A word of one source and the immediate or zero in field b. -/
def convertWord (major func lat : Nat) (op : Rnd → Nat → Nat × Nat) (o : RArgs) (s : State)
    (locked : Bool := false) : Result :=
  issue (rInfo major func o (.s o.d.toNat) [o.a]) (andNext do
    let h ← getH
    let (y, f) := op h.rm (h.reg o.a.toNat).toNat
    writeD o.d (word y) lat f locked) s

/-- R317: FCVTI with immediate n. -/
def toInteger (F : Fmt) (n : Nat) (r : Rnd) (a : Nat) : Nat × Nat :=
  let w := if bit n 1 then 32 else 64
  let sgn := !bit n 0
  let (i, f) := cvtInt (val F a) w sgn r
  (wrap 64 i, f)

/-- R317: FCVTF with immediate n. -/
def fromInteger (F : Fmt) (n : Nat) (r : Rnd) (a : Nat) : Nat × Nat :=
  let w := if bit n 1 then 32 else 64
  round F r (ofInt (if bit n 0 then ((a % 2 ^ w : Nat) : Int) else signed w a))

/-- A value of one format rounded to another; NV for a signalling NaN. -/
def refloat (A B : Fmt) (r : Rnd) (a : Nat) : Nat × Nat := roundWith B r (val A a, sigFlag [val A a])

/-- R317: FCVTP with immediate n; F is the major's format and G the other of FP32 and FP64. -/
def betweenFloats (F G : Fmt) (n : Nat) (r : Rnd) (a : Nat) : Nat × Nat :=
  match n with
  | 0 => refloat G F r a
  | 1 => refloat fp16 F r a
  | 2 => refloat bf16 F r a
  | 4 => refloat F G r a
  | 5 => refloat F fp16 r a
  | _ => refloat F bf16 r a

/-- R217: a floating compare: its truth and NV. -/
def floatCompare (cond : Nat) (a b : Val) : Bool × Nat :=
  let un := a.isNan || b.isNan
  let c := a.cmp b
  let quiet := sigFlag [a, b]
  let loud := flagIf un flNV
  match cond with
  | 0 => (!un && c == 0, quiet)
  | 1 => (un || c != 0, quiet)
  | 2 => (!un && decide (c < 0), loud)
  | 3 => (!un && decide (c ≤ 0), loud)
  | 4 => (!un && decide (0 < c), loud)
  | 5 => (!un && decide (0 ≤ c), loud)
  | 6 => (!un, quiet)
  | _ => (un, quiet)

/-- R308: FCMP in a format. -/
def floatCompareWord (form : Nat) (F : Fmt) (o : CArgs) (s : State) : Result :=
  issue (cInfo 0x07 form o [o.a, o.b]) (andNext do
    let h ← getH
    let (c, f) := floatCompare o.cond.toNat (val F (h.reg o.a.toNat).toNat) (val F (h.reg o.b.toNat).toNat)
    writeCompare o c 4 f) s

/-- FCMP (R308) on FP32. -/
def execFcmp (o : CArgs) (s : State) : Result := floatCompareWord 0 fp32 o s
/-- FCMP.d (R308) on FP64. -/
def execFcmpD (o : CArgs) (s : State) : Result := floatCompareWord 1 fp64 o s

/-- FADD (R316). round(a + b). -/
def execFadd (o : RArgs) (s : State) : Result := arithWord 0x10 0 fp32 4 (fun r a b _ => addVal r.down a b) false o s

/-- FSUB (R316). round(a − b). -/
def execFsub (o : RArgs) (s : State) : Result := arithWord 0x10 1 fp32 4 (fun r a b _ => addVal r.down a b.negate) false o s

/-- FMUL (R316). round(a · b). -/
def execFmul (o : RArgs) (s : State) : Result := arithWord 0x10 2 fp32 4 (fun _ a b _ => mulVal a b) false o s

/-- FDIV (R316, R315, R37). round(a ÷ b); its consumers wait. -/
def execFdiv (o : RArgs) (s : State) : Result := arithWord 0x10 3 fp32 12 (fun _ a b _ => divVal a b) false o s true

/-- FSQRT (R316, R315, R37). round(√a); its consumers wait. -/
def execFsqrt (o : RArgs) (s : State) : Result := convertWord 0x10 4 12 (fun r a => roundWith fp32 r (sqrtVal (val fp32 a))) o s true

/-- FMIN (R316). fmin_num(a, b). -/
def execFmin (o : RArgs) (s : State) : Result := minMaxWord 0x10 5 fp32 false o s

/-- FMAX (R316). fmax_num(a, b). -/
def execFmax (o : RArgs) (s : State) : Result := minMaxWord 0x10 6 fp32 true o s

/-- FMA (R316). round(a · b + d), one rounding. -/
def execFma (o : RArgs) (s : State) : Result := arithWord 0x10 7 fp32 4 (fun r a b d => fmaVal r.down a b d) true o s

/-- FNMA (R316). round(−(a · b) + d), one rounding. -/
def execFnma (o : RArgs) (s : State) : Result := arithWord 0x10 8 fp32 4 (fun r a b d => fmaVal r.down a.negate b d) true o s

/-- FCVTI (R317). Float to integer. -/
def execFcvti (o : RArgs) (s : State) : Result := convertWord 0x10 9 4 (fun r a => toInteger fp32 o.b.toNat r a) o s

/-- FCVTF (R317). Integer to float. -/
def execFcvtf (o : RArgs) (s : State) : Result := convertWord 0x10 10 4 (fun r a => fromInteger fp32 o.b.toNat r a) o s

/-- FCVTP (R317). Between floating formats. -/
def execFcvtp (o : RArgs) (s : State) : Result := convertWord 0x10 11 4 (fun r a => betweenFloats fp32 fp64 o.b.toNat r a) o s

/-- FADD.d (R316). round(a + b). -/
def execFaddD (o : RArgs) (s : State) : Result := arithWord 0x11 0 fp64 4 (fun r a b _ => addVal r.down a b) false o s

/-- FSUB.d (R316). round(a − b). -/
def execFsubD (o : RArgs) (s : State) : Result := arithWord 0x11 1 fp64 4 (fun r a b _ => addVal r.down a b.negate) false o s

/-- FMUL.d (R316). round(a · b). -/
def execFmulD (o : RArgs) (s : State) : Result := arithWord 0x11 2 fp64 4 (fun _ a b _ => mulVal a b) false o s

/-- FDIV.d (R316, R315, R37). round(a ÷ b); its consumers wait. -/
def execFdivD (o : RArgs) (s : State) : Result := arithWord 0x11 3 fp64 20 (fun _ a b _ => divVal a b) false o s true

/-- FSQRT.d (R316, R315, R37). round(√a); its consumers wait. -/
def execFsqrtD (o : RArgs) (s : State) : Result := convertWord 0x11 4 22 (fun r a => roundWith fp64 r (sqrtVal (val fp64 a))) o s true

/-- FMIN.d (R316). fmin_num(a, b). -/
def execFminD (o : RArgs) (s : State) : Result := minMaxWord 0x11 5 fp64 false o s

/-- FMAX.d (R316). fmax_num(a, b). -/
def execFmaxD (o : RArgs) (s : State) : Result := minMaxWord 0x11 6 fp64 true o s

/-- FMA.d (R316). round(a · b + d), one rounding. -/
def execFmaD (o : RArgs) (s : State) : Result := arithWord 0x11 7 fp64 4 (fun r a b d => fmaVal r.down a b d) true o s

/-- FNMA.d (R316). round(−(a · b) + d), one rounding. -/
def execFnmaD (o : RArgs) (s : State) : Result := arithWord 0x11 8 fp64 4 (fun r a b d => fmaVal r.down a.negate b d) true o s

/-- FCVTI.d (R317). Float to integer. -/
def execFcvtiD (o : RArgs) (s : State) : Result := convertWord 0x11 9 4 (fun r a => toInteger fp64 o.b.toNat r a) o s

/-- FCVTF.d (R317). Integer to float. -/
def execFcvtfD (o : RArgs) (s : State) : Result := convertWord 0x11 10 4 (fun r a => fromInteger fp64 o.b.toNat r a) o s

/-- FCVTP.d (R317). Between floating formats. -/
def execFcvtpD (o : RArgs) (s : State) : Result := convertWord 0x11 11 4 (fun r a => betweenFloats fp64 fp32 o.b.toNat r a) o s

end Sys2Proof.Machine
end

