-- ==== Sys2Proof/Machine/RvScalar.lean ====
section
/-! DEFINITION. The scalar instructions of an engine's core (R115): RV64IMAFD, Zicsr and Zifencei (log 10). -/

namespace Sys2Proof.Machine

/-- An operation of OP and OP-IMM, on n bits; none for another encoding. -/
def rvAlu {n : Nat} (f7 f3 : Nat) (a b : BitVec n) : Option (BitVec n) :=
  let k := b.toNat % n
  match f7, f3 with
  | 0, 0 => some (a + b)
  | 0, 1 => some (a <<< k)
  | 0, 2 => some (BitVec.ofNat n (bitNat (a.slt b)))
  | 0, 3 => some (BitVec.ofNat n (bitNat (a.ult b)))
  | 0, 4 => some (a ^^^ b)
  | 0, 5 => some (a >>> k)
  | 0, 6 => some (a ||| b)
  | 0, 7 => some (a &&& b)
  | 1, 0 => some (a * b)
  | 1, 1 => some (BitVec.ofInt n (a.toInt * b.toInt / (2 : Int) ^ n))
  | 1, 2 => some (BitVec.ofInt n (a.toInt * b.toNat / (2 : Int) ^ n))
  | 1, 3 => some (BitVec.ofNat n (a.toNat * b.toNat / 2 ^ n))
  | 1, 4 => some (if b = 0 then BitVec.ofInt n (-1) else a.sdiv b)
  | 1, 5 => some (if b = 0 then BitVec.ofInt n (-1) else a / b)
  | 1, 6 => some (if b = 0 then a else a.srem b)
  | 1, 7 => some (if b = 0 then a else a % b)
  | 32, 0 => some (a - b)
  | 32, 5 => some (a.sshiftRight k)
  | _, _ => none
/-- The same on the low 32 bits; a W instruction has fewer of them. -/
def rvAluW (f7 f3 : Nat) (a b : Word) : Option Word :=
  if (f7 = 0 ∧ ¬ [0, 1, 5].contains f3) ∨ (f7 = 1 ∧ [1, 2, 3].contains f3) then none
  else (rvAlu f7 f3 (a.setWidth 32) (b.setWidth 32)).map fun y => y.signExtend 64
/-- An immediate instruction; shifts have their function above the amount. -/
def rvImm (word32 : Bool) (w : Nat) (a : Word) : Option Word :=
  let f3 := rvF3 w
  let alu := if word32 then rvAluW else rvAlu
  if f3 = 1 ∨ f3 = 5 then
    let shift := if word32 then 5 else 6
    let func := bits w 31 (20 + shift)
    if func = 0 then alu 0 f3 a (word (bits w 25 20)) else if f3 = 5 ∧ func = 2 ^ (10 - shift) then alu 32 5 a (word (bits w 25 20)) else none
  else if word32 && f3 != 0 then none
  else alu 0 f3 a (wordI (immI w))

/-- Whether a branch is taken. -/
def rvBranch (f3 : Nat) (a b : Word) : Option Bool :=
  match f3 with
  | 0 => some (a == b)
  | 1 => some (a != b)
  | 4 => some (a.slt b)
  | 5 => some (!a.slt b)
  | 6 => some (a.ult b)
  | 7 => some (!a.ult b)
  | _ => none

/-- What an atomic operation stores. -/
def rvAmo {n : Nat} (f5 : Nat) (m b : BitVec n) : Option (BitVec n) :=
  match f5 with
  | 0x00 => some (m + b)
  | 0x01 => some b
  | 0x04 => some (m ^^^ b)
  | 0x08 => some (m ||| b)
  | 0x0C => some (m &&& b)
  | 0x10 => some (if b.slt m then b else m)
  | 0x14 => some (if m.slt b then b else m)
  | 0x18 => some (if b.ult m then b else m)
  | 0x1C => some (if m.ult b then b else m)
  | _ => none
/-- The A extension. A misaligned address fails the stream (log 10). -/
def rvAtomic (c : RvEnv) (w : Nat) : RvM Unit := do
  let r ← get
  let a := (r.reg (rvA w)).toNat
  let b := (r.reg (rvB w)).toNat
  let k := if rvF3 w = 2 then 4 else 8
  legal ((rvF3 w == 2 || rvF3 w == 3) && a % k == 0)
  let ext := fun (n : Nat) => wordI (signed (8 * k) n)
  match bits w 31 27 with
  | 0x02 =>
    legal (rvB w == 0)
    let m ← rvLoad c a k
    modify fun r => { r.setReg (rvRd w) (ext m) with reserved := some (a, k) }
  | 0x03 =>
    if r.reserved = some (a, k) then rvStore c a k b
    modify fun t => { t.setReg (rvRd w) (word (bitNat (r.reserved != some (a, k)))) with reserved := none }
  | f5 =>
    let _ ← orIllegal (rvAmo f5 (0 : Word) 0)
    let m ← rvLoad c a k
    let y ← orIllegal (if k = 4 then (rvAmo f5 (BitVec.ofNat 32 m) (BitVec.ofNat 32 b)).map fun y => y.toNat
      else (rvAmo f5 (word m) (word b)).map fun y => y.toNat)
    rvStore c a k y
    modify fun r => r.setReg (rvRd w) (ext m)

/-! Control and status registers. -/

/-- A register that user mode reads. -/
def Rv.csr (r : Rv) (n : Nat) : Option Word :=
  match n with
  | 0x001 => some (word (bits r.fcsr 4 0))
  | 0x002 => some (word (bits r.fcsr 7 5))
  | 0x003 => some (word r.fcsr)
  | 0x008 => some (word r.vstart)
  | 0x009 => some (word (bits r.vcsr 0 0))
  | 0x00A => some (word (bits r.vcsr 2 1))
  | 0x00F => some (word r.vcsr)
  | 0xC20 => some (word r.vl)
  | 0xC21 => some (word (r.vtype.getD (2 ^ 63)))
  | 0xC22 => some 64
  | _ => none
/-- A register that user mode writes. -/
def Rv.setCsr (r : Rv) (n v : Nat) : Option Rv :=
  match n with
  | 0x001 => some { r with fcsr := setBits r.fcsr 4 0 v }
  | 0x002 => some { r with fcsr := setBits r.fcsr 7 5 v }
  | 0x003 => some { r with fcsr := v % 256 }
  | 0x008 => some { r with vstart := v % 512 }
  | 0x009 => some { r with vcsr := setBits r.vcsr 0 0 v }
  | 0x00A => some { r with vcsr := setBits r.vcsr 2 1 v }
  | 0x00F => some { r with vcsr := v % 8 }
  | _ => none
/-- Zicsr. -/
def Rv.csrOp (r : Rv) (w : Nat) : Option Rv := do
  let n := bits w 31 20
  let f3 := rvF3 w
  let old ← r.csr n
  let src := if f3 < 4 then r.reg (rvA w) else word (rvA w)
  let new := match f3 % 4 with
    | 1 => src
    | 2 => old ||| src
    | _ => old &&& ~~~ src
  let r1 ← if f3 % 4 != 1 && rvA w == 0 then some r else r.setCsr n new.toNat
  return r1.setReg (rvRd w) old

/-! Floating point. -/

/-- A rounding mode of an instruction or of frm. -/
def rvRnd (n : Nat) : Option Rnd :=
  match n with
  | 0 => some .rne
  | 1 => some .rtz
  | 2 => some .rdn
  | 3 => some .rup
  | 4 => some .rmm
  | _ => none
def Rv.rm (r : Rv) (w : Nat) : Option Rnd := rvRnd (if rvF3 w = 7 then bits r.fcsr 7 5 else rvF3 w)

/-- A single-precision value is held below ones; without them it is the canonical NaN. -/
def unbox (F : Fmt) (n : Nat) : Nat := if F = fp64 then n else if n / 2 ^ 32 = 2 ^ 32 - 1 then n % 2 ^ 32 else F.canonNan
def box (F : Fmt) (n : Nat) : Nat := if F = fp64 then n else n + 2 ^ 64 - 2 ^ 32

/-- A result and its flags into an f register, or into an x register. -/
def Rv.putF (r : Rv) (F : Fmt) (d : Nat) (y : Nat × Nat) : Rv := (r.setFreg d (box F y.1)).raise y.2
def Rv.putX (r : Rv) (d : Nat) (y : Word × Nat) : Rv := (r.setReg d y.1).raise y.2

/-- FSGNJ, FSGNJN and FSGNJX by their rm field, on patterns. -/
def signInject (F : Fmt) (k a b : Nat) : Option Nat :=
  let s := F.signBit
  let put := fun (neg : Bool) => a % s + (if neg then s else 0)
  match k with
  | 0 => some (put (s ≤ b))
  | 1 => some (put (b < s))
  | 2 => some (put (decide (s ≤ a) != decide (s ≤ b)))
  | _ => none
/-- FCLASS. -/
def rvClass (F : Fmt) (a : Nat) : Nat :=
  let sub := a % F.signBit < 2 ^ F.fb
  match val F a with
  | .nan sig => if sig then 256 else 512
  | .inf neg => if neg then 1 else 128
  | .num neg m _ _ =>
    if m = 0 then (if neg then 8 else 16)
    else if sub then (if neg then 4 else 32) else (if neg then 2 else 64)
/-- A value to an integer of n bits; a NaN gives the largest. -/
def rvToInt (v : Val) (n : Nat) (sgn : Bool) (m : Rnd) : Int × Nat :=
  if v.isNan then (hiOf n sgn, flNV) else cvtInt v n sgn m

/-- A multiply and add, of the product's and the addend's signs. -/
def rvFma (F : Fmt) (m : Rnd) (negP negD : Bool) (a b d : Nat) : Nat × Nat :=
  let sgn := fun (n : Bool) (v : Val) => if n then v.negate else v
  roundWith F m (fmaVal m.down (sgn negP (val F a)) (val F b) (sgn negD (val F d)))
/-- The operations of two operands. -/
def rvArith (F : Fmt) (f5 : Nat) (m : Rnd) (a b : Nat) : Option (Nat × Nat) :=
  match f5 with
  | 0 => some (addF F m a b)
  | 1 => some (roundWith F m (addVal m.down (val F a) (val F b).negate))
  | 2 => some (roundWith F m (mulVal (val F a) (val F b)))
  | 3 => some (roundWith F m (divVal (val F a) (val F b)))
  | _ => none
/-- FLE, FLT and FEQ, as R217 numbers the conditions. -/
def rvCompare (F : Fmt) (rm a b : Nat) : Option (Bool × Nat) :=
  match rm with
  | 0 => some (floatCompare 3 (val F a) (val F b))
  | 1 => some (floatCompare 2 (val F a) (val F b))
  | 2 => some (floatCompare 0 (val F a) (val F b))
  | _ => none

/-- OP-FP. -/
def Rv.opFp (r : Rv) (w : Nat) : Option Rv := do
  let F := if bits w 26 25 = 0 then fp32 else fp64
  let G := if bits w 26 25 = 0 then fp64 else fp32
  if 1 < bits w 26 25 then none
  let d := rvRd w
  let b' := rvB w
  let a := unbox F (r.freg (rvA w))
  let b := unbox F (r.freg b')
  let x := r.reg (rvA w)
  let rm := rvF3 w
  match bits w 31 27 with
  | 0x04 => return r.putF F d (← signInject F rm a b, 0)
  | 0x05 => if 1 < rm then none else return r.putF F d (minMax F (rm == 1) a b)
  | 0x08 =>
    if b' != (if F = fp32 then 1 else 0) then none
    return r.putF F d (refloat G F (← r.rm w) (unbox G (r.freg (rvA w))))
  | 0x0B => if b' != 0 then none else return r.putF F d (roundWith F (← r.rm w) (sqrtVal (val F a)))
  | 0x14 =>
    let (t, f) ← rvCompare F rm a b
    return r.putX d (word (bitNat t), f)
  | 0x18 =>
    if 3 < b' then none
    let n := if b' < 2 then 32 else 64
    let (i, f) := rvToInt (val F a) n (b' % 2 == 0) (← r.rm w)
    return r.putX d (wordI (signed n (wrap n i)), f)
  | 0x1A =>
    if 3 < b' then none
    let n := if b' < 2 then 32 else 64
    let i : Int := if b' % 2 = 0 then signed n x.toNat else ((x.toNat % 2 ^ n : Nat) : Int)
    return r.putF F d (round F (← r.rm w) (ofInt i))
  | 0x1C =>
    if b' != 0 then none
    if rm = 1 then return r.putX d (word (rvClass F a), 0)
    if rm != 0 then none
    return r.putX d (wordI (signed F.width (r.freg (rvA w))), 0)
  | 0x1E => if b' != 0 || rm != 0 then none else return r.putF F d (x.toNat % 2 ^ F.width, 0)
  | f5 => return r.putF F d (← rvArith F f5 (← r.rm w) a b)
/-- FMADD, FMSUB, FNMSUB and FNMADD, by bits 3:2 of the opcode. -/
def Rv.opFma (r : Rv) (w : Nat) : Option Rv := do
  let F := if bits w 26 25 = 0 then fp32 else fp64
  if 1 < bits w 26 25 then none
  let v := fun i => unbox F (r.freg i)
  let k := bits w 3 2
  return r.putF F (rvRd w) (rvFma F (← r.rm w) (decide (2 ≤ k)) (k == 1 || k == 3) (v (rvA w)) (v (rvB w)) (v (bits w 31 27)))

/-! Loads, stores and jumps. -/

/-- LB to LWU. -/
def rvLoadX (c : RvEnv) (w : Nat) : RvM Unit := do
  let f3 := rvF3 w
  legal (f3 != 7)
  let k := 2 ^ (f3 % 4)
  let m ← rvLoad c ((← get).reg (rvA w) + wordI (immI w)).toNat k
  modify fun r => r.setReg (rvRd w) (if f3 < 4 then wordI (signed (8 * k) m) else word m)
/-- FLW and FLD. -/
def rvLoadF (c : RvEnv) (w : Nat) : RvM Unit := do
  let F := if rvF3 w = 2 then fp32 else fp64
  let m ← rvLoad c ((← get).reg (rvA w) + wordI (immI w)).toNat (F.width / 8)
  modify fun r => r.setFreg (rvRd w) (box F m)
/-- SB to SD, FSW and FSD. -/
def rvStoreS (c : RvEnv) (w k v : Nat) : RvM Unit := do
  rvStore c ((← get).reg (rvA w) + wordI (immS w)).toNat k v

/-- An instruction that is no load, store, jump or vector one. -/
def Rv.compute (r : Rv) (w : Nat) : Option Rv :=
  let d := rvRd w
  let a := r.reg (rvA w)
  let b := r.reg (rvB w)
  match w % 128 with
  | 0x13 => (rvImm false w a).map (r.setReg d)
  | 0x1B => (rvImm true w a).map (r.setReg d)
  | 0x33 => (rvAlu (rvF7 w) (rvF3 w) a b).map (r.setReg d)
  | 0x3B => (rvAluW (rvF7 w) (rvF3 w) a b).map (r.setReg d)
  | 0x37 => some (r.setReg d (wordI (immU w)))
  | 0x17 => some (r.setReg d (word r.pc + wordI (immU w)))
  | 0x0F => if rvF3 w ≤ 1 then some r else none
  | 0x73 => if rvF3 w % 4 = 0 then none else r.csrOp w
  | 0x53 => r.opFp w
  | 0x43 => r.opFma w
  | 0x47 => r.opFma w
  | 0x4B => r.opFma w
  | 0x4F => r.opFma w
  | _ => none

end Sys2Proof.Machine
end

