-- ==== Sys2Proof/Machine/RvVec.lean ====
section
/-! DEFINITION. The vector instructions of an engine's core (R115): V 1.0 with VLEN 512 and ELEN 64 (log 10). Tail and masked-off
elements stay as they were, which V 1.0 allows. -/

namespace Sys2Proof.Machine

/-- Element i of e bits of the registers from r on, and a mask register's bit i. -/
def Rv.elt (r : Rv) (reg e i : Nat) : Nat := r.v / 2 ^ (reg * 512 + i * e) % 2 ^ e
def Rv.setElt (r : Rv) (reg e i n : Nat) : Rv := { r with v := setBits r.v (reg * 512 + i * e + e - 1) (reg * 512 + i * e) n }
def Rv.mask (r : Rv) (reg i : Nat) : Bool := r.elt reg 1 i == 1

/-- The setting under vtype: SEW, and LMUL as a power of two. -/
structure VSet where
  sew : Nat
  lmul : Int
  deriving DecidableEq, Repr

/-- vtype's fields; none for a setting that the core does not have. -/
def vset (t : Nat) : Option VSet :=
  let sew := 8 * 2 ^ bits t 5 3
  let lmul := signed 3 (bits t 2 0)
  if t / 256 != 0 || lmul == -4 || decide (64 < sew * 2 ^ (-lmul).toNat) then none else some ⟨sew, lmul⟩
/-- Elements of e bits in 2^l registers. -/
def vlmax (e : Nat) (l : Int) : Nat := 512 * 2 ^ (l + 3).toNat / 8 / e
/-- Registers of a group. -/
def regsOf (l : Int) : Nat := 2 ^ l.toNat

/-- vsetvli, vsetivli and vsetvl: the vector length for an AVL, and the setting. -/
def Rv.setVl (r : Rv) (w : Nat) : Rv :=
  let d := rvRd w
  let imm := bits w 31 30 == 3
  let t := if imm then bits w 29 20 else if bits w 31 31 = 0 then bits w 30 20 else (r.reg (rvB w)).toNat
  match vset t with
  | none => { r with vl := 0, vtype := none, vstart := 0 }.setReg d 0
  | some s =>
    let most := vlmax s.sew s.lmul
    let avl := if imm then rvA w else if rvA w != 0 then (r.reg (rvA w)).toNat else if d != 0 then most else r.vl
    let vl := min avl most
    { r with vl := vl, vtype := some t, vstart := 0 }.setReg d (word vl)

/-! Which registers an instruction may name. -/

/-- A group of 2^l registers from r on. -/
def groupOk (reg : Nat) (l : Int) : Bool := decide (-3 ≤ l) && decide (l ≤ 3) && reg % regsOf l == 0
/-- Whether a destination (register, LMUL, EEW) may overlap a source. -/
def overlapOk (d : Nat) (dl : Int) (de s : Nat) (sl : Int) (se : Nat) : Bool :=
  decide (d + regsOf dl ≤ s) || decide (s + regsOf sl ≤ d) || de == se || (if de < se then d == s else decide (0 ≤ sl) && s + regsOf sl == d + regsOf dl)
def apart (d : Nat) (dl : Int) (s : Nat) (sl : Int) : Bool := decide (d + regsOf dl ≤ s) || decide (s + regsOf sl ≤ d)

/-! Elements. -/

/-- A value over 2^d, rounded by vxrm. -/
def roundOff (m : Nat) (v : Int) (d : Nat) : Int :=
  let q := v / 2 ^ d
  let rem := (v % 2 ^ d).toNat
  let half := 2 ^ d / 2
  let up := match m with
    | 0 => d != 0 && decide (half ≤ rem)
    | 1 => d != 0 && (decide (half < rem) || rem == half && q % 2 == 1)
    | 2 => false
    | _ => rem != 0 && q % 2 == 0
  if up then q + 1 else q
/-- A value held to e bits, and whether that changed it. -/
def clipTo (e : Nat) (sgn : Bool) (v : Int) : Nat × Bool := (wrap e (sat v e sgn), sat v e sgn != v)

/-- An element's result: its bits, the flags it raises and whether it saturated. -/
abbrev RvElt := Nat × Nat × Bool
def exact (n : Nat) : Option RvElt := some (n, 0, false)
def clipped (p : Nat × Bool) : Option RvElt := some (p.1, 0, p.2)
def flagged (p : Nat × Nat) : Option RvElt := some (p.1, p.2, false)

/-- OPIVV, OPIVX and OPIVI on e bits: a from vs2, b from vs1, x or the immediate. -/
def opiElt (f6 e xrm a b : Nat) : Option RvElt :=
  let x := signed e a
  let y := signed e b
  match f6 with
  | 0x00 => exact (wrap e (x + y))
  | 0x02 => exact (wrap e (x - y))
  | 0x03 => exact (wrap e (y - x))
  | 0x04 => exact (min a b)
  | 0x05 => exact (wrap e (min x y))
  | 0x06 => exact (max a b)
  | 0x07 => exact (wrap e (max x y))
  | 0x09 => exact (a &&& b)
  | 0x0A => exact (a ||| b)
  | 0x0B => exact (a ^^^ b)
  | 0x20 => clipped (clipTo e false ((a : Int) + b))
  | 0x21 => clipped (clipTo e true (x + y))
  | 0x22 => clipped (clipTo e false ((a : Int) - b))
  | 0x23 => clipped (clipTo e true (x - y))
  | 0x25 => exact (a * 2 ^ (b % e) % 2 ^ e)
  | 0x27 => clipped (clipTo e true (roundOff xrm (x * y) (e - 1)))
  | 0x28 => exact (a / 2 ^ (b % e))
  | 0x29 => exact (wrap e (x / 2 ^ (b % e)))
  | 0x2A => exact (wrap e (roundOff xrm a (b % e)))
  | 0x2B => exact (wrap e (roundOff xrm x (b % e)))
  | _ => none
/-- The narrowing shifts and clips: a has 2e bits. -/
def narrowElt (f6 e xrm a b : Nat) : Option RvElt :=
  let k := b % (2 * e)
  match f6 with
  | 0x2C => exact (a / 2 ^ k % 2 ^ e)
  | 0x2D => exact (wrap e (signed (2 * e) a / 2 ^ k))
  | 0x2E => clipped (clipTo e false (roundOff xrm a k))
  | 0x2F => clipped (clipTo e true (roundOff xrm (signed (2 * e) a) k))
  | _ => none
/-- Comparisons into a mask. -/
def opiCompare (f6 e a b : Nat) : Option Bool :=
  match f6 with
  | 0x18 => some (a == b)
  | 0x19 => some (a != b)
  | 0x1A => some (decide (a < b))
  | 0x1B => some (decide (signed e a < signed e b))
  | 0x1C => some (decide (a ≤ b))
  | 0x1D => some (decide (signed e a ≤ signed e b))
  | 0x1E => some (decide (b < a))
  | 0x1F => some (decide (signed e b < signed e a))
  | _ => none
/-- OPMVV and OPMVX on e bits; d is the destination's element. -/
def opmElt (f6 e xrm a b d : Nat) : Option RvElt :=
  let x := signed e a
  let y := signed e b
  let high := fun (p : Int) => exact (wrap e (p / 2 ^ e))
  match f6 with
  | 0x08 => exact (wrap e (roundOff xrm ((a : Int) + b) 1))
  | 0x09 => exact (wrap e (roundOff xrm (x + y) 1))
  | 0x0A => exact (wrap e (roundOff xrm ((a : Int) - b) 1))
  | 0x0B => exact (wrap e (roundOff xrm (x - y) 1))
  | 0x20 => exact (if b = 0 then 2 ^ e - 1 else a / b)
  | 0x21 => exact (if b = 0 then 2 ^ e - 1 else wrap e (x.tdiv y))
  | 0x22 => exact (if b = 0 then a else a % b)
  | 0x23 => exact (if b = 0 then a else wrap e (x.tmod y))
  | 0x24 => high ((a : Int) * b)
  | 0x25 => exact (a * b % 2 ^ e)
  | 0x26 => high (x * b)
  | 0x27 => high (x * y)
  | 0x29 => exact (wrap e ((b : Int) * d + a))
  | 0x2B => exact (wrap e ((a : Int) - b * d))
  | 0x2D => exact (wrap e ((b : Int) * a + d))
  | 0x2F => exact (wrap e ((d : Int) - b * a))
  | _ => none
/-- The widening operations, to 2e bits; with `wide`, a has 2e bits already. -/
def widenElt (f6 e a b d : Nat) : Option RvElt :=
  let x := signed e a
  let y := signed e b
  let put := fun (v : Int) => exact (wrap (2 * e) v)
  match f6 with
  | 0x30 => put ((a : Int) + b)
  | 0x31 => put (x + y)
  | 0x32 => put ((a : Int) - b)
  | 0x33 => put (x - y)
  | 0x34 => put ((a : Int) + b)
  | 0x35 => put ((a : Int) + y)
  | 0x36 => put ((a : Int) - b)
  | 0x37 => put ((a : Int) - y)
  | 0x38 => put ((a : Int) * b)
  | 0x3A => put (x * b)
  | 0x3B => put (x * y)
  | 0x3C => put ((b : Int) * a + d)
  | 0x3D => put (y * x + d)
  | 0x3E => put ((b : Int) * x + d)
  | 0x3F => put (y * a + d)
  | _ => none

/-- A format of e bits that V 1.0 has. -/
def vfmt (e : Nat) : Option Fmt := if e = 32 then some fp32 else if e = 64 then some fp64 else none
/-- OPFVV and OPFVF: a from vs2, b from vs1 or f. -/
def opfElt (f6 : Nat) (F : Fmt) (m : Rnd) (a b d : Nat) : Option RvElt :=
  match f6 with
  | 0x00 => (rvArith F 0 m a b).bind flagged
  | 0x02 => (rvArith F 1 m a b).bind flagged
  | 0x04 => flagged (minMax F false a b)
  | 0x06 => flagged (minMax F true a b)
  | 0x08 => (signInject F 0 a b).bind exact
  | 0x09 => (signInject F 1 a b).bind exact
  | 0x0A => (signInject F 2 a b).bind exact
  | 0x20 => (rvArith F 3 m a b).bind flagged
  | 0x21 => (rvArith F 3 m b a).bind flagged
  | 0x24 => (rvArith F 2 m a b).bind flagged
  | 0x27 => (rvArith F 1 m b a).bind flagged
  | 0x28 => flagged (rvFma F m false false b d a)
  | 0x29 => flagged (rvFma F m true true b d a)
  | 0x2A => flagged (rvFma F m false true b d a)
  | 0x2B => flagged (rvFma F m true false b d a)
  | 0x2C => flagged (rvFma F m false false b a d)
  | 0x2D => flagged (rvFma F m true true b a d)
  | 0x2E => flagged (rvFma F m false true b a d)
  | 0x2F => flagged (rvFma F m true false b a d)
  | _ => none
/-- The widening ones: the operands are of the wider format already, as values are the same there. -/
def widenFElt (f6 : Nat) (G : Fmt) (m : Rnd) (a b d : Nat) : Option RvElt :=
  match f6 with
  | 0x30 => (rvArith G 0 m a b).bind flagged
  | 0x32 => (rvArith G 1 m a b).bind flagged
  | 0x34 => (rvArith G 0 m a b).bind flagged
  | 0x36 => (rvArith G 1 m a b).bind flagged
  | 0x38 => (rvArith G 2 m a b).bind flagged
  | 0x3C => flagged (rvFma G m false false b a d)
  | 0x3D => flagged (rvFma G m true true b a d)
  | 0x3E => flagged (rvFma G m false true b a d)
  | 0x3F => flagged (rvFma G m true false b a d)
  | _ => none
/-- Floating comparisons into a mask, as R217 numbers the conditions. -/
def opfCompare (f6 : Nat) (F : Fmt) (a b : Nat) : Option (Bool × Nat) :=
  let cond := match f6 with
    | 0x18 => some 0
    | 0x19 => some 3
    | 0x1B => some 2
    | 0x1C => some 1
    | 0x1D => some 4
    | 0x1F => some 5
    | _ => none
  cond.map fun k => floatCompare k (val F a) (val F b)

/-- A rounding to odd: towards zero, and odd where inexact. -/
def roundOdd (F : Fmt) (v : Val) : Nat × Nat :=
  let (y, f) := round F .rtz v
  (if f % 2 = 1 && y % 2 == 0 then y + 1 else y, f)
/-- VFUNARY0's conversions: k is the code, A the source's float format and B the result's, e their widths. -/
def convertElt (k e dw : Nat) (A B : Option Fmt) (m : Rnd) (a : Nat) : Option RvElt := do
  let toI := fun (sgn : Bool) (m : Rnd) => do
    let F ← A
    let (i, f) := rvToInt (val F a) dw sgn m
    flagged (wrap dw i, f)
  match k % 8 with
  | 0 => toI false m
  | 1 => toI true m
  | 2 => flagged (round (← B) m (ofInt a))
  | 3 => flagged (round (← B) m (ofInt (signed e a)))
  | 4 => flagged (refloat (← A) (← B) m a)
  | 5 => let F ← A; let (y, f) := roundOdd (← B) (val F a); flagged (y, Nat.lor f (sigFlag [val F a]))
  | 6 => toI false .rtz
  | _ => toI true .rtz

/-- The seven-bit reciprocal estimate of a significand of seven bits below the leading one. -/
def rec7 (i : Nat) : Nat := (2 * 256 * 128 * 2 + (256 + 2 * i + 1)) / (2 * (256 + 2 * i + 1)) - 128
/-- The seven-bit reciprocal square root estimate; i is the exponent's low bit and six bits of significand. -/
def rsqrt7 (i : Nat) : Nat :=
  let x := if i < 64 then 2 * (128 + 2 * i + 1) else 128 + 2 * (i - 64) + 1
  (isqrt (4 * 2 ^ 23 / x) + 1) / 2 - 128
/-- The exponent and the significand, a subnormal brought to a leading one. -/
def normed (F : Fmt) (a : Nat) : Int × Nat :=
  let ex := bits a (F.eb + F.fb - 1) F.fb
  let fr := a % 2 ^ F.fb
  if ex != 0 then (ex, fr) else
    let up := F.fb - fr.log2
    (1 - (up : Int), fr * 2 ^ up % 2 ^ F.fb)
/-- VFRSQRT7. -/
def vfrsqrt7 (F : Fmt) (a : Nat) : Nat × Nat :=
  let v := val F a
  if v.isNan then (F.canonNan, sigFlag [v]) else if v.isZero then (a + F.inf, flDZ)
  else if v.negative then (F.canonNan, flNV) else if v.isInf then (0, 0) else
  let (ex, fr) := normed F a
  let i := (ex % 2).toNat * 64 + fr / 2 ^ (F.fb - 6)
  (((3 * F.bias - 1 - ex) / 2).toNat * 2 ^ F.fb + rsqrt7 i * 2 ^ (F.fb - 7), 0)
/-- VFREC7. -/
def vfrec7 (F : Fmt) (m : Rnd) (a : Nat) : Nat × Nat :=
  let v := val F a
  let sign := a / F.signBit * F.signBit
  if v.isNan then (F.canonNan, sigFlag [v]) else if v.isZero then (sign + F.inf, flDZ) else if v.isInf then (sign, 0) else
  let (ex, fr) := normed F a
  let out : Int := 2 * F.bias - 1 - ex
  if ex < -1 then
    let big := match m with
      | .rtz => true
      | .rdn => !v.negative
      | .rup => v.negative
      | _ => false
    (sign + (if big then F.largest else F.inf), flOF + flNX)
  else
    let sig := rec7 (fr / 2 ^ (F.fb - 7)) * 2 ^ (F.fb - 7)
    let low := if out = 0 then (2 ^ F.fb + sig) / 2 else if out < 0 then (2 ^ F.fb + sig) / 4 else sig
    (sign + out.toNat * 2 ^ F.fb + low, 0)

/-! Whole instructions. -/

/-- The elements that an instruction of length n writes, from vstart on: with vm 0, those that v0 selects. -/
def Rv.active (r : Rv) (vm : Bool) (n : Nat) : List Nat :=
  (List.range n).filter fun i => decide (r.vstart ≤ i) && (vm || r.mask 0 i)
/-- Write what f gives for the active elements of a register group; the flags and vxsat gather. -/
def Rv.fill (r : Rv) (vm : Bool) (d e n : Nat) (f : Nat → Option RvElt) : Option Rv :=
  (r.active vm n).foldlM (fun t i => do
    let (y, fl, st) ← f i
    return ({ t with vcsr := t.vcsr ||| bitNat st }.raise fl).setElt d e i y) r
/-- Write mask bits: every one from vstart on, or those that v0 selects. -/
def Rv.fillMask (r : Rv) (vm : Bool) (d n : Nat) (f : Nat → Option (Bool × Nat)) : Option Rv :=
  r.fill vm d 1 n fun i => (f i).map fun p => (bitNat p.1, p.2, false)

/-- The source of an instruction's second operand: a register, x, the immediate or f. -/
inductive RvSrc where
  | vec | scalar | imm | float
  deriving DecidableEq, Repr
def srcOf (f3 : Nat) : RvSrc := if f3 ≤ 2 then .vec else if f3 = 3 then .imm else if f3 = 5 then .float else .scalar

/-- Whether a destination group and its sources are legal, a masked destination not v0: each is a register, LMUL and EEW. -/
def groupsFit (vm : Bool) (d : Nat × Int × Nat) (ss : List (Nat × Int × Nat)) : Bool :=
  groupOk d.1 d.2.1 && (vm || d.1 != 0) && ss.all fun s => groupOk s.1 s.2.1 && overlapOk d.1 d.2.1 d.2.2 s.1 s.2.1 s.2.2

/-- A reduction over the active elements into element 0 of a register, of width dw. -/
def Rv.reduce (r : Rv) (vm : Bool) (d a b e dw n : Nat) (f : Nat → Nat → Option (Nat × Nat)) : Option Rv := do
  if r.vstart != 0 then none
  if n = 0 then return r
  let (y, fl) ← (r.active vm n).foldlM (fun (acc : Nat × Nat) i => do
    let (y, fl) ← f acc.1 (r.elt a e i)
    return (y, acc.2 ||| fl)) (r.elt b dw 0, 0)
  return (r.setElt d dw 0 y).raise fl

/-- vslideup and vslidedown by k. -/
def Rv.slide (r : Rv) (up vm : Bool) (d a k : Nat) (s : VSet) : Option Rv :=
  let get := fun i => if i < vlmax s.sew s.lmul then r.elt a s.sew i else 0
  if up then { r with vstart := max r.vstart k }.fill vm d s.sew r.vl fun i => exact (r.elt a s.sew (i - k))
  else r.fill vm d s.sew r.vl fun i => exact (get (i + k))
/-- vslide1up, vslide1down and the f forms: x enters at the end. -/
def Rv.slide1 (r : Rv) (up vm : Bool) (d a x : Nat) (s : VSet) : Option Rv :=
  r.fill vm d s.sew r.vl fun i =>
    exact (if up then (if i = 0 then x % 2 ^ s.sew else r.elt a s.sew (i - 1))
      else if i + 1 = r.vl then x % 2 ^ s.sew else r.elt a s.sew (i + 1))

/-- OPIVV, OPIVX and OPIVI. -/
def Rv.opi (r : Rv) (w : Nat) (s : VSet) : Option Rv := do
  let f6 := bits w 31 26
  let vm := bits w 25 25 == 1
  let d := rvRd w
  let a := rvB w
  let b := rvA w
  let src := srcOf (rvF3 w)
  let e := s.sew
  let l := s.lmul
  let n := r.vl
  let xrm := bits r.vcsr 2 1
  let uns := [0x0C, 0x0E, 0x0F, 0x25, 0x28, 0x29, 0x2A, 0x2B, 0x2C, 0x2D, 0x2E, 0x2F].contains f6
  let k : Nat := if src = .imm then (if uns then b else wrap 64 (signed 5 b)) else (r.reg b).toNat
  let second := fun (e i : Nat) => if src = .vec then r.elt b e i else k % 2 ^ e
  let bGroup : List (Nat × Int × Nat) := if src = .vec then [(b, l, e)] else []
  if (src = .vec ∧ [0x03, 0x0F, 0x1E, 0x1F].contains f6) ∨ (src = .imm ∧ [0x02, 0x04, 0x05, 0x06, 0x07, 0x12, 0x13, 0x1A, 0x1B, 0x22, 0x23].contains f6) then none
  match f6 with
  | 0x0C =>
    if !groupsFit vm (d, l, e) ((a, l, e) :: bGroup) || !apart d l a l || (src == .vec && !apart d l b l) then none
    r.fill vm d e n fun i =>
      let j := if src = .vec then r.elt b e i else k
      exact (if j < vlmax e l then r.elt a e j else 0)
  | 0x0E =>
    if src = .vec then
      let bl : Int := l + 4 - (e.log2 : Nat)
      if !groupsFit vm (d, l, e) [(a, l, e)] || !groupOk b bl || !apart d l a l || !apart d l b bl then none
      r.fill vm d e n fun i =>
        let j := r.elt b 16 i
        exact (if j < vlmax e l then r.elt a e j else 0)
    else if !groupsFit vm (d, l, e) [(a, l, e)] || !apart d l a l then none
    else r.slide true vm d a k s
  | 0x0F => if !groupsFit vm (d, l, e) [(a, l, e)] then none else r.slide false vm d a k s
  | 0x10 =>
    if vm || d == 0 || !groupsFit true (d, l, e) ((a, l, e) :: bGroup) then none
    r.fill true d e n fun i => exact ((r.elt a e i + second e i + bitNat (r.mask 0 i)) % 2 ^ e)
  | 0x12 =>
    if vm || d == 0 || !groupsFit true (d, l, e) ((a, l, e) :: bGroup) then none
    r.fill true d e n fun i => exact (wrap e ((r.elt a e i : Int) - second e i - bitNat (r.mask 0 i)))
  | 0x11 =>
    if !groupsFit true (d, 0, 1) ((a, l, e) :: bGroup) then none
    r.fillMask true d n fun i => some (decide (2 ^ e ≤ r.elt a e i + second e i + bitNat (!vm && r.mask 0 i)), 0)
  | 0x13 =>
    if !groupsFit true (d, 0, 1) ((a, l, e) :: bGroup) then none
    r.fillMask true d n fun i => some (decide (r.elt a e i < second e i + bitNat (!vm && r.mask 0 i)), 0)
  | 0x17 =>
    if vm && a != 0 || !groupsFit vm (d, l, e) ((if vm then [] else [(a, l, e)]) ++ bGroup) then none
    r.fill true d e n fun i => exact (if vm || r.mask 0 i then second e i else r.elt a e i)
  | _ =>
    if f6 = 0x27 ∧ src = .imm then
      let c := b + 1
      if !vm || !([1, 2, 4, 8].contains c) || d % c != 0 || a % c != 0 then none
      return ← r.fill true d e (c * 512 / e) fun i => exact (r.elt a e i)
    if 0x18 ≤ f6 ∧ f6 ≤ 0x1F then
      if !groupsFit true (d, 0, 1) ((a, l, e) :: bGroup) then none
      r.fillMask vm d n fun i => (opiCompare f6 e (r.elt a e i) (second e i)).map fun t => (t, 0)
    else if 0x2C ≤ f6 ∧ f6 ≤ 0x2F then
      if e = 64 || !groupsFit vm (d, l, e) ((a, l + 1, 2 * e) :: bGroup) then none
      r.fill vm d e n fun i => narrowElt f6 e xrm (r.elt a (2 * e) i) (second e i)
    else if f6 = 0x30 ∨ f6 = 0x31 then
      if src != .vec || e == 64 || !groupOk a l then none
      r.reduce vm d a b e (2 * e) n fun acc x => some (wrap (2 * e) (acc + (if f6 = 0x30 then (x : Int) else signed e x)), 0)
    else
      if !groupsFit vm (d, l, e) ((a, l, e) :: bGroup) || (opiElt f6 e 0 0 0).isNone then none
      r.fill vm d e n fun i => opiElt f6 e xrm (r.elt a e i) (second e i)

/-- The sum of a widening reduction or the pairs of a plain one (vredsum to vredmax). -/
def reduceElt (f6 e acc x : Nat) : Nat :=
  match f6 with
  | 0 => (acc + x) % 2 ^ e
  | 1 => acc &&& x
  | 2 => acc ||| x
  | 3 => acc ^^^ x
  | 4 => min acc x
  | 5 => wrap e (min (signed e acc) (signed e x))
  | 6 => max acc x
  | _ => wrap e (max (signed e acc) (signed e x))
/-- vmandn to vmxnor. -/
def maskLogic (f6 : Nat) (a b : Bool) : Bool :=
  match f6 with
  | 0x18 => a && !b
  | 0x19 => a && b
  | 0x1A => a || b
  | 0x1B => a != b
  | 0x1C => a || !b
  | 0x1D => !(a && b)
  | 0x1E => !(a || b)
  | _ => a == b
/-- vmsbf, vmsof and vmsif (1, 2 and 3): the bits before, at, and up to the first set one that is active. -/
def Rv.maskFirst (r : Rv) (k : Nat) (vm : Bool) (d a : Nat) : Option Rv :=
  if r.vstart != 0 || d == a || (!vm && d == 0) then none else
  let first := ((r.active vm r.vl).find? fun i => r.mask a i).getD r.vl
  r.fillMask vm d r.vl fun i => some (if k = 1 then decide (i < first) else if k = 2 then i == first else decide (i ≤ first), 0)
/-- OPMVV and OPMVX. -/
def Rv.opm (r : Rv) (w : Nat) (s : VSet) : Option Rv := do
  let f6 := bits w 31 26
  let vm := bits w 25 25 == 1
  let d := rvRd w
  let a := rvB w
  let b := rvA w
  let src := srcOf (rvF3 w)
  let e := s.sew
  let l := s.lmul
  let n := r.vl
  let xrm := bits r.vcsr 2 1
  let k := (r.reg b).toNat
  let second := fun (e i : Nat) => if src = .vec then r.elt b e i else k % 2 ^ e
  let bGroup : List (Nat × Int × Nat) := if src = .vec then [(b, l, e)] else []
  if f6 < 8 then
    if src != .vec || !groupOk a l then none
    r.reduce vm d a b e e n fun acc x => some (reduceElt f6 e acc x, 0)
  else if f6 = 0x0E ∨ f6 = 0x0F then
    if src == .vec || !groupsFit vm (d, l, e) [(a, l, e)] || (f6 == 0x0E && !apart d l a l) then none
    r.slide1 (f6 == 0x0E) vm d a k s
  else if f6 = 0x10 then
    if src = .vec then
      match b with
      | 0 => if !vm then none else return r.setReg d (wordI (signed e (r.elt a e 0)))
      | 0x10 => if r.vstart != 0 then none else return r.setReg d (word ((r.active vm n).filter fun i => r.mask a i).length)
      | 0x11 => if r.vstart != 0 then none else return r.setReg d (wordI (((r.active vm n).find? fun i => r.mask a i).elim (-1) fun i => (i : Int)))
      | _ => none
    else
      if !vm || a != 0 then none
      return if r.vstart < n then r.setElt d e 0 (k % 2 ^ e) else r
  else if f6 = 0x12 then
    let q := [0, 0, 8, 8, 4, 4, 2, 2].getD b 0
    let al := l - (q.log2 : Nat)
    if src != .vec || q == 0 || decide (e / q < 8) || !groupsFit vm (d, l, e) [(a, al, e / q)] then none
    r.fill vm d e n fun i => exact (if b % 2 = 0 then r.elt a (e / q) i else wrap e (signed (e / q) (r.elt a (e / q) i)))
  else if f6 = 0x14 then
    if src != .vec then none
    match b with
    | 1 => r.maskFirst 1 vm d a
    | 2 => r.maskFirst 2 vm d a
    | 3 => r.maskFirst 3 vm d a
    | 0x10 =>
      if r.vstart != 0 || !groupsFit vm (d, l, e) [] || !apart d l a 0 then none
      r.fill vm d e n fun i => exact (((r.active vm i).filter fun j => r.mask a j).length % 2 ^ e)
    | 0x11 => if a != 0 || !groupsFit vm (d, l, e) [] then none else r.fill vm d e n fun i => exact (i % 2 ^ e)
    | _ => none
  else if f6 = 0x17 then
    if src != .vec || !vm || r.vstart != 0 || !groupsFit true (d, l, e) [(a, l, e)] || !apart d l a l || !apart d l b 0 then none
    return (((List.range n).filter fun i => r.mask b i).zipIdx).foldl (fun t (i, j) => t.setElt d e j (r.elt a e i)) r
  else if 0x18 ≤ f6 ∧ f6 ≤ 0x1F then
    if src != .vec || !vm then none
    r.fillMask true d n fun i => some (maskLogic f6 (r.mask a i) (r.mask b i), 0)
  else if 0x30 ≤ f6 then
    let wide := decide (0x34 ≤ f6 ∧ f6 ≤ 0x37)
    let aw := if wide then 2 * e else e
    if e = 64 || (f6 == 0x3E && src == .vec) || (widenElt f6 e 0 0 0).isNone
      || !groupsFit vm (d, l + 1, 2 * e) ((a, if wide then l + 1 else l, aw) :: bGroup) then none
    r.fill vm d (2 * e) n fun i => widenElt f6 e (r.elt a aw i) (second e i) (r.elt d (2 * e) i)
  else
    if !groupsFit vm (d, l, e) ((a, l, e) :: bGroup) || (opmElt f6 e 0 0 1 0).isNone then none
    r.fill vm d e n fun i => opmElt f6 e xrm (r.elt a e i) (second e i) (r.elt d e i)

/-- OPFVV and OPFVF. -/
def Rv.opf (r : Rv) (w : Nat) (s : VSet) : Option Rv := do
  let f6 := bits w 31 26
  let vm := bits w 25 25 == 1
  let d := rvRd w
  let a := rvB w
  let b := rvA w
  let src := srcOf (rvF3 w)
  let e := s.sew
  let l := s.lmul
  let n := r.vl
  let m ← rvRnd (bits r.fcsr 7 5)
  if f6 = 0x12 then
    if src != .vec then none
    let widening := b / 8 == 1
    let narrowing := b / 8 == 2
    let ae := if narrowing then 2 * e else e
    let de := if widening then 2 * e else e
    if 23 < b || (b % 8 == 5 && b != 21) || (b % 8 == 4 && b / 8 == 0) || decide (64 < ae) || decide (64 < de) then none
    let al := if narrowing then l + 1 else l
    let dl := if widening then l + 1 else l
    if !groupsFit vm (d, dl, de) [(a, al, ae)] then none
    let toInt := [0, 1, 6, 7].contains (b % 8)
    let fromInt := [2, 3].contains (b % 8)
    if (!fromInt && (vfmt ae).isNone) || (!toInt && (vfmt de).isNone) then none
    r.fill vm d de n fun i => convertElt b ae de (vfmt ae) (vfmt de) m (r.elt a ae i)
  else
  let F ← vfmt e
  let x := unbox F (r.freg b)
  let second := fun (i : Nat) => if src = .vec then r.elt b e i else x
  let bGroup : List (Nat × Int × Nat) := if src = .vec then [(b, l, e)] else []
  if src = .vec ∧ [0x0E, 0x0F, 0x17, 0x1D, 0x1F, 0x21, 0x27].contains f6 then none
  match f6 with
  | 0x0E => if !groupsFit vm (d, l, e) [(a, l, e)] || !apart d l a l then none else r.slide1 true vm d a x s
  | 0x0F => if !groupsFit vm (d, l, e) [(a, l, e)] then none else r.slide1 false vm d a x s
  | 0x10 =>
    if !vm then none
    if src = .vec then (if b != 0 then none else return r.setFreg d (box F (r.elt a e 0)))
    else if a != 0 then none
    else return if r.vstart < n then r.setElt d e 0 x else r
  | 0x13 =>
    if src != .vec || !groupsFit vm (d, l, e) [(a, l, e)] then none
    match b with
    | 0x00 => r.fill vm d e n fun i => flagged (roundWith F m (sqrtVal (val F (r.elt a e i))))
    | 0x04 => r.fill vm d e n fun i => flagged (vfrsqrt7 F (r.elt a e i))
    | 0x05 => r.fill vm d e n fun i => flagged (vfrec7 F m (r.elt a e i))
    | 0x10 => r.fill vm d e n fun i => exact (rvClass F (r.elt a e i))
    | _ => none
  | 0x17 =>
    if vm && a != 0 || !groupsFit vm (d, l, e) (if vm then [] else [(a, l, e)]) then none
    r.fill true d e n fun i => exact (if vm || r.mask 0 i then x else r.elt a e i)
  | _ =>
    if [0x01, 0x03, 0x05, 0x07].contains f6 then
      if src != .vec || !groupOk a l then none
      r.reduce vm d a b e e n fun acc y =>
        if f6 = 0x05 then some (minMax F false acc y) else if f6 = 0x07 then some (minMax F true acc y) else some (addF F m acc y)
    else if f6 = 0x31 ∨ f6 = 0x33 then
      if src != .vec || e == 64 || !groupOk a l then none
      r.reduce vm d a b e 64 n fun acc y => some (roundWith fp64 m (addVal m.down (val fp64 acc) (val F y)))
    else if 0x18 ≤ f6 ∧ f6 ≤ 0x1F then
      if !groupsFit true (d, 0, 1) ((a, l, e) :: bGroup) || (opfCompare f6 F 0 0).isNone then none
      r.fillMask vm d n fun i => opfCompare f6 F (r.elt a e i) (second i)
    else if 0x30 ≤ f6 then
      let wide := f6 == 0x34 || f6 == 0x36
      let aw := if wide then 64 else e
      if e = 64 || (widenFElt f6 fp64 m 0 0 0).isNone || !groupsFit vm (d, l + 1, 64) ((a, if wide then l + 1 else l, aw) :: bGroup) then none
      let up := fun (y : Nat) => refloat F fp64 m y
      r.fill vm d 64 n fun i => do
        let (p, fa) := if wide then (r.elt a 64 i, 0) else up (r.elt a e i)
        let (q, fb) := up (second i)
        let (y, fl, st) ← widenFElt f6 fp64 m p q (r.elt d 64 i)
        return (y, fl ||| fa ||| fb, st)
    else
      if !groupsFit vm (d, l, e) ((a, l, e) :: bGroup) || (opfElt f6 F m 0 0 0).isNone then none
      r.fill vm d e n fun i => opfElt f6 F m (r.elt a e i) (second i) (r.elt d e i)

/-- OP-V. Each one that is legal leaves vstart 0. -/
def Rv.opV (r : Rv) (w : Nat) : Option Rv := do
  if rvF3 w = 7 then
    if bits w 31 31 = 1 ∧ bits w 30 30 = 0 ∧ bits w 29 25 ≠ 0 then none
    return r.setVl w
  let s ← r.vtype.bind vset
  let t ← match rvF3 w with
    | 1 => r.opf w s
    | 5 => r.opf w s
    | 2 => r.opm w s
    | 6 => r.opm w s
    | _ => r.opi w s
  return { t with vstart := 0 }

/-! Loads and stores. -/

/-- One access of a vector memory instruction: element i of field f, in the group at d. -/
def rvMove (c : RvEnv) (store : Bool) (a d e i : Nat) : RvM Unit := do
  if store then rvStore c a (e / 8) ((← get).elt d e i)
  else
    let m ← rvLoad c a (e / 8)
    modify fun r => r.setElt d e i m
/-- The elements in turn, each with its fields; vstart is the one at work. -/
def rvElements (c : RvEnv) (store : Bool) (addr : Nat → Nat) (d per e fields : Nat) (is : List Nat) : RvM Unit :=
  is.forM fun i => do
    modify fun r => { r with vstart := i }
    (List.range fields).forM fun k => rvMove c store ((addr i + k * (e / 8)) % 2 ^ 64) (d + k * per) e i
/-- Fault-only-first: an element after element 0 that cannot be read ends the load and sets vl. -/
def rvFaultFirst (c : RvEnv) (addr : Nat → Nat) (d per e fields : Nat) (is : List Nat) : RvM Unit := do
  for i in is do
    if (← get).vl ≤ i then pure () else
    try rvElements c false addr d per e fields [i]
    catch cause => if i = 0 || cause == fcHold || cause == fcMalformed then throw cause else modify fun r => { r with vl := i }
/-- The vector loads and stores. -/
def rvVecMem (c : RvEnv) (store : Bool) (w : Nat) : RvM Unit := do
  let r ← get
  let base := (r.reg (rvA w)).toNat
  let d := rvRd w
  let nf := bits w 31 29
  let vm := bits w 25 25 == 1
  let e := match rvF3 w with
    | 0 => 8
    | 5 => 16
    | 6 => 32
    | _ => 64
  legal (bits w 28 28 == 0)
  let unit := fun (fields e i : Nat) => base + i * fields * (e / 8)
  if bits w 27 26 = 0 ∧ rvB w = 8 then
    -- whole registers
    let k := nf + 1
    legal (vm && [1, 2, 4, 8].contains k && d % k == 0 && (!store || e == 8))
    rvElements c store (unit 1 e) d 1 e 1 ((List.range (k * 512 / e)).filter fun i => decide (r.vstart ≤ i))
  else
    let s ← orIllegal (r.vtype.bind vset)
    let fields := nf + 1
    if bits w 27 26 = 0 ∧ rvB w = 0xB then
      legal (vm && nf == 0 && e == 8)
      rvElements c store (unit 1 8) d 1 8 1 ((List.range ((r.vl + 7) / 8)).filter fun i => decide (r.vstart ≤ i))
    else if bits w 27 26 % 2 = 1 then
      -- indexed: the data have SEW, the offsets the width named
      let ol : Int := s.lmul + (e.log2 : Nat) - (s.sew.log2 : Nat)
      let o := rvB w
      let per := regsOf s.lmul
      legal (groupOk d s.lmul && groupOk o ol && (vm || d != 0) && decide (fields * per ≤ 8) && decide (d + fields * per ≤ 32))
      legal (store || (List.range fields).all fun k =>
        if fields = 1 then overlapOk d s.lmul s.sew o ol e else apart (d + k * per) s.lmul o ol)
      rvElements c store (fun i => base + r.elt o e i) d per s.sew fields (r.active vm r.vl)
    else
      let l : Int := s.lmul + (e.log2 : Nat) - (s.sew.log2 : Nat)
      let per := regsOf l
      legal (groupOk d l && (vm || d != 0) && decide (fields * per ≤ 8) && decide (d + fields * per ≤ 32))
      if bits w 27 26 = 2 then
        let stride := (r.reg (rvB w)).toNat
        rvElements c store (fun i => base + i * stride) d per e fields (r.active vm r.vl)
      else if rvB w = 0 then rvElements c store (unit fields e) d per e fields (r.active vm r.vl)
      else
        legal (rvB w == 0x10 && !store)
        rvFaultFirst c (unit fields e) d per e fields (r.active vm r.vl)
  modify fun r => { r with vstart := 0 }

/-! Steps and runs. -/

/-- One instruction, of 32 bits or expanded to them; `len` is its length in the image. -/
def rvExec (c : RvEnv) (w len : Nat) : RvM Unit := do
  let r ← get
  let next := (r.pc + len) % 2 ^ 64
  let vecWidth := [0, 5, 6, 7].contains (rvF3 w)
  let b := (r.reg (rvB w)).toNat
  match w % 128 with
  | 0x03 => rvLoadX c w
  | 0x07 => if vecWidth then rvVecMem c false w else do legal (rvF3 w == 2 || rvF3 w == 3); rvLoadF c w
  | 0x23 => do legal (decide (rvF3 w < 4)); rvStoreS c w (2 ^ rvF3 w) b
  | 0x27 => if vecWidth then rvVecMem c true w else do legal (rvF3 w == 2 || rvF3 w == 3); rvStoreS c w (2 ^ rvF3 w) (r.freg (rvB w))
  | 0x2F => rvAtomic c w
  | 0x57 => do set (← orIllegal (r.opV w))
  | 0x63 =>
    let taken ← orIllegal (rvBranch (rvF3 w) (r.reg (rvA w)) (r.reg (rvB w)))
    if taken then
      set { r with pc := wrap 64 (r.pc + immB w) }
      return
  | 0x67 =>
    legal (rvF3 w == 0)
    let to' := (r.reg (rvA w) + wordI (immI w)).toNat
    set { r.setReg (rvRd w) (word next) with pc := to' - to' % 2 }
    return
  | 0x6F =>
    set { r.setReg (rvRd w) (word next) with pc := wrap 64 (r.pc + immJ w) }
    return
  | _ => do set (← orIllegal (r.compute w))
  modify fun r => { r with pc := next }
/-- R115: fetch and execute the instruction at the pc. -/
def rvStep (c : RvEnv) : RvM Unit := do
  let pc := (← get).pc
  let lo ← rvFetch c pc
  if lo % 4 = 3 then
    let hi ← rvFetch c (pc + 2)
    rvExec c (lo + 65536 * hi) 4
  else rvExec c (← orIllegal (expand16 lo)) 2

/-- Run until the routine returns to the firmware: the core then, and the FCAUSE. -/
def rvRun (c : RvEnv) (back : Nat) : Nat → Rv → State → Rv × Option Nat × State
  | 0, r, s => (r, some fcMalformed, s)
  | n + 1, r, s =>
    if r.pc = back then (r, if r.reg 10 = 0 then none else some fcMalformed, s) else
    match rvStep c r s with
    | .ok (_, r1) s1 => rvRun c back n r1 s1
    | .error f s1 => (r, some f, s1)

end Sys2Proof.Machine
end

