-- ==== Sys2Proof/Machine/Routines.lean ====
section
/-! DEFINITION. The copy engines' routines (R115 to R118): what a stream reads and the elements it produces. -/

namespace Sys2Proof.Machine

/-- A source as a function of the offset. -/
def sourceOf (e : EngCtx) (base : Nat) (s : State) (off : Nat) : Option Byte :=
  match engRead e (base + off) 1 s with
  | .ok bs _ => bs.head?
  | .error _ _ => none

/-- Bytes cut into elements. -/
def elementsOf (esz : Nat) (bs : List Byte) : List (List Byte) := groupsOf esz (bs.length / esz + 1) bs

/-! Routines: the elements that one step produces, and the state that goes to the next. A step that fails produces
nothing (R114). -/

/-- A run of a routine: what it has produced, and the FCAUSE it ended with. -/
structure Run where
  elems : List (List Byte) := []
  fail : Option Nat := none
  deriving Repr

/-- Repeat a routine's step (one chunk) from a position until n elements are there; the position reached. A step answers its
elements and the next position. -/
def runSteps {α : Type} (step : Nat → α → Eng (List (List Byte) × α)) (n : Nat) : Nat → α → Run → State → Run × α × State
  | 0, p, r, s => ({ r with fail := some fcMalformed }, p, s)
  | fuel + 1, p, r, s =>
    if n ≤ r.elems.length then (r, p, s) else
    match step (n - r.elems.length) p s with
    | .error c s1 => ({ r with fail := some c }, p, s1)
    | .ok (es, p1) s1 => runSteps step n fuel p1 { r with elems := r.elems ++ es.take (n - r.elems.length) } s1

/-- R117: the scout pass's reads beyond the last chunk that a stream needs: a header's bytes answer where the next header
lies. They land nothing and cause no failure. -/
def scoutAhead {α : Type} (next : α → Eng α) : Nat → α → State → State
  | 0, _, s => s
  | k + 1, off, s =>
    match next off s with
    | .ok off1 s1 => scoutAhead next k off1 s1
    | .error _ _ => s

/-- Steps enough for any source: each chunk takes a byte of the address space. -/
def allSteps : Nat := 2 ^ 64

/-- R116 routine 0. -/
def copyStep (e : EngCtx) (src esz : Nat) (_left off : Nat) : Eng (List (List Byte) × Nat) := do
  return ([← engRead e (src + off) esz], off + esz)

/-- R116 routine 1: one chunk of 64 elements, no more of it read than is needed. -/
def deltaStep (e : EngCtx) (src esz : Nat) (left off : Nat) : Eng (List (List Byte) × Nat) := do
  if 8 < esz then throw fcMalformed
  let d := leAt (← engRead e (src + off) 1) 0 1
  if !([1, 2, 4, 8].contains d) then throw fcMalformed
  let base := leAt (← engRead e (src + off + 1) esz) 0 esz
  let k := min 64 left
  let body ← engRead e (src + off + 1 + esz) (k * d)
  return ((List.range k).map fun i => bytesOf esz (wrap (8 * esz) ((base : Int) + signed (8 * d) (leAt body (d * i) d))),
    off + 1 + esz + 64 * d)

/-- R116 routine 2: one chunk. -/
def lz4Step (e : EngCtx) (src esz : Nat) (left off : Nat) : Eng (List (List Byte) × Nat) := do
  let hd ← engRead e (src + off) 8
  let comp := leAt hd 0 4
  let size := leAt hd 4 4
  if 4194304 < size || size % esz != 0 then throw fcMalformed
  let bs ← engRead e (src + off + 8) comp
  match lz4Block (min size (left * esz)) size bs with
  | some out => return (elementsOf esz out, off + 8 + comp)
  | none => throw fcMalformed

/-- R116 routine 3: the content of the frames at a source, its place then, the FCAUSE, and the state after the reads. -/
def zstdRun (e : EngCtx) (src want : Nat) (s : State) : List Byte × Option Nat × ZPlace × State :=
  let (out, ending, p) := zFrames (sourceOf e src s) want allSteps 0 []
  let bs := out.reverse.take want
  match ending with
  | .unread o =>
    match engRead e (src + o) 1 s with
    | .error c s1 => (bs, some c, p, s1)
    | .ok _ s1 => (bs, some fcMalformed, p, s1)
  | f =>
    let s1 := match engRead e src p.1 s with
      | .error _ _ => s
      | .ok _ s1 => s1
    (bs, if f = .good then none else some fcMalformed, p, s1)
/-- R117: the scout pass over frames. -/
def zstdScout (e : EngCtx) (src : Nat) (p : ZPlace) : Eng ZPlace := do
  match zScout (sourceOf e src (← get)) p with
  | .error _ => throw fcMalformed
  | .ok p1 => do
    let _ ← engRead e (src + p.1) 1
    return p1

/-- R116 routine 4: one chunk of a log tile of `count` records; the position is an offset and a record number. DESIGN CHOICE:
a chunk whose records exceed the tile's count is malformed, and so is a raw chunk whose compressed bytes are not its records'
bytes; the spec gives both fields and no rule for a tile in which they disagree. -/
def tileStep (e : EngCtx) (src esz count param : Nat) (left : Nat) (p : Nat × Nat) :
    Eng (List (List Byte) × (Nat × Nat)) := do
  let (off, rec') := p
  if count ≤ rec' then throw fcMalformed
  let hd ← engRead e (src + off) 16
  let comp := leAt hd 0 4
  let n := leAt hd 4 4
  let codec := leAt hd 8 1
  if leAt hd 9 7 != 0 || 2 < codec || count < rec' + n then throw fcMalformed
  let next := (off + 16 + comp, rec' + n)
  if n = 0 || rec' + n ≤ param then return ([], next)
  let skip := param - rec'
  let want := min n (skip + left) * esz
  let out ← match codec with
    | 0 =>
      if comp != n * esz then throw fcMalformed
      engRead e (src + off + 16) want
    | 1 => do
      let bs ← engRead e (src + off + 16) comp
      match lz4Block want (n * esz) bs with
      | some out => pure out
      | none => throw fcMalformed
    | _ => do
      let bs ← engRead e (src + off + 16) comp
      match zOne want (n * esz) bs with
      | some out => pure out
      | none => throw fcMalformed
  return ((elementsOf esz out).drop skip, next)

/-- The elements a table routine lands, each once all of its bytes are stored: base address, element size, count, and the
stores, newest first. -/
def landedElements (base esz n : Nat) (stores : List (Nat × Byte)) : List (Nat × List Byte) :=
  (List.range n).filterMap fun i =>
    let bs := (List.range esz).map fun j => (stores.find? fun e => e.1 == base + i * esz + j).map fun e => e.2
    if bs.all Option.isSome then some (i, bs.map fun b => b.getD 0) else none

/-- R115: a table routine's run on the engine's core, from the registers at its entry: the elements it lands, by their
number in the stream, and the FCAUSE. One that succeeds without storing every element is malformed (R116). -/
def runTable (e : EngCtx) (st : Stream) (base esz : Nat) (s : State) : (List (Nat × List Byte) × Option Nat) × State :=
  let dst := base + st.first * esz
  let c : RvEnv := ⟨e, dst, st.n * esz, 16 * (Config.engineStack % 2 ^ 58 + 4096), s.freeCount⟩
  let back := 2 * (Config.engineReturn % 2 ^ 63)
  let entry := ([(1, back), (2, c.top), (10, st.src), (11, dst), (12, st.n), (13, esz), (14, st.param)] : List (Nat × Nat)).foldl
    (fun (r : Rv) a => r.setReg a.1 (word a.2)) { pc := st.entry }
  let (r, f, s1) := rvRun c back allSteps entry { s with freeCount := s.freeCount + 1 }
  let out := landedElements dst esz st.n r.landed
  ((out, if f.isNone && decide (out.length < st.n) then some fcMalformed else f), s1)

/-- R115 to R117: run a stream's routine: its elements with their numbers in the channel, and the FCAUSE after them. -/
def runRoutine (e : EngCtx) (st : Stream) (base esz : Nat) (s : State) : (List (Nat × List Byte) × Option Nat) × State :=
  let number := fun (es : List (List Byte)) => es.zipIdx.map fun (bs, i) => (st.first + i, bs)
  let plain := fun (r : Run × Nat × State) (next : Nat → Eng Nat) =>
    ((number r.1.elems, r.1.fail), if r.1.fail.isNone && st.scouted then scoutAhead next st.dist r.2.1 r.2.2 else r.2.2)
  let field := fun (off at' n : Nat) => return leAt (← engRead e (st.src + off + at') n) 0 n
  if st.routine = 0 then plain (runSteps (copyStep e st.src esz) st.n allSteps 0 {} s) pure
  else if st.routine = 1 then
    plain (runSteps (deltaStep e st.src esz) st.n allSteps 0 {} s) fun off =>
      return off + 1 + esz + 64 * (← field off 0 1)
  else if st.routine = 2 then
    plain (runSteps (lz4Step e st.src esz) st.n allSteps 0 {} s) fun off => return off + 8 + (← field off 0 4)
  else if st.routine = 3 then
    let (bs, f, p, s1) := zstdRun e st.src (st.n * esz) s
    ((number ((elementsOf esz bs).filter fun b => b.length == esz), f),
      if f.isNone && st.scouted then scoutAhead (zstdScout e st.src) st.dist p s1 else s1)
  else if st.routine = 4 then
    match engRead e st.src 32 s with
    | .error c s1 => (([], some c), s1)
    | .ok hd s1 =>
      if leAt hd 0 4 != 0x51544C31 || leAt hd 8 4 != esz || leAt hd 12 20 != 0 then (([], some fcMalformed), s1)
      else
        let (r, p, s2) := runSteps (tileStep e st.src esz (leAt hd 4 4) st.param) st.n allSteps (32, 0) {} s1
        plain (r, p.1, s2) fun off => return off + 16 + (← field off 0 4)
  else
    let ((out, f), s1) := runTable e st base esz s
    ((out.map fun (i, bs) => (st.first + i, bs), f), s1)

end Sys2Proof.Machine
end

