-- ==== Sys2Proof/Machine/Control.lean ====
section
/-! DEFINITION. Control transfer (R310 to R315), the branch queues (R161, R314) and the prefixes (R45 to R50). -/

namespace Sys2Proof.Machine

/-- Jump when a condition holds; fall through otherwise. -/
def jumpIf (taken : Bool) (target : Word) : Act Flow := pure (if taken then .jump target else .seq)

/-- R311: s[a] cond s[b], for EQ, NE, LT, GE, LTN, GEN. -/
def branchTaken (cond : Nat) (a b : Word) : Bool :=
  match cond with
  | 0 => a == b
  | 1 => a != b
  | 2 => a.slt b
  | 3 => !a.slt b
  | 4 => a.ult b
  | _ => !a.ult b

/-- B.cc (R311): branch when the condition holds. -/
def execB (o : BArgs) (s : State) : Result :=
  issue { word := bWord 0x09 o, major := 0x09, reads := [o.a.toNat, o.b.toNat], pairable := false } (do
    let h ← getH
    jumpIf (branchTaken o.cond.toNat (h.reg o.a.toNat) (h.reg o.b.toNat)) (branchTarget h.pc o.off)) s

/-- R312: whether a J-format word is taken. -/
def jTaken (h : Hart) (o : JArgs) : Bool := h.pred o.pred.toNat != o.neg

/-- BP (R312). -/
def execBp (o : JArgs) (s : State) : Result :=
  issue { word := jWord 0x0A 0 o, major := 0x0A, readsP := [o.pred.toNat], pairable := false } (do
    let h ← getH
    jumpIf (jTaken h o) (branchTarget h.pc o.off)) s

/-- CALL (R312): a taken word writes the link to s1 and sets LASTD to 1. -/
def execCall (o : JArgs) (s : State) : Result :=
  issue { word := jWord 0x0A 1 o, major := 0x0A, readsP := [o.pred.toNat], dest := .s 1, pairable := false } (do
    let h ← getH
    if jTaken h o then
      writeD 1 (linkAddress h.pc)
      return .jump (branchTarget h.pc o.off)
    else return .seq) s

/-- CALLR (R313). -/
def execCallr (o : IArgs) (s : State) : Result :=
  issue { iInfo 0x0B 0 o (.s o.d.toNat) [o.a] with pairable := false } (do
    let h ← getH
    let target := h.reg o.a.toNat + o.imm.signExtend 64
    require (wbits target 1 0 == 0) cAlign target
    writeD o.d (linkAddress h.pc)
    return .jump target) s

/-- C.BNZ (R310, R323): branch when s[a] is not zero. -/
def execCBnz (o : KArgs) (s : State) : Result :=
  issue { kInfo 11 o .none [o.a.toNat] with pairable := false } (do
    let h ← getH
    jumpIf (h.reg o.a.toNat != 0) (branchTarget h.pc o.b)) s

/-! Crews (R159 to R161). -/

/-- The crew of the hart in a slot, by its loader's slot. -/
def crewBase (coord : Nat) (h : Hart) : Nat := coord - h.stage
def isCrew (h : Hart) : Bool := h.role == .loader || h.role == .computer || h.role == .storer
def crewNow : Act Crew := do
  let s ← get
  return lookD {} (crewBase s.cur s.h) s.crews
def setCrewNow (c : Crew) : Act Unit :=
  modify fun s => { s with crews := put (crewBase s.cur s.h) c s.crews }

/-- R314: pop the head of a branch queue and branch on it; the wait and the pop commit the strip (R375). -/
def bqWord' (cond : Nat) (o : BqArgs) (taken : Word → Bool) (s : State) : Result :=
  issue { word := bqWord 0x0C cond o, major := 0x0C, pairable := false } (do
    let c ← crewNow
    match c.bqs[o.a.toNat]?.getD [] with
    | [] =>
      commit 3
      waitFor .ring
    | v :: rest =>
      performEarlier 2
      setCrewNow { c with bqs := c.bqs.setIfInBounds o.a.toNat rest }
      jumpIf (taken v) (branchTarget (← getH).pc o.off)) s
    (later := do require ((← getH).role == .computer) cRole 0)

/-- BQ.NZ (R314): branch when the head is not zero. -/
def execBqNz (o : BqArgs) (s : State) : Result := bqWord' 0 o (fun v => v != 0) s
/-- BQ.Z (R314): branch when the head is zero. -/
def execBqZ (o : BqArgs) (s : State) : Result := bqWord' 1 o (fun v => v == 0) s

/-- R161: push to a branch queue; the loader's alone, waiting while the queue holds 16. -/
def pushBq (q : Nat) (v : Word) : Act Unit := do
  require ((← getH).role == .loader) cRole 0
  let c ← crewNow
  let l := c.bqs[q]?.getD []
  if 16 ≤ l.length then
    commit 3
    waitFor .ring
  performEarlier 2
  setCrewNow { c with bqs := c.bqs.setIfInBounds q (l ++ [v]) }

/-! Prefixes (R45). -/

/-- R45: lend a guard, and a copy when copy enable is set, to the next word. -/
def prefixWord (copy : Bool) (o : PArgs) (s : State) : Result :=
  issue { word := pWord 0x33 (bitNat copy) o, major := 0x33, pairable := false } (do
    return .lend
      ⟨o.isK, o.neg, o.guard.toNat, if copy then some o.copy.toNat else none, pWord 0x33 (bitNat copy) o, (← getH).pc⟩) s

/-- PFX without a copy. -/
def execPfx (o : PArgs) (s : State) : Result := prefixWord false o s
/-- PFX with a destination copy. -/
def execPfxCopy (o : PArgs) (s : State) : Result := prefixWord true o s

end Sys2Proof.Machine
end

