-- ==== Sys2Proof/Machine/Csr.lean ====
section
/-! DEFINITION. Control and status registers: numbers, modes and field rules (R6, R7, R166, R167, R279, R364 and the rules
named at each register), the CSR words (R318), and the writes that are steps of their own: FRCTL (R235), BQPUSH (R161),
EFCCLR (R167), MSEQ (R284). -/

namespace Sys2Proof.Machine

/-- R166: the registers assigned, on a hart of a role. -/
def csrKnown (role : Role) (n : Nat) : Bool :=
  (0xC0 ≤ n && n ≤ 0xE5 && n != 0xDF) || n == 0xE6 || n == 0xE7 || (0xE8 ≤ n && n ≤ 0xEF)
    || (role == .control && (n == 0xF0 || n == 0xF1 || (0xF4 ≤ n && n ≤ 0xFF)))
    || (0x140 ≤ n && n ≤ 0x147) || n == 0x180 || n == 0x181 || n == 0x184 || n == 0x185 || n == 0x1C0
    || (0x240 ≤ n && n ≤ 0x247)
/-- R318: registers whose fields are all RO. -/
def csrReadOnly (n : Nat) : Bool :=
  [0xC0, 0xC1, 0xC2, 0xCA, 0xCF, 0xDB, 0xDE, 0xE0, 0xE1, 0xE4].contains n || (0xE8 ≤ n && n ≤ 0xEF)

/-- R167: the value of CBRD. -/
def cbrd (h : Hart) : Nat :=
  let c := h.cbs[wbits h.csr.cbsel 9 8]?.getD {}
  let j := wbits h.csr.cbsel 7 0
  let n := c.entries.length
  (if n = 16 then 1 else if n = 64 then 2 else if n = 256 then 3 else 0) * 2 ^ 24
    + wrap 8 c.scale * 2 ^ 16 + (c.entries[j]?.getD 0).toNat

/-- R373: STRIPST. -/
def stripst (p : Strip) : Nat := p.rewinds * 2 ^ 16 + bitNat p.retry * 16 + bitNat p.early * 8 + p.why
/-- R338: TASKST. -/
def taskst (h : Hart) (t : Mail) : Nat :=
  bitNat t.ret * 1024 + bitNat t.inbox.isSome * 512 + bitNat t.pendSteal.isSome * 256 + h.deque
/-- R167: ROLE of STAGE. -/
def roleNum : Role → Nat
  | .loader => 1
  | .computer => 2
  | .storer => 3
  | _ => 0

/-- R364: a bank's registers by number. -/
def Bank.get (b : Bank) (n : Nat) : Word :=
  match n with
  | 0 => b.epc
  | 1 => b.cause
  | 2 => b.tval
  | 3 => b.status
  | 4 => b.pfxs
  | 5 => b.tvec
  | 6 => b.scratch
  | _ => b.evstart
/-- The bits of v under a mask. -/
def keep (v : Word) (mask : Nat) : Word := v &&& word mask
/-- R7: a value written, but with the old field where the value's is reserved. -/
def ruled (ok : Bool) (old new : Word) (hi lo : Nat) : Word := if ok then new else wset new hi lo (wbits old hi lo)
/-- R364: writes, under each register's fields. -/
def Bank.set (b : Bank) (n : Nat) (v : Word) : Bank :=
  match n with
  | 0 => { b with epc := v }
  | 1 => { b with cause := keep v 0xC0000000000000FF }
  | 2 => { b with tval := v }
  | 3 => { b with status := ruled (wbits v 1 0 != 3) b.status (keep v 0x1F4F) 1 0 }
  | 4 => { b with pfxs := keep v 0x1FFFFFFFF }
  | 5 => { b with tvec := keep v 0xFFFFFFFFFFFFFFFC }
  | 6 => { b with scratch := v }
  | _ => { b with evstart := keep v 0x1FFFF }

/-- A CSR's value. WO registers read zero (R6). -/
def csrRead (s : State) (n : Nat) : Word :=
  let h := s.h
  let quad := fun (q : Nat) => quadOf s (coordCluster s.cur) q
  if 0xD0 ≤ n && n ≤ 0xD7 then (h.efc[n - 0xD0]?.getD 0).setWidth 64
  else if 0xE8 ≤ n && n ≤ 0xEF then h.wth[n - 0xE8]?.getD 0
  else if 0x140 ≤ n && n ≤ 0x147 then h.sup.get (n - 0x140)
  else if 0x240 ≤ n && n ≤ 0x247 then h.mach.get (n - 0x240)
  else if 0xF4 ≤ n && n ≤ 0xF7 then (quad (n - 0xF4)).seq
  else if 0xF8 ≤ n && n ≤ 0xFB then (quad (n - 0xF8)).opa
  else if 0xFC ≤ n && n ≤ 0xFF then (quad (n - 0xFC)).opb
  else match n with
  | 0xC0 => word (h.span * 2 ^ 16 + h.vl)
  | 0xC1 => h.vt[0]
  | 0xC2 => h.vt[1]
  | 0xC3 => h.csr.schk
  | 0xC4 => h.csr.tupctl
  | 0xC5 => h.csr.rowstr
  | 0xC6 => h.csr.ncount
  | 0xC7 => h.csr.notify
  | 0xC8 => h.csr.uivec
  | 0xC9 => h.csr.uepc
  | 0xCA => h.csr.uicause
  | 0xCB => h.csr.scout
  | 0xCC => word h.vstart
  | 0xCD => h.csr.mrgcnt
  | 0xCE => h.csr.ufvec
  | 0xCF => h.csr.ufcause
  | 0xD9 => h.csr.fcsr
  | 0xDA => h.csr.cbsel
  | 0xDB => word (cbrd h)
  | 0xDC => h.csr.htab
  | 0xDD => h.csr.wdef
  | 0xDE => word (taskst h (slotOf s s.cur).mail)
  | 0xE0 => word (s.dev.number * 2 ^ 24 + s.cur)
  | 0xE1 => word (roleNum h.role * 16 + h.stage)
  | 0xE2 => h.csr.share
  | 0xE3 => h.csr.indmask
  | 0xE4 => word (stripst h.strip)
  | 0xE5 => h.csr.taskq
  | 0xF0 => h.mx.mtype
  | 0xF1 => h.mx.mstat
  | 0x180 => h.csr.ptroot
  | 0x181 => h.csr.cerout
  | 0x184 => s.dev.frctl
  | 0x185 => h.csr.ufdeleg
  | 0x1C0 => word h.lastd.toNat
  | _ => 0

/-! Writes with an effect of their own. -/

/-- The first address of the frame table and its size (R235). -/
def frameBase (f : Word) : Nat := wbits f 63 28 * 65536
def frameCap (f : Word) : Nat := 2 ^ (wbits f 11 8 + 11)

/-- The lines of a range of HBM that anything may have been written to: those that the cache or their stack holds, and those
that the parity of their stripe may hold alone (R60). -/
def linesHeld (s : State) (lo n : Nat) : List Nat :=
  ((s.hbm.cache.map (·.1) ++ s.hbm.images.map (·.1) ++
    (s.hbm.parity.flatMap fun e => stripeLines e.1).filter fun l => s.hbm.place l == 1).filter fun l =>
      decide (lo ≤ l) && decide (l < lo + n)).dedup
/-- The frame unit's accesses: a record lies at BASE whatever migrates (R235). -/
def recordCtx : Ctx := { direct := true }

/-- R235: EN set: every record free with GEN 0. A line never written holds such records already (R424). -/
def clearFrames (f : Word) (s : State) : State :=
  (linesHeld s (frameBase f) (64 * frameCap f)).foldl (fun s l =>
    match physWrite recordCtx l (List.replicate 128 0) s with
    | .ok (s1, _) => s1
    | .error _ => s) s
/-- R235: EN cleared: every node is freed. DESIGN CHOICE: its record loses LIVE alone; GEN, which FFREE moves on, stays. -/
def freeFrames (f : Word) (s : State) : State :=
  (linesHeld s (frameBase f) (64 * frameCap f)).foldl (fun s l =>
    [l + 2, l + 66].foldl (fun s a =>
      match physRead recordCtx a 1 s with
      | .ok (s1, bs, _) =>
        let b := leAt bs 0 1
        if bit b 7 then
          match physWrite recordCtx a [BitVec.ofNat 8 (b % 128)] s1 with
          | .ok (s2, _) => s2
          | .error _ => s1
        else s1
      | .error _ => s) s) s

/-- R235: a write to FRCTL. -/
def writeFrctl (v : Word) (s : State) : State :=
  let old := s.dev.frctl
  let open' := wbit old 0
  let base := if open' then wbits old 63 28 else wbits v 63 28
  let cap := if open' || 10 < wbits v 11 8 then wbits old 11 8 else wbits v 11 8
  let new := word (base * 2 ^ 28 + cap * 256 + wbits v 1 0)
  let s1 := { s with dev := { s.dev with
    frctl := new, badNodes := if open' == wbit new 0 then s.dev.badNodes else [] } }
  if !open' && wbit new 0 then clearFrames new s1
  else if open' && !wbit new 0 then freeFrames old s1
  else s1

/-- R167: EFCCLR. -/
def clearResiduals (h : Hart) : Hart := { h with efc := Vector.replicate 8 0 }

/-- R284: the fields of a value written to MSEQ; the reserved values of CMD leave it (R7). -/
def seqFields (old v : Word) : Word :=
  let w := keep v 0xFF0001FF10001FFF
  let c := seqCmd v
  if c = 1 || 4 < c then wset w 61 59 (seqCmd old) else w
/-- R282: the granule of the k-block that a written position names: the one carried, where the command and its k-block are
as they were, else found by the headers from the command's first block. -/
def seqGranule (cl : Cluster) (k : Quadrant) (v : Word) : Nat :=
  if seqActive k.seq && seqKb k.seq == seqKb v then k.g else blockStart cl (wbits k.opa 17 0) (seqKb v)
/-- R284: a write with ACTIVE 1 and HOLD 0 restarts the quadrant's command from its position. A stopped command keeps its
place in program order (R278). -/
def seqRestart (c q : Nat) (v : Word) (s : State) : State :=
  let k := quadOf s c q
  let cl := clusterOf s c
  let mt := match hartAt s (matrixCoord c) with
    | some h => h.mx.mtype
    | none => k.mtype
  setCluster c { cl with
    issued := cl.issued + 1
    quads := cl.quads.setIfInBounds q { k with
      seq := wset (seqFields k.seq v) 63 63 0, running := true, block := [], mtype := mt, g := seqGranule cl k v
      order := if seqActive k.seq then k.order else cl.issued } } s
/-- R284: a write with ACTIVE 0 abandons it; one with HOLD 1 leaves it stopped. -/
def seqStore (c q : Nat) (v : Word) (s : State) : State :=
  let k := quadOf s c q
  setQuad c q { k with seq := seqFields k.seq v, running := false, block := [], g := seqGranule (clusterOf s c) k v } s
/-- R284: a write to MSA. -/
def writeMsa (c q : Nat) (v : Word) (s : State) : State :=
  let k := quadOf s c q
  setQuad c q { k with
    opa := v, g := if k.opa = v then k.g else blockStart (clusterOf s c) (wbits v 17 0) (seqKb k.seq) } s
def writeMseq (c q : Nat) (v : Word) (s : State) : State :=
  if seqActive v && !seqHold v then seqRestart c q v s else seqStore c q v s

/-- R279: the units of a cluster's matrix engine that are busy. -/
def quadsBusy (s : State) (c : Nat) : Bool := (clusterOf s c).quads.toList.any quadBusy
def loaderBusy (s : State) (c : Nat) : Bool := !(clusterOf s c).loader.isEmpty

/-- R279: the fields of a value written to MTYPE. -/
def mtypeFields (old v : Word) : Word :=
  ruled (wbits v 1 0 != 3) old (ruled (decide (4 ≤ mtSlices v)) old (keep v 0x73) 6 4) 1 0

/-- Replace the plain CSRs. -/
def modCsr (f : Csrs → Csrs) : Act Unit := modH fun h => { h with csr := f h.csr }

/-- A write to a CSR, under its fields (R6, R7): a reserved value leaves its field. -/
def csrWrite (n : Nat) (v : Word) : Act Unit := do
  let s ← get
  let c := coordCluster s.cur
  if 0xD0 ≤ n && n ≤ 0xD7 then modH fun h => { h with efc := h.efc.setIfInBounds (n - 0xD0) (v.setWidth 32) }
  else if 0x140 ≤ n && n ≤ 0x147 then modH fun h => { h with sup := h.sup.set (n - 0x140) v }
  else if 0x240 ≤ n && n ≤ 0x247 then modH fun h => { h with mach := h.mach.set (n - 0x240) v }
  else if 0xF4 ≤ n && n ≤ 0xF7 then modify (writeMseq c (n - 0xF4) v)
  else if 0xF8 ≤ n && n ≤ 0xFB then modify (writeMsa c (n - 0xF8) v)
  else if 0xFC ≤ n && n ≤ 0xFF then modify fun s => setQuad c (n - 0xFC) { quadOf s c (n - 0xFC) with opb := v } s
  else match n with
  | 0xC3 => modCsr fun r => { r with schk := keep v 1 }
  | 0xC4 => modCsr fun r => { r with tupctl := ruled (wbits v 2 0 != 6) r.tupctl (keep v 0x77) 2 0 }
  | 0xC5 => modCsr fun r => { r with rowstr := v }
  | 0xC6 => modCsr fun r => { r with ncount := v }
  | 0xC7 => modCsr fun r => { r with notify := keep v 0x7FFFFFFFFFFFF9 }
  | 0xC8 => modCsr fun r => { r with uivec := keep v 0xFFFFFFFFFFFFFFFD }
  | 0xC9 => modCsr fun r => { r with uepc := keep v 0xFFFFFFFFFFFFFFFE }
  | 0xCB => modCsr fun r => { r with scout := ruled (wbits v 11 0 != 0) r.scout (keep v 0xFFF) 11 0 }
  | 0xCC => modH fun h => { h with vstart := wbits v 16 0 }
  | 0xCD => modCsr fun r => { r with mrgcnt := keep v 0x3FFF }
  | 0xCE => modCsr fun r => { r with ufvec := keep v 0xFFFFFFFFFFFFFFFD }
  | 0xD8 => modH clearResiduals
  | 0xD9 => modCsr fun r => { r with fcsr := ruled (decide (wbits v 7 5 ≤ 3)) r.fcsr (keep v 0xFF) 7 5 }
  | 0xDA => modCsr fun r => { r with cbsel := keep v 0x3FF }
  | 0xDC => modCsr fun r => { r with htab := ruled (decide (wbits v 4 0 ≤ 13)) r.htab (keep v 0x7FFFFFFFFFFF9F) 4 0 }
  | 0xDD => modCsr fun r => { r with wdef := ruled (wbits v 1 0 != 0) r.wdef (keep v 0x1F) 1 0 }
  | 0xE2 => modCsr fun r => { r with share := keep v 0xF }
  | 0xE3 => modCsr fun r => { r with indmask := keep v 0xFFFFFFFF }
  | 0xE5 =>
    require (s.h.deque == 0) cTaskForm 0
    modCsr fun r => { r with taskq := keep v 0x7FFFFFFFFFF007 }
  | 0xE6 => pushBq 0 v
  | 0xE7 => pushBq 1 v
  | 0xF0 =>
    if quadsBusy s c || loaderBusy s c then waitFor .matrix
    modH fun h => { h with mx := { h.mx with mtype := mtypeFields h.mx.mtype v } }
  | 0xF1 => modH fun h => { h with mx := { h.mx with mstat := h.mx.mstat &&& ~~~(keep v 0x37) } }
  | 0x180 => modCsr fun r => { r with ptroot := keep v 0xFFFFFFFFF00000FF }
  | 0x181 => modCsr fun r => { r with cerout := v }
  | 0x184 => modify (writeFrctl v)
  | 0x185 => modCsr fun r => { r with ufdeleg := keep v 0x3E }
  | 0x1C0 => modH fun h => { h with lastd := v.setWidth 5 }
  | _ => pure ()

/-- R279: a CSRR or CSRX of MSTAT waits until every quadrant is idle. -/
def csrReadWait (n : Nat) : Act Unit := do
  let s ← get
  if n = 0xF1 && quadsBusy s (coordCluster s.cur) then waitFor .matrix

/-- R318, R166, R161: the checks of a CSR word. -/
def csrInfo (func : Nat) (o : IArgs) (dest : DestKind) (reads : List (BitVec 5)) : Info :=
  { iInfo 0x12 func o dest reads with level := modeOf (o.imm.toNat / 256) }
def csrLegal (write : Bool) (n : Nat) : Act Unit := do
  require (csrKnown (← getH).role n && !(write && csrReadOnly n)) cIllegal 0
def csrRole (write : Bool) (n : Nat) : Act Unit := do
  if write && (n == 0xE6 || n == 0xE7) then require ((← getH).role == .loader) cRole 0

/-- CSRR (R318): sD := CSR. -/
def execCsrr (o : IArgs) (s : State) : Result :=
  issue (csrInfo 0 o (.s o.d.toNat) []) (andNext do
    csrReadWait o.imm.toNat
    writeD o.d (csrRead (← get) o.imm.toNat) 2) s
    (legal := csrLegal false o.imm.toNat)

/-- CSRW (R318): CSR := s[a]. -/
def execCsrw (o : IArgs) (s : State) : Result :=
  issue (csrInfo 1 o .none [o.a]) (andNext do
    csrWrite o.imm.toNat (← readS o.a)) s
    (legal := csrLegal true o.imm.toNat) (later := csrRole true o.imm.toNat)

/-- CSRX (R318): t := CSR; CSR := s[a]; sD := t. -/
def execCsrx (o : IArgs) (s : State) : Result :=
  issue (csrInfo 2 o (.s o.d.toNat) [o.a]) (andNext do
    csrReadWait o.imm.toNat
    let t := csrRead (← get) o.imm.toNat
    csrWrite o.imm.toNat (← readS o.a)
    writeD o.d t 2) s
    (legal := csrLegal true o.imm.toNat) (later := csrRole true o.imm.toNat)

/-! The same writes as steps of their own: the current hart's CSRW with the value given. -/

/-- A write by the current hart that may trap or wait. -/
def hartWrite (a : Act Unit) (s : State) : Result :=
  if !s.h.live then .next s else
  match a s with
  | .ok _ s1 => .next { s1 with h := { s1.h with waiting := none } }
  | .error e s1 => .next (deliver 0 e s1)

/-- FRCTL (R235). -/
def execFrctl (o : ValueArgs) (s : State) : Result := .next (writeFrctl o.value s)
/-- BQPUSH (R161). -/
def execBqpush (o : BqpushArgs) (s : State) : Result := hartWrite (pushBq (o.queue % 2) o.value) s
/-- EFCCLR (R167). -/
def execEfcclr (s : State) : Result := .next { s with h := clearResiduals s.h }
/-- MSEQ_RESTART (R284): HOLD is cleared on a stopped quadrant. -/
def execMseqRestart (o : ClusterArgs) (s : State) : Result :=
  let k := quadOf s o.cluster (o.quadrant % 4)
  if seqActive k.seq then .next (seqRestart o.cluster (o.quadrant % 4) (wset k.seq 62 62 0) s) else .next s
/-- MSEQ_ABANDON (R284): the quadrant's command is abandoned and its MSEQ is cleared. -/
def execMseqAbandon (o : ClusterArgs) (s : State) : Result := .next (seqStore o.cluster (o.quadrant % 4) 0 s)

end Sys2Proof.Machine
end

