-- ==== Sys2Proof/Machine/Sys.lean ====
section
/-! DEFINITION. The SYS words but EXIT (R319 to R321, R127), and the events a hart takes between words: pending errors
(R370), WAKE (R381), MGMT (R391), user-level interrupts (R126), the strip's age (R375). -/

namespace Sys2Proof.Machine

/-- A SYS word's information: never a prefix's successor (R48). -/
def sysInfo (func : Nat) (o : RArgs) : Info := { rInfo 0x13 func o with pairable := false }

/-- SVC (R319): trap to the next mode up; EPC is the link address of R310. -/
def execSvc (o : RArgs) (s : State) : Result :=
  issue (sysInfo 0 o) (do
    if entryWaits (← get) then waitFor .matrix
    modify fun s => takeTrap cSvc false false (word o.d.toNat) (linkAddress s.h.pc) none s
    return .done) s

/-- TRAP (R319). -/
def execTrap (o : RArgs) (s : State) : Result := issue (sysInfo 1 o) (trapWith cTrap (word o.d.toNat)) s

/-- R367: the bank of a hart's own mode. -/
def Hart.bank (h : Hart) : Bank := if h.mode = .machine then h.mach else h.sup

/-- TRET (R320, R367): PRIVILEGED in user mode, and when PM names a mode above its own. Pending results land first: the word
resumed never reads early (R39). Its stall cycles follow (R15). -/
def execTret (o : RArgs) (s : State) : Result :=
  issue { sysInfo 2 o with level := .supervisor } (do
    modH fun h => returnFromTrap h.landAll
    return .set) s
    (later := do
      let h ← getH
      require (decide (wbits h.bank.status 1 0 ≤ modeNum h.mode)) cPrivileged 0)

/-- R127: return from a user-level handler. -/
def leaveHandler (h : Hart) : Hart := { h with lastd := h.uiLastd, inHandler := false, pc := h.csr.uepc }

/-- UIRET (R127): ILLEGAL outside a handler. -/
def execUiret (o : RArgs) (s : State) : Result :=
  issue (sysInfo 3 o) (do
    require (← getH).inHandler cIllegal 0
    modH leaveHandler
    return .done) s

/-- NOP (R319). -/
def execNop (o : RArgs) (s : State) : Result := issue (sysInfo 5 o) (pure .seq) s

/-- BRK (R319). -/
def execBrk (o : RArgs) (s : State) : Result := issue (sysInfo 6 o) (trapWith cBreak 0) s

/-! Events between words. -/

/-- R366: interrupts and pre-emption are taken in user mode, and in supervisor mode while IE is set. -/
def interruptible (h : Hart) : Bool := h.mode == .user || (h.mode == .supervisor && wbit h.sup.status 2)

/-- R378, R124, R381: the hart stands between words with nothing in its vector queue, or its word waits where it may be
stopped. -/
def Hart.atStop (h : Hart) : Bool :=
  h.vq.isEmpty && match h.latch with
  | none => true
  | some l => l.stops
/-- R378: a pre-emption can be taken. -/
def preemptReady (s : State) : Bool := (slotOf s s.cur).preempt.isSome && interruptible s.h && s.h.atStop
/-- R381: WAKE can be taken. -/
def wakeReady (s : State) : Bool := (slotOf s s.cur).wake && interruptible s.h && s.h.atStop
/-- R391: MGMT can be taken: at the slot named in MGTGT, in machine mode, with IE set or in IDLE. -/
def mgmtReady (s : State) : Bool :=
  s.dev.mgmt.pending && s.cur == s.dev.mgmt.mgtgt.toNat && s.h.mode == .machine
    && (wbit s.h.mach.status 2 || s.h.idleFrom.isSome) && s.h.atStop

/-- R126: the lowest channel whose completion interrupt the hart can take. -/
def interruptChannel (s : State) : Option Nat :=
  let core := coreOf s (coreIndex s.cur)
  (List.range 16).find? fun i =>
    let ch := core.channels[i]?.getD {}
    ch.uip && !ch.held && ch.owner == coordSlot s.cur
/-- R126: a user-level interrupt can be taken: at a word boundary, which a waiting IDLE is once it has completed (R321). -/
def userInterruptReady (s : State) : Bool :=
  s.h.mode == .user && !s.h.inHandler && wbit s.h.csr.uivec 0 && s.h.pfx.isNone && (interruptChannel s).isSome
    && (s.h.latch.isNone || s.h.idleFrom.isSome) && s.h.vq.isEmpty
/-- The address at which an interrupted hart resumes: past a waiting IDLE (R321), else its word. -/
def resumeAt (h : Hart) : Word := if h.idleFrom.isSome then h.pc + 4 else h.pc

/-- A core's channel. -/
def channelOf (s : State) (core ch : Nat) : Channel := (coreOf s core).channels[ch]?.getD {}
def setChannel (core ch : Nat) (v : Channel) (s : State) : State :=
  let c := coreOf s core
  setCore core { c with channels := c.channels.setIfInBounds ch v } s

/-- R381: take WAKE, with the resume address. -/
def takeWake (epc : Word) (s : State) : State :=
  let s1 := setSlot s.cur { slotOf s s.cur with wake := false } s
  takeTrap 1 true false 0 epc s.h.savedPfx s1
/-- R391: take MGMT; trap entry clears it. -/
def takeMgmt (epc : Word) (s : State) : State :=
  takeTrap 2 true false 0 epc s.h.savedPfx
    { s with dev := { s.dev with mgmt := { s.dev.mgmt with pending := false } } }
/-- R126: take the user-level interrupt of a channel. -/
def takeUserInterrupt (ch : Nat) (s : State) : State :=
  let c := channelOf s (coreIndex s.cur) ch
  let s1 := setChannel (coreIndex s.cur) ch { c with uip := false } s
  let s2 := { s1 with h := { s1.h with csr := { s1.h.csr with
    uicause := word (ch + 16 * bitNat (c.state == .failed)) } } }
  enterUser (resumeAt s.h) (word (wbits s.h.csr.uivec 63 2 * 4)) s2
/-- R370: the oldest pending error traps, imprecisely or at an EFENCE. -/
def takePendingError (imp : Bool) (s : State) : State :=
  match s.h.errs with
  | [] => s
  | e :: rest => takeTrap e.cause false imp e.tval s.h.pc s.h.savedPfx { s with h := { s.h with errs := rest } }

/-- R375: 65,536 cycles have passed since the strip's first buffered store: once for each strip. -/
def stripOld (h : Hart) : Bool :=
  !h.strip.aged && (match h.strip.firstStore with
    | some t => decide (t + 65536 ≤ h.clock)
    | none => false)
def ageCommit (s : State) : State :=
  let s1 := earlyCommit 4 s
  { s1 with h := { s1.h with strip := { s1.h.strip with aged := true } } }

/-- R321: a waiting IDLE's 4,096 cycles have passed. -/
def idleOver (h : Hart) : Bool :=
  match h.idleFrom with
  | some t => decide (t + 4096 ≤ h.clock)
  | none => false

/-- R321: IDLE completes when an event can be taken or 4,096 cycles have passed. -/
def idleEnds (s : State) : Bool :=
  preemptReady s || wakeReady s || userInterruptReady s || idleOver s.h

/-- IDLE (R321). A MGMT interrupt is taken while the hart is in IDLE, with EPC at the word after it (R391). -/
def execIdle (o : RArgs) (s : State) : Result :=
  issue (sysInfo 4 o) (do
    commit 3
    modH fun h => { h with idleFrom := some (h.idleFrom.getD h.clock), idleStall := o.stall.toNat }
    let s ← get
    if mgmtReady s && !entryWaits s then
      modify (takeMgmt (s.h.pc + 4))
      return .done
    else if idleEnds s then return .seq
    else waitFor .order) s

/-! The events, as the steps of the opcode table. One that cannot be taken changes nothing (log 11). -/

/-- The event acts when its condition holds, on a running hart. -/
def eventWhen (ok : Bool) (f : State → State) (s : State) : Result := .next (if ok && s.h.live then f s else s)

/-- USER_INTERRUPT_ENTRY (R126). -/
def execUserInterruptEntry (s : State) : Result :=
  eventWhen (userInterruptReady s) (takeUserInterrupt ((interruptChannel s).getD 0)) s
/-- WAKE_INTERRUPT (R381). -/
def execWakeInterrupt (s : State) : Result := eventWhen (wakeReady s && !entryWaits s) (takeWake (resumeAt s.h)) s
/-- MGMT_INTERRUPT (R391). -/
def execMgmtInterrupt (s : State) : Result := eventWhen (mgmtReady s && !entryWaits s) (takeMgmt (resumeAt s.h)) s
/-- PENDING_ERROR_TRAP (R370): at a word boundary. -/
def execPendingErrorTrap (s : State) : Result := eventWhen (s.h.latch.isNone && !entryWaits s) (takePendingError true) s
/-- USER_FRAME_FAULT_ENTRY (R247): a frame fault of the word at the pc, delegated. -/
def execUserFrameFaultEntry (o : FrameFaultArgs) (s : State) : Result :=
  eventWhen (decide (1 ≤ o.cause ∧ o.cause ≤ 5) && frameDelegated s.h o.cause) (deliver 0 (.frame o.cause o.tag o.element)) s
/-- TRAP_ENTRY (R366): a trap of the word at the pc, with a cause that R365 lists. -/
def execTrapEntry (o : TrapArgs) (s : State) : Result :=
  eventWhen (causeKnown false o.cause && s.h.atStop) (wordTrap o.tval.toNat o.cause o.tval) s
/-- STRIP_AGE_EXPIRY (R375). -/
def execStripAgeExpiry (s : State) : Result := eventWhen (stripOld s.h) ageCommit s
/-- STRIP_REWIND (R376, R372): poison consumed at an address, or a lane check failed. -/
def execStripRewind (o : RewindArgs) (s : State) : Result := eventWhen true (containError o.poison o.addr) s
/-- IDLE_TIMEOUT (R321): an IDLE that has waited for 4,096 cycles completes, and its stall cycles follow (R15). -/
def execIdleTimeout (s : State) : Result :=
  eventWhen (idleOver s.h) (fun s => { s with h := finish { word := 0, major := 0x13, stall := s.h.idleStall } .seq s.h }) s

end Sys2Proof.Machine
end

