-- ==== Sys2Proof/Machine/Channels.lean ====
section
/-! DEFINITION. Channels (R108 to R114, R119 to R125) and the copy engines' steps: starting a stream, landing an element,
failing. -/

namespace Sys2Proof.Machine

/-- R114: a channel fails: its queued streams are dropped. R124: a passage made by CHCLR sets no UIP. -/
def failChannel (c : Channel) (cause : Nat) : Channel :=
  { c with state := .failed, fcause := cause, streams := [], ahead := [], uip := c.uip || (c.uie && cause != 4) }

/-- R114: a core's channel fails. Every access that waits on its range faults, even where it is issued again after CHCLR. -/
def failAt (core ch cause : Nat) (s : State) : State :=
  let c := channelOf s core ch
  let lo := c.base + c.landed * 2 ^ c.esize
  let hi := c.base + c.expected * 2 ^ c.esize
  let mark := fun (coord : Nat) (h : Hart) => match h.waiting with
    | some (.channel va n) =>
      if coreIndex coord = core && decide (va < hi) && decide (lo < va + n) then { h with waiting := some (.failed (max va lo)) } else h
    | _ => h
  setChannel core ch (failChannel c cause)
    { s with h := mark s.cur s.h, harts := s.harts.map fun e => (e.1, mark e.1 e.2) }

/-- R110: an idle channel. -/
def Channel.toIdle (c : Channel) : Channel := { c with state := .idle, uip := false, held := false, clearing := false, fcause := 0, streams := [], ahead := [] }

/-- The current core's channel. -/
def channelNow (ch : Nat) : Act Channel := do
  let s ← get
  return channelOf s (coreIndex s.cur) ch
def setChannelNow (ch : Nat) (c : Channel) : Act Unit := modify fun s => setChannel (coreIndex s.cur) ch c s

/-- R119: an ENGINE word's information. -/
def engineInfo (func : Nat) (o : RArgs) (dest : DestKind) (reads : List (BitVec 5)) : Info := rInfo 0x2A func o dest reads

/-- R121: a range that overlaps a channel's. -/
def overlapsChannel (c : Channel) (base size : Nat) : Bool :=
  c.state != .idle && decide (base < c.base + c.expected * 2 ^ c.esize) && decide (c.base < base + size)

/-- CHARM (R121). -/
def execCharm (o : RArgs) (s : State) : Result :=
  issue { engineInfo 5 o .none [o.a, o.b] with address := true } (andNext do
    let h ← getH
    let ch := o.d.toNat
    let base := (h.reg o.a.toNat)
    let ctl := h.reg o.b.toNat
    let c ← channelNow ch
    let esize := wbits ctl 42 40
    let count := wbits ctl 39 0
    require (c.state == .idle) cChannelBusy (word ch)
    require (wbits ctl 63 44 == 0 && esize != 7 && count != 0) cChannelForm ctl
    require (base.toNat % 2 ^ esize == 0 && canonical base.toNat) cChannelForm base
    let s ← get
    let size := count * 2 ^ esize
    require (!(coreOf s (coreIndex s.cur)).channels.toList.any (fun c => overlapsChannel c base.toNat size)
      && decide (base.toNat % 2 ^ 55 + size ≤ 2 ^ 55)) cChannelForm base
    commit 2
    setChannelNow ch { state := .armed, owner := coordSlot s.cur, base := base.toNat, esize := esize, expected := count
                       uie := wbit ctl 43 }) s

/-- R115, R116: the routine a number names: its code address (0 for a vendor routine) and whether it is of variable ratio
(R117); none without a valid entry. DESIGN CHOICE: routine n's entry lies at CEROUT + 16 n, where the spec does not say which
index the table's first routine has; an entry whose read is denied or meets poison is not valid. -/
def routineEntry (n : Nat) : Act (Option (Nat × Bool)) := do
  if n ≤ 4 then return some (0, n != 0)
  if n < 16 then return none
  let s ← get
  match physRead { initiator := 0x10 + engineOf (coreIndex s.cur) } (s.h.csr.cerout.toNat + 16 * n) 16 s with
  | .error (0, a) => waitFor (.hold a)
  | .error _ => return none
  | .ok (s1, _, some _) =>
    set s1
    return none
  | .ok (s1, bs, none) =>
    set s1
    let flags := leAt bs 8 4
    if (flags = 1 ∨ flags = 3) ∧ leAt bs 12 4 = 0 ∧ leAt bs 0 8 % 4 = 0 then return some (leAt bs 0 8, bit flags 1)
    return none

/-- STREAM (R122). -/
def execStream (o : RArgs) (s : State) : Result :=
  issue { engineInfo 4 o .none [o.a, o.b] with address := true } (andNext do
    let s ← get
    let h := s.h
    let ch := o.d.toNat
    let ctl := h.reg o.b.toNat
    let n := h.vl * (vtypeOf h.vt[0]).rows
    let c ← channelNow ch
    require (c.owner == coordSlot s.cur && !c.held && c.state != .idle) cChannelBusy (word ch)
    require (c.state != .failed) cChannelFailed (word ch)
    let entry ← routineEntry (wbits ctl 7 0)
    require (wbits ctl 63 48 == 0 && wbits ctl 15 11 == 0 && wbits ctl 10 8 == c.esize && entry.isSome) cChannelForm ctl
    require (decide (c.issued + n ≤ c.expected)) cOvercommit (word (c.expected - c.issued))
    if n = 0 then commit 2 else
    if 16 ≤ c.streams.length then waitFor .engine
    performEarlier 2
    setChannelNow ch { c with
      state := .running, issued := c.issued + n
      streams := c.streams ++ [{
        src := (h.reg o.a.toNat).toNat, first := c.issued, n := n, routine := wbits ctl 7 0, param := wbits ctl 47 16
        scouted := (entry.map fun e => e.2).getD false, dist := wbits h.csr.scout 11 0, root := h.csr.ptroot, mode := h.mode
        entry := (entry.map fun e => e.1).getD 0 }] }) s

/-- R123: STATE's number. -/
def stateNum : ChanState → Nat
  | .idle => 0
  | .armed => 1
  | .running => 2
  | .done => 3
  | .failed => 4
/-- R123: what CHSTAT reads. -/
def chstatWord (c : Channel) : Word :=
  word (stateNum c.state * 2 ^ 61 + bitNat c.uip * 2 ^ 60 + (if c.state == .failed then c.fcause else 0) * 2 ^ 57
    + (if c.state == .idle then 0 else c.landed) % 2 ^ 40)

/-- CHSTAT (R123): a counted operation; uncounted, it reads at issue. -/
def execChstat (o : RArgs) (s : State) : Result :=
  issue (engineInfo 6 o (.s o.d.toNat) []) (andNext do
    counterRoom o.b.toNat
    commit 2
    match counterOf o.b.toNat with
    | some k => addOp (.chstat o.a.toNat) k (some o.d.toNat)
    | none => writeD o.d (chstatWord (← channelNow o.a.toNat))) s

/-- R111, R85: a write of the engine to a channel's range is on its way. -/
def landingHeld (core ch : Nat) (s : State) : Bool :=
  s.dev.heldWrites.any fun w => (w.landing.map fun l => l.1 == core && l.2.1 == ch).getD false
/-- R124: clear one channel of the core: a running one first fails, and is idle when the engine has stopped, its last write
performed. -/
def clearChannel (ch : Nat) : Act Unit := do
  let c ← channelNow ch
  let s ← get
  if c.state == .running then
    modify fun s => failAt (coreIndex s.cur) ch 4 s
    setChannelNow ch { ← channelNow ch with clearing := true }
    waitFor .stop
  else if landingHeld (coreIndex s.cur) ch s then waitFor .stop
  else setChannelNow ch c.toIdle

/-- CHCLR (R124). DESIGN CHOICE: on an IDLE channel, of which the spec says nothing, it completes for any hart and does nothing. -/
def execChclr (o : RArgs) (s : State) : Result :=
  issue (engineInfo 7 o .none []) (andNext do
    let s ← get
    let c ← channelNow o.d.toNat
    commit 2
    if c.state == .idle then pure () else
    require (s.h.mode != .user || (c.owner == coordSlot s.cur && !c.held)) cChannelBusy (word o.d.toNat)
    clearChannel o.d.toNat) s

/-! The engines. -/

/-- A channel's stream context. -/
def streamCtx (core : Nat) (c : Channel) (st : Stream) : EngCtx := ⟨core, c.owner, st.root, st.mode⟩

/-- R108: the channels of an engine that have streams, core * 16 + channel; with streams that have started, or that wait. -/
def engineChannels (e : Nat) (started : Bool) (s : State) : List Nat :=
  (s.cores.filter fun x => engineOf x.1 == e).flatMap fun x =>
    ((List.range 16).filter fun i => ((x.2.channels[i]?.map fun c =>
      c.state == .running && c.streams.any fun st => st.output.isSome == started)).getD false).map fun i => x.1 * 16 + i
/-- R108: a channel of a PROMPT-class hart. -/
def promptChannel (s : State) (k : Nat) : Bool :=
  (hartAt s (k / 16 * 256 + (channelOf s (k / 16) (k % 16)).owner)).any fun h => h.cls == 0
/-- R108: which of some channels an engine serves next: PROMPT first, then round robin. -/
def roundRobin (e : Nat) (ks : List Nat) (s : State) : Option Nat :=
  let prompt := ks.filter (promptChannel s)
  let ks := if prompt.isEmpty then ks else prompt
  let after := ks.filter fun k => decide (lookD 0 e s.dev.served < k + 1)
  (if after.isEmpty then ks else after).min?
/-- R108: the engine has served a channel, core * 16 + channel. -/
def serve (e k : Nat) (s : State) : State := { s with dev := { s.dev with served := put e (k + 1) s.dev.served } }
/-- R108: the channel whose waiting stream an engine starts next. -/
def nextChannel (e : Nat) (s : State) : Option Nat := roundRobin e (engineChannels e false s) s

/-- R115: an engine starts the next stream of the channel that it serves next: its routine runs. -/
def startStream (core ch : Nat) (s0 : State) : State :=
  let c := channelOf s0 core ch
  if c.state != .running || nextChannel (engineOf core) s0 != some (core * 16 + ch) then s0 else
  let s := serve (engineOf core) (core * 16 + ch) s0
  match c.streams.find? fun st => st.output.isNone with
  | none => s
  | some st =>
    let ((out, f), s1) := runRoutine (streamCtx core c st) st c.base (2 ^ c.esize) s
    if f = some fcHold then s else
    let c1 := channelOf s1 core ch
    setChannel core ch { c1 with streams := c1.streams.map fun u =>
      if u = st then { st with output := some out, failAfter := f } else u } s1

/-- R111: LANDED advances over a contiguous prefix. -/
def advance : Nat → Nat → List Nat → Nat × List Nat
  | 0, l, ahead => (l, ahead)
  | n + 1, l, ahead => if ahead.contains l then advance n (l + 1) (ahead.filter (· != l)) else (l, ahead)

/-- A channel of which an element has been written, or is on its way. -/
def Channel.taken (c : Channel) (element : Nat) : Channel :=
  { c with streams := c.streams.map fun st => { st with output := st.output.map fun o => o.filter fun e => e.1 != element } }
/-- R110, R111, R126: a channel in which an element has landed; a stream with nothing more to land is finished. -/
def landedChannel (c : Channel) (element : Nat) : Channel :=
  let (landed, ahead) := advance (c.ahead.length + 1) c.landed (c.ahead ++ [element])
  let streams := (c.taken element).streams.filter
    fun st => st.output != some [] || st.failAfter.isSome
  if landed = c.expected then
    { c with landed := landed, ahead := [], streams := [], state := .done, uip := c.uip || c.uie }
  else { c with landed := landed, ahead := ahead, streams := streams }

/-- R111, R114, R133: write an element at its destination. What a migration holds of it (R85), or a link carries (R397), ends
with the element's landing. -/
def engWrite (e : EngCtx) (ch i va : Nat) (bs : List Byte) : Eng Unit := do
  let n := (← get).dev.heldWrites.length
  let mut rest := bs
  for (a, k) in cutAt 65536 3 va bs.length do
    let x ← engTranslate e a .write
    if 2 ≤ x.typ then throw fcTranslation
    let s ← get
    match physWrite (engCtx e x.key x.z) x.pa (rest.take k) s with
    | .ok (s1, _) => set (stampHeld s.dev.heldWrites.length (fun _ w => { w with
        va := a + (w.pa % 65536 - x.pa % 65536), entry := if e.mode = .machine then none else some x.entry }) s1)
    | .error _ => throw fcTranslation
    rest := rest.drop k
  modify (stampHeld n fun last w => { w with landing := if last then some (e.core, ch, i) else none })

/-- The elements still to land, oldest stream first. -/
def toLand (c : Channel) : List (Stream × Nat × List Byte) :=
  c.streams.flatMap fun st => (st.output.getD []).map fun (i, bs) => (st, i, bs)

/-- R111: one element of a channel lands: the pick-th of those to land; one that is held, or goes to a peer, lands when it is
acknowledged. -/
def landElement (core ch pick : Nat) (s : State) : State :=
  let c := channelOf s core ch
  if c.state != .running then s else
  match (toLand c)[pick]? with
  | none => s
  | some (st, i, bs) =>
    match engWrite (streamCtx core c st) ch i (c.base + i * 2 ^ c.esize) bs s with
    | .ok _ s1 =>
      let c1 := channelOf s1 core ch
      setChannel core ch (if s.dev.heldWrites.length < s1.dev.heldWrites.length then c1.taken i else landedChannel c1 i) s1
    | .error 0 _ => s
    | .error f s1 => failAt core ch f s1

/-- R111: an element whose write was on its way has landed, or was refused, in a channel that still runs. -/
def endLanding (core ch i : Nat) (refused : Bool) (s : State) : State :=
  let c := channelOf s core ch
  if c.state != .running then s
  else if refused then failAt core ch fcTranslation s
  else setChannel core ch (landedChannel c i) s

/-- R114: the failure of a channel's oldest stream, which has landed all it produced. -/
def dueFailure (core ch : Nat) (s : State) : Option Nat :=
  let c := channelOf s core ch
  if landingHeld core ch s then none else
  match c.state, c.streams with
  | .running, st :: _ => if st.output = some [] then st.failAfter else none
  | _, _ => none
/-- R114: that stream fails. -/
def failStream (core ch : Nat) (s : State) : State :=
  match dueFailure core ch s with
  | some f => failAt core ch f s
  | none => s

/-- ENGINE_STREAM_START (R115). -/
def execEngineStreamStart (o : StreamArgs) (s : State) : Result := .next (startStream o.core (o.channel % 16) s)
/-- LANDING (R111). -/
def execLanding (o : LandingArgs) (s : State) : Result := .next (landElement o.core (o.channel % 16) o.element s)
/-- STREAM_FAIL (R114). -/
def execStreamFail (o : StreamArgs) (s : State) : Result := .next (failStream o.core (o.channel % 16) s)
/-- WATERMARK_RELEASE (R112): the current hart's access waits no more once no channel's range from its watermark up holds a
byte of it; its word is issued again. -/
def execWatermarkRelease (s : State) : Result :=
  match s.h.waiting with
  | some (.channel va n) =>
    if (blockingChannels s va n).isEmpty then .next { s with h := { s.h with waiting := none } } else .next s
  | _ => .next s

end Sys2Proof.Machine
end

