-- ==== Sys2Proof/Machine/Launch.lean ====
section
/-! DEFINITION. Launch packets and descriptors (R327, R328, R415), placement (R332 to R334), the dispatcher's steps (R326,
R329 to R333) and the lane-group arbiters (R335 to R337). -/

namespace Sys2Proof.Machine

/-! Packets. Who reads one: a slot and its core (for translation), PTROOT and mode, and the request of a leaf's key and Z. -/

/-- The reader of a packet, its descriptor and its words. -/
structure Reader where
  coord : Nat
  root : Word
  mode : Mode
  ctx : Nat → Bool → Ctx

/-- Why a packet is not taken: QERR's code, and the sector for uncorrectable data. Code 0 is a hold (R85): it is read again. -/
abbrev PacketFail := Nat × Nat
/-- A part of reading a packet. -/
abbrev Reading := EStateM PacketFail State

def badIf (code : Nat) (b : Bool) : Reading Unit := if b then throw (code, 0) else pure ()

/-- Translate one of a packet's addresses; a tuple page is not for it (R80). -/
def readerXlat (r : Reader) (va : Nat) (kind : AccKind) : Reading Xlat := do
  match translateFor r.coord {} r.root r.mode va kind (← get) with
  | .ok (s, x) =>
    set s
    badIf 4 (x.typ == 4)
    return x
  | .error (.held _) => throw (0, 0)
  | .error (.cause _) => throw (4, 0)
  | .error (.poison a) => throw (6, a)

/-- Read bytes at a translated address. -/
def readerRead (r : Reader) (x : Xlat) (n : Nat) : Reading (List Byte) := do
  match physRead (r.ctx x.key x.z) x.pa n (← get) with
  | .ok (_, _, some a) => throw (6, a)
  | .ok (s, bs, none) =>
    set s
    return bs
  | .error (0, _) => throw (0, 0)
  | .error _ => throw (4, 0)

/-- R327: an address field [54:3], sign-extended, as a byte address. -/
def wordAddress (w : Word) : Nat := ((BitVec.ofNat 55 (wbits w 54 3 * 8)).signExtend 64).toNat

/-- R415: a descriptor, checked: its span, whether it is a crew's, and its entries. -/
def parseDescriptor (desc : Word) (bs : List Byte) : Reading (Nat × Bool × List Word) := do
  let flags := leAt bs 6 1
  let off := fun (i : Nat) => word (leAt bs (8 + 8 * i) 8)
  let crew := bit flags 2
  let span := bits flags 1 0
  badIf 3 (leAt bs 0 4 != 0x51584B44 || leAt bs 4 2 != 1 || bits flags 7 3 != 0 || leAt bs 7 1 != 0
    || natOfBytes (bs.drop 32) != 0)
  badIf 3 ((List.range 3).any fun i => wbits (off i) 1 0 != 0)
  badIf 3 (crew && (span != 0 || off 1 == 0 || off 2 == 0))
  badIf 3 (!crew && (off 1 != 0 || off 2 != 0))
  return (span, crew, (List.range 3).map fun i => desc + off i)

/-- Set bits of a 16-bit mask. -/
def maskClusters (m : Nat) : List Nat := (List.range 16).filter fun c => bit m c

/-- R328: a packet's 256 bytes, checked in the order of QERR's codes. -/
def parsePacket (r : Reader) (mincl : Nat) (tvec mtvec : Word) (bs : List Byte) : Reading Packet := do
  let w := fun (i : Nat) => word (leAt bs (8 * i) 8)
  let ctrl := w 2
  let harts := wbits ctrl 22 9
  let stages := wbits ctrl 8 6
  let shape := wbits ctrl 5 4
  let width := wbits ctrl 3 2
  let cls := wbits ctrl 1 0
  let clmask := if wbits ctrl 47 32 = 0 then 0xFFFF else wbits ctrl 47 32
  badIf 1 (wbits ctrl 31 23 != 0 || wbits ctrl 63 48 != 0
    || [w 3, w 5].any (fun a => wbits a 2 1 != 0 || wbits a 63 55 != 0)
    || leAt bs 48 16 != 0 || natOfBytes (bs.drop 160) != 0)
  badIf 2 (decide (cls < mincl) || width == 3 || shape == 3 || harts == 0 || decide (12288 < harts)
    || (cls == 0 && width != 0) || harts % (stages + 1) != 0
    || (shape == 1 && (stages != 2 || harts % 3 != 0))
    || (shape == 2 && (stages != 0 || harts != (maskClusters clmask).length)))
  badIf 3 (wbits (w 0) 5 0 != 0)
  let dx ← readerXlat r (w 0).toNat .read
  let (span, crew, entries) ← parseDescriptor (w 0) (← readerRead r dx 64)
  badIf 3 (crew != (shape == 1))
  let word' := fun (a : Word) (kind : AccKind) => (do
    if !wbit a 0 then return none else
    let va := wordAddress a
    let _ ← readerXlat r va kind
    return some va : Reading (Option Nat))
  let dep ← word' (w 3) .read
  let done ← word' (w 5) .rmw
  return { n := w 1, cls := cls, width := width, shape := shape, stages := stages, harts := harts, clmask := clmask
           args := (List.range 12).map fun i => w (8 + i), entries := entries, span := span, root := r.root
           mode := r.mode, tvec := tvec, mtvec := mtvec, dep := dep.map fun a => (a, w 4), done := done }

/-! The dispatcher's queues. -/

/-- The core of the dispatcher's translations: they are made under a packet's root and mode, and none is kept. -/
def dispatcherCore : Nat := coreIndex dispatcherCoord

/-- The dispatcher as a reader under a root and mode. DESIGN CHOICE: its requests have the number 0x3F0, which R64 lists among
those that use key slot 0, and R64 has a translated request use the slot of its leaf: those that a leaf of DESC, DEPADDR or
DONEADDR translates use the leaf's slot, and the packet's own slot 0. -/
def dispatcherReader (root : Word) (mode : Mode) : Reader :=
  { coord := dispatcherCoord, root := root, mode := mode, ctx := fun key z => { key := key, z := z } }
/-- R325: what the harts of a ring queue's packets start under. -/
def queueReader (q : Queue) : Reader :=
  dispatcherReader (word (wbits q.qctl 63 28 * 2 ^ 28 + wbits q.qctl 27 20)) (modeOf (wbits q.qctl 11 10))
/-- A reading of the dispatcher's own; it keeps no translation. -/
def dispatcherReads {α : Type} (m : Reading α) (s : State) : Except PacketFail α × State :=
  match m s with
  | .ok x s1 => (.ok x, setCore dispatcherCore {} s1)
  | .error e s1 => (.error e, setCore dispatcherCore {} s1)

/-- R325, R326: the packet at the head of ring queue n. -/
def readRing (n : Nat) (s : State) : Except PacketFail Packet × State :=
  let q := queueOf s n
  let slot := wbits q.qbase 51 8 * 256 + q.head % 2 ^ wbits q.qbase 4 0 * 256
  let r := queueReader q
  dispatcherReads (do
    let bs ← readerRead r ⟨slot, 0, false, 0, (0, 0, 0)⟩ 256
    parsePacket r (wbits q.qctl 9 8) q.qtvec q.qmtvec bs) s

/-- R325, R326, R394: a queue from which packets are taken: in service, not stopped, and holding one, on a device that is not
held in reset. -/
def queueOpen (n : Nat) (s : State) : Bool :=
  let q := queueOf s n
  !s.dev.mgmt.inReset && wbit q.qctl 0 && !q.stopped && (if n < 48 then decide (q.head < q.tail) else !q.fifo.isEmpty)
    && !s.dev.launches.any fun e => e.2.queue == n && !e.2.waiting.isEmpty

/-- R67: the sector of uncorrectable data, reported with the packet, is poison. -/
def poisonSector (a : Nat) (s : State) : State :=
  if look a s.flaws = some .failed then { s with flaws := put a .poison s.flaws } else s
/-- R328, R390: a malformed packet stops its queue; uncorrectable data, at a sector, is counted. -/
def rejectPacket (n : Nat) (e : PacketFail) (s : State) : State :=
  if e.1 = 6 then countUncorrectable (arrayOf e.2) (stopQueue n 6 (poisonSector e.2 s)) else stopQueue n e.1 s

/-- The packet at the head of an open queue; a malformed one stops the queue, and a held one is read again. -/
def headPacket (n : Nat) (s : State) : Option Packet × State :=
  if 48 ≤ n then ((queueOf s n).fifo.head?, s) else
  match readRing n s with
  | (.ok p, s1) => (some p, s1)
  | (.error e, s1) => (none, if e.1 = 0 then s1 else rejectPacket n e s1)

/-- R329: the packet's dependence allows it. -/
def packetReady (q : Queue) (p : Packet) : Bool := p.dep.isNone || q.depMet == some p

/-- The open queues' ready packets. -/
def readyPackets (s : State) : List (Nat × Packet) × State :=
  (List.range 64).foldl (fun (l, s) n =>
    if !queueOpen n s then (l, s) else
    match headPacket n s with
    | (some p, s1) => (if packetReady (queueOf s1 n) p then l ++ [(n, p)] else l, s1)
    | (none, s1) => (l, s1)) ([], s)

/-- R330: PROMPT before HIGH before NORMAL before BULK; round robin in queue order within a class, from the queue after the
last taken. -/
def choosePacket (robin : Vector Nat 4) (l : List (Nat × Packet)) : Option (Nat × Packet) :=
  (List.range 4).findSome? fun c =>
    let mine := l.filter fun e => e.2.cls == c
    let at' := robin[c]?.getD 0
    (mine.find? fun e => decide (at' ≤ e.1)).or mine.head?

/-- Units of a packet: harts, or crews (R332). -/
def Packet.units (p : Packet) : Nat := if p.shape = 1 then p.harts / 3 else p.harts

/-- R326, R329: take a queue's packet: the head moves on, and a launch begins. -/
def takePacket (n : Nat) (p : Packet) (s : State) : State :=
  let q := queueOf s n
  let q1 := if n < 48 then { q with head := q.head + 1, depMet := none } else { q with fifo := q.fifo.drop 1, depMet := none }
  let s1 := setQueue n q1 s
  let d := s1.dev
  { s1 with dev := { d with
    launches := put d.nextLaunch { packet := p, queue := n, waiting := List.range p.units, unfinished := p.harts } d.launches
    nextLaunch := d.nextLaunch + 1
    robin := d.robin.setIfInBounds p.cls ((n + 1) % 64) } }

/-- R326 to R330: the dispatcher looks at its queues' heads and takes one packet. -/
def dispatchPacket (s : State) : State :=
  let (l, s1) := readyPackets s
  match choosePacket s1.dev.robin l with
  | none => s1
  | some (n, p) => takePacket n p s1

/-- R329, R331: the dispatcher translates a packet's dependence or completion word, and the context of its access. -/
def packetWord (p : Packet) (va : Nat) (kind : AccKind) : Reading (Ctx × Nat) := do
  let r := dispatcherReader p.root p.mode
  let x ← readerXlat r va kind
  return (r.ctx x.key x.z, x.pa)

/-- R329: the dispatcher reads the dependence word of a queue's head, as an acquire. A word that cannot be read, or is
poison, does not meet it (log 14). -/
def readDependence (n : Nat) (s : State) : State :=
  if !queueOpen n s then s else
  match headPacket n s with
  | (some p, s1) =>
    (match p.dep with
      | none => s1
      | some (va, thr) =>
        match dispatcherReads (packetWord p va .read) s1 with
        | (.ok (c, pa), s2) =>
          (match physRead c pa 8 s2 with
            | .ok (s3, bs, none) =>
              if thr.toNat ≤ natOfBytes bs then setQueue n { queueOf s3 n with depMet := some p } s3 else s3
            | _ => s2)
        | (.error _, s2) => s2)
  | (none, s1) => s1

/-! Placement (R332). -/

/-- The harts that hold the slots of a core. -/
def coreHarts (s : State) (core : Nat) : List (Nat × Hart) :=
  (List.range 8).filterMap fun j =>
    match hartAt s (core * 256 + j) with
    | some h => if h.live || h.stopped then some (j, h) else none
    | none => none

/-- R332: a PROMPT solo hart occupies no lane group. -/
def promptSolo (h : Hart) : Bool := h.cls == 0 && h.role == .solo
def occupants (hs : List (Nat × Hart)) (g : Nat) : List Hart :=
  (hs.map (·.2)).filter fun h => !promptSolo h && h.groups.contains g

/-- R332: the lane groups that a unit of k narrow harts, or of a greater width, is bound to. -/
def groupsFor (hs : List (Nat × Hart)) (width k : Nat) : Option (List Nat) :=
  if width = 0 then
    ((List.range 4).find? fun g =>
      decide ((occupants hs g).length + k ≤ 4) && (occupants hs g).all fun h => h.width == 0).map fun g => [g]
  else
    (if width = 1 then [[0, 1], [2, 3]] else [[0, 1, 2, 3]]).find? fun gs => gs.all fun g => (occupants hs g).isEmpty

/-- R332: the lane group with the fewest sharers, the lowest among equals. -/
def promptGroup (hs : List (Nat × Hart)) : Nat :=
  let n := fun (g : Nat) => (hs.filter fun e => e.2.groups.contains g).length
  (List.range 4).foldl (fun b g => if n g < n b then g else b) 0

/-- R332: the slot and lane groups that a unit takes on a core. -/
def placeOn (s : State) (core cls width shape : Nat) : Option (Nat × List Nat) :=
  let hs := coreHarts s core
  let free := fun (j : Nat) => !hs.any fun e => e.1 == j
  if shape = 0 && cls = 0 then (if free 7 then some (7, [promptGroup hs]) else none)
  else if shape = 0 then
    match (List.range 7).find? free, groupsFor hs width 1 with
    | some j, some gs => some (j, gs)
    | _, _ => none
  else
    match (List.range 5).find? (fun j => free j && free (j + 1) && free (j + 2)), groupsFor hs width 3 with
    | some j, some gs => some (j, gs)
    | _, _ => none

/-- R333: where a unit goes: the lowest cluster of a mask with room, then the lowest core, slot and lane group. -/
def placeUnit (s : State) (clmask cls width shape : Nat) : Option (Nat × List Nat) :=
  (maskClusters clmask).findSome? fun c =>
    if shape = 2 then (if (coreHarts s (coreIndex (matrixCoord c))).isEmpty then some (matrixCoord c, []) else none)
    else (List.range 96).findSome? fun k =>
      (placeOn s (c * 256 + k) cls width shape).map fun (j, gs) => (coordOf c k j, gs)

/-- R333: the unit that is placed next: PROMPT launches first, then HIGH, NORMAL and BULK, and within a class the oldest
launch whose next unit fits: the launch, the unit's ordinal, its first slot and its lane groups. -/
def nextUnit (s : State) : Option (Nat × Launch × Nat × Nat × List Nat) :=
  (List.range 4).findSome? fun c =>
    (s.dev.launches.filter fun e => e.2.packet.cls == c).findSome? fun (n, l) =>
      match l.waiting with
      | [] => none
      | o :: _ =>
        (placeUnit s l.packet.clmask l.packet.cls l.packet.width l.packet.shape).map fun (at', gs) => (n, l, o, at', gs)

/-! Lane-group arbiters (R337). -/

def arbiterOf (s : State) (core g : Nat) : Arbiter := (coreOf s core).arbiters[g]?.getD {}
def setArbiter (core g : Nat) (a : Arbiter) (s : State) : State :=
  let c := coreOf s core
  setCore core { c with arbiters := c.arbiters.setIfInBounds g a } s

/-- The sharers of a lane group, in ascending slot order: a stopped hart, which keeps its slot (R377), is one. -/
def sharers (s : State) (core g : Nat) : List (Nat × Hart) := (coreHarts s core).filter fun e => e.2.groups.contains g

/-- The first slot of a list of slots at or after a place, wrapping round. -/
def slotFrom (js : List Nat) (p : Nat) : Nat := (js.find? fun j => decide (p ≤ j)).getD (js.headD p)

/-- A hart joins a lane group with D = 0; the first sharer is where the pointer starts. -/
def joinGroup (coord g : Nat) (s : State) : State :=
  let core := coreIndex coord
  let a := arbiterOf s core g
  let others := (sharers s core g).filter fun e => e.1 != coordSlot coord
  let a1 := { a with deficits := put (coordSlot coord) 0 a.deficits }
  setArbiter core g (if others.isEmpty then { a1 with pointer := coordSlot coord, fresh := false } else a1) s

/-- A hart's D becomes 0 on a lane group, and a pointer at the hart moves to the next sharer (R345, R337). -/
def passGroup (coord g : Nat) (s : State) : State :=
  let core := coreIndex coord
  let a := arbiterOf s core g
  let js := (sharers s core g).map (·.1)
  let j := coordSlot coord
  let a1 := { a with deficits := put j 0 a.deficits }
  setArbiter core g (if slotFrom js a.pointer = j then { a1 with pointer := slotFrom js (j + 1), fresh := false } else a1) s

/-- R337: a hart that leaves its slot leaves its lane groups. -/
def leaveGroups (coord : Nat) (s : State) : State :=
  match hartAt s coord with
  | none => s
  | some h => h.groups.foldl (fun s g =>
      let s1 := passGroup coord g s
      let a := arbiterOf s1 (coreIndex coord) g
      setArbiter (coreIndex coord) g { a with deficits := cut (coordSlot coord) a.deficits } s1) s

/-- R336: a class's default and greatest weights, and the weight in use. -/
def defaultWeight (cls : Nat) : Nat := if cls = 0 then 15 else if cls = 1 then 8 else if cls = 2 then 4 else 1
def greatestWeight (cls : Nat) : Nat := if cls = 0 then 15 else if cls = 1 then 12 else if cls = 2 then 8 else 4
def weightOf (h : Hart) : Nat :=
  let w := wbits h.csr.share 3 0
  if w = 0 then defaultWeight h.cls else min w (greatestWeight h.cls)

/-- R337: one cycle's loop over the sharers, of which some are ready. -/
def arbitrate (ws : List (Nat × Nat)) (ready : List Nat) : Nat → Arbiter → Arbiter
  | 0, a => a
  | fuel + 1, a =>
    let js := ws.map (·.1)
    let j := slotFrom js a.pointer
    let next := slotFrom js (j + 1)
    let d0 := lookD 0 j a.deficits
    let d := if a.fresh then d0 else min (d0 + lookD 0 j ws) 15
    if ready.contains j && decide (1 ≤ d) then
      let ds := put j (d - 1) a.deficits
      if d = 1 then { pointer := next, fresh := false, deficits := ds, bound := some j }
      else { pointer := j, fresh := true, deficits := ds, bound := some j }
    else
      arbitrate ws ready fuel { a with
        pointer := next, fresh := false, deficits := put j (if ready.contains j then d else 0) a.deficits }

/-- R337: one cycle of a lane group's arbiter. The sharers that have work are given, of which a stopped hart is none; with none,
nothing changes. -/
def arbiterCycle (core g : Nat) (ready : List Nat) (s : State) : State :=
  let hs := sharers s core g
  let rs := ((hs.filter fun e => e.2.live).map (·.1)).filter ready.contains
  let a := arbiterOf s core g
  if rs.isEmpty then setArbiter core g { a with bound := none } s else
  setArbiter core g (arbitrate (hs.map fun e => (e.1, weightOf e.2)) rs 17 { a with bound := none }) s

/-! Placing. -/

/-- R334, R168: the hart of a unit's member m: a stage's ordinal, the harts or crews beside it, and its lane groups. -/
def placedHart (n : Nat) (p : Packet) (o m : Nat) (gs : List Nat) : Hart :=
  let per := if p.shape = 0 then p.harts / (p.stages + 1) else if p.shape = 1 then p.harts / 3 else p.harts
  let role := if p.shape = 2 then Role.control else if p.shape = 0 then .solo
    else if m = 0 then .loader else if m = 1 then .computer else .storer
  let ord := if p.shape = 0 then o % per else o
  let h : Hart := {
    live := true, role := role, stage := if p.shape = 0 then o / per else m
    cls := p.cls, width := p.width, groups := gs, launch := n, ordinal := ord, peers := per
    pc := p.entries.getD m 0, mode := p.mode, span := p.span
    s := Vector.ofFn fun (i : Fin 32) =>
      if i.val = 2 then p.n else if i.val = 3 then word ord else if i.val = 4 then word per
      else if 5 ≤ i.val ∧ i.val ≤ 16 then p.args.getD (i.val - 5) 0 else 0
    csr := { ptroot := p.root }
    sup := { tvec := keep p.tvec 0xFFFFFFFFFFFFFFFC }, mach := { tvec := keep p.mtvec 0xFFFFFFFFFFFFFFFC } }
  { h with strip := { check := some (h.checkpoint h.pc) } }

/-- R334, R271: a slot as a placed hart finds it: its mailbox and inbox are empty; the reply FIFO, a pending WAKE, the
mail of pre-empted harts, UFDELEG and CEROUT stay. -/
def Slot.cleared (t : Slot) : Slot :=
  { reply := t.reply, wake := t.wake, aside := t.aside, ufdeleg := t.ufdeleg, cerout := t.cerout }
/-- R401: what stays with the slot when a hart leaves it. -/
def Slot.left (t : Slot) (h : Hart) : Slot := { t with ufdeleg := h.csr.ufdeleg, cerout := h.csr.cerout }

/-- A hart starts in a slot: its mailbox and inbox are empty, and its deficits 0; UFDELEG and CEROUT are those that the slot
had (R401). -/
def startHart (coord : Nat) (h : Hart) (s : State) : State :=
  let t := slotOf s coord
  let h' := { h with csr := { h.csr with ufdeleg := t.ufdeleg, cerout := t.cerout } }
  let s1 := setSlot coord t.cleared (setHart coord h' s)
  h.groups.foldl (fun s g => joinGroup coord g s) s1

/-- R333, R334: place a unit. -/
def placeLaunch (n : Nat) (l : Launch) (o at' : Nat) (gs : List Nat) (s : State) : State :=
  let p := l.packet
  let s1 := { s with
    dev := { s.dev with launches := put n { l with waiting := l.waiting.erase o } s.dev.launches }
    crews := if p.shape = 1 then cut at' s.crews else s.crews }
  (List.range (if p.shape = 1 then 3 else 1)).foldl (fun s m => startHart (at' + m) (placedHart n p o m gs) s) s1

/-- R331: a launch all of whose harts have completed EXIT: the completion word goes up by one, and the launch is over. A hold
of its line, or of a line of its walk, delays it (R57, R85). A word that cannot be reached gets no count (log 14). -/
def finishLaunch (n : Nat) (s : State) : State :=
  match look n s.dev.launches with
  | none => s
  | some l =>
    if l.unfinished ≠ 0 then s else
    let ended := fun (s : State) => { s with dev := { s.dev with launches := cut n s.dev.launches } }
    match l.packet.done with
    | none => ended s
    | some va =>
      match dispatcherReads (packetWord l.packet va .rmw) s with
      | (.error (0, _), s1) => s1
      | (.error (6, a), s1) => ended (countUncorrectable (arrayOf a) (poisonSector a s1))
      | (.error _, s1) => ended s1
      | (.ok (c, pa), s1) =>
        match physRead c pa 8 s1 with
        | .error (0, _) => s1
        | .error _ => ended s1
        | .ok (s2, bs, _) =>
          match physWrite c pa (bytesOf 8 ((natOfBytes bs + 1) % 2 ^ 64)) s2 with
          | .error _ => ended s2
          | .ok (s3, _) => ended s3

/-! The events. -/

/-- DISPATCH_PACKET (R326 to R330). -/
def execDispatchPacket (s : State) : Result := .next (dispatchPacket s)
/-- DEPENDENCE_READ (R329). -/
def execDependenceRead (o : QueueArgs) (s : State) : Result := .next (readDependence (o.queue % 64) s)
/-- PLACE_UNIT (R332 to R334): the unit that the dispatcher places next, when it is the one named. -/
def execPlaceUnit (o : PlaceArgs) (s : State) : Result :=
  match nextUnit s with
  | some (n, l, u, at', gs) => .next (if n = o.launch ∧ at' = o.coord then placeLaunch n l u at' gs s else s)
  | none => .next s
/-- LAUNCH_DONE_ADD (R331). -/
def execLaunchDoneAdd (o : LaunchArgs) (s : State) : Result := .next (finishLaunch o.launch s)
/-- LANE_GROUP_ARBITRATION (R337). -/
def execLaneGroupArbitration (o : ArbiterArgs) (s : State) : Result := .next (arbiterCycle o.core (o.group % 4) o.ready s)

end Sys2Proof.Machine
end

