-- ==== Sys2Proof/Machine/ScalarMem.lean ====
section
/-! DEFINITION. Scalar loads and stores (R135, R40 to R42, R323) and the ordering-carrying A-format words (R136 to R138). -/

namespace Sys2Proof.Machine

/-- R397: the link and the number of the flit that carries a read of a peer's memory, when it is sent. -/
def peerFlit (parts : List (Access × Nat)) (s : State) : Option (Nat × Nat) :=
  parts.findSome? fun p => match targetOf p.1.pa with
    | .peer d => (linkTo d s).map fun i => (i, (s.dev.links[i]?.getD {}).nextSeq)
    | _ => none

/-- R135, R40, R42: a load of n bytes. Uncounted, it performs at issue; counted, it is translated, checked and read at issue
(R82, R324), and performs by the time it completes: on a DEVICE or STRONG page at once (R80). -/
def loadWord (code n : Nat) (natural : Bool) (o : LArgs) (s : State) : Result :=
  issue (lInfo 0x0D code o (.s o.d.toNat) [o.a]) (andNext do
    let h ← getH
    let va := lAddress h o n
    let cls := some o.cls.toNat
    match counterOf o.ctr.toNat with
    | none =>
      let bs ← loadBytes cls va n n
      writeD o.d (loadValue natural bs)
    | some c =>
      counterRoom c
      let parts ← translateRange va n .read
      plainChecks va n parts
      watermark va n
      loadCommits cls parts
      let s ← get
      let accs := parts.map fun (a, k, x) => (accessOf s a x, k)
      let v ← readValue accs natural
      let strong := parts.any fun p => p.2.2.typ == 2 || p.2.2.typ == 3
      addOp (.load accs natural o.cls.toNat) c (some o.d.toNat)
      modH fun h => { h with ops := h.ops.modify (h.ops.length - 1) fun p =>
        if strong then { p with value := some v } else { p with first := some v, flit := peerFlit accs s } }) s

/-- R135, R40, R374: a store of the low n bytes. A counted store completes when it performs. -/
def storeWord (code n : Nat) (o : LArgs) (s : State) : Result :=
  issue (lInfo 0x0E code o .none [o.a, o.d]) (andNext do
    let h ← getH
    let va := lAddress h o n
    counterRoom o.ctr.toNat
    let seq ← storeBytes (some o.cls.toNat) va n (bytesOf n (h.reg o.d.toNat).toNat)
    match counterOf o.ctr.toNat, seq with
    | some c, some q => addOp (.store q) c none
    | _, _ => pure ()) s

/-- LDB (R135): 1 byte, sign-extended. -/
def execLdb (o : LArgs) (s : State) : Result := loadWord 0 1 false o s

/-- LDH (R135): 2 bytes, sign-extended. -/
def execLdh (o : LArgs) (s : State) : Result := loadWord 1 2 false o s

/-- LDW (R135): 4 bytes, sign-extended. -/
def execLdw (o : LArgs) (s : State) : Result := loadWord 2 4 false o s

/-- LDD (R135): 8 bytes, zero-extended. -/
def execLdd (o : LArgs) (s : State) : Result := loadWord 3 8 true o s

/-- LDBN (R135): 1 byte, zero-extended. -/
def execLdbn (o : LArgs) (s : State) : Result := loadWord 4 1 true o s

/-- LDHN (R135): 2 bytes, zero-extended. -/
def execLdhn (o : LArgs) (s : State) : Result := loadWord 5 2 true o s

/-- LDWN (R135): 4 bytes, zero-extended. -/
def execLdwn (o : LArgs) (s : State) : Result := loadWord 6 4 true o s

/-- STB (R135): the low 1 byte of sS. -/
def execStb (o : LArgs) (s : State) : Result := storeWord 0 1 o s

/-- STH (R135): the low 2 bytes of sS. -/
def execSth (o : LArgs) (s : State) : Result := storeWord 1 2 o s

/-- STW (R135): the low 4 bytes of sS. -/
def execStw (o : LArgs) (s : State) : Result := storeWord 2 4 o s

/-- STD (R135): the low 8 bytes of sS. -/
def execStd (o : LArgs) (s : State) : Result := storeWord 3 8 o s

/-- C.LDD (R323): sA := mem64(L + off), class c0, uncounted. -/
def execCLdd (o : KArgs) (s : State) : Result :=
  issue { kInfo 9 o (.s o.a.toNat) [s.h.lastd.toNat] with address := true } (andNext do
    let h ← getH
    let bs ← loadBytes (some 0) (h.reg h.lastd.toNat + word (8 * o.b.toNat)).toNat 8 8
    writeD o.a (loadValue true bs)) s

/-- C.STD (R323): mem64(L + off) := s[a], class c0, uncounted. -/
def execCStd (o : KArgs) (s : State) : Result :=
  issue { kInfo 10 o .none [s.h.lastd.toNat, o.a.toNat] with address := true } (andNext do
    let h ← getH
    let _ ← storeBytes (some 0) (h.reg h.lastd.toNat + word (8 * o.b.toNat)).toNat 8 (bytesOf 8 (h.reg o.a.toNat).toNat)) s

/-! The A format (R136 to R138). -/

/-- R136: the bytes an A-format word accesses. -/
def aSize (o : AArgs) : Nat := 2 ^ o.size.toNat

/-- R136: translate, then the page type, then natural alignment on every page type. -/
def aChecked (va n : Nat) (kind : AccKind) : Act Xlat := do
  let x ← translate va kind
  if x.typ == 4 then trapWith cType (word va)
  require (va % n == 0) cAlign (word va)
  pure x
/-- R136, R112: an access's checks, then the watermarks. -/
def aTranslate (va n : Nat) (kind : AccKind) : Act Xlat := do
  let x ← aChecked va n kind
  watermark va n
  pure x

/-- R136, R137: the classless read of LDACQ and LDL. It performs at issue, before every later access. -/
def acquireRead (va n : Nat) (x : Xlat) : Act Word := do
  loadCommits none [(va, n, x)]
  let s ← get
  let (bs, bad) ← readParts [(accessOf s va x, n)]
  match bad with
  | some a => throw (.poison a)
  | none => pure (loadValue true bs)

/-- LDACQ (R136): sD := zero-extend(mem); acquire at scope. -/
def execLdacq (o : AArgs) (s : State) : Result :=
  issue (aInfo 0 o (.s o.d.toNat) [o.a]) (andNext do
    let va := ((← getH).reg o.a.toNat).toNat
    let x ← aTranslate va (aSize o) .read
    writeD o.d (← acquireRead va (aSize o) x)) s

/-- STREL (R136, R137): mem := low n bytes of sS, after every earlier access has performed. -/
def execStrel (o : AArgs) (s : State) : Result :=
  issue (aInfo 1 o .none [o.a, o.data]) (andNext do
    let h ← getH
    let va := (h.reg o.a.toNat).toNat
    let x ← aTranslate va (aSize o) .write
    performEarlier 2
    let s ← get
    writeNow false x.typ (accessOf s va x) (bytesOf (aSize o) (h.reg o.data.toNat).toNat)) s

/-- LDL (R136, R138): as LDACQ, and links the line. -/
def execLdl (o : AArgs) (s : State) : Result :=
  issue (aInfo 2 o (.s o.d.toNat) [o.a]) (andNext do
    let va := ((← getH).reg o.a.toNat).toNat
    let x ← aTranslate va (aSize o) .read
    let v ← acquireRead va (aSize o) x
    modH fun h => { h with link := some (lineOf x.pa) }
    writeD o.d v) s

/-- R138: the hart's scalar link holds on a line. -/
def linkHolds (line : Nat) : Act Bool := do return (← getH).link == some line
/-- STC (R138): store if the link holds on the line; sD := 0 if stored, 1 if not; the link is cleared. One whose link does not
hold makes no access, and waits on no watermark (R112). What performs before the write may break the link. -/
def execStc (o : AArgs) (s : State) : Result :=
  issue (aInfo 3 o (.s o.d.toNat) [o.a, o.data]) (andNext do
    let h ← getH
    let va := (h.reg o.a.toNat).toNat
    let x ← aChecked va (aSize o) .write
    if ← linkHolds (lineOf x.pa) then
      watermark va (aSize o)
      performEarlier 2
    else commit 2
    let stores ← linkHolds (lineOf x.pa)
    if stores then
      let s ← get
      writeNow false x.typ (accessOf s va x) (bytesOf (aSize o) (h.reg o.data.toNat).toNat)
    modH fun h => { h with link := none }
    writeD o.d (if stores then 0 else 1)) s

end Sys2Proof.Machine
end

