-- ==== Sys2Proof/Machine/Vec.lean ====
section
/-! DEFINITION. What vector words share: register names and groups (R154, R158 to R160), the overlap rules (R203), rows
with their records (R162, R202), reads of HAAR blocks (R204, R205), masks and tails (R201, R215), and the loop of an
element-wise word. -/

namespace Sys2Proof.Machine

/-! Names and groups. -/

/-- Where a name's rows lie: from a physical row of the hart's own, or at the head or the tail of a ring (0 to 3 for lq,
4 to 7 for sq). -/
inductive Home where
  | own (row : Nat)
  | head (ring : Nat)
  | tail (ring : Nat)
  deriving DecidableEq, Repr

/-- R158, R159: the home of vN; none when unavailable. -/
def homeOf (h : Hart) (n : Nat) : Option Home :=
  match h.role with
  | .solo => if n * 2 ^ h.span < 32 then some (.own (n * 2 ^ h.span)) else none
  | .loader => if n < 16 then some (.own n) else if 24 ≤ n ∧ n < 28 then some (.tail (n - 24)) else none
  | .computer =>
    if n < 24 then some (.own n) else if n < 28 then some (.head (n - 24)) else if n < 32 then some (.tail (n - 24)) else none
  | .storer => if n < 16 then some (.own n) else if 28 ≤ n ∧ n < 32 then some (.head (n - 24)) else none
  | .control => none

/-- A register group: n names from `first`; a ring name stands alone, and n is its number of entries. -/
structure Group where
  first : Nat
  n : Nat
  deriving DecidableEq, Repr

/-- R158, R159: whether the names are the hart's own rows. -/
def Group.isOwn (h : Hart) (g : Group) : Bool :=
  match homeOf h g.first, homeOf h (g.first + g.n - 1) with
  | some (.own _), some (.own _) => true
  | _, _ => false
/-- R159: whether a group is available for a use. -/
def Group.avail (h : Hart) (g : Group) (reads writes : Bool) : Bool :=
  match homeOf h g.first with
  | none => false
  | some (.own _) => g.isOwn h
  | some (.head _) => decide (g.n ≤ 4) && !writes
  | some (.tail _) => decide (g.n ≤ 4) && !reads
/-- Whether two groups share a row. -/
def Group.meets (h : Hart) (a b : Group) : Bool :=
  match homeOf h a.first, homeOf h b.first with
  | some (.own _), some (.own _) => decide (a.first < b.first + b.n) && decide (b.first < a.first + a.n)
  | x, y => x == y

/-- A source group, and whether it may be the destination group itself. -/
structure Source where
  g : Group
  same : Bool
  deriving DecidableEq, Repr

/-- R158, R159, R203: the decode checks of a word's groups: the destination (and whether it is read too) and its sources. -/
def groupsLegal (h : Hart) (dst : Option (Group × Bool)) (srcs : List Source) : Bool :=
  (match dst with
    | some (d, rd) => d.avail h rd true && srcs.all fun s => !d.meets h s.g || (s.same && d == s.g)
    | none => true) && srcs.all fun s => s.g.avail h true false

/-- R47: a copy's group is available, and disjoint from the destination and the sources. -/
def copyLegal (h : Hart) (d : Group) (srcs : List Source) : Bool :=
  match h.copyReg with
  | none => true
  | some c =>
    let g : Group := ⟨c, d.n⟩
    g.avail h false true && !g.meets h d && srcs.all fun s => !g.meets h s.g

/-! Rows. -/

/-- A named row: its bits, its records (R162) and the saved extent of each of its physical rows (R382). -/
structure Wide where
  bits : Nat := 0
  tag : BitVec 6 := 0
  mark : Option Nat := none
  ext : List Nat := [0]
  deriving DecidableEq, Repr

/-- R154: the physical rows of a named row, joined. -/
def joinRows (rows : List VRow) : Wide :=
  { bits := rows.foldr (fun r n => r.bits.toNat + 2 ^ 4096 * n) 0
    tag := (rows.headD {}).tag, mark := (rows.headD {}).mark, ext := rows.map (·.extent) }
/-- R154, R162: a named row as physical rows; the tag and the mark lie in the lowest. -/
def Wide.part (w : Wide) (i : Nat) (old : VRow) : VRow :=
  { bits := BitVec.ofNat 4096 (w.bits / 2 ^ (4096 * i))
    tag := if i = 0 then w.tag else old.tag
    mark := if i = 0 then w.mark else old.mark
    extent := w.ext.getD i 0 }

def Hart.ownRow (h : Hart) (row : Nat) : Wide :=
  joinRows ((List.range (2 ^ h.span)).map fun i => h.rows[row + i]?.getD {})
def Hart.setOwnRow (h : Hart) (row : Nat) (w : Wide) : Hart :=
  (List.range (2 ^ h.span)).foldl (fun h i =>
    { h with rows := h.rows.setIfInBounds (row + i) (w.part i (h.rows[row + i]?.getD {})) }) h

/-- The current hart's crew. -/
def crewHere (s : State) : Crew := lookD {} (crewBase s.cur s.h) s.crews
def ringOf (s : State) (ring : Nat) : List VRow := (crewHere s).rings[ring]?.getD []
def setRing (ring : Nat) (rows : List VRow) (s : State) : State :=
  let c := crewHere s
  { s with crews := put (crewBase s.cur s.h) { c with rings := c.rings.setIfInBounds ring rows } s.crews }

/-- Row j of a group; a tail's rows begin empty, or with what the word stopped before VSTART has built of them (R160). -/
def groupRow (s : State) (g : Group) (j : Nat) : Wide :=
  match homeOf s.h (g.first + j), homeOf s.h g.first with
  | _, some (.head r) => joinRows [(ringOf s r).getD j {}]
  | _, some (.tail r) => if s.h.vstart = 0 then {} else joinRows [(lookD [] r s.h.staged).getD j {}]
  | some (.own row), _ => s.h.ownRow row
  | _, _ => {}
def groupRows (s : State) (g : Group) : List Wide := (List.range g.n).map (groupRow s g)

/-- R160: the rows that a tail group receives: their marks are MAXVL - 1. -/
def pushed (maxvl : Nat) (w : Wide) : VRow := { (w.part 0 {}) with mark := some (maxvl - 1) }

/-- A row of the hart's own, by its name. -/
def Hart.setName (h : Hart) (name : Nat) (w : Wide) : Hart :=
  match homeOf h name with
  | some (.own row) => h.setOwnRow row w
  | _ => h

/-- What a word has built of the rows that it pushes to a ring. -/
def Hart.setStaged (h : Hart) (ring : Nat) (rows : List VRow) : Hart :=
  { h with staged := if rows.isEmpty then cut ring h.staged else put ring rows h.staged }
/-- Write a group's rows; a tail's are pushed. -/
def writeGroup (maxvl : Nat) (g : Group) (rows : List Wide) (s : State) : State :=
  match homeOf s.h g.first with
  | some (.tail r) => setRing r (ringOf s r ++ rows.map (pushed maxvl)) { s with h := s.h.setStaged r [] }
  | some (.own _) => { s with h := rows.zipIdx.foldl (fun h (w, j) => h.setName (g.first + j) w) s.h }
  | _ => s

/-- R160: the heads that groups name, once each. -/
def headsOf (h : Hart) (gs : List Group) : List (Nat × Nat) :=
  (gs.filterMap fun g => match homeOf h g.first with
    | some (.head r) => some (r, g.n)
    | _ => none).dedup
/-- R160: pop the heads that were read. -/
def popHeads (gs : List Group) (s : State) : State :=
  (headsOf s.h gs).foldl (fun s (r, n) => setRing r ((ringOf s r).drop n) s) s

def Group.isRing (h : Hart) (g : Group) : Bool :=
  match homeOf h g.first with
  | some (.head _) => true
  | some (.tail _) => true
  | _ => false

/-- R102: the words that read (with its block, R204) or write the v register of a copy or take. -/
def tupleTouches (h : Hart) (o : CountedOp) (reads writes : List Group) : Bool :=
  match o.kind with
  | .tuple _ _ v => writes.any (fun g => g.meets h ⟨v, 1⟩) || reads.any fun g => g.meets h ⟨v / 8 * 8, 8⟩
  | _ => false
def Group.isTail (h : Hart) (g : Group) : Bool :=
  match homeOf h g.first with
  | some (.tail _) => true
  | _ => false

/-- R335: a word that goes behind others in the vector queue waits, once its checks are done. -/
def queueHere : Act Unit := do if (← getH).queueing then waitFor .ring
/-- R160, R375: wait for rows at the heads and for room at the tails; a ring word commits the strip. -/
def ringsReady (reads : List Group) (writes : List Group) : Act Unit := do
  queueHere
  let s ← get
  if s.h.ops.any fun o => openAcquire o && (tupleTouches s.h o reads writes) then waitFor .tuple
  let ready := reads.all (fun g => match homeOf s.h g.first with
      | some (.head r) => decide (g.n ≤ (ringOf s r).length)
      | _ => true) && writes.all fun g => match homeOf s.h g.first with
      | some (.tail r) => decide ((ringOf s r).length + g.n ≤ 4)
      | _ => true
  if !ready then
    commit 3
    waitFor .ring
  if (reads ++ writes).any fun g => g.isRing s.h then commit 2

/-! Elements of a row. -/

/-- R382: an element is written: the extent covers its bytes. -/
def bumpExt (sew i : Nat) (ext : List Nat) : List Nat :=
  let p := elemAt sew i
  ext.set (p / 4096) (max (ext.getD (p / 4096) 0) ((p % 4096 + sew - 1) / 8 + 1))
def Wide.set (w : Wide) (sew i v : Nat) : Wide := { w with bits := setElem w.bits sew i v, ext := bumpExt sew i w.ext }
/-- Masked-off and tail zeroing (R201). -/
def Wide.zero (w : Wide) (sew i : Nat) : Wide := { w with bits := setElem w.bits sew i 0 }
def Wide.cutTail (w : Wide) (v : VType) (n maxvl : Nat) : Wide :=
  if v.tailZero && decide (n < maxvl) then { w with bits := w.bits % 2 ^ elemAt v.sew n } else w
/-- R202: the dirty mark after elements below n. -/
def Wide.markTo (w : Wide) (n : Nat) : Wide :=
  if n = 0 then w else { w with mark := some (max (w.mark.getD 0) (n - 1)) }

/-! Masks. -/

/-- R153: bit i of row r of k[m]; k7 reads all-true. -/
def Hart.kbit (h : Hart) (m r i : Nat) : Bool :=
  m == 7 || ((h.k[m]?.getD (Vector.replicate 8 0))[r]?.getD 0).getLsbD i
/-- R46: the lent k guard at an element. -/
def Hart.lentAt (h : Hart) (r i : Nat) : Bool :=
  match h.pfx with
  | some p => !p.isK || (h.kbit p.guard r i != p.neg)
  | none => true
/-- R201: act(r, i). -/
def Hart.act (h : Hart) (mask : BitVec 3) (neg : Bool) (r i : Nat) : Bool :=
  (h.kbit mask.toNat r i != neg) && h.lentAt r i
/-- R205: the mask is k7 with negate clear and no k guard is lent. -/
def Hart.unmasked (h : Hart) (mask : BitVec 3) (neg : Bool) : Bool :=
  mask == 7 && !neg && (match h.pfx with
    | some p => !p.isK
    | none => true)

/-! Sources. -/

/-- A source row as a word reads it: its bits and records, and the block it belongs to (R204): LEVELS, its place, and the
eight rows' bits. -/
structure SrcRow where
  bits : Nat
  tag : BitVec 6
  mark : Option Nat
  block : Option (Nat × Nat × List Nat)

/-- R204: the block that holds a name, if it is well-formed: its LEVELS and rows. -/
def blockOf (s : State) (name : Nat) : Option (Nat × List Wide) :=
  let g : Group := ⟨name / 8 * 8, 8⟩
  if !g.isOwn s.h then none else
  let rows := groupRows s g
  (blockLevels (rows.map (·.tag))).map fun l => (l, rows)

/-- The source rows of a group; a ring's rows belong to no block. -/
def sourceRows (s : State) (g : Group) : List SrcRow :=
  (groupRows s g).zipIdx.map fun (w, j) =>
    ⟨w.bits, w.tag, w.mark,
      if g.isRing s.h then none else (blockOf s (g.first + j)).map fun (l, rows) => (l, (g.first + j) % 8, rows.map (·.bits))⟩

/-- R204, R293: element i of a source row read in a slot's type, with the flags of its reconstruction. `coef` reads it as
stored. -/
def srcElem (v : VType) (coef : Bool) (r : SrcRow) (i : Nat) : Nat × Nat :=
  match coef, r.block, v.float with
  | false, some (l, j, rows), some F =>
    let (col, f) := haarInverse F l (rows.map fun b => getElem b v.sew i)
    (col.getD j 0, f)
  | _, _, _ => (getElem r.bits v.sew i, 0)

/-- A source by its row. -/
def rowAt (rs : List SrcRow) (r : Nat) : SrcRow := rs.getD r ⟨0, 0, none, none⟩

/-- R205: the LEVELS that a class L word keeps; it acts as class R when there is none. -/
def keptLevels (s : State) (v : VType) (o : VArgs) (srcs : List Group) : Option Nat :=
  if v.rows = 8 && o.d.toNat % 8 == 0 && s.h.unmasked o.mask o.neg && (srcs.all fun g => g.first % 8 == 0 && g.isOwn s.h) then
    let ls := srcs.map fun g => (blockOf s g.first).map (·.1)
    match ls with
    | some l :: rest => if rest.all (fun x => x == some l) then some l else none
    | _ => none
  else none

/-! Slots. -/

/-- Slot T of the hart. -/
def Hart.slot (h : Hart) (t : Bool) : VType := vtypeOf (h.vt[bitNat t]?.getD 0)
/-- R155: vl_T. -/
def Hart.vlIn (h : Hart) (v : VType) : Nat := min h.vl (maxVl v.sew h.span)
def Hart.maxIn (h : Hart) (v : VType) : Nat := maxVl v.sew h.span

/-- R200: a pair that the word does not accept. -/
def acceptType (ok : Bool) (v : VType) : Act Unit := require ok cVtypeForm v.word
/-- R199: the X operand as an element value. -/
def xData (h : Hart) (v : VType) (b : BitVec 5) : Act Nat := do
  acceptType (v.sew != 128) v
  return (h.reg b.toNat).toNat % 2 ^ v.sew

/-! The element-wise loop (R201). -/

/-- What an operation gives for an element: its value, its flags, and the row's residual after it (R191). -/
structure Elem where
  value : Nat
  flags : Nat := 0
  res : Nat
  deriving DecidableEq, Repr

/-- A loop's bounds: the type, elements per row, MAXVL, VSTART and the mask. -/
structure Loop where
  v : VType
  n : Nat
  max : Nat
  start : Nat
  act : Nat → Nat → Bool

/-- R201: one row. `op i res` is none for an element treated as masked off. -/
def Loop.row (w : Loop) (op : Nat → Nat → Nat → Option Elem) (r : Nat) (tag : BitVec 6) (old : Wide) (res : Nat) :
    Wide × Nat × Nat :=
  let (x, f, res') := (List.range w.n).foldl (fun (x, f, res) i =>
    if r * w.n + i < w.start then (x, f, res) else
    match (if w.act r i then op r i res else none) with
    | some e => (Wide.set x w.v.sew i e.value, Nat.lor f e.flags, e.res)
    | none => (if w.v.maskZero then Wide.zero x w.v.sew i else x, f, res)) (old, 0, res)
  ({ (x.cutTail w.v w.n w.max).markTo w.n with tag := tag }, f, res')

/-- All rows of a group, with the tags they take; the flags and residuals in order. -/
def Loop.rows (w : Loop) (op : Nat → Nat → Nat → Option Elem) (tags : Nat → BitVec 6) (olds : List Wide) (efc : Nat → Nat) :
    List (Wide × Nat × Nat) :=
  olds.zipIdx.map fun (o, r) => w.row op r (tags r) o (efc r)

/-- R160: the rows at a name of the hart's own that a copy receives from a destination group: those that a tail receives carry a
tail's mark. -/
def copied (maxvl : Nat) (h : Hart) (d : Group) (rows : List Wide) : List Wide :=
  if d.isTail h then rows.map fun w => { w with mark := some (maxvl - 1) } else rows

/-- Write the destination group and the prefix's copy, pop the heads, and raise flags (R201, R47, R160, R182). `rows` gives the
group's rows from its old ones. DESIGN CHOICE: R47 has a copy end with the destination's elements and marks, R160 has the rows
that enter a ring hold zeros where an element is masked off or in the tail, with the mark MAXVL - 1: a copy at a ring's tail
follows R160. -/
def putRows (maxvl : Nat) (d : Group) (reads : List Group) (rows : List Wide → List Wide) (flags : Nat) : Act Unit := do
  let s ← get
  let out := rows (groupRows s d)
  modify (writeGroup maxvl d out)
  match s.h.copyReg with
  | some c =>
    let g : Group := ⟨c, d.n⟩
    modify (writeGroup maxvl g (if g.isTail s.h then rows (groupRows s g) else copied maxvl s.h d out))
  | none => pure ()
  modify (popHeads reads)
  modH fun h => { h.raiseFlags flags with vstart := 0 }

/-! A word stopped part-way (R47, R160, R378, R380). -/

/-- Row r of a group between its old row and a new one: the elements numbered below k are the new row's. -/
def Loop.mixRow (w : Loop) (k r : Nat) (new old : Wide) : Wide :=
  let m := min w.n (k - r * w.n)
  if m = 0 then old else
  let edge := elemAt w.v.sew m
  { new with bits := new.bits % 2 ^ edge + old.bits / 2 ^ edge * 2 ^ edge, ext := List.zipWith Nat.max new.ext old.ext }
/-- The rows of a copy whose word stops before element k: element by element with the destination's. -/
def Loop.mixRows (w : Loop) (k : Nat) (new olds : List Wide) : List Wide :=
  (new.zip olds).zipIdx.map fun ((x, y), g) => w.mixRow k (g % w.v.rows) x y
/-- R160: of a copy at a ring's tail, the rows of a word that stops before element k: its active elements below it. -/
def Loop.doneRows (w : Loop) (k : Nat) (new : List Wide) : List Wide :=
  new.zipIdx.map fun (x, g) =>
    let r := g % w.v.rows
    (List.range w.n).foldl (fun (y : Wide) i =>
      if r * w.n + i < k && w.act r i then y.set w.v.sew i (getElem x.bits w.v.sew i) else y) {}

/-- The physical rows of a group, as they are. -/
def Hart.rowsOf (h : Hart) (g : Group) : List (Nat × VRow) :=
  (List.range g.n).flatMap fun j => match homeOf h (g.first + j) with
    | some (.own row) => (List.range (2 ^ h.span)).map fun i => (row + i, h.rows[row + i]?.getD {})
    | _ => []
/-- R376: the rows of a group as they are are those that a rewind puts back, where the word in hand has written none of them. -/
def Hart.remember (h : Hart) (g : Group) : Hart :=
  { h with before := (h.rowsOf g).foldl (fun b e => if (look e.1 b).isSome then b else put e.1 e.2 b) h.before }
/-- Write the rows of a group that a word has when it stops: a tail's are kept for its push. -/
def writePart (maxvl : Nat) (g : Group) (rows : List Wide) (s : State) : State :=
  match homeOf s.h g.first with
  | some (.tail r) => { s with h := s.h.setStaged r (rows.map (pushed maxvl)) }
  | _ => writeGroup maxvl g rows { s with h := s.h.remember g }
/-- R380, R47: a word stops before element k with rows of its destination: they and the copy's hold what has been done. -/
def Loop.stopRows (w : Loop) (d : Group) (k : Nat) (rows : List Wide) (s : State) : State :=
  let s1 := writePart w.max d rows s
  let s2 := match s.h.copyReg with
    | none => s1
    | some c =>
      let g : Group := ⟨c, d.n⟩
      writePart w.max g (if g.isTail s.h then w.doneRows k rows else w.mixRows k (copied w.max s.h d rows) (groupRows s g)) s1
  { s2 with h := { s2.h with vstart := k } }
/-- The end of a word that stops before element k. The rewind that poison leads to discards what it has done (R376). -/
def Loop.stopAt {α : Type} (w : Loop) (d : Group) (k : Nat) (rows : List Wide → List Wide) (x : Exc) : Act α := do
  let s ← get
  let rewinds := (match x with
    | .poison _ => canRewind s.h
    | _ => false)
  if !rewinds then modify (w.stopRows d k (rows (groupRows s d)))
  throw x

/-- R209: a class R word (one that keeps no LEVELS) that reads a block through its own destination group is whole. -/
def wholeBlock (s : State) (kept : Option Nat) (d : Group) (srcs : List Group) : Bool :=
  kept.isNone && srcs.any fun g => g == d && (sourceRows s g).any fun r => r.block.isSome

/-- A word that computes its destination rows from its sources: the types it writes and reads them in, the LEVELS it keeps
(R205; none for a class R word), its source groups, and the rows, with flags and residuals, from the sources' elements and
the old rows. -/
def rowWord (v rv : VType) (o : VArgs) (kept : Option Nat) (srcs : List Group)
    (f : List (Nat → Nat → Nat × Nat) → (Nat → BitVec 6) → List Wide → (Nat → Nat) → List (Wide × Nat × Nat)) : Act Unit := do
  let h ← getH
  let d : Group := ⟨o.d.toNat, v.rows⟩
  ringsReady srcs (d :: (h.copyReg.toList.map fun c => ⟨c, v.rows⟩))
  let s ← get
  let ins := srcs.map (sourceRows s)
  let reads := ins.map fun rs => fun (r i : Nat) => srcElem rv kept.isSome (rowAt rs r) i
  let tags := fun (r : Nat) => match kept with
    | some l => haarTag l (tagThr (rowAt (ins.headD []) r).tag)
    | none => (0 : BitVec 6)
  let rows := fun olds => f reads tags olds fun r => (h.efc[r]?.getD 0).toNat
  let out := rows (groupRows s d)
  modH fun h => { h with efc := out.zipIdx.foldl (fun e (x, r) => e.setIfInBounds r (BitVec.ofNat 32 x.2.2)) h.efc }
  putRows (h.maxIn v) d srcs (fun olds => (rows olds).map (·.1)) (orFlags (out.map (·.2.1)))

/-- An element-wise word of n elements per row under a guard: whether it ignores VSTART, and its operation. -/
def elementwiseIf (act : Nat → Nat → Bool) (v rv : VType) (n : Nat) (o : VArgs) (kept : Option Nat) (whole : Bool)
    (srcs : List Group) (op : List (Nat → Nat → Nat × Nat) → Nat → Nat → Nat → Option Elem) : Act Unit := do
  let s ← get
  let start := if whole || wholeBlock s kept ⟨o.d.toNat, v.rows⟩ srcs then 0 else s.h.vstart
  rowWord v rv o kept srcs fun reads tags olds efc => Loop.rows ⟨v, n, s.h.maxIn v, start, act⟩ (op reads) tags olds efc

/-- An element-wise word under its own mask. -/
def elementwise (v : VType) (n : Nat) (o : VArgs) (kept : Option Nat) (whole : Bool) (srcs : List Group)
    (op : List (Nat → Nat → Nat × Nat) → Nat → Nat → Nat → Option Elem) : Act Unit := do
  let h ← getH
  elementwiseIf (h.act o.mask o.neg) v v n o kept whole srcs op

/-- Element i of row r of source j, with its flags. -/
def srcAt (reads : List (Nat → Nat → Nat × Nat)) (j r i : Nat) : Nat × Nat :=
  match reads[j]? with
  | some f => f r i
  | none => (0, 0)

/-! Rounding under a slot (R190, R207). -/

/-- R190: round_ef, with the residual it leaves. -/
def roundEf (v : VType) (F : Fmt) (x : Val × Nat) (flags res : Nat) : Elem :=
  if v.rnd != 4 then
    let (b, f) := roundWith F (rndOf v.rnd) x
    ⟨b, Nat.lor flags f, res⟩
  else
    let (w, g) := addVal false x.1 (val fp32 res)
    let (b, f) := roundWith F .rne (w, Nat.lor x.2 g)
    let y := val F b
    ⟨b, Nat.lor flags f, if !w.finite || !y.finite then 0 else (round fp32 .rne (addVal false w y.negate).1).1⟩

/-- The information of a V word with a v destination, its groups and the checks of R203 and R47. -/
def vWordOf (i : Info) (o : VArgs) (dstRead : Bool) (srcs : Hart → VType → List Source) (body : VType → Act Unit) (s : State)
    (later : Act Unit := pure ()) : Result :=
  let v := s.h.slot o.t
  let d : Group := ⟨o.d.toNat, v.rows⟩
  issue i (andNext (body v)) s
    (legal := do require (groupsLegal (← getH) (some (d, dstRead)) (srcs (← getH) v)) cIllegal 0)
    (pairLegal := do require (copyLegal (← getH) d (srcs (← getH) v)) cIllegalPair 0)
    (later := later)

end Sys2Proof.Machine
end

