-- ==== Sys2Proof/Machine/VInt.lean ====
section
/-! DEFINITION. The vector integer words VINT and VINT2 (R211, R212). -/

namespace Sys2Proof.Machine

/-- R211, R203: the sources of a two-operand element-wise word, whose groups may be the destination's own. -/
def binarySources (o : VArgs) (_ : Hart) (v : VType) : List Source :=
  ⟨⟨o.a.toNat, v.rows⟩, true⟩ :: (if o.x then [] else [⟨⟨o.b.toNat, v.rows⟩, true⟩])
def binaryGroups (o : VArgs) (v : VType) : List Group :=
  ⟨o.a.toNat, v.rows⟩ :: (if o.x then [] else [⟨o.b.toNat, v.rows⟩])

/-- R199: operand b of an element-wise word: the X value (`x`) or the second source's element. -/
def operandB (o : VArgs) (reads : List (Nat → Nat → Nat × Nat)) (x r i : Nat) : Nat × Nat :=
  if o.x then (x, 0) else srcAt reads 1 r i

/-- R211: an integer word; `nat` marks the natural forms (R200). -/
def intWord (major func : Nat) (nat : Bool) (f : Nat → Nat → Nat → Nat) (o : VArgs) (s : State) : Result :=
  vWordOf (vInfo major func o .v (if o.x then [o.b] else [])) o false (binarySources o) (fun v => do
    acceptType (v.fmt == fmtINT && !(nat && v.sew == 4)) v
    let h ← getH
    let x ← if o.x then xData h v o.b else pure 0
    elementwise v (h.vlIn v) o none false (binaryGroups o v) fun reads r i res =>
      some ⟨f v.sew (srcAt reads 0 r i).1 (operandB o reads x r i).1 % 2 ^ v.sew, 0, res⟩) s

/-- R212: an integer word of one source. -/
def unaryIntWord (major func : Nat) (f : Nat → Nat → Nat → Nat) (o : VArgs) (s : State) : Result :=
  vWordOf (vInfo major func o .v) o false (fun _ v => [⟨⟨o.a.toNat, v.rows⟩, true⟩]) (fun v => do
    acceptType (v.fmt == fmtINT) v
    let h ← getH
    elementwise v (h.vlIn v) o none false [⟨o.a.toNat, v.rows⟩] fun reads r i res =>
      some ⟨f v.sew (srcAt reads 0 r i).1 0 % 2 ^ v.sew, 0, res⟩) s

/-- R211: the shift amount: the low log2(SEW) bits. -/
def shiftOf (w b : Nat) : Nat := b % w
/-- An exact signed result wrapped. -/
def wrapS (f : Int → Int → Int) (w a b : Nat) : Nat := wrap w (f (signed w a) (signed w b))

/-- R211: the high half of the signed product. -/
def highS (w a b : Nat) : Nat := wrap w (signed w a * signed w b / (2 ^ w : Nat))

/-- VADD (R211). Element-wise integer add. -/
def execVadd (o : VArgs) (s : State) : Result := intWord 0x14 0 false (fun w a b => (a + b) % 2 ^ w) o s

/-- VSUB (R211). Element-wise integer subtract. -/
def execVsub (o : VArgs) (s : State) : Result := intWord 0x14 1 false (fun w a b => (a + 2 ^ w - b) % 2 ^ w) o s

/-- VMUL (R211). Low SEW bits of the product. -/
def execVmul (o : VArgs) (s : State) : Result := intWord 0x14 2 false (fun _ a b => a * b) o s

/-- VMULH (R211). High SEW bits of the signed product. -/
def execVmulh (o : VArgs) (s : State) : Result := intWord 0x14 3 false highS o s

/-- VMULHN (R211). High SEW bits of the natural product. -/
def execVmulhn (o : VArgs) (s : State) : Result := intWord 0x14 4 true (fun w a b => a * b / 2 ^ w) o s

/-- VMIN (R211). Signed minimum. -/
def execVmin (o : VArgs) (s : State) : Result := intWord 0x14 5 false (wrapS min) o s

/-- VMAX (R211). Signed maximum. -/
def execVmax (o : VArgs) (s : State) : Result := intWord 0x14 6 false (wrapS max) o s

/-- VMINN (R211). Natural minimum. -/
def execVminn (o : VArgs) (s : State) : Result := intWord 0x14 7 true (fun _ a b => min a b) o s

/-- VMAXN (R211). Natural maximum. -/
def execVmaxn (o : VArgs) (s : State) : Result := intWord 0x14 8 true (fun _ a b => max a b) o s

/-- VAND (R211). Bitwise AND. -/
def execVand (o : VArgs) (s : State) : Result := intWord 0x14 9 false (fun _ a b => a &&& b) o s

/-- VOR (R211). Bitwise OR. -/
def execVor (o : VArgs) (s : State) : Result := intWord 0x14 10 false (fun _ a b => a ||| b) o s

/-- VXOR (R211). Bitwise XOR. -/
def execVxor (o : VArgs) (s : State) : Result := intWord 0x14 11 false (fun _ a b => a ^^^ b) o s

/-- VANDN (R211). a AND NOT b. -/
def execVandn (o : VArgs) (s : State) : Result := intWord 0x14 12 false (fun w a b => a &&& (2 ^ w - 1 - b)) o s

/-- VSHL (R211). Shift left. -/
def execVshl (o : VArgs) (s : State) : Result := intWord 0x14 13 false (fun w a b => a * 2 ^ shiftOf w b) o s

/-- VSHR (R211). Logical shift right. -/
def execVshr (o : VArgs) (s : State) : Result := intWord 0x14 14 false (fun w a b => a / 2 ^ shiftOf w b) o s

/-- VSRA (R211). Arithmetic shift right. -/
def execVsra (o : VArgs) (s : State) : Result := intWord 0x14 15 false (fun w a b => wrap w (signed w a / 2 ^ shiftOf w b)) o s

/-- VSADD (R212). Signed saturating add. -/
def execVsadd (o : VArgs) (s : State) : Result := intWord 0x15 0 false (fun w a b => wrap w (sat (signed w a + signed w b) w true)) o s

/-- VSSUB (R212). Signed saturating subtract. -/
def execVssub (o : VArgs) (s : State) : Result := intWord 0x15 1 false (fun w a b => wrap w (sat (signed w a - signed w b) w true)) o s

/-- VSADDN (R212). Natural saturating add. -/
def execVsaddn (o : VArgs) (s : State) : Result := intWord 0x15 2 true (fun w a b => min (a + b) (2 ^ w - 1)) o s

/-- VSSUBN (R212). Natural saturating subtract. -/
def execVssubn (o : VArgs) (s : State) : Result := intWord 0x15 3 true (fun _ a b => a - b) o s

/-- VABSD (R212). Absolute difference of signed values. -/
def execVabsd (o : VArgs) (s : State) : Result := intWord 0x15 4 false (fun w a b => (signed w a - signed w b).natAbs) o s

/-- VCLZ (R212). Leading zeros within SEW. -/
def execVclz (o : VArgs) (s : State) : Result := unaryIntWord 0x15 5 (fun w a _ => leadingZeros w a) o s

/-- VPOPC (R212). Set bits per element. -/
def execVpopc (o : VArgs) (s : State) : Result := unaryIntWord 0x15 6 (fun w a _ => popCount w a) o s

/-- VNEG (R212). Wrapping negation. -/
def execVneg (o : VArgs) (s : State) : Result := unaryIntWord 0x15 7 (fun w a _ => 2 ^ w - a) o s

end Sys2Proof.Machine
end

