-- ==== Sys2Proof/Machine/VFp.lean ====
section
/-! DEFINITION. The vector floating-point words VFP (R213, R214), with the Haar bias of R206. -/

namespace Sys2Proof.Machine

/-- R200: the slot has a floating-point format. -/
def floatSlot (v : VType) : Act Fmt :=
  match v.float with
  | some F => pure F
  | none => trapWith cVtypeForm v.word

/-- R213: a word of two operands; `l` says when it is class L (R205). `f` answers an element from the patterns, the flags of
reading them and the residual. -/
def fpWord (major func : Nat) (l : VArgs → Bool) (f : VType → Fmt → Nat → Nat → Nat → Nat → Elem) (o : VArgs) (s : State) :
    Result :=
  vWordOf (vInfo major func o .v (if o.x then [o.b] else [])) o false (binarySources o) (fun v => do
    let F ← floatSlot v
    let s ← get
    let h := s.h
    let x := (h.reg o.b.toNat).toNat % 2 ^ v.sew
    let gs := binaryGroups o v
    let kept := if l o then keptLevels s v o gs else none
    elementwise v (h.vlIn v) o kept false gs fun reads r i res =>
      let (a, fa) := srcAt reads 0 r i
      let (b, fb) := operandB o reads x r i
      some (f v F a b (Nat.lor fa fb) res)) s

/-- R213: a word of one operand. -/
def fpUnary (major func : Nat) (l : Bool) (f : VType → Fmt → Nat → Nat → Nat → Elem) (o : VArgs) (s : State) : Result :=
  vWordOf (vInfo major func o .v) o false (fun _ v => [⟨⟨o.a.toNat, v.rows⟩, true⟩]) (fun v => do
    let F ← floatSlot v
    let s ← get
    let h := s.h
    let gs : List Group := [⟨o.a.toNat, v.rows⟩]
    let kept := if l then keptLevels s v o gs else none
    elementwise v (h.vlIn v) o kept false gs fun reads r i res =>
      let (a, fa) := srcAt reads 0 r i
      some (f v F a fa res)) s

/-- A rounded operation on two values. -/
def rounded2 (op : Rnd → Val → Val → Val × Nat) (v : VType) (F : Fmt) (a b fl res : Nat) : Elem :=
  roundEf v F (op (rndOf v.rnd) (val F a) (val F b)) fl res

/-- R206: the detail rows of va are copied: vb is a scalar, or a block whose detail rows have mark NONE. -/
def copiesDetails (s : State) (o : VArgs) (l : Nat) : Bool :=
  o.x || (match blockOf s o.b.toNat with
    | some (_, rows) => (rows.drop (8 / 2 ^ l)).all fun w => w.mark == none
    | none => false)

/-- R213, R205, R206: VFADD and VFSUB. -/
def addWord (func : Nat) (op : Rnd → Val → Val → Val × Nat) (o : VArgs) (s : State) : Result :=
  vWordOf (vInfo 0x16 func o .v (if o.x then [o.b] else [])) o false (binarySources o) (fun v => do
    let F ← floatSlot v
    let s ← get
    let h := s.h
    let x := (h.reg o.b.toNat).toNat % 2 ^ v.sew
    let gs := binaryGroups o v
    let kept := keptLevels s v o gs
    let copies := fun (r : Nat) => match kept with
      | some l => detailLevel l r != 0 && copiesDetails s o l
      | none => false
    elementwise v (h.vlIn v) o kept false gs fun reads r i res =>
      let (a, fa) := srcAt reads 0 r i
      if copies r then some ⟨a, 0, res⟩ else
      let (b, fb) := operandB o reads x r i
      some (rounded2 op v F a b (Nat.lor fa fb) res)) s

/-- R213: VFMA, VFMS and VFNMA: negate the product, negate d. -/
def fmaWord (func : Nat) (negP negD : Bool) (o : VArgs) (s : State) : Result :=
  vWordOf (vInfo 0x16 func o .v (if o.x then [o.b] else [])) o true (binarySources o) (fun v => do
    let F ← floatSlot v
    let s ← get
    let h := s.h
    let x := (h.reg o.b.toNat).toNat % 2 ^ v.sew
    let gs := binaryGroups o v ++ [⟨o.d.toNat, v.rows⟩]
    let kept := if o.x then keptLevels s v o gs else none
    elementwise v (h.vlIn v) o kept false gs fun reads r i res =>
      let (a, fa) := srcAt reads 0 r i
      let (b, fb) := operandB o reads x r i
      let (d, fd) := srcAt reads (gs.length - 1) r i
      let p := val F a
      let c := val F d
      some (roundEf v F (fmaVal (rndOf v.rnd).down (if negP then p.negate else p) (val F b) (if negD then c.negate else c))
        (orFlags [fa, fb, fd]) res)) s

/-- R214: the class of a pattern. -/
def classOf (F : Fmt) (a : Nat) : Nat :=
  match val F a with
  | .nan sig => if sig then 8 else 9
  | .inf neg => if neg then 0 else 7
  | .num neg m _ _ =>
    if m = 0 then (if neg then 3 else 4)
    else if bits a (F.eb + F.fb - 1) F.fb = 0 then (if neg then 2 else 5) else (if neg then 1 else 6)

/-- VFADD (R213). Floating add, with HAAR approximation-row rule. -/
def execVfadd (o : VArgs) (s : State) : Result := addWord 0 (fun r a b => addVal r.down a b) o s

/-- VFSUB (R213). Floating subtract. -/
def execVfsub (o : VArgs) (s : State) : Result := addWord 1 (fun r a b => addVal r.down a b.negate) o s

/-- VFMUL (R213). Floating multiply. -/
def execVfmul (o : VArgs) (s : State) : Result := fpWord 0x16 2 (fun o => o.x) (rounded2 fun _ a b => mulVal a b) o s

/-- VFMA (R213). a × b + d with one rounding. -/
def execVfma (o : VArgs) (s : State) : Result := fmaWord 3 false false o s

/-- VFMS (R213). a × b − d with one rounding. -/
def execVfms (o : VArgs) (s : State) : Result := fmaWord 4 false true o s

/-- VFNMA (R213). −(a × b) + d with one rounding. -/
def execVfnma (o : VArgs) (s : State) : Result := fmaWord 5 true false o s

/-- VFDIV (R213). Floating divide. -/
def execVfdiv (o : VArgs) (s : State) : Result := fpWord 0x16 6 (fun o => o.x) (rounded2 fun _ a b => divVal a b) o s

/-- VFSQRT (R213). Floating square root. -/
def execVfsqrt (o : VArgs) (s : State) : Result := fpUnary 0x16 7 false (fun v F a fl res => roundEf v F (sqrtVal (val F a)) fl res) o s

/-- VFMIN (R213). Minimum number. -/
def execVfmin (o : VArgs) (s : State) : Result := 
  fpWord 0x16 8 (fun _ => false) (fun _ F a b fl res => let (y, f) := minMax F false a b; ⟨y, Nat.lor fl f, res⟩) o s

/-- VFMAX (R213). Maximum number. -/
def execVfmax (o : VArgs) (s : State) : Result := 
  fpWord 0x16 9 (fun _ => false) (fun _ F a b fl res => let (y, f) := minMax F true a b; ⟨y, Nat.lor fl f, res⟩) o s

/-- VFABS (R213). Clear the sign bit; no flag is raised, of a HAAR source's reconstruction either (R181). -/
def execVfabs (o : VArgs) (s : State) : Result := fpUnary 0x16 10 false (fun _ F a _ res => ⟨a % F.signBit, 0, res⟩) o s

/-- VFNEG (R213). Invert the sign bit; no flag is raised, of a HAAR source's reconstruction either (R181). -/
def execVfneg (o : VArgs) (s : State) : Result := 
  fpUnary 0x16 11 true (fun _ F a _ res => ⟨(a + F.signBit) % 2 ^ F.width, 0, res⟩) o s

/-- VFCLASS (R214). Write one class bit per element. -/
def execVfclass (o : VArgs) (s : State) : Result := fpUnary 0x16 12 false (fun _ F a fl res => ⟨2 ^ classOf F a, fl, res⟩) o s

end Sys2Proof.Machine
end

