-- ==== Sys2Proof/Machine/VMask.lean ====
section
/-! DEFINITION. Words on k registers: the vector compares VCMP and VFCMP (R215 to R217) and KLOG (R218). -/

namespace Sys2Proof.Machine

/-- A k register's row. -/
def Hart.krow (h : Hart) (k r : Nat) : BitVec 8192 := (h.k[k]?.getD (Vector.replicate 8 0))[r]?.getD 0
/-- R30: k7 discards a write. -/
def Hart.setKrow (h : Hart) (k r : Nat) (b : BitVec 8192) : Hart :=
  { h with k := h.k.setIfInBounds k ((h.k[k]?.getD (Vector.replicate 8 0)).setIfInBounds r b) }
def Hart.setK (h : Hart) (k : Nat) (rows : List (BitVec 8192)) : Hart :=
  if k = 7 then h else rows.zipIdx.foldl (fun h (b, r) => h.setKrow k r b) h

/-- R215: one row of a k destination, and the flags of its active elements. -/
def Loop.krow (w : Loop) (f : Nat → Nat → Bool × Nat) (r : Nat) (old : BitVec 8192) : BitVec 8192 × Nat :=
  let put := fun (x i : Nat) (b : Bool) => setBits x i i (bitNat b)
  let (x, fl) := (List.range w.n).foldl (fun (x, fl) i =>
    if r * w.n + i < w.start then (x, fl)
    else if w.act r i then (put x i (f r i).1, Nat.lor fl (f r i).2)
    else (if w.v.maskZero then put x i false else x, fl)) (old.toNat, 0)
  (BitVec.ofNat 8192 (if w.v.tailZero then x % 2 ^ w.n else x), fl)

/-- R215: write a k destination; VSTART becomes 0 and flags are raised. -/
def writeMask (w : Loop) (d : Nat) (f : Nat → Nat → Bool × Nat) : Act Unit := modH fun h =>
  let out := (List.range w.v.rows).map fun r => w.krow f r (h.krow d r)
  { (h.setK d (out.map (·.1))).raiseFlags (orFlags (out.map (·.2))) with vstart := 0 }

/-- R201: the loop of a word that may stop part-way. -/
def Hart.loop (h : Hart) (v : VType) (mask : BitVec 3) (neg : Bool) : Loop :=
  ⟨v, h.vlIn v, h.maxIn v, h.vstart, h.act mask neg⟩

/-- The V-format view of a compare. -/
def plainV (o : VCmpArgs) : VArgs := ⟨o.d, o.a, o.b, o.mask, o.neg, o.t, o.x⟩
def vCmpInfo (major : Nat) (o : VCmpArgs) : Info :=
  { vInfo major 0 (plainV o) .none (if o.x then [o.b] else []) with word := vCmpWord major o }

/-- R205: a compare of class K: its sources are read as class R. -/
def compareWord (major : Nat) (accepts : VType → Bool) (f : VType → Nat → Nat → Bool × Nat) (o : VCmpArgs) (s : State) : Result :=
  let v := s.h.slot o.t
  issue (vCmpInfo major o) (andNext do
    acceptType (accepts v) v
    let h ← getH
    let x ← if o.x then xData h v o.b else pure 0
    let gs := binaryGroups (plainV o) v
    ringsReady gs []
    let s ← get
    let ins := gs.map (sourceRows s)
    let reads := ins.map fun rs => fun (r i : Nat) => srcElem v false (rowAt rs r) i
    writeMask (s.h.loop v o.mask o.neg) o.d.toNat fun r i =>
      let (a, fa) := srcAt reads 0 r i
      let (b, fb) := operandB (plainV o) reads x r i
      let (c, fc) := f v a b
      (c, orFlags [fa, fb, fc])
    modify (popHeads gs)) s
    (legal := do require (groupsLegal (← getH) none (binarySources (plainV o) (← getH) v)) cIllegal 0)

/-- R216: the natural conditions LTN, GEN, LEN and GTN. -/
def naturalCond (c : Nat) : Bool := c == 4 || c == 5 || c == 8 || c == 9

/-- VCMP (R216). Integer compare into a k register. Both elements are sign-extended, which keeps either order. -/
def execVcmp (o : VCmpArgs) (s : State) : Result :=
  compareWord 0x17 (fun v => v.fmt == fmtINT && !(naturalCond o.cond.toNat && v.sew == 4))
    (fun v a b => (compare o.cond.toNat (BitVec.ofInt 64 (signed v.sew a)) (BitVec.ofInt 64 (signed v.sew b)), 0)) o s

/-- VFCMP (R217). Floating compare into a k register. -/
def execVfcmp (o : VCmpArgs) (s : State) : Result :=
  compareWord 0x18 (fun v => v.float.isSome)
    (fun v a b => match v.float with
      | some F => floatCompare o.cond.toNat (val F a) (val F b)
      | none => (false, 0)) o s

/-- R218: a word from k registers to a k register. -/
def klogWord (func : Nat) (f : Bool → Bool → Bool) (o : VArgs) (s : State) : Result :=
  issue (vInfo 0x19 func o .none) (andNext do
    queueHere
    let h ← getH
    let v := h.slot o.t
    writeMask (h.loop v o.mask o.neg) o.d.toNat fun r i => (f (h.kbit o.a.toNat r i) (h.kbit o.b.toNat r i), 0)) s

/-- KAND (R218). -/
def execKand (o : VArgs) (s : State) : Result := klogWord 0 (fun a b => a && b) o s
/-- KOR (R218). -/
def execKor (o : VArgs) (s : State) : Result := klogWord 1 (fun a b => a || b) o s
/-- KXOR (R218). -/
def execKxor (o : VArgs) (s : State) : Result := klogWord 2 (fun a b => a != b) o s
/-- KANDN (R218). -/
def execKandn (o : VArgs) (s : State) : Result := klogWord 3 (fun a b => a && !b) o s
/-- KNOT (R218). -/
def execKnot (o : VArgs) (s : State) : Result := klogWord 4 (fun a _ => !a) o s
/-- KMOV (R218). -/
def execKmov (o : VArgs) (s : State) : Result := klogWord 5 (fun a _ => a) o s

/-- R218: the active set bits of k[k], by their place r*vl_T + i. -/
def activeBits (h : Hart) (v : VType) (o : VArgs) : List Nat :=
  let n := h.vlIn v
  (List.range v.rows).flatMap fun r => ((List.range n).filter fun i => h.act o.mask o.neg r i && h.kbit o.a.toNat r i).map
    fun i => r * n + i

/-- R218, R208, R210: KPOPC and KFIRST. -/
def kcountWord (func : Nat) (f : List Nat → Word) (o : VArgs) (s : State) : Result :=
  issue (vInfo 0x19 func o (.s o.d.toNat)) (andNext do
    let h ← getH
    writeD o.d (f (activeBits h (h.slot o.t) o))
    modH fun h => { h with vstart := 0 }) s
    (later := do require (← getH).copyReg.isNone cIllegalPair 0)

/-- KPOPC (R218). -/
def execKpopc (o : VArgs) (s : State) : Result := kcountWord 6 (fun l => word l.length) o s
/-- KFIRST (R218). -/
def execKfirst (o : VArgs) (s : State) : Result := kcountWord 7 (fun l => (l.head?.map word).getD (BitVec.allOnes 64)) o s

end Sys2Proof.Machine
end

