-- ==== Sys2Proof/Machine/VMove.lean ====
section
/-! DEFINITION. VMOVE: moves within and between rows (R219 to R223). -/

namespace Sys2Proof.Machine

/-- A move: its sources (whether they may be the destination group), whether it is class L and whole, and its operation, from
the slot, MAXVL, s[b] and the sources. -/
def moveWord (func : Nat) (srcs : List (BitVec 5)) (same l whole : Bool)
    (op : VType → Nat → Nat → List (Nat → Nat → Nat × Nat) → Nat → Nat → Nat → Option Elem) (o : VArgs) (s : State) : Result :=
  vWordOf (vInfo 0x1A func o .v (if o.x then [o.b] else [])) o false
    (fun _ v => srcs.map fun a => ⟨⟨a.toNat, v.rows⟩, same⟩) (fun v => do
      let s ← get
      let h := s.h
      let gs : List Group := srcs.map fun a => ⟨a.toNat, v.rows⟩
      let kept := if l then keptLevels s v o gs else none
      elementwise v (h.vlIn v) o kept whole gs (op v (h.maxIn v) (h.reg o.b.toNat).toNat)) s

/-- A move of element (r, i) of a source; moves raise no flag, a reconstruction's included (R207). -/
def movedFrom (j : Nat) (reads : List (Nat → Nat → Nat × Nat)) (r i res : Nat) : Option Elem := some ⟨(srcAt reads j r i).1, 0, res⟩
/-- A move of element (r, i) of the first source. -/
def moved (reads : List (Nat → Nat → Nat × Nat)) (r i res : Nat) : Option Elem := movedFrom 0 reads r i res
/-- The same when the element exists, else zero. -/
def movedIf (ok : Bool) (reads : List (Nat → Nat → Nat × Nat)) (r i res : Nat) : Option Elem :=
  if ok then moved reads r i res else some ⟨0, 0, res⟩

/-- VMV (R219). -/
def execVmv (o : VArgs) (s : State) : Result :=
  moveWord 0 [o.a] true true false (fun _ _ _ reads r i res => moved reads r i res) o s

/-- VMV with X = 1 (R219): the X value to every element; class N. -/
def execVmvX (o : VArgs) (s : State) : Result :=
  vWordOf (vInfo 0x1A 0 o .v [o.b]) o false (fun _ _ => []) (fun v => do
    let h ← getH
    let x ← xData h v o.b
    elementwise v (h.vlIn v) o none false [] fun _ _ _ res => some ⟨x, 0, res⟩) s

/-- VBCAST (R219). -/
def execVbcast (o : VArgs) (s : State) : Result :=
  moveWord 1 [o.a] false true false (fun _ mx x reads r _ res => movedIf (decide (x < mx)) reads r x res) o s

/-- VSEL (R219): the mask selects and does not guard. -/
def execVsel (o : VArgs) (s : State) : Result :=
  vWordOf (vInfo 0x1A 2 o .v) o false (fun _ v => [⟨⟨o.a.toNat, v.rows⟩, true⟩, ⟨⟨o.b.toNat, v.rows⟩, true⟩]) (fun v => do
    let h ← getH
    elementwiseIf (fun _ _ => true) v v (h.vlIn v) o none false [⟨o.a.toNat, v.rows⟩, ⟨o.b.toNat, v.rows⟩] fun reads r i res =>
      movedFrom (if h.act o.mask o.neg r i then 0 else 1) reads r i res) s

/-- VSLIDEUP (R220): elements below the offset are treated as masked off. -/
def execVslideup (o : VArgs) (s : State) : Result :=
  moveWord 3 [o.a] false true false (fun _ _ x reads r i res => if x ≤ i then moved reads r (i - x) res else none) o s

/-- VSLIDEDN (R220). -/
def execVslidedn (o : VArgs) (s : State) : Result :=
  moveWord 4 [o.a] false true false (fun _ mx x reads r i res => movedIf (decide (i + x < mx)) reads r (i + x) res) o s

/-- VGATHR (R221). -/
def execVgathr (o : VArgs) (s : State) : Result :=
  moveWord 5 [o.a, o.b] false false false (fun _ mx _ reads r i res =>
    let j := (srcAt reads 1 r i).1 % 2 ^ 64
    movedIf (decide (j < mx)) reads r j res) o s

/-- VCOMPR (R222). -/
def execVcompr (o : VArgs) (s : State) : Result :=
  vWordOf (vInfo 0x1A 6 o .v) o false (fun _ v => [⟨⟨o.a.toNat, v.rows⟩, false⟩]) (fun v => do
    let h ← getH
    let n := h.vlIn v
    rowWord v v o none [⟨o.a.toNat, v.rows⟩] fun reads tags olds efc => olds.zipIdx.map fun (w, r) =>
      let xs := ((List.range n).filter (h.act o.mask o.neg r)).map fun i => (srcAt reads 0 r i).1
      let w1 := (xs.zipIdx).foldl (fun w (x, p) => Wide.set w v.sew p x) w
      ({ ((w1.cutTail v xs.length (h.maxIn v)).markTo n) with tag := tags r }, 0, efc r)) s

/-- The number of active elements before element i of row r. -/
def activeBefore (h : Hart) (o : VArgs) (r i : Nat) : Nat := ((List.range i).filter (h.act o.mask o.neg r)).length

/-- VEXPND (R222). -/
def execVexpnd (o : VArgs) (s : State) : Result :=
  moveWord 7 [o.a] false false true (fun _ _ _ reads r i res => moved reads r (activeBefore s.h o r i) res) o s

/-- VIOTA (R222); class N. -/
def execViota (o : VArgs) (s : State) : Result :=
  vWordOf (vInfo 0x1A 8 o .v) o false (fun _ _ => []) (fun v => do
    acceptType (v.fmt == fmtINT) v
    let h ← getH
    elementwise v (h.vlIn v) o none true [] fun _ r i res => some ⟨activeBefore h o r i % 2 ^ v.sew, 0, res⟩) s

/-- VEXTS (R222): element s[b] of row 0. -/
def execVexts (o : VArgs) (s : State) : Result :=
  let v := s.h.slot o.t
  let g : Group := ⟨o.a.toNat, v.rows⟩
  issue { vInfo 0x1A 9 o (.s o.d.toNat) [o.b] with kPair := false } (andNext do
    acceptType (v.sew != 128) v
    ringsReady [g] []
    let s ← get
    let h := s.h
    let j := (h.reg o.b.toNat).toNat
    let e := if j < h.maxIn v then (srcElem v false (rowAt (sourceRows s g) 0) j).1 else 0
    writeD o.d (BitVec.ofInt 64 (signed v.sew e)) 1
    modify (popHeads [g])
    modH fun h => { h with vstart := 0 }) s
    (legal := do require (groupsLegal (← getH) none [⟨g, false⟩]) cIllegal 0)

/-- R222: the block of vd's row 0 becomes its reconstruction, in every element; no flag is raised (R207). -/
def spreadBlock (v : VType) (name : Nat) (s : State) : State :=
  match blockOf s name with
  | none => s
  | some (l, rows) =>
    let mx := s.h.maxIn v
    let cols := (List.range mx).map fun i =>
      let col := rows.map fun w => getElem w.bits v.sew i
      match v.float with
      | some F => (haarInverse F l col).1
      | none => col
    let new := rows.zipIdx.map fun (w, r) =>
      { ((cols.zipIdx).foldl (fun w (c, i) => Wide.set w v.sew i (c.getD r 0)) w) with tag := 0, mark := some (mx - 1) }
    writeGroup mx ⟨name / 8 * 8, 8⟩ new s

/-- VINSS (R222): element s[b] of row 0 of vd := s[a]. -/
def execVinss (o : VArgs) (s : State) : Result :=
  vWordOf { vInfo 0x1A 10 o .v [o.a, o.b] with kPair := false } o false (fun _ _ => []) (fun v => do
    acceptType (v.sew != 128) v
    let d : Group := ⟨o.d.toNat, v.rows⟩
    let h ← getH
    ringsReady [] (d :: (h.copyReg.toList.map fun c => ⟨c, v.rows⟩))
    if !d.isRing h then modify (spreadBlock v o.d.toNat)
    let j := (h.reg o.b.toNat).toNat
    let rows := fun (olds : List Wide) => olds.zipIdx.map fun (w, r) =>
      if r = 0 ∧ j < h.maxIn v then (w.set v.sew j ((h.reg o.a.toNat).toNat % 2 ^ v.sew)).markTo (j + 1) else w
    putRows (h.maxIn v) d [] rows 0) s

/-- VROWMV (R223). -/
def execVrowmv (o : VArgs) (s : State) : Result :=
  moveWord 11 [o.a] false false true (fun v _ x reads r i res => moved reads ((r + x) % v.rows) i res) o s

/-- VTRN (R223): each ROWS x ROWS tile is transposed. -/
def execVtrn (o : VArgs) (s : State) : Result :=
  vWordOf (vInfo 0x1A 12 o .v) o false (fun _ v => [⟨⟨o.a.toNat, v.rows⟩, false⟩]) (fun v => do
    let h ← getH
    let n := h.vlIn v
    let k := v.rows
    elementwise v n o none true [⟨o.a.toNat, k⟩] fun reads r i res =>
      if i < k * (n / k) then moved reads (i % k) (k * (i / k) + r) res else moved reads r i res) s

end Sys2Proof.Machine
end

