-- ==== Sys2Proof/Machine/VConv.lean ====
section
/-! DEFINITION. VCONV: conversions, codebook coding, packing and unpacking (R224 to R226). -/

namespace Sys2Proof.Machine

/-- R224: a conversion from the other slot's type to slot T's. `checks` holds the word's own form checks and `op` its
element, from the source's pattern and flags and the residual. -/
def convertVector (func : Nat) (checks : Hart → VType → VType → Act Unit) (op : Hart → VType → VType → Nat → Nat → Nat → Elem)
    (o : VArgs) (s : State) : Result :=
  vWordOf (vInfo 0x1B func o .v) o false
    (fun h v => [⟨⟨o.a.toNat, v.rows⟩, (h.slot !o.t).sew == v.sew⟩]) (fun v => do
      let h ← getH
      let u := h.slot !o.t
      require (u.rows == v.rows) cVtypeForm v.word
      checks h u v
      elementwiseIf (h.act o.mask o.neg) v u (min h.vl (min (h.maxIn u) (h.maxIn v))) o none false [⟨o.a.toNat, v.rows⟩]
        fun reads r i res =>
          let (a, f) := srcAt reads 0 r i
          some (op h u v a f res)) s

/-- R224: the mode bits NI, NO and WRAP. -/
def cvNI (o : VArgs) : Bool := bit o.b.toNat 0
def cvNO (o : VArgs) : Bool := bit o.b.toNat 1
def cvWRAP (o : VArgs) : Bool := bit o.b.toNat 2
def numeric (v : VType) : Bool := v.fmt == fmtINT || v.float.isSome

/-- R224: an integer source's value. -/
def intValue (natural : Bool) (w a : Nat) : Int := if natural then a else signed w a

/-- R224: one element. -/
def convertElem (o : VArgs) (u v : VType) (a f res : Nat) : Elem :=
  match u.float, v.float with
  | none, none =>
    let x := intValue (cvNI o) u.sew a
    ⟨wrap v.sew (if u.sew ≤ v.sew ∨ cvWRAP o then x else sat x v.sew (!cvNO o)), f, res⟩
  | none, some F => roundEf v F (ofInt (intValue (cvNI o) u.sew a), 0) f res
  | some G, some F => roundEf v F (val G a, sigFlag [val G a]) f res
  | some G, none =>
    let (x, g) := cvtInt (val G a) v.sew (!cvNO o) (rndOf v.rnd)
    ⟨wrap v.sew x, Nat.lor f g, res⟩

/-- VCVT (R224). -/
def execVcvt (o : VArgs) (s : State) : Result :=
  convertVector 0 (fun _ u v => do
      acceptType (numeric v && !(cvNO o && v.fmt == fmtINT && v.sew == 4)) v
      acceptType (numeric u && !(cvNI o && u.fmt == fmtINT && u.sew == 4)) u)
    (fun _ u v => convertElem o u v) o s

/-- R163: the codebook of a CODE slot. -/
def Hart.book (h : Hart) (v : VType) : CodeSlot := h.cbs[v.cb]?.getD {}
def bookReady (h : Hart) (v : VType) : Act Unit := require ((h.book v).entries.length == 2 ^ v.sew) cCbForm v.word

/-- R185, R190: encoding under a slot's RND. -/
def encodeEf (v : VType) (c : CodeSlot) (x : Val) (f res : Nat) : Elem :=
  if v.rnd != 4 then
    let (j, g) := cbEncode c x
    ⟨j, Nat.lor f g, res⟩
  else
    let (w, g) := addVal false x (val fp32 res)
    let (j, k) := cbEncode c w
    let y := cbDecode c j
    ⟨j, orFlags [f, g, k], if !w.finite || !y.finite then 0 else (round fp32 .rne (addVal false w y.negate).1).1⟩

/-- VCBENC (R225). -/
def execVcbenc (o : VArgs) (s : State) : Result :=
  convertVector 1 (fun h u v => do
      acceptType (v.fmt == fmtCODE) v
      acceptType u.float.isSome u
      bookReady h v)
    (fun h u v a f res => match u.float with
      | some F => encodeEf v (h.book v) (val F a) f res
      | none => ⟨0, 0, res⟩) o s

/-- VCBDEC (R225). -/
def execVcbdec (o : VArgs) (s : State) : Result :=
  convertVector 2 (fun h u v => do
      acceptType v.float.isSome v
      acceptType (u.fmt == fmtCODE) u
      bookReady h u)
    (fun h u v a f res => match v.float with
      | some F => roundEf v F (cbDecode (h.book u) a, 0) f res
      | none => ⟨0, 0, res⟩) o s

/-- VPACK (R226): va's and vb's elements in turn; a class L copy, which raises no flag (R205, R207). -/
def execVpack (o : VArgs) (s : State) : Result :=
  vWordOf (vInfo 0x1B 3 o .v) o false (fun _ v => [⟨⟨o.a.toNat, v.rows⟩, false⟩, ⟨⟨o.b.toNat, v.rows⟩, false⟩]) (fun v => do
    let s ← get
    let gs : List Group := [⟨o.a.toNat, v.rows⟩, ⟨o.b.toNat, v.rows⟩]
    elementwise v (s.h.vlIn v) o (keptLevels s v o gs) false gs fun reads r i res =>
      movedFrom (i % 2) reads r (i / 2) res) s

/-- VUNPK (R226): every second element, from s[b]'s bit 0. -/
def execVunpk (o : VArgs) (s : State) : Result :=
  vWordOf (vInfo 0x1B 4 o .v [o.b]) o false (fun _ v => [⟨⟨o.a.toNat, v.rows⟩, false⟩]) (fun v => do
    let s ← get
    let h := s.h
    let gs : List Group := [⟨o.a.toNat, v.rows⟩]
    elementwise v (h.vlIn v) o (keptLevels s v o gs) false gs fun reads r i res =>
      let j := 2 * i + (h.reg o.b.toNat).toNat % 2
      movedIf (decide (j < h.maxIn v)) reads r j res) s

end Sys2Proof.Machine
end

