-- ==== Sys2Proof/Machine/VRed.lean ====
section
/-! DEFINITION. VRED: reductions and dot products (R227, R228). -/

namespace Sys2Proof.Machine

/-- Patterns with the flags of reading them. -/
abbrev Picked := List (Option (Nat × Nat))
def Picked.flags (xs : Picked) : Nat := orFlags (xs.filterMap fun x => x.map (·.2))
def Picked.vals (xs : Picked) : List (Option Nat) := xs.map fun x => x.map (·.1)

/-- R227: element 0 of each destination row receives f of the row: `f` answers a pattern and flags from the row's number and
the elements present of each source. -/
def reduceRows (v : VType) (o : VArgs) (srcs : List Group)
    (f : List (Nat → Nat → Nat × Nat) → Nat → List Nat → Nat × Nat) : Act Unit := do
  let h ← getH
  let n := h.vlIn v
  rowWord v v o none srcs fun reads tags olds efc => olds.zipIdx.map fun (w, r) =>
    let (y, fl) := f reads r ((List.range n).filter (h.act o.mask o.neg r))
    ({ (((w.set v.sew 0 y).cutTail v 1 (h.maxIn v)).markTo 1) with tag := tags r }, fl, efc r)

/-- R227: a reduction: `f` from the type, acc and row r's elements (absent ones none). -/
def reductionWord (func : Nat) (accepts : VType → Bool) (f : VType → Nat → List (Option Nat) → Nat × Nat) (o : VArgs) (s : State) :
    Result :=
  vWordOf (vInfo 0x1C func o .v (if o.x then [o.b] else [])) o false
    (fun _ v => ⟨⟨o.a.toNat, v.rows⟩, false⟩ :: (if o.x then [] else [⟨⟨o.b.toNat, v.rows⟩, true⟩])) (fun v => do
      acceptType (accepts v) v
      let h ← getH
      let x ← if o.x then xData h v o.b else pure 0
      reduceRows v o (binaryGroups o v) fun reads r present =>
        let xs : Picked := (List.range (h.vlIn v)).map fun i => if present.contains i then some (srcAt reads 0 r i) else none
        let (acc, fa) := operandB o reads x r 0
        let (y, fy) := if present.isEmpty then (acc, 0) else f v acc xs.vals
        (y, orFlags [fa, xs.flags, fy])) s

/-- R200: the types of sums, extrema and dot products. -/
def sumType (v : VType) : Bool := (v.fmt == fmtINT && v.sew != 4) || v.float.isSome
/-- R227: an integer sum. -/
def intSum (v : VType) (acc : Nat) (xs : List (Option Nat)) : Nat :=
  (acc + (xs.filterMap id).sum) % 2 ^ v.sew

/-- VREDO (R227). -/
def execVredo (o : VArgs) (s : State) : Result :=
  reductionWord 0 sumType (fun v acc xs => match v.float with
    | some F => sumO F .rne acc xs
    | none => (intSum v acc xs, 0)) o s

/-- VREDT (R227). -/
def execVredt (o : VArgs) (s : State) : Result :=
  reductionWord 1 sumType (fun v acc xs => match v.float with
    | some F => (match sumT F .rne xs with
      | (some t, f) => let (y, g) := addF F .rne acc t; (y, Nat.lor f g)
      | (none, f) => (acc, f))
    | none => (intSum v acc xs, 0)) o s

/-- R227: the extremum of acc and the present elements. -/
def extremum (isMax : Bool) (v : VType) (acc : Nat) (xs : List (Option Nat)) : Nat × Nat :=
  (xs.filterMap id).foldl (fun (a, f) x => match v.float with
    | some F => let (y, g) := minMax F isMax a x; (y, Nat.lor f g)
    | none => (wrapS (if isMax then max else min) v.sew a x, f)) (acc, 0)

/-- VREDMAX (R227). -/
def execVredmax (o : VArgs) (s : State) : Result := reductionWord 2 sumType (extremum true) o s
/-- VREDMIN (R227). -/
def execVredmin (o : VArgs) (s : State) : Result := reductionWord 3 sumType (extremum false) o s

/-- VREDAND (R227). -/
def execVredand (o : VArgs) (s : State) : Result :=
  reductionWord 4 (fun v => v.fmt == fmtINT) (fun _ acc xs => ((xs.filterMap id).foldl Nat.land acc, 0)) o s
/-- VREDOR (R227). -/
def execVredor (o : VArgs) (s : State) : Result :=
  reductionWord 5 (fun v => v.fmt == fmtINT) (fun _ acc xs => ((xs.filterMap id).foldl Nat.lor acc, 0)) o s

/-- R228: a dot product: `f` from the format, acc and the pairs. -/
def dotWord (func : Nat) (f : Fmt → Nat → List (Option (Nat × Nat)) → Nat × Nat) (o : VArgs) (s : State) : Result :=
  vWordOf (vInfo 0x1C func o .v) o true (fun _ v => [⟨⟨o.a.toNat, v.rows⟩, false⟩, ⟨⟨o.b.toNat, v.rows⟩, false⟩]) (fun v => do
    acceptType (sumType v) v
    let h ← getH
    reduceRows v o [⟨o.a.toNat, v.rows⟩, ⟨o.b.toNat, v.rows⟩, ⟨o.d.toNat, v.rows⟩] fun reads r present =>
      let pairs := (List.range (h.vlIn v)).map fun i =>
        if present.contains i then some (srcAt reads 0 r i, srcAt reads 1 r i) else none
      let fl := orFlags (pairs.filterMap fun p => p.map fun (a, b) => Nat.lor a.2 b.2)
      let ps := pairs.map fun p => p.map fun (a, b) => (a.1, b.1)
      let (acc, fa) := srcAt reads 2 r 0
      let (y, fy) := match v.float with
        | some F => f F acc ps
        | none => ((acc + (ps.filterMap fun p => p.map fun (a, b) => a * b).sum) % 2 ^ v.sew, 0)
      (y, orFlags [fl, fa, fy])) s

/-- VDOTO (R228). -/
def execVdoto (o : VArgs) (s : State) : Result :=
  dotWord 6 (fun F acc ps => (ps.filterMap id).foldl (fun (acc, f) (a, b) =>
    let (y, g) := roundWith F .rne (fmaVal false (val F a) (val F b) (val F acc))
    (y, Nat.lor f g)) (acc, 0)) o s

/-- VDOTT (R228). -/
def execVdott (o : VArgs) (s : State) : Result :=
  dotWord 7 (fun F acc ps =>
    let prods := ps.map fun p => p.map fun (a, b) => roundWith F .rne (mulVal (val F a) (val F b))
    let fl := orFlags (prods.filterMap fun p => p.map (·.2))
    match sumT F .rne (prods.map fun p => p.map (·.1)) with
    | (some t, f) => let (y, g) := addF F .rne acc t; (y, orFlags [fl, f, g])
    | (none, _) => (acc, fl)) o s

end Sys2Proof.Machine
end

