-- ==== Sys2Proof/Machine/VSpec.lean ====
section
/-! DEFINITION. The special functions VSPEC (R229): exact function values rounded once. A transcendental value is computed in
fixed point, as an integer at 2^-512, far below half a quantum of every accepted format (FP16, BF16, FP32); since it is never
exact, its `Val` says that something lies beyond it. -/

namespace Sys2Proof.Machine

/-- Bits of the fixed point. -/
def fxP : Nat := 512
def fxOne : Nat := 2 ^ fxP

/-- An inexact value from its fixed point. -/
def fxVal (x : Int) : Val := .num (decide (x < 0)) x.natAbs (-(fxP : Int)) true

/-- The sum of 1/((2i+1) n^(2i+1)), with alternating signs or not, from the power p = 2^P/n^(2i+1). -/
def oddSeries (alt : Bool) (n : Nat) : Nat → Nat → Nat → Int
  | 0, _, _ => 0
  | fuel + 1, i, p =>
    let t : Int := (p / (2 * i + 1) : Nat)
    (if alt && i % 2 == 1 then -t else t) + oddSeries alt n fuel (i + 1) (p / (n * n))
/-- pi = 16 atan(1/5) - 4 atan(1/239), and ln 2 = 2 atanh(1/3). -/
def fxPi : Int := 16 * oddSeries true 5 120 0 (fxOne / 5) - 4 * oddSeries true 239 40 0 (fxOne / 239)
def fxLn2 : Int := 2 * oddSeries false 3 170 0 (fxOne / 3)

/-- e^x for 0 ≤ x < 1, by its series. -/
def expSeries (x : Nat) : Nat → Nat → Nat → Nat
  | 0, _, _ => 0
  | fuel + 1, i, t => t + expSeries x fuel (i + 1) (t * x / fxOne / (i + 1))
/-- n squarings. -/
def squares : Nat → Nat → Nat
  | 0, y => y
  | n + 1, y => squares n (y * y / fxOne)
/-- e^x for x ≥ 0 and below 1024. -/
def fxExp (x : Nat) : Nat := squares 10 (expSeries (x / 1024) 100 0 fxOne)

/-- m 2^e in fixed point, no larger than 400. -/
def fxOf (m : Nat) (e : Int) : Nat :=
  if 10 ≤ (Nat.log2 m : Int) + e then 400 * fxOne
  else min (400 * fxOne) (if 0 ≤ e + fxP then m * 2 ^ (e + fxP).toNat else m / 2 ^ (-(e + fxP)).toNat)

/-- 2^a, a finite: a = n + f, and 2^f = e^(f ln 2). -/
def exp2Val (neg : Bool) (m : Nat) (e : Int) : Val :=
  let x : Int := if neg then -(fxOf m e : Int) else fxOf m e
  let n := x / fxOne
  let f := (x % fxOne).toNat
  if f = 0 then .num false 1 n false
  else .num false (fxExp (f * fxLn2.toNat / fxOne)) (n - fxP) true

/-- log2 y for 1 ≤ y < 2, bit by bit from the squares of y. -/
def log2Bits : Nat → Nat → Nat → Nat
  | 0, _, acc => acc
  | n + 1, y, acc =>
    let z := y * y / 2 ^ 1024
    if 2 ^ 1025 ≤ z then log2Bits n (z / 2) (2 * acc + 1) else log2Bits n z (2 * acc)
/-- log2 a, a > 0 and finite. -/
def log2Val (m : Nat) (e : Int) : Val :=
  let k := Nat.log2 m
  let n := (k : Int) + e
  if m = 2 ^ k then ofInt n
  else
    let bits' := log2Bits 300 (m * 2 ^ (1024 - k)) 0
    ofFloor (n * (2 ^ 300 : Nat) + bits') (-300) true

/-- 1/sqrt a, a > 0 and finite. -/
def rsqVal (m : Nat) (e : Int) : Val :=
  let n := 2 ^ (2 * (fxP : Int) - e).toNat
  let r := isqrt (n / m)
  .num false r (-(fxP : Int)) (r * r * m != n)

/-- sin x for 0 ≤ x ≤ pi/2, by its series. -/
def sinSeries (x2 : Nat) : Nat → Nat → Nat → Int
  | 0, _, _ => 0
  | fuel + 1, i, t => (t : Int) - sinSeries x2 fuel (i + 1) (t * x2 / fxOne / ((2 * i + 2) * (2 * i + 3)))
/-- sin(pi a) of a = num / 2^d, and whether a is an integer. -/
def sinPi (num d : Nat) : Val :=
  let a := num % 2 ^ (d + 1)
  let neg := decide (2 ^ d ≤ a)
  let a1 := a % 2 ^ d
  let a2 := if 2 ^ d < 2 * a1 then 2 ^ d - a1 else a1
  if a2 = 0 then .num false 0 0 false
  else if 2 * a2 = 2 ^ d then .num neg 1 0 false
  else
    let x := fxPi.toNat * a2 / 2 ^ d
    let y := sinSeries (x * x / fxOne) 90 0 x
    fxVal (if neg then -y else y)
/-- a as a fraction over a power of two, at least 2. -/
def dyadic (m : Nat) (e : Int) : Nat × Nat :=
  let d := (max 1 (-e)).toNat
  (m * 2 ^ (e + d).toNat, d)

/-- tanh a and 1/(1 + e^-a). -/
def tanhVal (neg : Bool) (m : Nat) (e : Int) : Val :=
  let x := fxOf m e
  let y := fxExp (min (2 * x) (400 * fxOne))
  let t : Int := ((y - fxOne) * fxOne / (y + fxOne) : Nat)
  fxVal (if neg then -t else t)
def sigmoidVal (neg : Bool) (m : Nat) (e : Int) : Val :=
  let y := fxExp (fxOf m e)
  if neg then fxVal ((fxOne * fxOne / (y + fxOne) : Nat) : Int) else fxVal ((y * fxOne / (y + fxOne) : Nat) : Int)

def one : Val := .num false 1 0 false
def zeroVal (neg : Bool) : Val := .num neg 0 0 false

/-- R229: the functions, with NV and DZ. -/
def specVal (func : Nat) (a : Val) : Val × Nat :=
  match a with
  | .nan sig => (.nan false, flagIf sig flNV)
  | .inf neg =>
    (match func with
      | 0 => (if neg then zeroVal false else .inf false, 0)
      | 1 => if neg then (.nan false, flNV) else (.inf false, 0)
      | 2 => (zeroVal neg, 0)
      | 3 => if neg then (.nan false, flNV) else (zeroVal false, 0)
      | 4 => (.nan false, flNV)
      | 5 => (.nan false, flNV)
      | 6 => (.num neg 1 0 false, 0)
      | _ => (if neg then zeroVal false else one, 0))
  | .num neg m e _ =>
    if m = 0 then
      (match func with
        | 0 => (one, 0)
        | 1 => (.inf true, flDZ)
        | 2 => (.inf neg, flDZ)
        | 3 => (.inf neg, flDZ)
        | 4 => (zeroVal neg, 0)
        | 5 => (one, 0)
        | 6 => (zeroVal neg, 0)
        | _ => (.num false 1 (-1) false, 0))
    else
      (match func with
        | 0 => (exp2Val neg m e, 0)
        | 1 => if neg then (.nan false, flNV) else (log2Val m e, 0)
        | 2 => divVal one a
        | 3 => if neg then (.nan false, flNV) else (rsqVal m e, 0)
        | 4 =>
          let (n, d) := dyadic m e
          let y := sinPi n d
          (if y.isZero then zeroVal neg else if neg then y.negate else y, 0)
        | 5 =>
          let (n, d) := dyadic m e
          (sinPi (n + 2 ^ (d - 1)) d, 0)
        | 6 => (tanhVal neg m e, 0)
        | _ => (sigmoidVal neg m e, 0))

/-- R200, R229: a special function on FP16, FP32 and BF16 rounds by RNE whatever RND says. -/
def specWord (func : Nat) (o : VArgs) (s : State) : Result :=
  vWordOf (vInfo 0x1D func o .v) o false (fun _ v => [⟨⟨o.a.toNat, v.rows⟩, true⟩]) (fun v => do
    acceptType (v.sew != 64) v
    let F ← floatSlot v
    let h ← getH
    elementwise v (h.vlIn v) o none false [⟨o.a.toNat, v.rows⟩] fun reads r i res =>
      let (a, f) := srcAt reads 0 r i
      let (y, g) := roundWith F .rne (specVal func (val F a))
      some ⟨y, Nat.lor f g, res⟩) s

/-- VEXP2 (R229). -/
def execVexp2 (o : VArgs) (s : State) : Result := specWord 0 o s
/-- VLOG2 (R229). -/
def execVlog2 (o : VArgs) (s : State) : Result := specWord 1 o s
/-- VRCP (R229). -/
def execVrcp (o : VArgs) (s : State) : Result := specWord 2 o s
/-- VRSQ (R229). -/
def execVrsq (o : VArgs) (s : State) : Result := specWord 3 o s
/-- VSIN (R229). -/
def execVsin (o : VArgs) (s : State) : Result := specWord 4 o s
/-- VCOS (R229). -/
def execVcos (o : VArgs) (s : State) : Result := specWord 5 o s
/-- VTANH (R229). -/
def execVtanh (o : VArgs) (s : State) : Result := specWord 6 o s
/-- VSIGM (R229). -/
def execVsigm (o : VArgs) (s : State) : Result := specWord 7 o s

end Sys2Proof.Machine
end

