-- ==== Sys2Proof/Machine/VMerge.lean ====
section
/-! DEFINITION. VMERGE: merges and searches (R232 to R234). -/

namespace Sys2Proof.Machine

/-- R232: the merge of two key lists to n positions, from positions ia and ib: each key taken with its place in the
concatenation; and how many come from the first. -/
def mergeKeys (n : Nat) (ka kb : Nat → Nat) : Nat → Nat → Nat → List (Nat × Nat) × Nat
  | 0, ia, _ => ([], ia)
  | k + 1, ia, ib =>
    if n ≤ ib ∨ (ia < n ∧ ka ia ≤ kb ib) then
      let (l, c) := mergeKeys n ka kb k (ia + 1) ib
      ((ka ia, ia) :: l, c)
    else
      let (l, c) := mergeKeys n ka kb k ia (ib + 1)
      ((kb ib, n + ib) :: l, c)

/-- R200: integers of at least `least` bits. -/
def keyType (least : Nat) (v : VType) : Bool := v.fmt == fmtINT && decide (least ≤ v.sew)

/-- R232: VMRG and VMRGI. -/
def mergeWord (func least : Nat) (pick : Nat × Nat → Nat) (o : VArgs) (s : State) : Result :=
  vWordOf { vInfo 0x1E func o .v with kPair := false } o false
    (fun _ v => [⟨⟨o.a.toNat, v.rows⟩, false⟩, ⟨⟨o.b.toNat, v.rows⟩, false⟩]) (fun v => do
      acceptType (keyType least v && v.rows == 1) v
      let h ← getH
      let n := h.vlIn v
      let gs : List Group := [⟨o.a.toNat, 1⟩, ⟨o.b.toNat, 1⟩]
      let s ← get
      let key := fun (g : Nat) (i : Nat) => getElem (rowAt (sourceRows s ⟨g, 1⟩) 0).bits v.sew i
      let (out, taken) := mergeKeys n (key o.a.toNat) (key o.b.toNat) n 0 0
      rowWord v v o none gs fun _ tags olds efc => olds.zipIdx.map fun (w, r) =>
        let w1 := (out.zipIdx).foldl (fun w (x, p) => Wide.set w v.sew p (pick x % 2 ^ v.sew)) w
        ({ ((w1.cutTail v n (h.maxIn v)).markTo n) with tag := tags r }, 0, efc r)
      modH fun h => { h with csr := { h.csr with mrgcnt := word taken } }) s

/-- VMRG (R232). -/
def execVmrg (o : VArgs) (s : State) : Result := mergeWord 0 8 (fun x => x.1) o s
/-- VMRGI (R232). -/
def execVmrgi (o : VArgs) (s : State) : Result := mergeWord 1 16 (fun x => x.2) o s

/-- VBSRCH (R234): how many keys of the row lie below the query. -/
def execVbsrch (o : VArgs) (s : State) : Result :=
  vWordOf (vInfo 0x1E 2 o .v) o false (fun _ v => [⟨⟨o.a.toNat, v.rows⟩, false⟩, ⟨⟨o.b.toNat, v.rows⟩, false⟩]) (fun v => do
    acceptType (keyType 16 v) v
    let h ← getH
    let n := h.vlIn v
    elementwise v n o none false [⟨o.a.toNat, v.rows⟩, ⟨o.b.toNat, v.rows⟩] fun reads r i res =>
      let q := (srcAt reads 1 r i).1
      some ⟨((List.range n).filter fun j => decide ((srcAt reads 0 r j).1 < q)).length, 0, res⟩) s

end Sys2Proof.Machine
end

