-- ==== Sys2Proof/Machine/VMem.lean ====
section
/-! DEFINITION. The vector memory words but for packed tiles (R139 to R152). -/

namespace Sys2Proof.Machine

/-- One access of a vector memory word: its element's number r·vl + i, address and size, its row of the register group, and
the elements it carries with their places in it. A segment's fields share their element's number (log 52). -/
structure Elt where
  idx : Nat
  va : Nat
  size : Nat
  g : Nat
  els : List (Nat × Nat)
  deriving DecidableEq, Repr

/-- R139: rowbase(r). -/
def rowBase (h : Hart) (o : MArgs) (r : Nat) : Nat := (h.reg o.a.toNat + word r * h.csr.rowstr).toNat

/-- The number of fields: F in segment mode. -/
def fieldsOf (o : MArgs) : Nat := if o.mode == 3 then o.b.toNat + 1 else 1
/-- R297: the `.w` form. -/
def isTile (o : MArgs) : Bool := o.mode == 3 && o.b == 0

/-- R139: the address of field f of element i of row r. `index` reads the index group. -/
def eltAddr (h : Hart) (v : VType) (o : MArgs) (index : Nat → Nat → Nat) (r i f : Nat) : Nat :=
  let e := v.sew / 8
  let off : Word := match o.mode.toNat with
    | 0 => word (i * e)
    | 1 => word i * h.reg o.b.toNat
    | 2 => word (index r i)
    | _ => word ((i * fieldsOf o + f) * e)
  (word (rowBase h o r) + off).toNat

/-- R139, R141: the accesses of the active elements at or above VSTART, at SEW 8 and above. -/
def eltsOf (w : Loop) (fields : Nat) (addr : Nat → Nat → Nat → Nat) : List Elt :=
  (List.range w.v.rows).flatMap fun r => (List.range w.n).flatMap fun i => (List.range fields).filterMap fun f =>
    let idx := r * w.n + i
    if w.act r i && decide (w.start ≤ idx) then some ⟨idx, addr r i f, w.v.sew / 8, f * w.v.rows + r, [(i, 0)]⟩ else none

/-- R140: the containers of packed elements: a byte of two or a word of five. -/
def packedElts (w : Loop) (base : Nat → Nat) : List Elt :=
  let (per, size) := if w.v.sew = 4 then (2, 1) else (5, 4)
  (List.range w.v.rows).flatMap fun r => (List.range ((w.n + per - 1) / per)).filterMap fun c =>
    let els := (List.range per).filterMap fun j =>
      let i := c * per + j
      if decide (i < w.n) && w.act r i && decide (w.start ≤ r * w.n + i) then some (i, w.v.sew * j) else none
    match els with
    | [] => none
    | (i, _) :: _ => some ⟨r * w.n + i, (base r + c * size) % 2 ^ 64, size, r, els⟩

/-- The index group of an indexed form, and its elements, read as stored (R139). -/
def indexGroup (v : VType) (o : MArgs) : List Group := if o.mode == 2 then [⟨o.b.toNat, v.rows⟩] else []
def indexAt (s : State) (v : VType) (o : MArgs) : Nat → Nat → Nat :=
  match indexGroup v o with
  | g :: _ =>
    let rows := groupRows s g
    fun r i => getElem (rows.getD r {}).bits v.sew i % 2 ^ 64
  | [] => fun _ _ => 0

def memElts (s : State) (v : VType) (o : MArgs) (start : Nat) : List Elt :=
  let w : Loop := { s.h.loop v o.mask o.neg with start := start }
  if v.sew < 8 then packedElts w (rowBase s.h o) else eltsOf w (fieldsOf o) (eltAddr s.h v o (indexAt s v o))

/-- R141: SEW 4 or 6, or CODE, with a mode other than unit. DESIGN CHOICE: R152 has no fault where no element is active; this
check of the form is made there all the same. -/
def memForm (v : VType) (o : MArgs) : Act Unit :=
  require (o.mode == 0 || (decide (8 ≤ v.sew) && v.fmt != fmtCODE)) cMemForm v.word

/-- R141, R81, R140: the checks made before any element performs, in their order. -/
def checkElts (kind : AccKind) (v : VType) (plainOnly : Bool) (elts : List Elt) : Act (List (Nat × Nat × Nat)) := do
  let xs ← elts.mapM fun e => do return (e, ← translateRange e.va e.size kind)
  let device := fun (p : Nat × Nat × Xlat) => p.2.2.typ == 2 || p.2.2.typ == 3
  match xs.find? fun (_, ps) => ps.any fun p => p.2.2.typ == 4 || (plainOnly && device p) with
  | some (e, _) => trapWith cType (word e.va)
  | none => pure ()
  let pages := if (← getH).mode = .machine then [] else (xs.flatMap fun (_, ps) => ps.map fun p => p.2.2.entry).dedup
  require (decide (pages.length ≤ 1024)) cPins 0
  let bad := (xs.filter fun (e, ps) => e.va % e.size != 0 && (v.sew == 6 || ps.any device)).map fun (e, _) => e.va
  match bad with
  | a :: as => trapWith cAlign (word (as.foldl min a))
  | [] => return pages

/-- Run a part, keeping what it did when it fails. -/
def attempt {α : Type} (a : Act α) : Act (Except Exc α) := fun s =>
  match a s with
  | .ok x s1 => .ok (.ok x) s1
  | .error e s1 => .ok (.error e) s1

/-- Accesses performed in order until one does not complete: the results, and its number and why. -/
def inOrder {α : Type} (f : Elt → Act α) : List Elt → Act (List (Elt × α) × Option (Nat × Exc))
  | [] => pure ([], none)
  | e :: es => do
    match ← attempt (f e) with
    | .error x => return ([], some (e.idx, x))
    | .ok y =>
      let (rest, x) ← inOrder f es
      return ((e, y) :: rest, x)

/-- R150: the lines that translated parts lie in. -/
def linesOf (parts : List (Nat × Nat × Xlat)) : List Nat :=
  parts.flatMap fun (_, n, x) => (cutAt 128 (n / 128 + 2) x.pa n).map fun p => lineOf p.1

/-- One element loaded: its value. A linked load records the lines it read (R150). -/
def loadElt (cls : Option Nat) (linked : Bool) (e : Elt) : Act Nat := do
  let parts ← translateRange e.va e.size .read
  if !linked then watermark e.va e.size
  loadCommits cls parts
  let s ← get
  let (bs, bad) ← readParts (parts.map fun (a, n, x) => (accessOf s a x, n))
  match bad with
  | some a => throw (.poison a)
  | none =>
    if linked then modH fun h => { h with vlink := (h.vlink ++ linesOf parts).dedup }
    pure (natOfBytes bs)

/-- R142, R380: the destination rows once the elements numbered below `stop` have been loaded (none: all). DESIGN CHOICE: at
completion every row of the destination counts as written, one in which no element was written too: its tag becomes SPATIAL. -/
def loadedRows (w : Loop) (olds : List Wide) (got : List (Elt × Nat)) (stop : Option Nat) : List Wide :=
  let below := fun (k : Nat) => match stop with
    | some n => decide (k < n)
    | none => true
  olds.zipIdx.map fun (old, g) =>
    let r := g % w.v.rows
    let mine := got.filter fun e => e.1.g == g && below e.1.idx
    let zeros := if w.v.maskZero then (List.range w.n).filter fun i =>
      !w.act r i && decide (w.start ≤ r * w.n + i) && below (r * w.n + i) else []
    let w1 := mine.foldl (fun x (e, val') => e.els.foldl (fun x (i, sh) => Wide.set x w.v.sew i (val' / 2 ^ sh % 2 ^ w.v.sew)) x) old
    let w2 := zeros.foldl (fun x i => Wide.zero x w.v.sew i) w1
    let w3 := match zeros ++ mine.flatMap fun e => e.1.els.map (·.1) with
      | [] => w2
      | is => w2.markTo (is.foldl max 0 + 1)
    match stop with
    | none => { w3.cutTail w.v w.n w.max with tag := 0 }
    | some _ => if mine.isEmpty && zeros.isEmpty then w3 else { w3 with tag := 0 }

/-- The end of a vector load: all of it, or up to an access that did not complete. -/
def finishLoad (w : Loop) (d : Group) (reads : List Group) (got : List (Elt × Nat)) (stop : Option (Nat × Exc)) :
    Act Unit :=
  let rows := fun olds => loadedRows w olds got (stop.map (·.1))
  match stop with
  | none => putRows w.max d reads rows 0
  | some (k, x) => w.stopAt d k rows x

/-- R144, R150: the admission of a VGLL or VSCC, once: it meets its watermarks, and its pages are pinned. -/
def admitLinked (elts : List Elt) (pages : List (Nat × Nat × Nat)) : Act Unit := do
  if (← getH).admitted then return
  elts.forM fun e => watermark e.va e.size
  admitPins pages
  modH fun h => { h with admitted := true }

/-- R139 to R145: the loads, but for `.w`. `linked` is VGLL, which is not admitted before its watermarks are met (R144). -/
def loadBody (cls : Option Nat) (linked : Bool) (v : VType) (o : MArgs) : Act Unit := do
  memForm v o
  let h0 ← getH
  let d : Group := ⟨o.d.toNat, fieldsOf o * v.rows⟩
  let reads := indexGroup v o
  ringsReady reads (d :: (h0.copyReg.toList.map fun c => ⟨c, d.n⟩))
  let s ← get
  let w := s.h.loop v o.mask o.neg
  let elts := memElts s v o w.start
  let pages ← checkElts .read v linked elts
  if linked then
    let first := !h0.admitted
    admitLinked elts pages
    if first then modH fun h => { h with vlink := [] }
  else
    if d.isRing h0 then elts.forM fun e => watermark e.va e.size
    admitPins pages
  let (got, stop) ← inOrder (loadElt cls linked) elts
  finishLoad w d reads got stop
  modify (releasePins s.cur)

/-- A vector load word: its groups and the checks of R141 at decode. -/
def loadWordV (major : Nat) (o : MArgs) (body : VType → Act Unit) (s : State) : Result :=
  let v := s.h.slot false
  let d : Group := ⟨o.d.toNat, if isTile o then 8 else fieldsOf o * v.rows⟩
  let srcs : List Source := (indexGroup v o).map fun g => ⟨g, false⟩
  issue { mInfo major o .v (if o.mode == 1 then [o.a, o.b] else [o.a]) with linked := major == 0x25 } (andNext (body v)) s
    (legal := do
      require (groupsLegal (← getH) (some (d, false)) srcs && (o.mode != 3 || d.isOwn (← getH))
        && (!isTile o || (o.mask == 7 && !o.neg))) cIllegal 0)
    (pairLegal := do
      let h ← getH
      require (copyLegal h d srcs && (o.mode != 3 || h.copyReg.toList.all fun c => (⟨c, d.n⟩ : Group).isOwn h)) cIllegalPair 0)

/-! Stores. -/

/-- The bytes of an access from the source rows' elements (R143), with the bits it writes of a container (R140). A store raises no
flag (R181). -/
def storedBytes (v : VType) (srcs : List SrcRow) (e : Elt) : List Byte × List Byte :=
  let xs := e.els.map fun (i, sh) => ((srcElem v false (rowAt srcs e.g) i).1, sh)
  let val' := (xs.map fun (x, sh) => x * 2 ^ sh).sum
  let mask := (xs.map fun (_, sh) => (2 ^ v.sew - 1) * 2 ^ sh).sum + (if v.sew = 6 then 3 * 2 ^ 30 else 0)
  (bytesOf e.size val', if v.sew < 8 then bytesOf e.size mask else [])

/-- An element's bytes stored through its parts at once, and whether none was refused (R370). -/
def storeNow (e : Elt) (parts : List (Nat × Nat × Xlat)) (bs mask : List Byte) : Act Bool :=
  parts.foldlM (fun ok (a, n, x) => do
    let k := (a + 2 ^ 64 - e.va) % 2 ^ 64
    let done ← tryWriteOn true x.typ (accessOf (← get) a x) ((bs.drop k).take n) ((mask.drop k).take n)
    return ok && done) true

/-- One element stored: in a class into the strip buffer (R374), or at once. -/
def storeElt (cls : Option Nat) (now : Bool) (v : VType) (srcs : List SrcRow) (e : Elt) : Act Unit := do
  let parts ← translateRange e.va e.size .write
  watermark e.va e.size
  let (bs, mask) := storedBytes v srcs e
  if now then
    let _ ← storeNow e parts bs mask
  else
    let _ ← storeParts cls true parts bs mask

/-- R139 to R145: the stores, but for `.w`. `last` follows the elements, before the word completes (R149). -/
def storeBody (cls : Option Nat) (now : Bool) (last : Act Unit) (v : VType) (o : MArgs) : Act Unit := do
  memForm v o
  let src : Group := ⟨o.d.toNat, fieldsOf o * v.rows⟩
  let reads := src :: indexGroup v o
  ringsReady reads []
  let s ← get
  let w := s.h.loop v o.mask o.neg
  let elts := memElts s v o w.start
  admitPins (← checkElts .write v false elts)
  if now then performEarlier 2
  let rows := sourceRows s src
  let (_, stop) ← inOrder (storeElt cls now v rows) elts
  match stop with
  | some (k, x) =>
    modH fun h => { h with vstart := k }
    throw x
  | none =>
    last
    modify (releasePins s.cur)
    modify (popHeads reads)
    modH fun h => { h with vstart := 0 }

/-- A vector store word: its source groups and the checks of R141 at decode. -/
def storeWordV (major : Nat) (o : MArgs) (body : VType → Act Unit) (s : State) : Result :=
  let v := s.h.slot false
  let src : Group := ⟨o.d.toNat, if isTile o then 8 else fieldsOf o * v.rows⟩
  issue { mInfo major o .none (if o.mode == 1 then [o.a, o.b] else [o.a]) with linked := major == 0x26 } (andNext (body v)) s
    (legal := do
      require (groupsLegal (← getH) none (⟨src, false⟩ :: (indexGroup v o).map fun g => ⟨g, false⟩)
        && (o.mode != 3 || src.isOwn (← getH)) && (!isTile o || (o.mask == 7 && !o.neg))) cIllegal 0)

/-- R149: the progress word's address: NOTIFY's ADDR, sign-extended to a canonical address. -/
def notifyAddr (w : Word) : Nat := wrap 64 (signed 55 (wbits w 54 3 * 8))

/-- R149: VSTN's notify. A fault on it, or its wait, leaves VSTART past every element: the word issued again stores nothing. -/
def notify (v : VType) : Act Unit := do
  commit 2
  let h ← getH
  let total := h.vlIn v * v.rows
  let count := h.csr.ncount + word total
  match ← attempt (storeRelease 2 (notifyAddr h.csr.notify) (bytesOf 8 count.toNat)) with
  | .error x =>
    modH fun h => { h with vstart := total }
    throw x
  | .ok _ => modH fun h => { h with csr := { h.csr with ncount := count } }
def notifyReady : Act Unit := do
  let h ← getH
  require (wbit h.csr.notify 0) cMemForm h.csr.notify

/-! Cluster gather and scatter (R148). -/

/-- R148: where an index value leads; none for a malformed one. -/
def clusterTarget (s : State) (base : Word) (x : Nat) : Option Nat :=
  if 2 ^ 27 ≤ x ∨ 96 ≤ bits x 26 20 then none
  else some (0x100000000000 + coordCluster s.cur * 2 ^ 27 + bits x 26 20 * 2 ^ 20 + (base.toNat + x % 2 ^ 20) % 2 ^ 20)

/-- R148: the elements of a cluster word with their scratchpad addresses; `va` holds the index value x. -/
def clusterElts (s : State) (v : VType) (o : MArgs) : List Elt :=
  eltsOf (s.h.loop v o.mask o.neg) 1 fun r i _ => indexAt s v o r i
def clusterAccess (s : State) (o : MArgs) (e : Elt) : Access :=
  ⟨e.va, (clusterTarget s (s.h.reg o.a.toNat) e.va).getD 0, 0, false, s.h.mode == .user, none⟩

/-- R148, R133: the checks of every element, found before any packet leaves. -/
def clusterChecks (v : VType) (o : MArgs) (rd wr : Bool) (elts : List Elt) : Act Unit := do
  let s ← get
  elts.forM fun e => do
    match clusterTarget s (s.h.reg o.a.toNat) e.va with
    | none => trapWith cMemForm (word e.va)
    | some pa =>
      require (pa % (v.sew / 8) == 0) cAlign (word e.va)
      match checkRequest (ctxOf s.cur s.h.mode 0 false) pa (v.sew / 8) rd wr s with
      | some c => trapWith c (word e.va)
      | none => pure ()

/-- VLDCL (R148). Cluster gather from any scratchpad of the cluster. -/
def execVldcl (o : MArgs) (s : State) : Result :=
  loadWordV 0x23 o (fun v => do
    require (v.sew == 32 || v.sew == 64) cMemForm v.word
    let h ← getH
    let d : Group := ⟨o.d.toNat, v.rows⟩
    ringsReady (indexGroup v o) (d :: (h.copyReg.toList.map fun c => ⟨c, v.rows⟩))
    acquiresDone
    let s ← get
    let elts := clusterElts s v o
    clusterChecks v o true false elts
    let (got, stop) ← inOrder (fun e => do
      let a := clusterAccess (← get) o e
      loadCommits (some o.cls.toNat) [(e.va, e.size, ⟨a.pa, 0, false, 0, (0, 0, 0)⟩)]
      let (bs, bad) ← readParts [(a, e.size)]
      match bad with
      | some p => throw (.poison p)
      | none => pure (natOfBytes bs)) elts
    finishLoad (h.loop v o.mask o.neg) d (indexGroup v o) got stop) s

/-- VSTCL (R148). Cluster scatter to any scratchpad of the cluster. -/
def execVstcl (o : MArgs) (s : State) : Result :=
  storeWordV 0x24 o (fun v => do
    require (v.sew == 32 || v.sew == 64) cMemForm v.word
    let src : Group := ⟨o.d.toNat, v.rows⟩
    let reads := src :: indexGroup v o
    ringsReady reads []
    acquiresDone
    let s ← get
    let elts := clusterElts s v o
    clusterChecks v o false true elts
    performEarlier 2
    let rows := sourceRows s src
    elts.forM fun e => do
      writeNow true 0 (clusterAccess (← get) o e) (storedBytes v rows e).1
    modify (popHeads reads)
    modH fun h => { h with vstart := 0 }) s

/-! Linked gathers and conditional scatters (R150, R151). -/

/-- VGLL (R150). Linked gather replacing the vector link set, as an acquire. -/
def execVgll (o : MArgs) (s : State) : Result := loadWordV 0x25 o (loadBody none true · o) s

/-- R150: whether an element is stored: its lines are linked and no lower-numbered active element has its address. DESIGN
CHOICE: the elements of one container at SEW 4 or 6 share one aligned address; they count as one element, stored or not as a
whole. -/
def conditional (s : State) (all : List Elt) (parts : List (Nat × Nat × Xlat)) (e : Elt) : Bool :=
  (linesOf parts).all s.h.vlink.contains &&
    !(all.any fun x => decide (x.idx < e.idx) && x.va / x.size == e.va / e.size)

/-- VSCC (R150). Conditional scatter on linked lines writing success bits, as a release. -/
def execVscc (o : MArgs) (s : State) : Result :=
  storeWordV 0x26 o (fun v => do
    memForm v o
    let src : Group := ⟨o.d.toNat, v.rows⟩
    let reads := src :: indexGroup v o
    ringsReady reads []
    let s ← get
    let w := s.h.loop v o.mask o.neg
    let all := memElts s v o 0
    let elts := memElts s v o w.start
    admitLinked elts (← checkElts .write v true elts)
    performEarlier 2
    let rows := sourceRows s src
    let (done, stop) ← inOrder (fun e => do
      let parts ← translateRange e.va e.size .write
      if conditional (← get) all parts e then
        let (bs, mask) := storedBytes v rows e
        return if ← storeNow e parts bs mask then e.els.map (·.1) else []
      else return []) elts
    let limit := (stop.map (·.1)).getD (w.n * v.rows)
    modH fun h => h.setK (o.cls.toNat % 8) ((List.range v.rows).map fun r =>
      (List.range w.n).foldl (fun (b : BitVec 8192) i =>
        let idx := r * w.n + i
        let ok := if idx < w.start then h.kbit (o.cls.toNat % 8) r i
          else decide (idx < limit) && done.any fun (e, is) => e.g == r && is.contains i
        if ok then b ||| BitVec.ofNat 8192 (2 ^ i) else b) 0)
    match stop with
    | some (k, x) =>
      modH fun h => { h with vstart := k }
      throw x
    | none =>
      modify (releasePins s.cur)
      modify (popHeads reads)
      modH fun h => { h with vstart := 0, vlink := [] }) s

end Sys2Proof.Machine
end

