-- ==== Sys2Proof/Machine/VTile.lean ====
section
/-! DEFINITION. Packed tiles, the `.w` forms (R296 to R298), and the vector load and store words that have them (R145, R149). -/

namespace Sys2Proof.Machine

/-- R297: the form checks of a `.w` word. -/
def tileForm (v : VType) (o : MArgs) : Act Fmt := do
  match v.float with
  | some F =>
    if v.rows = 8 && o.d.toNat % 8 == 0 && (F == fp32 || F == bf16) then pure F else trapWith cMemForm v.word
  | none => trapWith cMemForm v.word

/-- R81, R297: translate a range of a tile; only NORMAL and WC pages. -/
def tileParts (va n : Nat) (kind : AccKind) : Act (List (Nat × Nat × Xlat)) := do
  let parts ← translateRange va n kind
  match parts.find? fun p => 2 ≤ p.2.2.typ with
  | some p => trapWith cType (word p.1)
  | none => pure parts

def tileRead (cls va n : Nat) : Act (List Byte) := do
  let parts ← tileParts va n .read
  watermark va n
  loadCommits (some cls) parts
  let s ← get
  let (bs, bad) ← readParts (parts.map fun (a, k, x) => (accessOf s a x, k))
  match bad with
  | some a => throw (.poison a)
  | none => pure bs

/-- R296: the sizes of a tile's bitmap and of its values. -/
def bitmapSize (n : Nat) : Nat := 8 * ((n + 7) / 8)
def valuesSize (F : Fmt) (nnz : Nat) : Nat := 8 * ((nnz * (F.width / 8) + 7) / 8)

/-- R296, R297: a header's fault. -/
def headerBad (F : Fmt) (n hd : Nat) : Bool :=
  bits hd 7 6 != 0 || bits hd 31 22 != 0 || bits hd 1 0 == 0 || bit hd 5 != (F == bf16) || bits hd 21 8 != n

/-- R297: a `.w` load. -/
def tileLoad (v : VType) (o : MArgs) : Act Unit := do
  let F ← tileForm v o
  let h ← getH
  let n := h.vlIn v
  let d : Group := ⟨o.d.toNat, 8⟩
  let w : Loop := { h.loop v o.mask o.neg with start := 0 }
  if n = 0 then
    putRows w.max d [] (fun olds => loadedRows w olds [] none) 0
  else
    let va := (h.reg o.a.toNat).toNat
    require (va % 8 == 0) cAlign (word va)
    let cls := o.cls.toNat
    let hd := natOfBytes (← tileRead cls va 8)
    require (!headerBad F n hd) cMemForm (word va)
    let nnz := bits hd 63 32
    let at' := fun k => (va + k) % 2 ^ 64
    let map := natOfBytes (← tileRead cls (at' 8) (bitmapSize n))
    require (decide (map < 2 ^ (8 * n)) && popCount (8 * n) map == nnz) cMemForm (word va)
    let all ← tileParts va (8 + bitmapSize n + valuesSize F nnz) .read
    if h.mode != .machine then admitPins ((all.map fun p => p.2.2.entry).dedup)
    let e := F.width / 8
    let vals ← if nnz = 0 then pure [] else tileRead cls (at' (8 + bitmapSize n)) (valuesSize F nnz)
    require ((vals.drop (nnz * e)).all fun b => b == 0) cMemForm (word va)
    let elem := fun (r i : Nat) =>
      let k := r * n + i
      if bit map k then leAt vals (e * popCount k map) e else 0
    let tag := haarTag (bits hd 1 0) (bits hd 4 2)
    putRows w.max d [] (fun olds =>
      (w.rows (fun r i res => some ⟨elem r i, 0, res⟩) (fun _ => tag) olds fun _ => 0).map (·.1)) 0
    modify fun s => releasePins s.cur s

/-- R298: a tile's LEVELS, THR and coefficients by row, with the flags of the transform. -/
def tileOf (F : Fmt) (s : State) (v : VType) (name : Nat) : Nat × Nat × List (List Nat) × Nat :=
  let n := s.h.vlIn v
  let cut := fun (lv : Nat) (thr : Nat → Nat) (rows : List (List Nat)) => rows.zipIdx.map fun (xs, r) =>
    xs.map (thresholdOne F (s.h.wth[thr r]?.getD 0) lv r)
  let rows := groupRows s ⟨name, 8⟩
  let stored := rows.map fun w => (List.range n).map fun i => getElem w.bits v.sew i
  match blockLevels (rows.map (·.tag)) with
  | some (l + 1) =>
    let tags := rows.map fun w => tagThr w.tag
    (l + 1, tags.headD 0, cut (l + 1) (fun r => tags.getD r 0) stored, 0)
  | _ =>
    let lv := wbits s.h.csr.wdef 1 0
    let thr := wbits s.h.csr.wdef 4 2
    let cols := (List.range n).map fun i => haarForward F lv (stored.map fun xs => xs.getD i 0)
    let out := (List.range 8).map fun r => cols.map fun c => c.1.getD r 0
    (lv, thr, cut lv (fun _ => thr) out, orFlags (cols.map (·.2)))

/-- R296: a tile's bytes. `keep` says which elements the guard lets it store (R46). -/
def tileBytes (F : Fmt) (n lv thr : Nat) (keep : Nat → Nat → Bool) (rows : List (List Nat)) : List Byte :=
  let flat := (rows.zipIdx.flatMap fun (xs, r) => xs.zipIdx.map fun (x, i) => (r * n + i, x, keep r i)).filter
    fun (_, x, k) => k && x % F.signBit != 0
  let map := (flat.map fun (k, _) => 2 ^ k).sum
  let e := F.width / 8
  let vals := flat.flatMap fun (_, x, _) => bytesOf e x
  bytesOf 8 (lv + 4 * thr + 32 * bitNat (F == bf16) + 256 * n + 2 ^ 32 * flat.length) ++ bytesOf (bitmapSize n) map
    ++ vals ++ List.replicate (valuesSize F flat.length - vals.length) 0

/-- R298: a `.w` store, in a class or at once; `last` follows its bytes (R149). `performed` says that a VSTN has stored them
already. -/
def tileStore (now performed : Bool) (last : Act Unit) (v : VType) (o : MArgs) : Act Unit := do
  let F ← tileForm v o
  let s ← get
  let n := s.h.vlIn v
  if n = 0 || performed then
    last
    modH fun h => { h with vstart := 0 }
    modify fun s => releasePins s.cur s
  else
  let va := (s.h.reg o.a.toNat).toNat
  require (va % 8 == 0) cAlign (word va)
  let (lv, thr, rows, fl) := tileOf F s v o.d.toNat
  let bs := tileBytes F n lv thr s.h.lentAt rows
  let parts ← tileParts va bs.length .write
  if s.h.mode != .machine then admitPins ((parts.map fun p => p.2.2.entry).dedup)
  watermark va bs.length
  if now then
    performEarlier 2
    writeNowParts true parts bs
  else
    let _ ← (cutAt 32 (bs.length / 32 + 2) va bs.length).forM fun (a, k) => do
      let ps ← translateRange (a % 2 ^ 64) k .write
      let _ ← storeParts (some o.cls.toNat) true ps ((bs.drop (a - va)).take k) []
  modH fun h => h.raiseFlags fl
  last
  modH fun h => { h with vstart := 0 }
  modify fun s => releasePins s.cur s

/-- A load of either kind, and a store. -/
def loadAny (o : MArgs) (v : VType) : Act Unit :=
  if isTile o then tileLoad v o else loadBody (some o.cls.toNat) false v o
def storeAny (now performed : Bool) (last : Act Unit) (o : MArgs) (v : VType) : Act Unit :=
  if isTile o then tileStore now performed last v o else storeBody (some o.cls.toNat) now last v o

/-- VLD (R145). Vector load in unit, strided, indexed or segment mode, or a packed-tile load. -/
def execVld (o : MArgs) (s : State) : Result := loadWordV 0x20 o (loadAny o) s
/-- VLDA (R145). Vector load with acquire after its last element: it performs at issue, before every later access. -/
def execVlda (o : MArgs) (s : State) : Result := loadWordV 0x27 o (loadAny o) s
/-- VST (R145). Vector store, or a packed-tile store. -/
def execVst (o : MArgs) (s : State) : Result := storeWordV 0x21 o (storeAny false false (pure ()) o) s
/-- VSTL (R145). Vector store with release before its first element. -/
def execVstl (o : MArgs) (s : State) : Result := storeWordV 0x28 o (storeAny true false (pure ()) o) s
/-- VSTN (R149). Vector store, then advance NCOUNT and release it to the progress word. -/
def execVstn (o : MArgs) (s : State) : Result :=
  storeWordV 0x22 o (fun v => do
    if !isTile o then memForm v o
    notifyReady
    let h ← getH
    storeAny false (decide (h.vlIn v * v.rows ≤ h.vstart)) (notify v) o v) s

end Sys2Proof.Machine
end

