-- ==== Sys2Proof/Machine/Vcfg.lean ====
section
/-! DEFINITION. VCFG: span, vector length, claims, slots, codebooks and thresholds (R169 to R176). -/

namespace Sys2Proof.Machine

/-- The address of the word after the current one, where a checkpointing word's strip opens (R373). -/
def wordAfter (h : Hart) : Word := h.pc + 4

/-- R102: a copy or a take that has still to write its v register. -/
def writesRow (o : CountedOp) : Bool :=
  match o.kind with
  | .tuple _ f _ => decide (1 ≤ f)
  | _ => false

/-- VCONF (R170). Set the span and clear the vector window, once every earlier word has written its rows (R102). -/
def execVconf (o : RArgs) (s : State) : Result :=
  issue (rInfo 0x1F 0 o) (andNext do
    if (← getH).ops.any writesRow then waitFor .tuple
    modH fun h => { h with span := o.a.toNat % 4, vl := 0, vstart := 0, rows := Vector.replicate 32 {} }) s
    (later := do require (!isCrew (← getH)) cRole 0)

/-- The slot that a VCFG word's field b names. -/
def cfgSlot (h : Hart) (o : RArgs) : VType := h.slot (bit o.b.toNat 0)

/-- VSETL (R171, R373). Set vl from sA and take a strip checkpoint. -/
def execVsetl (o : RArgs) (s : State) : Result :=
  issue (rInfo 0x1F 1 o (.s o.d.toNat) [o.a]) (andNext do
    let h ← getH
    let n := min (h.reg o.a.toNat).toNat (h.maxIn (cfgSlot h o))
    modH fun h => { h with vl := n }
    writeD o.d (word n)
    modify fun s => takeCheckpoint (wordAfter s.h) s) s

/-- R172: the launch-wide pool of the current hart's launch: take up to k elements; the base and the grant. -/
def claim (k : Nat) : Act (Nat × Nat) := do
  let s ← get
  match look s.h.launch s.dev.launches with
  | none => pure (0, 0)
  | some l =>
    let g := min k (l.packet.n.toNat - l.cursor)
    set { s with dev := { s.dev with launches := put s.h.launch { l with cursor := l.cursor + g } s.dev.launches } }
    pure (l.cursor, g)

/-- VCLAIM (R172, R373). Claim a grant of elements from the launch-wide pool. -/
def execVclaim (o : RArgs) (s : State) : Result :=
  issue { rInfo 0x1F 2 o (.s o.d.toNat) [o.a] with alsoS := [o.a.toNat] } (andNext do
    let h ← getH
    let mx := h.maxIn (cfgSlot h o)
    let k := (h.reg o.a.toNat).toNat
    let (base, g) ← claim (if k = 0 ∨ mx < k then mx else k)
    modH fun h => { (h.setReg o.a.toNat (word g)) with vl := g }
    writeD o.d (word (if o.d = o.a then g else base))
    modify fun s => takeCheckpoint (wordAfter s.h) s) s

/-- VCLAIMP (R173, R373). Take the next grant of a panel record. DESIGN CHOICE: of a record with CCUR above COLSN, of which the
spec says nothing, COLSN - CCUR counts as 0: the grant is empty, CCUR becomes 0 and RCUR moves on. -/
def execVclaimp (o : RArgs) (s : State) : Result :=
  issue { rInfo 0x1F 3 o (.s o.d.toNat) [o.a] with address := true } (andNext do
    let h ← getH
    let v := cfgSlot h o
    acceptType (decide (8 ≤ v.sew)) v
    let va := (h.reg o.a.toNat).toNat
    require (va % 8 == 0) cAlign (word va)
    let rec' ← loadBytes (some 0) va 32 8
    let rowsn := leAt rec' 0 4
    let colsn := leAt rec' 4 4
    let rcur := leAt rec' 8 4
    let ccur := leAt rec' 12 4
    let lds := word (leAt rec' 24 8)
    if rowsn ≤ rcur ∨ colsn = 0 then
      modH fun h => { h with vl := 0 }
      writeD o.d 0
    else
      let r := min (rowsn - rcur) 8
      let c := min (colsn - ccur) (h.maxIn v)
      let c' := ccur + c
      let (ccur', rcur') := if colsn ≤ c' then (0, rcur + r) else (c', rcur)
      let _ ← storeBytes (some 0) (va + 8) 8 (bytesOf 4 rcur' ++ bytesOf 4 ccur')
      modH fun h => { h with
        vl := c, csr := { h.csr with rowstr := lds }
        vt := h.vt.setIfInBounds (bitNat (bit o.b.toNat 0)) (wset v.word 8 6 (r - 1)) }
      writeD o.d (word (leAt rec' 16 8) + word rcur * lds + word (ccur * (v.sew / 8)))
    modify fun s => takeCheckpoint (wordAfter s.h) s) s

/-- VSETT (R174). Load a vtype slot from sA. -/
def execVsett (o : RArgs) (s : State) : Result :=
  issue (rInfo 0x1F 4 o .none [o.a]) (andNext do
    let h ← getH
    let w := h.reg o.a.toNat
    require (vtypeLegal w) cVtypeForm w
    modH fun h => { h with vt := h.vt.setIfInBounds (o.d.toNat % 2) w }) s

/-- R175, R81: a codebook's n entries, read as a unit-stride load of halfwords in class c0, with its pages pinned. -/
def readTable (va : Word) (n : Nat) : Act (List (BitVec 16)) := do
  let elts := (List.range n).map fun i => (⟨i, (va + word (2 * i)).toNat, 2, 0, [(i, 0)]⟩ : Elt)
  admitPins (← checkElts .read ((← getH).slot false) false elts)
  elts.mapM fun e => do return BitVec.ofNat 16 (← loadElt (some 0) false e)

/-- VCBLD (R175). Load a codebook slot from memory. -/
def execVcbld (o : RArgs) (s : State) : Result :=
  issue { rInfo 0x1F 5 o .none [o.a, o.b] with address := true } (andNext do
    let h ← getH
    let ctl := h.reg o.b.toNat
    let count := wbits ctl 1 0
    require (count != 0 && wbits ctl 7 2 == 0 && wbits ctl 63 16 == 0) cVtypeForm ctl
    let va := h.reg o.a.toNat
    require (!wbit va 0) cAlign va
    let es ← readTable va (2 ^ (2 * count + 2))
    match tableFault es with
    | some i => trapWith cCbOrder (word i)
    | none =>
      modH fun h => { h with cbs := h.cbs.setIfInBounds (o.d.toNat % 4) ⟨signed 8 (wbits ctl 15 8), es⟩ }
      modify fun s => releasePins s.cur s) s

/-- R164, R176: a legal threshold word. -/
def thresholdsLegal (w : Word) : Bool :=
  wbits w 63 48 == 0 && [0, 16, 32].all fun i => !wbit w (i + 15) && wbits w (i + 14) (i + 7) != 0xFF

/-- WTHSET (R176). Set a threshold register. -/
def execWthset (o : RArgs) (s : State) : Result :=
  issue (rInfo 0x1F 6 o .none [o.a]) (andNext do
    let h ← getH
    let w := h.reg o.a.toNat
    require (thresholdsLegal w) cVtypeForm w
    modH fun h => { h with wth := h.wth.setIfInBounds (o.d.toNat % 8) w }) s

end Sys2Proof.Machine
end

