-- ==== Sys2Proof/Machine/Wave.lean ====
section
/-! DEFINITION. WAVE: the Haar transform and row tags (R299 to R301). -/

namespace Sys2Proof.Machine

/-- R300: the conditions of WFWD and WINV on the slot and the groups. -/
def waveForm (v : VType) (o : VArgs) : Act Fmt := do
  match v.float with
  | some F => if v.rows = 8 && o.d.toNat % 8 == 0 && o.a.toNat % 8 == 0 then pure F else trapWith cVtypeForm v.word
  | none => trapWith cVtypeForm v.word

/-- R300: a whole transform of vA's columns into vD, with the tag of every destination row. `f` answers a column with its
flags from the stored column and the block's LEVELS. -/
def waveRows (v : VType) (o : VArgs) (tag : BitVec 6) (f : Option Nat → List Nat → List Nat × Nat) : Act Unit := do
  let s ← get
  let n := s.h.vlIn v
  let src : Group := ⟨o.a.toNat, v.rows⟩
  let rows := groupRows s src
  let lv := (blockOf s o.a.toNat).map (·.1)
  let cols := (List.range n).map fun i => f lv (rows.map fun w => getElem w.bits v.sew i)
  rowWord v v o none [src] fun _ _ olds efc => olds.zipIdx.map fun (w, r) =>
    let w1 := (cols.zipIdx).foldl (fun w (c, i) => Wide.set w v.sew i (c.1.getD r 0)) w
    ({ ((w1.cutTail v n (s.h.maxIn v)).markTo n) with tag := tag }, orFlags (cols.map (·.2)), efc r)

def waveWord (func : Nat) (o : VArgs) (body : VType → Act Unit) (s : State) : Result :=
  vWordOf { vInfo 0x2F func o .v (if o.x then [o.b] else []) with kPair := false } o false
    (fun _ v => [⟨⟨o.a.toNat, v.rows⟩, true⟩]) body s

/-- WFWD (R300). Forward Haar transform of an 8-row block. -/
def execWfwd (o : VArgs) (s : State) : Result :=
  waveWord 0 o (fun v => do
    let F ← waveForm v o
    let b := (← getH).reg o.b.toNat
    require (wbits b 1 0 != 0 && wbits b 63 5 == 0) cVtypeForm b
    waveRows v o (haarTag (wbits b 1 0) (wbits b 4 2)) fun lv col =>
      let (x, f) := match lv with
        | some l => haarInverse F l col
        | none => (col, 0)
      let (y, g) := haarForward F (wbits b 1 0) x
      (y, Nat.lor f g)) s

/-- WINV (R300). Reconstruct a Haar block to positions. -/
def execWinv (o : VArgs) (s : State) : Result :=
  waveWord 1 o (fun v => do
    let F ← waveForm v o
    waveRows v o 0 fun lv col => match lv with
      | some l => haarInverse F l col
      | none => (col, 0)) s

/-- R301: the tags of rows, six bits each. -/
def tagsWord (tags : List (BitVec 6)) : Word := word ((tags.zipIdx.map fun (t, j) => t.toNat * 2 ^ (6 * j)).sum)

/-- WTAG (R301). Read the row tags of a group into sD. -/
def execWtag (o : VArgs) (s : State) : Result :=
  let g : Group := ⟨o.a.toNat, (s.h.slot o.t).rows⟩
  issue { vInfo 0x2F 2 o (.s o.d.toNat) with kPair := false } (andNext do
    ringsReady [g] []
    let s ← get
    writeD o.d (tagsWord ((groupRows s g).map (·.tag)))
    modify (popHeads [g])
    modH fun h => { h with vstart := 0 }) s
    (legal := do require (groupsLegal (← getH) none [⟨g, false⟩]) cIllegal 0)

/-- WSETTAG (R301). Write the row tags of a group from s[b]. -/
def execWsettag (o : VArgs) (s : State) : Result :=
  vWordOf { vInfo 0x2F 3 o .v [o.b] with kPair := false } o false (fun _ _ => []) (fun v => do
    let h ← getH
    let b := h.reg o.b.toNat
    require (wbits b 63 (6 * v.rows) == 0) cVtypeForm b
    let d : Group := ⟨o.d.toNat, v.rows⟩
    ringsReady [] (d :: (h.copyReg.toList.map fun c => ⟨c, v.rows⟩))
    putRows (h.maxIn v) d []
      (fun olds => olds.zipIdx.map fun (w, j) => { w with tag := BitVec.ofNat 6 (wbits b (6 * j + 5) (6 * j)) }) 0) s

end Sys2Proof.Machine
end

