-- ==== Sys2Proof/Machine/Ports.lean ====
section
/-! DEFINITION. The engine ports: ENQ, DEQ, VENQ and VDEQ (R269 to R274). -/

namespace Sys2Proof.Machine

/-- R332: the quadrant of a hart's core. -/
def quadrantOf (coord : Nat) : Nat := coordCore coord / 24

/-- R269: the port that a hart of a role may name in ENQ, DEQ, VENQ and VDEQ (0 to 3). -/
def portFor (control : Bool) (func : Nat) : Option Nat :=
  match func with
  | 0 => some (if control then 1 else 2)
  | 1 => some (if control then 0 else 3)
  | 2 => if control then none else some 0
  | _ => if control then none else some 1
def portLegal (func : Nat) (port : BitVec 5) : Act Unit := do
  require (portFor ((← getH).role == .control) func == some port.toNat) cIllegal 0

/-- ENQ (R271). Release and push a word to the command FIFO or a slot's reply FIFO. -/
def execEnq (o : RArgs) (s : State) : Result :=
  issue (engineInfo 0 o .none [o.a, o.b]) (andNext do
    let s ← get
    let x := s.h.reg o.a.toNat
    let c := coordCluster s.cur
    if s.h.role == .control then
      let t := s.h.reg o.b.toNat
      require (decide (t.toNat < 768)) cPortForm t
      let tgt := coordOf c (t.toNat / 8) (t.toNat % 8)
      performEarlier 2
      if 16 ≤ (slotOf (← get) tgt).reply.length then waitFor .port
      modify fun s => let l := slotOf s tgt; setSlot tgt { l with reply := l.reply ++ [x] } s
    else
      performEarlier 2
      if 64 ≤ (clusterOf (← get) c).cmds.length then waitFor .port
      modify fun s => let l := clusterOf s c; setCluster c { l with cmds := l.cmds ++ [x] } s) s
    (legal := do
      portLegal 0 o.d
      require ((← getH).role == .control || o.b == 0) cIllegal 0)

/-- R272: pop the FIFO that a DEQ of the current hart reads. -/
def popPort (s : State) : Option (Word × State) :=
  let c := clusterOf s (coordCluster s.cur)
  let l := slotOf s s.cur
  if s.h.role == .control then
    match c.cmds with
    | [] => none
    | x :: rest => some (x, setCluster (coordCluster s.cur) { c with cmds := rest } s)
  else
    match l.reply with
    | [] => none
    | x :: rest => some (x, setSlot s.cur { l with reply := rest } s)

/-- A DEQ not yet popped. -/
def isDeq (o : CountedOp) : Bool :=
  match o.kind with
  | .deq _ => true
  | _ => false

/-- R383: a hart's outstanding blocking tuple requests and DEQs. -/
def blockingOp (k : OpKind) : Bool :=
  match k with
  | .deq _ => true
  | .tuple _ f _ => f == 1 || f == 2
  | _ => false
def blockingRoom : Act Unit := do
  let s ← get
  if 32 ≤ (s.h.ops.filter fun o => blockingOp o.kind).length then waitFor .tuple

/-- DEQ (R272). Pop one word from a port FIFO as a counted operation. -/
def execDeq (o : RArgs) (s : State) : Result :=
  issue (engineInfo 1 o (.s o.d.toNat) []) (andNext do
    counterRoom o.b.toNat
    blockingRoom
    commit 2
    match counterOf o.b.toNat with
    | some k => addOp (.deq o.a.toNat) k (some o.d.toNat)
    | none =>
      if (← getH).ops.any isDeq then waitFor .port
      match popPort (← get) with
      | none => waitFor .port
      | some (x, s1) =>
        set s1
        writeD o.d x) s
    (legal := portLegal 1 o.a)

/-- R273: the row width of a slot that VENQ takes. -/
def portWidth (v : VType) : Option Nat :=
  if v.fmt = fmtBF16 ∧ v.sew = 16 ∨ v.fmt = fmtINT ∧ v.sew = 8 then some 256
  else if v.fmt = fmtFLOAT ∧ v.sew = 64 then some 128 else none

/-- VENQ (R273). Push ROWS rows to the quadrant's A port. -/
def execVenq (o : RArgs) (s : State) : Result :=
  let v := s.h.slot false
  let g : Group := ⟨o.a.toNat, v.rows⟩
  issue { engineInfo 2 o .none [] with settles := true } (andNext do
    let n := (← getH).vlIn v
    match portWidth v with
    | none => trapWith cVtypeForm v.word
    | some w =>
      require (decide (n ≤ w)) cVtypeForm v.word
      ringsReady [g] []
      performEarlier 2
      let s ← get
      let c := coordCluster s.cur
      let q := quadrantOf s.cur
      let k := quadOf s c q
      if 64 < k.aPort.length + v.rows then waitFor .port
      let coef := v.rows == 8 && o.a.toNat % 8 == 0 && g.isOwn s.h && (blockOf s o.a.toNat).isSome
      let rows := (sourceRows s g).map fun r =>
        let xs := (List.range n).map fun i => srcElem v coef r i
        (({ fmt := v.fmt, sew := v.sew, tag := if coef then r.tag else 0
            vals := xs.map (·.1) ++ List.replicate (w - n) 0 } : PortRow), orFlags (xs.map (·.2)))
      modify (setQuad c q { k with aPort := k.aPort ++ rows.map (·.1) })
      modify (popHeads [g])
      modH fun h => h.raiseFlags (orFlags (rows.map (·.2)))) s
    (legal := do
      portLegal 2 o.d
      require (groupsLegal (← getH) none [⟨g, false⟩]) cIllegal 0)

/-- VDEQ (R274). Pop ROWS rows from the quadrant's output port. -/
def execVdeq (o : RArgs) (s : State) : Result :=
  let v := s.h.slot false
  let d : Group := ⟨o.d.toNat, v.rows⟩
  issue (engineInfo 3 o .v []) (andNext do
    let h ← getH
    ringsReady [] (d :: (h.copyReg.toList.map fun c => ⟨c, v.rows⟩))
    commit 2
    let s ← get
    let c := coordCluster s.cur
    let q := quadrantOf s.cur
    let k := quadOf s c q
    if k.outPort.length < v.rows then waitFor .port
    let rows := k.outPort.take v.rows
    match rows with
    | [] => pure ()
    | first :: _ =>
      let mx := h.maxIn v
      require (first.fmt == v.fmt && first.sew == v.sew && decide (first.vals.length ≤ mx)) cVtypeForm v.word
      modify (setQuad c q { k with outPort := k.outPort.drop v.rows })
      let out := fun (olds : List Wide) => (olds.zip rows).map fun (w, p) =>
        let w1 := (p.vals.zipIdx).foldl (fun w (x, i) => Wide.set w v.sew i (x % 2 ^ v.sew)) w
        { ((w1.cutTail v p.vals.length mx).markTo p.vals.length) with tag := p.tag }
      putRows mx d [] out 0) s
    (legal := do
      portLegal 3 o.a
      require (groupsLegal (← getH) (some (d, false)) []) cIllegal 0)
    (pairLegal := do require (copyLegal (← getH) d []) cIllegalPair 0)

end Sys2Proof.Machine
end

