-- ==== Sys2Proof/Machine/Sync.lean ====
section
/-! DEFINITION. The SYNC words (R355 to R362): queue drains, fences, waits, barriers and window hand-over. -/

namespace Sys2Proof.Machine

/-- R355: no SYNC word writes an s register. -/
def syncInfo (func : Nat) (o : RArgs) (reads : List (BitVec 5)) : Info := rInfo 0x29 func o .none reads

/-! Crew queues by R356's numbers: 0 to 3 lq, 4 to 7 sq, 8 and 9 bq. -/

/-- R159, R161: the queues that a role pushes and pops. -/
def pushesQueue (r : Role) (q : Nat) : Bool :=
  match r with
  | .loader => q < 4 || 8 ≤ q
  | .computer => 4 ≤ q && q < 8
  | _ => false
def popsQueue (r : Role) (q : Nat) : Bool :=
  match r with
  | .computer => q < 4 || 8 ≤ q
  | .storer => 4 ≤ q && q < 8
  | _ => false
def queueEmpty (c : Crew) (q : Nat) : Bool :=
  if q < 8 then (c.rings[q]?.getD []).isEmpty else (c.bqs[q - 8]?.getD []).isEmpty
def emptyQueue (q : Nat) (c : Crew) : Crew :=
  if q < 8 then { c with rings := c.rings.setIfInBounds q [] } else { c with bqs := c.bqs.setIfInBounds (q - 8) [] }

/-- QDRAIN (R356): wait until the queues the hart pushes are empty; empty those it pops. -/
def execQdrain (o : RArgs) (s : State) : Result :=
  issue (syncInfo 0 o [o.a]) (andNext do
    let m ← readS o.a
    require (wbits m 63 10 == 0) cSyncForm m
    let role := (← getH).role
    let named := (List.range 10).filter fun q => wbit m q
    require (named.all fun q => pushesQueue role q || popsQueue role q) cRole 0
    let c ← crewNow
    if !(named.filter (pushesQueue role)).all (queueEmpty c) then
      commit 3
      waitFor .ring
    let mine := named.filter (popsQueue role)
    if !mine.isEmpty then
      commit 2
      setCrewNow (mine.foldl (fun c q => emptyQueue q c) c)) s
    (later := do require (isCrew (← getH)) cRole 0)

/-- R357: an access of a class mask's classes; tuple operations are classless and count in every class (R347). -/
def loadInMask (mask : Nat) (o : CountedOp) : Bool :=
  match o.kind with
  | .load _ _ c => bit mask c
  | _ => false

/-- FENCE (R357): earlier accesses of the before-mask's classes perform, copies into the weight buffer among them (class c0,
R277). Above HART the strip commits (R375). -/
def execFence (o : RArgs) (s : State) : Result :=
  issue (syncInfo 1 o [o.a]) (andNext do
    let m := (← getH).reg o.a.toNat
    require (wbits m 63 32 == 0) cSyncForm m
    let before := if o.a = 0 then 0xFFFF else wbits m 15 0
    let after := if o.a = 0 then 0xFFFF else wbits m 31 16
    if before ≠ 0 && after ≠ 0 then
      if unstepped (← get) then waitFor .tuple
      if bit before 0 then weightsRead none []
      bindLoads (loadInMask before)
    if o.d ≠ 0 then
      commit 3
      if before ≠ 0 && after ≠ 0 && unstepped (← get) then waitFor .tuple) s

/-- EFENCE (R358): the strip commits, every earlier access performs, and a pending error then traps precisely. -/
def execEfence (o : RArgs) (s : State) : Result :=
  issue (syncInfo 2 o []) (do
    commit 3
    if (← get).tuples.replies.any fun r => r.req.coord == s.cur then waitFor .tuple
    performEarlier 3
    if (← getH).errs.isEmpty then return .seq
    if entryWaits (← get) then waitFor .matrix
    modify (takePendingError false)
    return .done) s

/-- R359: read a progress word at its point of coherence, as an acquire. -/
def progressRead (va : Nat) : Act Word := do
  require (va % 8 == 0) cAlign (word va)
  let x ← translate va .read
  require (x.typ != 4) cType (word va)
  watermark va 8
  commit 3
  acquireRead va 8 x

/-- WAITGE (R359): wait until mem64(s[a]) is at least s[b], both as they were at issue. -/
def execWaitge (o : RArgs) (s : State) : Result :=
  issue { syncInfo 3 o [o.a, o.b] with address := true } (andNext do
    let h ← getH
    let va := (h.reg o.a.toNat).toNat
    let least := h.reg o.b.toNat
    let v ← progressRead va
    if v.toNat < least.toNat then waitFor (.progress va least o.stall.toNat)) s

/-- WAITDC (R360): wait until a counter is at most n. -/
def execWaitdc (o : RArgs) (s : State) : Result :=
  issue (syncInfo 4 o []) (andNext do
    if o.b.toNat < (← getH).deps[o.a.toNat]?.getD 0 then waitFor .order) s

/-! Barriers (R361). -/

def barrierNow (n : Nat) : Act Barrier := do
  let s ← get
  return (coreOf s (coreIndex s.cur)).barriers[n]?.getD {}
def setBarrierNow (n : Nat) (b : Barrier) : Act Unit :=
  modify fun s =>
    let c := coreOf s (coreIndex s.cur)
    setCore (coreIndex s.cur) { c with barriers := c.barriers.setIfInBounds n b } s

/-- R361: a round with COUNT arrivals closes. -/
def Barrier.closed (b : Barrier) : Barrier :=
  if b.count ≤ b.arrived.length then { b with arrived := [], released := b.released ++ b.arrived } else b

/-- BAR (R361). A word issued again after its arrival finds that arrival recorded. -/
def execBar (o : RArgs) (s : State) : Result :=
  issue (syncInfo 5 o [o.a]) (andNext do
    let k ← readS o.a
    let n := o.d.toNat
    require (k != 0 && decide (k.toNat ≤ 8)) cSyncForm k
    let me := coordSlot (← get).cur
    let b ← barrierNow n
    if !b.released.contains me && !b.arrived.contains me then
      performEarlier 3
      require (b.arrived.isEmpty || b.count == k.toNat) cSyncForm k
      setBarrierNow n (Barrier.closed { b with count := k.toNat, arrived := b.arrived ++ [me] })
    let b ← barrierNow n
    if b.released.contains me then setBarrierNow n { b with released := b.released.filter (· != me) }
    else waitFor .order) s

/-! Owned windows (R362). -/

def windowNow (w : Nat) : Act Word := do
  let s ← get
  return (clusterOf s (coordCluster s.cur)).ownwin[w]?.getD 0
def setWindowNow (w : Nat) (d : Word) : Act Unit :=
  modify fun s =>
    let c := clusterOf s (coordCluster s.cur)
    setCluster (coordCluster s.cur) { c with ownwin := c.ownwin.setIfInBounds w d } s

/-- HGIVE (R362): offer a window to a slot of the cluster, as a release. -/
def execHgive (o : RArgs) (s : State) : Result :=
  issue (syncInfo 6 o [o.a, o.b]) (andNext do
    let h ← getH
    let w := h.reg o.a.toNat
    let t := h.reg o.b.toNat
    require (decide (w.toNat ≤ 15)) cSyncForm w
    require (decide (t.toNat < 768)) cSyncForm t
    let d ← windowNow w.toNat
    let me := slotInCluster (← get).cur
    require (wbit d 63 && !wbit d 62 && (h.mode != .user || wbits d 41 32 == me)) cOwner 0
    performEarlier 2
    setWindowNow w.toNat (wset (wset d 62 62 1) 51 42 t.toNat)) s

/-- HTAKE (R362): take a window offered to this slot, as an acquire. -/
def execHtake (o : RArgs) (s : State) : Result :=
  issue (syncInfo 7 o [o.a]) (andNext do
    let w ← readS o.a
    require (decide (w.toNat ≤ 15)) cSyncForm w
    commit 2
    let d ← windowNow w.toNat
    let me := slotInCluster (← get).cur
    if !(wbit d 63 && wbit d 62 && wbits d 51 42 == me) then waitFor .order
    setWindowNow w.toNat (wset (wset d 62 62 0) 41 32 me)) s

/-- WAITGE_RECHECK (R359): a waiting WAITGE reads its word again, through the translation it was given, and completes if it
meets the threshold. -/
def execWaitgeRecheck (s : State) : Result :=
  match s.h.waiting, s.h.latch with
  | some (.progress va least stall), some l =>
    match progressRead va { s with h := { s.h with given := l.given } } with
    | .ok v s1 =>
      if v.toNat < least.toNat then .next { s1 with h := { s1.h with given := [] } }
      else .next { s1 with h := finish { word := 0, major := 0x29, stall := stall } .seq s1.h }
    | .error e s1 => .next (deliver 0 e { s1 with h := { s1.h with given := [] } })
  | _, _ => .next s

end Sys2Proof.Machine
end

