-- ==== Sys2Proof/Machine/Tuples.lean ====
section
/-! DEFINITION. The tuple space (R95 to R107): its instructions, the home slice's step, withdrawals and replies. -/

namespace Sys2Proof.Machine

/-- R96: the home slice of a key in a region. -/
def tupleHome (key : Word) (region : Nat) : Nat :=
  let x := key.toNat ^^^ (region * 256)
  let x := x / 2 ^ 32 ^^^ x % 2 ^ 32
  let x := x / 2 ^ 16 ^^^ x % 2 ^ 16
  bits x 5 0 ^^^ bits x 11 6 ^^^ bits x 15 12

/-- R95: a handle's base address, sign-extended from bit 54, and its region number. -/
def handleBase (h : Word) : Nat := (BitVec.ofNat 55 (wbits h 54 16 * 65536)).signExtend 64 |>.toNat
def handleRegion (h : Word) : Nat := wbits h 7 0

def regionOf (s : State) (r : Nat) : Option Region := s.tuples.regions.find? fun g => g.num == r
/-- R99: a live region whose base is the translation's. -/
def regionHere (s : State) (r pa : Nat) : Option Region :=
  (regionOf s r).filter fun g => (g.pages.head?.map (·.1)) == some pa

/-- R101, R105: an answer starts back to its hart. -/
def sendReply (r : TupleReply) (s : State) : State :=
  { s with tuples := { s.tuples with
    requests := s.tuples.requests.filter fun q => q.num != r.req.num
    replies := s.tuples.replies ++ [r] } }

/-! Slots (R95). -/

/-- A request as its home slice checks it on arrival, at the region's base (R71). -/
def arrivalCtx (machine : Bool) (coord : Nat) (page : Nat × Nat × Bool) : Ctx :=
  { initiator := if machine then 0x3F0 else coordCluster coord, key := page.2.1, z := page.2.2, own := false }
/-- The tuple unit's own accesses to a region's lines: the access table is not applied again (R71). -/
def slotCtx (page : Nat × Nat × Bool) : Ctx := { key := page.2.1, z := page.2.2, own := false }

/-- The page of a region that an address lies in. -/
def pageOf (g : Region) (pa : Nat) : Nat × Nat × Bool :=
  (g.pages.find? fun p => p.1 == granuleOf pa * 65536).getD (granuleOf pa * 65536, 0, false)

/-- The first free slot of a slice among n slots of a page. -/
def freeInPage (used : List Nat) (slice : Nat) : Nat → Nat → Option Nat
  | 0, _ => none
  | n + 1, pa =>
    if homeSlice (lineOf pa) = slice && !used.contains pa then some pa else freeInPage used slice n (pa + 64)
/-- A free slot of a slice in a region: the lowest of the earliest page (log 13). -/
def freeSlot (s : State) (g : Region) (slice : Nat) : Option Nat :=
  let used := (s.tuples.tuples.filter fun t => t.region == g.num).map (·.pa)
  g.pages.findSome? fun p => freeInPage used slice 1024 p.1

/-- Read a stored tuple's fields; the flag says that one is poison or failed. An EMPTY key slot denies them (R65). -/
def readTuple (g : Region) (t : Tuple) (s : State) : Except Nat (State × List Word × Bool) :=
  match physRead (slotCtx (pageOf g t.pa)) t.pa (8 * t.n) s with
  | .ok (s1, bs, bad) => .ok (s1, (List.range t.n).map (fun i => word (leAt bs (8 * i) 8)), bad.isSome)
  | .error (c, _) => .error c

/-! Matching (R100). -/

def fieldsMatch (mask : List Bool) (p t : List Word) : Bool :=
  p.length == t.length && ((p.zip t).zip (mask ++ List.replicate p.length true)).all fun ((a, b), m) => !m || a == b

/-- In the order of arrival numbers. -/
def putByArrival {α : Type} (arrival : α → Nat) (x : α) : List α → List α
  | [] => [x]
  | y :: ys => if arrival x ≤ arrival y then x :: y :: ys else y :: putByArrival arrival x ys
def byArrival {α : Type} (arrival : α → Nat) (xs : List α) : List α := xs.foldr (putByArrival arrival) []

/-- The stored tuples of the request's region and slice, by arrival. -/
def storedFor (s : State) (q : TupleReq) : List Tuple :=
  byArrival (·.arrival) (s.tuples.tuples.filter fun t => t.region == q.region && t.slice == q.slice)

/-- The stored match of a pattern with the smallest arrival number, with its fields and its flaw. DESIGN CHOICE: a field that
is poison or failed is compared by the bytes that its sector holds, and the failed sectors of each tuple compared are
reported. The spec does not say whether such a field matches. -/
def storedMatch (q : TupleReq) (g : Region) : List Tuple → State → Except Nat (State × Option (Tuple × List Word × Bool))
  | [], s => .ok (s, none)
  | t :: ts, s =>
    match readTuple g t s with
    | .error c => .error c
    | .ok (s1, fs, bad) =>
      if fieldsMatch q.mask q.fields fs then .ok (s1, some (t, fs, bad)) else storedMatch q g ts s1

/-- The parked requests of a func that a tuple matches, in arrival order. -/
def parkedFor (s : State) (q : TupleReq) (func : Nat) : List TupleReq :=
  byArrival (·.arrival) (s.tuples.requests.filter fun c =>
    c.parked && c.func == func && c.region == q.region && c.slice == q.slice && fieldsMatch c.mask c.fields q.fields)

/-! The step of a home slice (R101). -/

/-- TDEP: the state after its step, or why the slice cannot take it. -/
def depositStep (q : TupleReq) (g : Region) (s : State) : Except Nat State :=
  let copies := fun (s : State) => (parkedFor s q 1).foldl (fun s c => sendReply { req := c, served := some q.fields } s) s
  match (parkedFor s q 2).head?, freeSlot s g q.slice with
  | some c, _ => .ok (sendReply { req := q } (sendReply { req := c, served := some q.fields } (copies s)))
  | none, none => .ok (sendReply { req := q, status := 2 } (copies s))
  | none, some pa =>
    match physWrite (slotCtx (pageOf g pa)) pa (q.fields.flatMap fun f => bytesOf 8 f.toNat) s with
    | .error (c, _) => .error c
    | .ok (s1, _) =>
      .ok (sendReply { req := q } (copies { s1 with tuples := { s1.tuples with
        tuples := s1.tuples.tuples ++ [⟨q.region, q.slice, pa, q.fields.length, s1.tuples.arrivals⟩]
        arrivals := s1.tuples.arrivals + 1 } }))

/-- TCPY, TTAK, TCPYN, TTAKN. -/
def patternStep (q : TupleReq) (g : Region) (s : State) : Except Nat State :=
  match storedMatch q g (storedFor s q) s with
  | .error c => .error c
  | .ok (s1, some (t, fs, bad)) =>
    let s2 := if q.func = 2 || q.func = 4 then
        { s1 with tuples := { s1.tuples with tuples := s1.tuples.tuples.filter fun u => u.pa != t.pa } } else s1
    .ok (sendReply { req := q, served := some fs, poison := bad } s2)
  | .ok (s1, none) =>
    if 3 ≤ q.func then .ok (sendReply { req := q, status := 1 } s1)
    else if 4096 ≤ (s1.tuples.requests.filter fun c => c.parked && c.slice == q.slice).length then
      .ok (sendReply { req := q, status := 3 } s1)
    else
      .ok { s1 with tuples := { s1.tuples with
        requests := (s1.tuples.requests.filter fun c => c.num != q.num)
          ++ [{ q with parked := true, arrival := s1.tuples.arrivals }]
        arrivals := s1.tuples.arrivals + 1 } }

/-- The checks at the home slice (R99), then the request's effect. -/
def requestStep (q : TupleReq) (s : State) : Except Nat State :=
  match regionHere s q.region q.pa with
  | none => .error cTupleRegion
  | some g =>
    match checkRequest (arrivalCtx q.machine q.coord (pageOf g q.pa)) q.pa 8 true true s with
    | some c => .error c
    | none => if q.func = 0 then depositStep q g s else patternStep q g s

/-- R99, R101: a slice takes its oldest request. A refusal leaves the tuple space unchanged. A hold of a line (R57, R85) holds
the request. -/
def tupleStep (slice : Nat) (s : State) : State :=
  match s.tuples.requests.find? fun q => q.slice == slice && !q.parked with
  | none => s
  | some q =>
    match requestStep q s with
    | .ok s1 => s1
    | .error 0 => s
    | .error c => sendReply { req := q, fault := some c } s

/-- R105: a withdrawal is taken at the slice, after the request it withdraws. -/
def tupleWithdraw (num : Nat) (s : State) : State :=
  match s.tuples.requests.find? fun q => q.num == num && q.parked && q.withdrawn with
  | none => s
  | some q => sendReply { req := q, gone := true } s

/-! Replies (R102, R104). -/

/-- R102: the row a served tuple is written to. -/
def servedRow (q : TupleReq) (fs : List Word) (w : Wide) : Wide :=
  let w1 := fs.zipIdx.foldl (fun w (f, i) => Wide.set w 64 i f.toNat) w
  let w2 := if q.tail && decide (fs.length < q.maxvl) then { w1 with bits := w1.bits % 2 ^ elemAt 64 fs.length } else w1
  { w2 with tag := 0, mark := some (q.maxvl - 1) }

/-- The counted operation of a hart that a tuple request is. -/
def tupleOp (num : Nat) (o : CountedOp) : Bool :=
  match o.kind with
  | .tuple n _ _ => n == num
  | _ => false

/-- R40: a counted operation of a hart ends. -/
def endOp (h : Hart) (o : CountedOp) : Hart := lowerCounter { h with ops := h.ops.erase o } o.counter
/-- A counted operation's result is written to its destination and its copy. -/
def opResult (o : CountedOp) (v : Word) (h : Hart) : Hart :=
  (o.dest.toList ++ o.copy.toList).foldl (fun h n => h.setRegIn o.shadow n v) h

/-- R102: an operation completes at its hart. -/
def completeTuple (r : TupleReply) (o : CountedOp) (h : Hart) : Hart :=
  let h1 := endOp h o
  if r.gone then h1
  else match r.fault, r.poison with
  | some c, _ => h1.addErr ⟨c, r.req.handle, o.order⟩
  | none, true => h1.addErr ⟨cUncorrectable, r.req.handle, o.order⟩
  | none, false =>
    let h2 := match r.served with
      | some fs =>
        match homeOf h1 r.req.vreg with
        | some (.own row) => h1.setOwnRow row (servedRow r.req fs (h1.ownRow row))
        | _ => h1
      | none => h1
    opResult o (word r.status) h2

/-- R383: an answer to a pre-emption's withdrawal: it is kept for the hart's image. -/
def TupleReply.keeps (r : TupleReply) : Bool := r.req.saving && (r.gone || r.served.isSome && !r.poison)
def keptFor (s : State) (r : TupleReply) : Bool := r.keeps && (slotOf s r.req.coord).preempt.isSome

/-- R105: a request whose withdrawal's pre-emption is not taken (log 16) enters its slice again, from the back. -/
def sendAgain (q : TupleReq) (s : State) : State :=
  { s with tuples := { s.tuples with
    requests := s.tuples.requests ++ [{ q with parked := false, withdrawn := false, saving := false }] } }

/-- A reply lands. -/
def landReply (r : TupleReply) (s : State) : State :=
  if keptFor s r then s else
  let s1 := { s with tuples := { s.tuples with replies := s.tuples.replies.erase r } }
  match hartAt s r.req.coord with
  | none => s1
  | some h =>
    match h.ops.find? (tupleOp r.req.num) with
    | none => s1
    | some o => if r.gone && r.req.saving then sendAgain r.req s1 else setHart r.req.coord (completeTuple r o h) s1

/-! The instructions. -/

/-- R98. -/
def tupleInfo (func : Nat) (o : RArgs) (reads : List (BitVec 5)) : Info := rInfo 0x2B func o (.s o.d.toNat) reads

/-- R99: translate a handle's base as a read-modify-write of a TUPLE page. -/
def handlePa (h : Word) : Act Nat := do
  let x ← translateNow (← getH).mode (handleBase h) .rmw
  require (x.typ == 4) cType (word (handleBase h))
  return x.pa

/-- R100: a request enters its way to the home slice. -/
def sendRequest (func : Nat) (d : BitVec 5) (counter : Nat) (q : TupleReq) : Act Unit := do
  let n := (← get).tuples.next
  modify fun s => { s with tuples := { s.tuples with next := n + 1, requests := s.tuples.requests ++ [{ q with num := n }] } }
  addOp (.tuple n func q.vreg) counter (some d.toNat)

/-- R98 to R104: TOP sD, vA, sB. -/
def tupleWord (func : Nat) (o : RArgs) (s : State) : Result :=
  issue (tupleInfo func o [o.b]) (andNext do
    let s ← get
    let h := s.h
    let v := h.slot false
    let ctl := h.csr.tupctl
    let handle := h.reg o.b.toNat
    let mask := (List.range h.vl).map fun i => func == 0 || h.kbit (wbits ctl 6 4) 0 i
    require (h.role != .computer) cRole 0
    require ((⟨o.a.toNat, 1⟩ : Group).isOwn h) cIllegal 0
    require (v.sew == 64 && h.vl != 0 && decide (h.vl ≤ 8) && mask.headD true) cTupleForm (word h.vl)
    require (wbits handle 15 8 == 0) cTupleRegion handle
    acquiresDone
    let pa ← handlePa handle
    let dc := wbits ctl 2 0
    counterRoom dc
    if func = 1 || func = 2 then blockingRoom
    if func = 0 then performEarlier 2 else commit 2
    let row := groupRow (← get) ⟨o.a.toNat, 1⟩ 0
    let fields := (List.range h.vl).map fun i => word (getElem row.bits 64 i)
    sendRequest func o.d dc {
      num := 0, coord := s.cur, func := func, region := handleRegion handle, pa := pa
      slice := tupleHome (fields.headD 0) (handleRegion handle), fields := fields, mask := mask, handle := handle
      vreg := o.a.toNat, tail := v.tailZero, maxvl := h.maxIn v, machine := h.mode == .machine }) s

/-- TDEP (R98, R101): deposit a tuple, as a release. -/
def execTdep (o : RArgs) (s : State) : Result := tupleWord 0 o s
/-- TCPY (R98, R101): copy a matching tuple, parking until there is one. -/
def execTcpy (o : RArgs) (s : State) : Result := tupleWord 1 o s
/-- TTAK (R98, R101): take a matching tuple, parking until there is one. -/
def execTtak (o : RArgs) (s : State) : Result := tupleWord 2 o s
/-- TCPYN (R98, R101): copy a matching tuple, or answer EMPTY. -/
def execTcpyn (o : RArgs) (s : State) : Result := tupleWord 3 o s
/-- TTAKN (R98, R101): take a matching tuple, or answer EMPTY. -/
def execTtakn (o : RArgs) (s : State) : Result := tupleWord 4 o s

/-- R106: walk a region's pages under supervisor rights. -/
def regionPages (va : Nat) : Nat → Act (List (Nat × Nat × Bool))
  | 0 => pure []
  | n + 1 => do
    let x ← translateAs .supervisor va .rmw
    require (x.typ == 4) cType (word va)
    let s ← get
    require (!s.tuples.regions.any fun g => g.pages.any fun p => p.1 == x.pa) cTupleRegion (word va)
    return (x.pa, x.key, x.z) :: (← regionPages ((va + 65536) % 2 ^ 64) n)

/-- R106: zero a page's lines; a line that nothing has written reads as zero already (R424). DESIGN CHOICE: the tuple unit
makes these writes, and the access table is not applied to them. -/
def zeroPage (p : Nat × Nat × Bool) (s : State) : State :=
  (linesHeld s p.1 65536).foldl (fun s l =>
    match physWrite (slotCtx p) l (List.replicate 128 0) s with
    | .ok (s1, _) => s1
    | .error _ => s) s

/-- TREG (R106): create a region. A page under an EMPTY key slot faults ACCESS (R65) before any effect, with the page's address
in TVAL, for which the rule names none (DESIGN CHOICE). -/
def execTreg (o : RArgs) (s : State) : Result :=
  issue { tupleInfo 5 o [o.a, o.b] with level := .supervisor } (andNext do
    let h ← getH
    let va := h.reg o.a.toNat
    let n := h.reg o.b.toNat
    require (wbits va 15 0 == 0) cTupleForm va
    require (n != 0 && decide (n.toNat ≤ 4096)) cTupleForm n
    let pages ← regionPages va.toNat n.toNat
    let s ← get
    match pages.findIdx? fun p => (keyOf s p.2.1).isNone with
    | some i => trapWith cAccess (va + word (65536 * i))
    | none => pure ()
    commit 2
    let s ← get
    match (List.range 256).find? fun r => (regionOf s r).isNone with
    | none => writeD o.d (word (2 ^ 64 - 1))
    | some r =>
      modify fun s =>
        let s1 := pages.foldl (fun s p => zeroPage p s) s
        { s1 with tuples := { s1.tuples with regions := s1.tuples.regions ++ [⟨r, pages⟩] } }
      writeD o.d (va ||| word r)) s

/-- R107: a region is freed: at every slice it is live no more, and requests parked for it complete with EMPTY. -/
def freeRegion (g : Region) (s : State) : State :=
  let s1 := { s with tuples := { s.tuples with
    regions := s.tuples.regions.filter fun r => r.num != g.num
    tuples := s.tuples.tuples.filter fun t => t.region != g.num } }
  (s1.tuples.requests.filter fun q => q.parked && q.region == g.num).foldl
    (fun s q => sendReply { req := q, status := 1 } s) s1

/-- TFREE (R107): free a region. What a slice finds wrong is a pending error, as in R99. -/
def execTfree (o : RArgs) (s : State) : Result :=
  issue { rInfo 0x2B 6 o .none [o.a] with level := .supervisor } (andNext do
    let handle ← readS o.a
    require (wbits handle 15 8 == 0) cTupleRegion handle
    let pa ← handlePa handle
    commit 2
    let s ← get
    let fail := fun (c : Nat) => modH fun h => h.addErr ⟨c, handle, h.words⟩
    match regionHere s (handleRegion handle) pa with
    | none => fail cTupleRegion
    | some g =>
      match checkRequest (arrivalCtx (s.h.mode == .machine) s.cur (pageOf g pa)) pa 8 true true s with
      | some 0 => waitFor (.hold pa)
      | some c => fail c
      | none => modify (freeRegion g)) s

/-! The events. -/

/-- TUPLE_REQUEST_STEP (R101). -/
def execTupleRequestStep (o : SliceArgs) (s : State) : Result := .next (tupleStep o.slice s)
/-- TUPLE_WITHDRAW (R105). -/
def execTupleWithdraw (o : WithdrawArgs) (s : State) : Result := .next (tupleWithdraw o.request s)
/-- TUPLE_REPLY (R102): the reply of an outstanding tuple operation of the current hart lands. -/
def execTupleReply (o : OpArgs) (s : State) : Result :=
  match s.h.ops[o.index]? with
  | some p =>
    match s.tuples.replies.find? fun r => r.req.coord == s.cur && tupleOp r.req.num p with
    | some r => .next (landReply r s)
    | none => .next s
  | none => .next s

end Sys2Proof.Machine
end

