-- ==== Sys2Proof/Machine/Task.lean ====
section
/-! DEFINITION. The TASK words (R338 to R345) and EXIT (R322). -/

namespace Sys2Proof.Machine

/-- R340: a TASK word's information. -/
def taskInfo (func : Nat) (o : RArgs) (dest : DestKind) (reads : List (BitVec 5)) : Info := rInfo 0x31 func o dest reads

/-! The current hart's mail. -/

def mailNow : Act Mail := do
  let s ← get
  return (slotOf s s.cur).mail
/-- Change the mail of a slot's hart. -/
def setMail (coord : Nat) (f : Mail → Mail) (s : State) : State :=
  let t := slotOf s coord
  setSlot coord { t with mail := f t.mail } s
def modMail (f : Mail → Mail) : Act Unit := modify fun s => setMail s.cur f s
/-- Answer a parked steal: the thief is the hart whose PEND the steal is, in its slot or away from it (log 16). -/
def answerSteal (st : Steal) (f : Mail → Mail) (s : State) : State :=
  let t := slotOf s st.slot
  if t.mail.pendSteal = some st.num then setMail st.slot f s else
  match t.aside.find? fun e => e.2.pendSteal == some st.num with
  | some (n, m) => setSlot st.slot { t with aside := put n (f m) t.aside } s
  | none => s

/-- LAUNCH (R341): hand a packet to the cluster's queue, as a release. -/
def execLaunch (o : RArgs) (s : State) : Result :=
  issue { taskInfo 0 o (.s o.d.toNat) [o.a] with address := true } (andNext do
    let va ← readS o.a
    require (va.toNat % 256 == 0) cAlign va
    performEarlier 2
    let bs ← loadBytes (some 0) va.toNat 256 256
    let s ← get
    let h := s.h
    require (!(bits (leAt bs 16 1) 1 0 == 0 && h.mode == .user)) cPrivileged 0
    let r : Reader := ⟨s.cur, h.csr.ptroot, h.mode, fun key z => ctxOf s.cur h.mode key z⟩
    match parsePacket r 0 h.sup.tvec h.mach.tvec bs s with
    | .error (0, a) _ => waitFor (.hold a)
    | .error (6, a) _ => throw (.poison a)
    | .error _ s1 =>
      set s1
      trapWith cLaunchForm va
    | .ok p s1 =>
      set s1
      let n := 48 + coordCluster s1.cur
      let q := queueOf s1 n
      if 64 ≤ q.fifo.length then waitFor .launch
      set (setQueue n { q with fifo := q.fifo ++ [p], accepted := q.accepted + 1 } s1)
      writeD o.d (word q.accepted)) s

/-! Deques (R338) and mailboxes (R339). -/

/-- Deque slot i's address. -/
def dequeSlot (h : Hart) (i : Nat) : Nat :=
  ((BitVec.ofNat 55 (wbits h.csr.taskq 54 12 * 4096)).signExtend 64 + word (32 * i)).toNat
/-- R338: the deque lies in the hart's own scratchpad, on NORMAL or WC pages. -/
def dequeCheck (va : Nat) (kind : AccKind) : Act Unit := do
  let x ← translate va kind
  let me := (← get).cur
  let own := match targetOf x.pa with
    | .scratch cl core _ => cl == coordCluster me && core == coordCore me
    | _ => false
  require (own && decide (x.typ ≤ 1)) cType (word va)

/-- A record, read or written as one unit in class c0. -/
def readRecord (va : Nat) : Act (List Byte) := do
  require (va % 8 == 0) cAlign (word va)
  loadBytes (some 0) va 32 8
def writeRecord (va : Nat) (bs : List Byte) : Act Unit := do
  require (va % 8 == 0) cAlign (word va)
  let _ ← storeBytes (some 0) va 8 bs

/-- SPAWN (R342): hand a record to the oldest parked thief, or keep it in the deque. -/
def execSpawn (o : RArgs) (s : State) : Result :=
  issue { taskInfo 1 o (.s o.d.toNat) [o.a] with address := true } (andNext do
    let rec' ← readRecord (← readS o.a).toNat
    let h ← getH
    match (← mailNow).mailbox with
    | t :: rest =>
      performEarlier 2
      modMail fun m => { m with mailbox := rest }
      modify (answerSteal t fun m => { m with inbox := some rec', pendSteal := none })
      writeD o.d 1
    | [] =>
      let cap := wbits h.csr.taskq 2 0
      if cap ≠ 0 && decide (h.deque < 2 ^ cap) then
        let va := dequeSlot h h.deque
        dequeCheck va .write
        writeRecord va rec'
        commit 2
        modH fun h => { h with deque := h.deque + 1 }
        writeD o.d 0
      else
        commit 2
        writeD o.d 2) s

/-- R343: the hart that a steal names: the one of the thief's launch, stage and role with the ordinal, in its slot. -/
def stealVictim (s : State) (n : Nat) : Option Nat :=
  let me := s.h
  if me.peers ≤ n || n = me.ordinal then none else
  (s.harts.find? fun e => e.1 != s.cur && (e.2.live || e.2.stopped) && e.2.launch == me.launch && e.2.role == me.role
    && e.2.stage == me.stage && e.2.ordinal == n).map (·.1)

/-- STEAL (R343): park a request with a victim. -/
def execSteal (o : RArgs) (s : State) : Result :=
  issue (taskInfo 2 o (.s o.d.toNat) [o.a]) (andNext do
    let n ← readS o.a
    commit 2
    let s ← get
    let mine := (slotOf s s.cur).mail
    match stealVictim s n.toNat with
    | none => writeD o.d 3
    | some v =>
      if mine.pendSteal.isSome || mine.inbox.isSome then writeD o.d 2
      else if 16 ≤ (slotOf s v).mail.mailbox.length then writeD o.d 1
      else
        let n := s.dev.nextSteal
        modify fun s => { s with dev := { s.dev with nextSteal := n + 1 } }
        modMail fun m => { m with pendSteal := some n }
        modify fun s => setMail v (fun m => { m with mailbox := m.mailbox ++ [⟨s.cur, n⟩] }) s
        writeD o.d 0) s

/-- TASKGET (R344): take the newest record, or the handed one. -/
def execTaskget (o : RArgs) (s : State) : Result :=
  issue { taskInfo 3 o (.s o.d.toNat) [o.a] with address := true } (andNext do
    let va := (← readS o.a).toNat
    require (va % 8 == 0) cAlign (word va)
    let h ← getH
    let m ← mailNow
    if h.deque ≠ 0 then
      let from' := dequeSlot h (h.deque - 1)
      dequeCheck from' .read
      let bs ← loadBytes (some 0) from' 32 8
      writeRecord va bs
      modH fun h => { h with deque := h.deque - 1 }
      writeD o.d 0
    else match m.inbox with
      | some rec' =>
        writeRecord va rec'
        modMail fun m => { m with inbox := none }
        writeD o.d 0
      | none => writeD o.d (if m.pendSteal.isSome then 2 else 1)
    modMail fun m => { m with ret := false }
    commit 2) s

/-- YIELD (R345): give up the hart's deficits. -/
def execYield (o : RArgs) (s : State) : Result :=
  issue (taskInfo 4 o .none []) (andNext do
    commit 2
    modify fun s => s.h.groups.foldl (fun s g => passGroup s.cur g s) s) s

/-! EXIT (R322). -/

/-- Withdraw the hart's parked tuple requests (R105) and its DEQs (R272). -/
def withdrawAll (s : State) : State :=
  let deqs := s.h.ops.filter isDeq
  { s with
    h := deqs.foldl endOp s.h
    tuples := { s.tuples with requests := s.tuples.requests.map fun q =>
      if q.coord = s.cur && q.parked then { q with withdrawn := true } else q } }

/-- R339: parked steals go back: each thief's PEND is cleared and its RET is set. -/
def returnSteals (s : State) : State :=
  ((slotOf s s.cur).mail.mailbox).foldl (fun s t => answerSteal t (fun m => { m with pendSteal := none, ret := true }) s)
    (setMail s.cur (fun m => { m with mailbox := [] }) s)

/-- R331: a hart of a launch has completed EXIT; a launch with no completion word is then over. -/
def hartRetired (n : Nat) (s : State) : State :=
  match look n s.dev.launches with
  | none => s
  | some l =>
    let left := l.unfinished - 1
    let ls := if left = 0 && l.packet.done.isNone then cut n s.dev.launches
      else put n { l with unfinished := left } s.dev.launches
    { s with dev := { s.dev with launches := ls } }

/-- R322: free the current slot and report the retirement. -/
def freeSlotNow (s : State) : State :=
  let n := s.h.launch
  let s1 := leaveGroups s.cur (releasePins s.cur (returnSteals s))
  let s2 := setSlot s.cur ((slotOf s1 s.cur).left s.h).cleared { s1 with h := {} }
  hartRetired n s2

/-- R322: CHCLR every channel that the slot owns. -/
def clearOwned : Act Unit :=
  (List.range 16).forM fun ch => do
    let s ← get
    let c := channelOf s (coreIndex s.cur) ch
    if c.state != .idle && c.owner == coordSlot s.cur then clearChannel ch

/-- EXIT (R322): retire the hart, once every access of its has performed, the copies into the weight buffer among them (R331). -/
def execExit (o : RArgs) (s : State) : Result :=
  issue (sysInfo 7 o) (do
    modify withdrawAll
    if unstepped (← get) then waitFor .tuple
    weightsRead none []
    modify performStrip
    let s ← get
    if !s.h.ops.isEmpty || unstepped s then waitFor .order
    match s.h.errs with
    | _ :: _ =>
      if entryWaits (← get) then waitFor .matrix
      modify (takePendingError true)
      return .done
    | [] =>
      clearOwned
      modify freeSlotNow
      return .done) s

end Sys2Proof.Machine
end

