-- ==== Sys2Proof/Machine/Priv.lean ====
section
/-! DEFINITION. The PRIV words on translation, memory and keys: TLBI (R83), MIGRATE (R84, R85), MSQ (R94), KEYLD and ACTBL
(R392, R393). -/

namespace Sys2Proof.Machine

/-- R34, R48: a PRIV word's information. -/
def privInfo (func : Nat) (o : RArgs) (level : Mode) (dest : DestKind) (reads : List (BitVec 5)) : Info :=
  { rInfo 0x32 func o dest reads with level := level, pairable := false }

/-- The next free value (log 7). -/
def takeFree (s : State) : Word × State := (Config.freeValue s.freeCount, { s with freeCount := s.freeCount + 1 })

/-! TLBI. -/

/-- R83: the entries that a TLBI selects: by address space (none is every one) and by an address they cover (none is every
one). -/
def entryMatches (asn va : Option Nat) (e : Nat × Nat × Nat) : Bool :=
  (asn.isNone || asn == some e.1) && (match va with
    | none => true
    | some v => decide (e.2.1 ≤ v) && decide (v < e.2.1 + e.2.2))

/-- R83: the matching entries leave every TLB. -/
def dropEntries (m : Nat × Nat × Nat → Bool) (s : State) : State :=
  let keep := fun (tlb : List TlbEntry) => tlb.filter fun t => !m (t.asn, t.va, t.size)
  { s with
    cores := s.cores.map fun e => (e.1, { e.2 with tlb := keep e.2.tlb })
    clusters := s.clusters.map fun e => (e.1, { e.2 with tlb := keep e.2.tlb }) }

/-- An access made through a matching entry. -/
def accessThrough (m : Nat × Nat × Nat → Bool) (a : Access) : Bool := (a.entry.map m).getD false

/-- R83: a hart's accesses through a matching entry that have not performed: buffered stores, unbound loads, and those of its
word, its fetch among them, where that waits. -/
def hartThrough (m : Nat × Nat × Nat → Bool) (h : Hart) : Bool :=
  h.strip.buf.any (fun b => accessThrough m b.acc)
    || h.ops.any (fun o => match o.kind with
      | .load parts _ _ => o.value.isNone && parts.any fun p => accessThrough m p.1
      | _ => false)
    || (h.given ++ (h.latch.map fun l => l.given).getD []).any fun t => m (t.asn, t.va, t.size)

/-- R83: no pin holds a matching entry, and no access through one is unperformed. The dispatcher keeps none: it translates its
words when it reads or writes them (log 14). -/
def entriesQuiet (m : Nat × Nat × Nat → Bool) (s : State) : Bool :=
  !s.cores.any (fun e => e.2.pins.any fun p => p.admitted && p.pages.any m)
    && !(s.h :: s.harts.map (·.2)).any (hartThrough m)
    && !s.clusters.any (fun e => e.2.loader.any fun w => w.unread && w.parts.any fun p => accessThrough m p.1)
    && !s.dev.heldWrites.any (fun w => (w.entry.map m).getD false)
    && !s.tuples.requests.any (fun q => !q.parked)

/-- R85: a hart whose word waits for what the migration of a granule holds back: a line of it, a progress word's writes, its own
store, a channel's landing, or a copy into the weight buffer (log 43). -/
def atHold (s : State) (old coord : Nat) : Bool :=
  let held := s.dev.heldWrites.filter fun w => granuleOf w.pa == old
  let core := coreIndex coord
  (hartAt s coord).any fun h => match h.waiting with
  | none => false
  | some (.hold pa) => granuleOf pa == old
  | some (.progress ..) => true
  | some (.channel va n) =>
    let mine := channelsOver s core va n
    held.any fun w => (w.landing.map fun l => l.1 == core && mine.contains (channelOf s core l.2.1)).getD false
  | some .matrix => (clusterOf s (coordCluster coord)).loader.any fun w =>
    w.unread && w.parts.any fun p => granuleOf p.1.pa == old && heldOver s p.1.pa p.2
  | some _ => held.any fun w => w.coord == some coord

/-- R84, R85: the same for the end of a granule's migration. What waits for that end does not count: it goes on at the new
location. -/
def migrationQuiet (old : Nat) (m : Nat × Nat × Nat → Bool) (s : State) : Bool :=
  let loads := fun (h : Hart) => { h with ops := h.ops.filter fun o => match o.kind with
    | .load parts _ _ => !parts.any fun p => heldOver s p.1.pa p.2
    | _ => true }
  let still := fun (coord : Nat) (h : Hart) =>
    let h := loads h
    if atHold s old coord then { h with latch := none, given := [] } else h
  entriesQuiet m { s with
    h := still s.cur s.h
    harts := s.harts.map fun e => (e.1, still e.1 e.2)
    cores := s.cores.map fun e => (e.1, { e.2 with pins := e.2.pins.filter fun p => !atHold s old p.coord })
    clusters := s.clusters.map fun e => (e.1, { e.2 with
      loader := e.2.loader.filter fun w => !w.parts.any fun p => heldOver s p.1.pa p.2 })
    dev := { s.dev with heldWrites := [] } }

/-- TLBI (R83). DESIGN CHOICE: of an sA that is not canonical, of which the spec says nothing, bits 54 to 0 count. -/
def execTlbi (o : RArgs) (s : State) : Result :=
  issue (privInfo 0 o .supervisor .none [o.a, o.b]) (andNext do
    let h ← getH
    let ctl := h.reg o.b.toNat
    require (wbits ctl 63 10 == 0) cIllegal 0
    performEarlier 2
    let m := entryMatches (if wbit ctl 8 then none else some (wbits ctl 7 0))
      (if wbit ctl 9 then none else some ((h.reg o.a.toNat).toNat % 2 ^ 55))
    modify (dropEntries m)
    if !entriesQuiet m (← get) then waitFor .order) s

/-! MSQ. -/

/-- R94: the word that MSQ reads of a line. The image of a line that cannot be rebuilt is open (log 7). -/
def msqWord (line : Nat) (s : State) : Word × State :=
  let (tag, s1) := match s.hbm.stored line with
    | some im => (im.tag, s)
    | none =>
      let (v, s1) := takeFree s
      (wbits v 3 0, s1)
  (word (s.hbm.place line * 2 ^ 24 + bitNat (cached s line) * 2 ^ 14 + homeSlice line * 256 + tagSectors tag * 16 + tag % 16), s1)

/-- MSQ (R94). DESIGN CHOICE: the key slot of the leaf is not asked for: R94 names the access table alone, where R65 has any access
through an EMPTY slot fault. -/
def execMsq (o : RArgs) (s : State) : Result :=
  issue (privInfo 1 o .supervisor (.s o.d.toNat) [o.a]) (andNext do
    let va ← readS o.a
    let x ← translateAs .supervisor va.toNat .read
    require (x.typ != 4) cType va
    require (targetOf x.pa == .hbm) cAccess va
    let s ← get
    require (accessAllowed s (ctxOf s.cur s.h.mode x.key x.z).initiator x.pa true false) cAccess va
    performEarlier 2
    modify (writebackLine (lineOf x.pa))
    let (v, s1) := msqWord (lineOf x.pa) (← get)
    set s1
    writeD o.d v) s

/-! MIGRATE. -/

/-- R74: the address of the level-3 entry that a walk ends at. -/
def leafAddress (w : Walker) (root va : Nat) (s : State) : Nat :=
  match (do
    let (s, e1) ← readEntry w (root * 65536 + bits va 54 42 * 8) s
    let (_, e2) ← readEntry w (ptePa e1 * 65536 + bits va 41 29 * 8) s
    pure (ptePa e2 * 65536 + bits va 28 16 * 8) : Except WalkFail Nat) with
  | .ok a => a
  | .error _ => 0

/-- R84: an image moved from one line to another, under a key: its tag and check values kept. -/
def moveImage (k : KeyPair) (src dst : Nat) (im : Image) : Image :=
  let used := tagSectors im.tag
  { im with slots := Vector.ofFn fun (i : Fin 4) =>
      let v := im.slots[i.val]?.getD 0
      if i.val < used then sealSlot k dst i.val (openSlot k src i.val v) else v }

/-- R56: a new stored image of a line, with its parity. -/
def storeImage (line : Nat) (im : Image) (s : State) : State :=
  let hb := s.hbm
  let st := stripeOf line
  let hb1 := match hb.place line with
    | 3 => hb
    | 1 =>
      let others := (stripeLines st).filter (· != line)
      { hb with parity := put st (others.foldl (fun a l => xorImage a (hb.image l)) im) hb.parity }
    | _ =>
      let hb' := { hb with images := put line im hb.images }
      if hb.parityLive st then { hb' with parity := put st (xorImage (hb.parityOf st) (xorImage (hb.image line) im)) hb.parity } else hb'
  { s with hbm := hb1 }

/-- R84: copy one line in its stored form; a dirty line is written back first. The lines that the destination's cache held
are gone. A line that cannot be rebuilt is copied as poison (R62). DESIGN CHOICE: the rule checks the destination alone; an
old address that is not HBM data has no stored form, and the image copied is that of a line never written. -/
def migrateLine (k : KeyPair) (src dst : Nat) (s : State) : State :=
  let s1 := settleStripe (stripeOf dst) (settleStripe (stripeOf src) (writebackLine src s))
  let im := match s1.hbm.stored src with
    | some im => moveImage k src dst im
    | none => { tag := 15 }
  storeImage dst im (dropLine dst s1)

/-- R84: start a migration: the mark, the copy, and the leaf's new address. DESIGN CHOICE: of a page under an EMPTY key slot, of
which the spec says nothing here, no line can be re-encrypted and none is copied; the leaf moves all the same. -/
def startMigration (old new leafAt asn va : Nat) (e : Word) (s : State) : State :=
  let key := wbits e 27 16
  let lines := (List.range 512).map fun i => 128 * i
  let s1 := lines.foldl (fun s l => breakLinks (old * 65536 + l) none s) s
  let s2 := match keyOf s1 key with
    | some k => lines.foldl (fun s l => migrateLine k (old * 65536 + l) (new * 65536 + l) s) s1
    | none => s1
  let s3 := match physWrite {} leafAt (bytesOf 8 (wset e 63 28 new).toNat) s2 with
    | .ok (s, _) => s
    | .error _ => s2
  dropEntries (entryMatches (some asn) (some va))
    { s3 with dev := { s3.dev with migrating := put old ⟨new, asn, va, key, wbit e 3⟩ s3.dev.migrating } }

/-- R84: a granule is the source or the destination of a migration. -/
def inMigration (s : State) (g : Nat) : Bool := s.dev.migrating.any fun e => e.1 == g || e.2.dest == g

/-- MIGRATE (R84). The word waits until its migration is over: the walk then finds the new granule. -/
def execMigrate (o : RArgs) (s : State) : Result :=
  issue (privInfo 2 o .supervisor .none [o.a, o.b]) (andNext do
    let h ← getH
    let va := h.reg o.a.toNat
    let dst := h.reg o.b.toNat
    acquiresDone
    require (canonical va.toNat) cPageInvalid va
    let v := va.toNat % 2 ^ 55
    let root := wbits h.csr.ptroot 63 28
    let (e, lvl) ← (do
      match walk h.walker root v true (← get) with
      | .ok (s1, e, lvl) =>
        set s1
        return (e, lvl)
      | .error (.held a) => waitFor (.hold a)
      | .error (.cause c) => trapWith c va
      | .error (.poison a) => throw (.poison a) : Act (Word × Nat))
    require (rightsOk e .write (if h.mode = .user then .user else .supervisor)) cPagePerm va
    let (base, _, pa) := leafRange e lvl v
    let old := (pa + (v - base)) / 65536
    if inMigration (← get) old then
      commit 2
      waitFor .migration
    if old = wbits dst 51 16 then commit 2 else
    require (lvl == 3 && wbits e 6 4 == 0) cPageFormat va
    require (decide (wbits e 15 13 ≤ 1)) cType va
    require (wbits dst 15 0 == 0 && decide (dst.toNat < 0xF000000000)) cAccess dst
    commit 2
    if inMigration (← get) (granuleOf dst.toNat) then waitFor .migration
    modify fun s => startMigration old (granuleOf dst.toNat) (leafAddress s.h.walker root v s) (wbits s.h.csr.ptroot 7 0) v e s
    waitFor .migration) s

/-- R85: an access to the old granule goes to the new location. -/
def redirectParts (old new : Nat) (parts : List (Access × Nat)) : List (Access × Nat) :=
  parts.map fun (a, n) => (if granuleOf a.pa = old then { a with pa := new * 65536 + a.pa % 65536 } else a, n)
/-- R85: what a hart has still to read comes from the new location: its unbound loads, and its word's, where that waits. An
access that was not translated does so for the lines of which writes were held. -/
def redirectHart (old new : Nat) (lines : List Nat) (h : Hart) : Hart :=
  let leaf := fun (t : TlbEntry) =>
    if t.size == 65536 && ptePa t.leaf == old then { t with leaf := wset t.leaf 63 28 new } else t
  let waits := (match h.waiting with
    | some (.hold pa) => granuleOf pa == old
    | _ => false)
  { h with
    ops := h.ops.map fun o => match o.kind, o.value with
      | .load parts nat' c, none => { o with kind := .load (redirectParts old new parts) nat' c }
      | _, _ => o
    given := h.given.map leaf
    latch := h.latch.map fun l => { l with given := l.given.map leaf }
    moved := if waits then lines.foldl (fun m l => put l (new * 65536 + l % 65536) m) h.moved else h.moved }

/-- R85, R397: a write on its way has ended, at an address or with a failure there: a hart's counted store completes, with a
pending error where the write was refused or merged into a flawed sector (R370); a requester is answered; a channel's element
has landed (R111). -/
def endWrite (pa : Nat) (bad : Option (Nat × Nat)) (w : HeldWrite) (s : State) : State :=
  let fail := fun (h : Hart) => match bad with
    | some (e, p) => h.addErr ⟨e, word (w.va + (p - pa)), w.order⟩
    | none => h
  let s1 := match w.coord.bind fun n => (hartAt s n).map fun h => (n, h) with
    | some (n, h) => setHart n (fail ((w.store.map fun q => endStore q h).getD h)) s
    | none => s
  match w.ack, w.landing with
  | none, none => s1
  | none, some (core, ch, i) => endLanding core ch i (bad.any fun e => e.1 != cUncorrectable) s1
  | some (i, t), _ => answer i t (if (bad.map (·.1)).getD cUncorrectable = cUncorrectable then some [] else none) false s1

/-- R85: a held write is forwarded to the new granule under its own key and Z. -/
def forwardHeld (new : Nat) (w : HeldWrite) (s : State) : State :=
  let pa := new * 65536 + w.pa % 65536
  match writeMasked { key := w.key, z := w.z } pa w.bytes w.mask s with
  | .ok (s1, bad) => endWrite pa (bad.map fun p => (cUncorrectable, p)) w s1
  | .error e => endWrite pa (some e) w s

/-- R84, R85: the end of a migration: once nothing uses the old translation, the held writes are forwarded in arrival order, the
reads that waited for them are served, and the granule is migrating no more. An image that lies there has moved. -/
def endMigration (old : Nat) (s : State) : State :=
  match look old s.dev.migrating with
  | none => s
  | some m =>
    let uses := entryMatches (some m.asn) (some m.va)
    if !migrationQuiet old uses s then s else
    let (writes, others) := s.dev.heldWrites.partition fun w => granuleOf w.pa == old
    let (reads, otherReads) := s.dev.heldReads.partition fun r => granuleOf r.waits == old
    let lines := (writes.map fun w => lineOf w.pa).dedup
    let place := fun (l : Nat) => m.dest * 65536 + l % 65536
    let s1 := { s with
      dev := { s.dev with
        heldWrites := others, heldReads := otherReads, migrating := cut old s.dev.migrating
        away := s.dev.away.map fun e =>
          (e.1, if granuleOf e.2.image = old then { e.2 with image := place e.2.image } else e.2) }
      h := redirectHart old m.dest lines s.h
      harts := s.harts.map fun e => (e.1, redirectHart old m.dest lines e.2)
      clusters := s.clusters.map fun e => (e.1, { e.2 with
        loader := e.2.loader.map fun w => { w with parts := redirectParts old m.dest w.parts } }) }
    let s2 := writes.foldl (fun s w => forwardHeld m.dest w s) (dropEntries uses s1)
    reads.foldl (fun s r => serveRead { r with moved := lines.foldl (fun q l => put l (place l) q) r.moved } s) s2

/-- MIGRATION_COMPLETE (R84). -/
def execMigrationComplete (o : GranuleArgs) (s : State) : Result := .next (endMigration (granuleOf o.granule) s)

/-! KEYLD and ACTBL. -/

/-- R392: the slices' step on a key slot: dirty lines last written under it are written back under the old keys, the lines
under it leave the cache, and the slot holds its new keys. -/
def changeKey (slot : Nat) (new : Option KeyPair) (s : State) : State :=
  let lines := (s.hbm.cache.filter fun e => e.2.key == slot).map (·.1)
  let s1 := lines.foldl (fun s l => dropLine l (writebackLine l s)) s
  { s1 with dev := { s1.dev with keys := match new with
    | some k => put slot k s1.dev.keys
    | none => cut slot s1.dev.keys } }

/-- KEYLD (R392): fill a key slot from a wrapped blob, or empty it. -/
def execKeyld (o : RArgs) (s : State) : Result :=
  issue (privInfo 3 o .machine (.s o.d.toNat) [o.a, o.b]) (andNext do
    let h ← getH
    let ctl := h.reg o.b.toNat
    let slot := wbits ctl 11 0
    require (wbits ctl 63 13 == 0 && slot != 0) cIllegal 0
    performEarlier 2
    if wbit ctl 12 then
      modify (changeKey slot none)
      writeD o.d 0
    else
      let va := h.reg o.a.toNat
      require (va.toNat % 8 == 0) cAlign va
      let blob ← loadBytes (some 0) va.toNat 72 8
      match unwrap Config.wrappingKey blob with
      | none => writeD o.d 1
      | some ks =>
        modify (changeKey slot (some ⟨BitVec.ofNat 256 (leAt ks 0 32), BitVec.ofNat 256 (leAt ks 32 32)⟩))
        writeD o.d 0) s

/-- R69: the initiators listed, but for the management controller's. -/
def initiatorListed (i : Nat) : Bool := decide (i < 0x58) || (decide (0x100 ≤ i) && decide (i < 0x200))

/-- ACTBL (R393): write one access-table entry. -/
def execActbl (o : RArgs) (s : State) : Result :=
  issue (privInfo 4 o .machine .none [o.a, o.b]) (andNext do
    let h ← getH
    let sel := h.reg o.a.toNat
    let va := h.reg o.b.toNat
    require (wbits sel 15 10 == 0 && wbits sel 63 19 == 0 && initiatorListed (wbits sel 9 0)) cIllegal 0
    require (va.toNat % 16 == 0) cAlign va
    performEarlier 2
    let bs ← loadBytes (some 0) va.toNat 16 16
    let e := leAt bs 0 16
    let entry : BitVec 128 := BitVec.ofNat 128 (bits e 99 64 * 2 ^ 64 + bits e 63 61 * 2 ^ 61 + bits e 35 0)
    modify fun s => { s with dev := { s.dev with access := put (8 * wbits sel 9 0 + wbits sel 18 16) entry s.dev.access } }) s

end Sys2Proof.Machine
end

