-- ==== Sys2Proof/Machine/Context.lean ====
section
/-! DEFINITION. PREEMPT, RESUME and the pre-emption point (R378 to R385): the image of a hart, written and read. -/

namespace Sys2Proof.Machine

/-- Make a slot's hart the one that moves. -/
def focus (coord : Nat) (s : State) : State :=
  if coord = s.cur then s else
  let kept := if s.h.live || s.h.stopped then put s.cur s.h s.harts else cut s.cur s.harts
  { s with cur := coord, h := (look coord s.harts).getD {}, harts := cut coord kept }

/-! The slot that sA names (R381). -/

/-- R381: a slot in COORD's layout; DEV is ignored, and CORE 127 names the matrix control core. -/
def slotNamed (a : Word) : Act Nat := do
  let core := wbits a 14 8
  let c := if core = 127 then matrixCoord (wbits a 19 16) else coordOf (wbits a 19 16) core (wbits a 2 0)
  require (wbits a 63 32 == 0 && wbits a 23 20 == 0 && !wbit a 15 && wbits a 7 3 == 0 && (decide (core < 96) || core == 127)) cCtxForm a
  require (c != (← get).cur) cCtxForm a
  return c

def occupied (s : State) (coord : Nat) : Bool := ((hartAt s coord).map fun h => h.live || h.stopped).getD false

/-- The slots that a pre-emption of a hart takes: its own, or its crew's three. -/
def crewSlots (s : State) (coord : Nat) : List Nat :=
  match hartAt s coord with
  | some h => if isCrew h then (List.range 3).map fun i => crewBase coord h + i else [coord]
  | none => [coord]

/-! The image (R382). -/

/-- Its size. -/
def imageSize : Nat := 0x18000

/-- The CSRs it holds, in order. -/
def imageCsrs (control : Bool) : List Nat :=
  [0x140, 0x141, 0x142, 0x143, 0x144, 0x147, 0xC0, 0xC1, 0xC2, 0xD9, 0xCD, 0xC3, 0xC4, 0xC5, 0xC7, 0xC6, 0xC8, 0xC9, 0xCA,
   0xCB, 0xDC, 0xDD, 0xCE, 0xCF, 0xE3, 0xE4, 0xE2, 0xE5, 0xDE, 0x180, 0x185]
  ++ (List.range 8).map (0xD0 + ·) ++ (List.range 8).map (0xE8 + ·) ++ [0xDA]
  ++ (if control then 0xF0 :: 0xF1 :: (List.range 12).map (0xF4 + ·) else [])

/-- R382: KIND. -/
def kindOf (r : Role) : Nat :=
  match r with
  | .solo => 0
  | .loader => 1
  | .computer => 2
  | .storer => 3
  | .control => 4
def roleOfKind (k : Nat) : Role :=
  if k = 0 then .solo else if k = 1 then .loader else if k = 2 then .computer else if k = 3 then .storer else .control

/-- R159, R382: a hart's own vector rows. -/
def ownRows (r : Role) : Nat := if r = .solo then 32 else if r = .computer then 24 else if r = .control then 0 else 16

/-- R382: extents in 64-byte units. -/
def extUnits (r : VRow) : Nat := (r.extent + 63) / 64
/-- R382: a row record. -/
def rowRecord (r : VRow) : Nat :=
  r.tag.toNat + 64 * bitNat r.mark.isNone + 128 * (r.mark.getD 0 % 2 ^ 13) + 2 ^ 20 * extUnits r

/-- The current hart's rows in the image: its own, then a loader's rings. -/
def imageRows (s : State) : List VRow :=
  s.h.rows.toList.take (ownRows s.h.role)
    ++ (if s.h.role = .loader then
        (List.range 8).flatMap fun k => (List.range 4).map fun j => (ringOf s k).getD j {}
      else [])

/-- R383: the answer kept for an operation whose withdrawal a pre-emption has sent. -/
def keptReply (s : State) (o : CountedOp) : Option TupleReply := s.tuples.replies.find? fun r => tupleOp r.req.num o && keptFor s r

/-- R383: an operation-table entry, of 192 bytes. -/
def opEntry (s : State) (o : CountedOp) : List Byte :=
  let d := o.dest.getD 0
  match o.kind, keptReply s o with
  | .deq port, _ => slice (bytesOf 6 (3 + 2 ^ 16 * d + 2 ^ 32 * o.counter) ++ bytesOf 2 0 ++ bytesOf 8 port) 0 192
  | .tuple _ func v, some r =>
    let q := r.req
    let words := fun (ws : List Word) => slice (ws.flatMap fun w => bytesOf 8 w.toNat) 0 64
    let mask := (q.mask.zipIdx.map fun (b, i) => 2 ^ i * bitNat b).sum
    slice ([BitVec.ofNat 8 func, BitVec.ofNat 8 (bitNat r.served.isSome), BitVec.ofNat 8 d, BitVec.ofNat 8 v
            , BitVec.ofNat 8 o.counter, BitVec.ofNat 8 q.fields.length, BitVec.ofNat 8 mask, 0]
      ++ bytesOf 8 q.handle.toNat ++ words q.fields ++ words (r.served.getD [])) 0 192
  | _, _ => List.replicate 192 0

/-- R382: a codebook slot, of 640 bytes. -/
def bookEntry (c : CodeSlot) : List Byte :=
  let n := c.entries.length
  slice (bytesOf 1 (if n = 16 then 1 else if n = 64 then 2 else if n = 256 then 3 else 0) ++ bytesOf 1 (wrap 8 c.scale)
    ++ bytesOf 6 0 ++ c.entries.flatMap fun e => bytesOf 2 e.toNat) 0 640

/-- R382: the header of the current hart's image. -/
def imageHeader (bound : Bool) (s : State) : List Byte :=
  let h := s.h
  let occ := fun (k : Nat) => if h.role = .loader then (ringOf s k).length else 0
  let bq := fun (k : Nat) => if h.role = .loader then ((crewHere s).bqs[k]?.getD []).length else 0
  bytesOf 4 0x51584349 ++ bytesOf 2 1 ++ bytesOf 1 (kindOf h.role)
    ++ bytesOf 1 (bitNat bound + 2 * bitNat h.inHandler + 4 * bitNat h.pfx.isSome)
    ++ bytesOf 8 (resumeAt h).toNat ++ bytesOf 4 (h.savedPfx.getD 0) ++ bytesOf 4 (s.dev.number * 2 ^ 24 + s.cur)
    ++ bytesOf 1 (modeNum h.mode) ++ bytesOf 1 h.cls ++ bytesOf 1 h.width ++ bytesOf 1 h.span
    ++ bytesOf 2 h.ops.length ++ bytesOf 1 h.lastd.toNat ++ bytesOf 1 (slotOf s s.cur).reply.length
    ++ (List.range 6).flatMap (fun i => bytesOf 1 (h.deps[i]?.getD 0))
    ++ bytesOf 1 ((List.range 7).map fun i => 2 ^ i * bitNat (h.pred i)).sum ++ bytesOf 1 0
    ++ bytesOf 4 ((List.range 8).map fun k => 16 ^ k * occ k).sum ++ bytesOf 1 (bq 0) ++ bytesOf 1 (bq 1) ++ bytesOf 2 0
    ++ bytesOf 4 (h.vstart % 2 ^ 17) ++ bytesOf 12 0

/-- R382: the current hart's image as the pieces that are written: bytes beyond a row's extent are not. -/
def imagePieces (bound : Bool) (s : State) : List (Nat × List Byte) :=
  let h := s.h
  let rows := imageRows s
  let words := fun (ws : List Word) => ws.flatMap fun w => bytesOf 8 w.toNat
  let low := imageHeader bound s
    ++ slice (words ((imageCsrs (h.role == .control)).map (csrRead s))) 0 512
    ++ words h.s.toList ++ words h.shadow.toList ++ bytesOf 128 0
    ++ slice (h.ops.flatMap (opEntry s)) 0 6144
    ++ slice (rows.flatMap fun r => bytesOf 4 (rowRecord r)) 0 512
    ++ h.cbs.toList.flatMap bookEntry
    ++ (List.range 7).flatMap fun i => (h.k[i]?.getD (Vector.replicate 8 0)).toList.flatMap fun r => bytesOf 1024 r.toNat
  let vec := rows.zipIdx.map fun (r, j) => (0x10800 + 512 * j, (bytesOf 512 r.bits.toNat).take (64 * extUnits r))
  let bqs := if h.role = .loader then (List.range 2).flatMap fun k => slice (words ((crewHere s).bqs[k]?.getD [])) 0 128 else []
  [(0, low)] ++ vec ++ [(0x10800 + 512 * rows.length, List.replicate (512 * (56 - rows.length)) 0),
    (0x17800, slice (slice (words (slotOf s s.cur).reply) 0 128 ++ bqs) 0 2048)]

/-- Write a piece of an image through its translated parts; a refused part is a pending error of the requester (R370). -/
def writeImage (requester off : Nat) (bs : List Byte) : List (Access × Nat) → Nat → State → State
  | [], _, s => s
  | (a, n) :: ps, at', s =>
    let lo := max off at'
    let hi := min (off + bs.length) (at' + n)
    let s1 := if hi ≤ lo then s else
      let mode := if a.user then Mode.user else if a.entry = none then .machine else .supervisor
      match physWrite (ctxOf requester mode a.key a.z) (a.pa + (lo - at')) ((bs.drop (lo - off)).take (hi - lo)) s with
      | .ok (s1, _) => s1
      | .error (e, _) =>
        match hartAt s requester with
        | some h => setHart requester (h.addErr ⟨e, word (a.va + (lo - at')), h.words⟩) s
        | none => s
    writeImage requester off bs ps (at' + n) s1

/-! Pre-emption (R378, R381). -/

/-- R384: what makes a hart return only to the slot it left: a channel, mail, a barrier arrival, an owned window. -/
def boundHere (coord : Nat) (s : State) : Bool :=
  let core := coreOf s (coreIndex coord)
  let j := coordSlot coord
  let m := (slotOf s coord).mail
  let me := slotInCluster coord
  core.channels.toList.any (fun c => c.state != .idle && c.owner == j && !c.held)
    || !m.mailbox.isEmpty || m.inbox.isSome || m.pendSteal.isSome || m.ret
    || core.barriers.toList.any (fun b => b.arrived.contains j || b.released.contains j)
    || (clusterOf s (coordCluster coord)).ownwin.toList.any fun d =>
      wbit d 63 && (wbits d 41 32 == me || (wbit d 62 && wbits d 51 42 == me))

/-- R381, R383: an operation that the pre-emption saves: a DEQ, or a tuple request whose withdrawal has been answered. -/
def saved (s : State) (o : CountedOp) : Bool := isDeq o || (keptReply s o).isSome
/-- R381: the withdrawals of a hart's parked requests are sent. -/
def sendWithdrawals (coord : Nat) (s : State) : State :=
  { s with tuples := { s.tuples with requests := s.tuples.requests.map fun q =>
    if q.coord = coord && q.parked && !q.withdrawn then { q with withdrawn := true, saving := true } else q } }

/-- R378, R381, R284: the hart of a slot stands at its pre-emption point with nothing left to complete; the control core's
quadrants stand at interruption points, and the weight loader has made its copies' reads. -/
def atPoint (coord : Nat) (s : State) : Bool :=
  match hartAt s coord with
  | none => true
  | some h => !(h.live || h.stopped) || (h.live && interruptible h && h.atStop && h.errs.isEmpty && h.strip.buf.isEmpty
      && h.pend.isEmpty && !heldBy coord s && h.ops.all (saved s) && !(h.role == .control && unitsBusy (coordCluster coord) s))

/-- The physical address of an offset of an image. -/
def imageAddress : List (Access × Nat) → Nat → Nat
  | [], _ => 0
  | (a, n) :: ps, off => if off < n then a.pa + off else imageAddress ps (off - n)

/-- R125: the channels that a pre-empted hart owns are held, under the number of its pre-emption. -/
def holdChannels (coord image : Nat) (s : State) : State :=
  let c := coreOf s (coreIndex coord)
  setCore (coreIndex coord) { c with channels := c.channels.map fun ch =>
    if ch.state != .idle && ch.owner == coordSlot coord && !ch.held then { ch with held := true, image := image } else ch } s

/-- A pre-empted hart is known by a number; one whose image lay where a new one is written is known no more. -/
def putAway (n : Nat) (a : Away) (away : List (Nat × Away)) : List (Nat × Away) :=
  put n a (away.filter fun e => e.2.image != a.image)

/-- R381: capture the hart in a slot: its image is written, its withdrawals are taken, and its slot is free. -/
def capture (bound : Bool) (r : PreemptReq) (coord off : Nat) (s : State) : State :=
  match hartAt s coord with
  | none => s
  | some h =>
    if !h.live then s else
    let s1 := focus coord s
    let n := s1.dev.preempted
    let s3 := (imagePieces bound s1).foldl (fun s p => writeImage r.requester (off + p.1) p.2 r.parts 0 s) s1
    let away : Away := {
      image := imageAddress r.parts off, header := imageHeader bound s1, launch := h.launch, stage := h.stage
      ordinal := h.ordinal, peers := h.peers, uiLastd := h.uiLastd, staged := h.staged
      ops := h.ops.map fun o => (o, (keptReply s o).map fun r => r.req) }
    let t := slotOf s3 coord
    let s4 := leaveGroups coord (releasePins coord (holdChannels coord n s3))
    let s5 := setSlot coord { t.left h with
      mail := {}, reply := [], preempt := none, answer := none
      aside := if t.mail = {} then t.aside else put n t.mail t.aside } s4
    focus s.cur { s5 with
      h := {}
      slots := s5.slots.map fun e => (e.1, { e.2 with preempt := e.2.preempt.filter fun q => q.requester != coord })
      dev := { s5.dev with away := putAway n away s5.dev.away, preempted := n + 1 }
      tuples := { s5.tuples with replies := s5.tuples.replies.filter fun r => r.req.coord != coord } }

/-- R378, R284: the current hart reaches its point: the control core's quadrants stop at their next interruption points, its
results land, its strip buffer performs (WHY 5), and the withdrawals of its parked requests are sent. -/
def reachPoint (s : State) : State :=
  let s1 := if s.h.role == .control then stopQuadrants (coordCluster s.cur) s else s
  sendWithdrawals s1.cur (earlyCommit 5 { s1 with h := s1.h.landAll })

/-- R378, R381: the pre-emption point of the current hart. A crew is captured when each of its members has come to its own. -/
def preemptPoint (s : State) : State :=
  match (slotOf s s.cur).preempt with
  | none => s
  | some r =>
    if !interruptible s.h || !s.h.atStop then s else
    let s1 := reachPoint s
    let members := crewSlots s1 s1.cur
    if !members.all fun m => atPoint m s1 then s1 else
    let bound := members.any fun m => occupied s1 m && boundHere m s1
    let s2 := members.zipIdx.foldl (fun s (m, i) => capture bound r m (imageSize * i) s) s1
    setSlot r.requester { slotOf s2 r.requester with answer := some 0 } s2

/-- R381: a pre-emption that the current hart has asked for and that has not been taken. -/
def requestOpen (s : State) : Bool := s.slots.any fun e => (e.2.preempt.map fun r => r.requester) == some s.cur

/-- PREEMPT (R381): ask for a slot's hart, and wait for its capture; with s[b] = 0, make WAKE pending there. It is one step:
once it has asked, the hart takes nothing before the answer. -/
def execPreempt (o : RArgs) (s : State) : Result :=
  issue (privInfo 5 o .supervisor (.s o.d.toNat) [o.a, o.b]) (andNext do
    let h ← getH
    let va := h.reg o.b.toNat
    let tgt ← slotNamed (h.reg o.a.toNat)
    let s ← get
    if va = 0 then
      commit 2
      modify fun s => setSlot tgt { slotOf s tgt with wake := true } s
      writeD o.d (if occupied s tgt then 0 else 1)
    else match (slotOf s s.cur).answer with
    | some v =>
      modify fun s => setSlot s.cur { slotOf s s.cur with answer := none } s
      writeD o.d v
    | none =>
      if requestOpen s then waitFor .stop
      require (va.toNat % 4096 == 0) cAlign va
      let members := crewSlots s tgt
      let parts ← translateRange va.toNat (imageSize * members.length) .write
      match parts.find? fun p => 2 ≤ p.2.2.typ with
      | some p => trapWith cType (word p.1)
      | none => pure ()
      commit 2
      let s ← get
      if !occupied s tgt then writeD o.d 1 else
      if members.any fun m => (slotOf s m).preempt.isSome then waitFor .order
      let r : PreemptReq := ⟨parts.map fun (a, n, x) => (accessOf s a x, n), s.cur⟩
      modify fun s => (members.filter (occupied s)).foldl (fun s m => setSlot m { slotOf s m with preempt := some r } s) s
      waitFor .stop) s

/-- PREEMPTION_POINT (R378). -/
def execPreemptionPoint (s : State) : Result := eventWhen true preemptPoint s

/-! RESUME (R384). -/

/-- A header's fields (R382). -/
structure Header where
  kind : Nat
  bound : Bool
  inHandler : Bool
  pfx : Option Nat
  epc : Word
  coord : Nat
  mode : Nat
  cls : Nat
  width : Nat
  span : Nat
  ops : Nat
  lastd : Nat
  replies : Nat
  deps : List Nat
  preds : Nat
  rings : List Nat
  bqs : List Nat
  vstart : Nat

/-- R382, R384: a header; none with a wrong magic, version or reserved field. -/
def parseHeader (kind : Option Nat) (b : List Byte) : Option Header :=
  let at' := fun (i : Nat) => leAt b i 1
  let coord := leAt b 20 4
  let rings := (List.range 8).map fun k => leAt b 40 4 / 16 ^ k % 16
  let deps := (List.range 6).map fun i => at' (32 + i)
  let ok := leAt b 0 4 == 0x51584349 && leAt b 4 2 == 1 && decide (at' 6 ≤ 4) && (kind.isNone || kind == some (at' 6))
    && decide (at' 7 < 8) && bits coord 23 20 == 0 && !bit coord 15 && bits coord 7 3 == 0
    && decide (at' 24 ≤ 2) && decide (at' 25 ≤ 3) && decide (at' 26 ≤ 2) && decide (at' 27 ≤ 3) && decide (leAt b 28 2 ≤ 32)
    && decide (at' 30 < 32) && decide (at' 31 ≤ 16) && deps.all (fun d => decide (d ≤ 63)) && decide (at' 38 < 128) && at' 39 == 0
    && rings.all (fun n => decide (n ≤ 4)) && decide (at' 44 ≤ 16) && decide (at' 45 ≤ 16) && leAt b 46 2 == 0
    && decide (leAt b 48 4 < 2 ^ 17) && leAt b 52 12 == 0
  if !ok then none else
  some { kind := at' 6, bound := bit (at' 7) 0, inHandler := bit (at' 7) 1
         pfx := if bit (at' 7) 2 then some (leAt b 16 4) else none, epc := word (leAt b 8 8)
         coord := coord, mode := at' 24, cls := at' 25, width := at' 26, span := at' 27, ops := leAt b 28 2
         lastd := at' 30, replies := at' 31, deps := deps, preds := at' 38, rings := rings, bqs := [at' 44, at' 45]
         vstart := leAt b 48 4 }

/-- R382, R384: a CSR loaded from an image, under its fields: RZ bits read zero (R6), and a reserved value leaves the field as
it is (R7). -/
def restoreCsr (h : Hart) (n : Nat) (v : Word) : Hart :=
  let c := h.csr
  if 0xD0 ≤ n && n ≤ 0xD7 then { h with efc := h.efc.setIfInBounds (n - 0xD0) (v.setWidth 32) }
  else if 0xE8 ≤ n && n ≤ 0xEF then { h with wth := h.wth.setIfInBounds (n - 0xE8) (if thresholdsLegal v then v else 0) }
  else if 0x140 ≤ n && n ≤ 0x147 then { h with sup := h.sup.set (n - 0x140) v }
  else match n with
  | 0xC0 => { h with vl := wbits v 13 0 }
  | 0xC1 => if vtypeLegal v then { h with vt := h.vt.setIfInBounds 0 v } else h
  | 0xC2 => if vtypeLegal v then { h with vt := h.vt.setIfInBounds 1 v } else h
  | 0xC3 => { h with csr := { c with schk := keep v 1 } }
  | 0xC4 => { h with csr := { c with tupctl := ruled (wbits v 2 0 != 6) c.tupctl (keep v 0x77) 2 0 } }
  | 0xC5 => { h with csr := { c with rowstr := v } }
  | 0xC6 => { h with csr := { c with ncount := v } }
  | 0xC7 => { h with csr := { c with notify := keep v 0x7FFFFFFFFFFFF9 } }
  | 0xC8 => { h with csr := { c with uivec := keep v 0xFFFFFFFFFFFFFFFD } }
  | 0xC9 => { h with csr := { c with uepc := keep v 0xFFFFFFFFFFFFFFFE } }
  | 0xCA => { h with csr := { c with uicause := keep v 0x1F } }
  | 0xCB => { h with csr := { c with scout := ruled (wbits v 11 0 != 0) c.scout (keep v 0xFFF) 11 0 } }
  | 0xCD => { h with csr := { c with mrgcnt := keep v 0x3FFF } }
  | 0xCE => { h with csr := { c with ufvec := keep v 0xFFFFFFFFFFFFFFFD } }
  | 0xCF => { h with csr := { c with ufcause := keep v 0xFFFFFFFF01FFFF07 } }
  | 0xD9 => { h with csr := { c with fcsr := ruled (decide (wbits v 7 5 ≤ 3)) c.fcsr (keep v 0xFF) 7 5 } }
  | 0xDA => { h with csr := { c with cbsel := keep v 0x3FF } }
  | 0xDC => { h with csr := { c with htab := ruled (decide (wbits v 4 0 ≤ 13)) c.htab (keep v 0x7FFFFFFFFFFF9F) 4 0 } }
  | 0xDD => { h with csr := { c with wdef := ruled (wbits v 1 0 != 0) c.wdef (keep v 0x1F) 1 0 } }
  | 0xDE => { h with deque := wbits v 7 0 }
  | 0xE2 => { h with csr := { c with share := keep v 0xF } }
  | 0xE3 => { h with csr := { c with indmask := keep v 0xFFFFFFFF } }
  | 0xE4 => { h with strip := { rewinds := wbits v 31 16, retry := wbit v 4, early := wbit v 3, why := wbits v 2 0 } }
  | 0xE5 => { h with csr := { c with taskq := keep v 0x7FFFFFFFFFF007 } }
  | 0xF0 => { h with mx := { h.mx with mtype := mtypeFields h.mx.mtype v } }
  | 0xF1 => { h with mx := { h.mx with mstat := keep v 0x37 } }
  | 0x180 => { h with csr := { c with ptroot := keep v 0xFFFFFFFFF00000FF } }
  | 0x185 => { h with csr := { c with ufdeleg := keep v 0x3E } }
  | _ => h

/-- R382: a row from its record and bytes. -/
def restoreRow (rec' : Nat) (bs : List Byte) : VRow :=
  { bits := BitVec.ofNat 4096 (natOfBytes bs), tag := BitVec.ofNat 6 rec'
    mark := if bit rec' 6 then none else some (bits rec' 19 7), extent := min 512 (64 * bits rec' 31 20) }

/-- R382: a codebook slot. -/
def restoreBook (bs : List Byte) : CodeSlot :=
  let c := leAt bs 0 1 % 4
  ⟨signed 8 (leAt bs 1 1), if c = 0 then [] else entriesOf (2 ^ (2 * c + 2)) (bs.drop 8)⟩

/-- Trap registers that no image holds: free values (log 7, log 15). -/
def freeBank (s : State) : Bank × State :=
  (List.range 8).foldl (fun (b, s) i =>
    let (v, s1) := takeFree s
    (b.set i v, s1)) ({}, s)

/-- An image as RESUME has read it: its header, its bytes below the rows, its rows' bytes, its words from 0x1_7800. -/
structure ImageRead where
  hdr : Header
  low : List Byte
  rows : List (List Byte)
  tail : List Byte
  pa : Nat

/-- R384: the hart that an image holds, with the lane groups it is given and its slot's CEROUT. -/
def imageHart (i : ImageRead) (stage : Nat) (away : Option Away) (gs : List Nat) (cerout : Word) (s : State) : Hart × State :=
  let d := i.hdr
  let role := roleOfKind d.kind
  let rows := i.rows.zipIdx.map fun (b, j) => restoreRow (leAt i.low (0x1C00 + 4 * j) 4) b
  let (mach, s1) := freeBank s
  let (tvec, s2) := takeFree s1
  let (scratch, s3) := takeFree s2
  let (lastd, s4) := takeFree s3
  let (st, s5) := takeFree s4
  let h0 : Hart := {
    live := true, role := role, cls := d.cls, width := d.width, groups := gs
    stage := if role = .solo then (away.map (·.stage)).getD (wbits st 2 0) else stage
    launch := (away.map (·.launch)).getD 0, ordinal := (away.map (·.ordinal)).getD 0, peers := (away.map (·.peers)).getD 0
    pc := d.epc, mode := modeOf d.mode, span := d.span, vstart := d.vstart, lastd := BitVec.ofNat 5 d.lastd
    inHandler := d.inHandler, staged := (away.map (·.staged)).getD [], uiLastd := (away.map (·.uiLastd)).getD (lastd.setWidth 5)
    s := Vector.ofFn fun (j : Fin 32) => if j.val = 0 then 0 else word (leAt i.low (0x240 + 8 * j.val) 8)
    shadow := Vector.ofFn fun (j : Fin 8) => word (leAt i.low (0x340 + 8 * j.val) 8)
    p := Vector.ofFn fun (j : Fin 8) => j.val < 7 && bit d.preds j.val
    k := Vector.ofFn fun (n : Fin 8) => Vector.ofFn fun (r : Fin 8) =>
      if n.val < 7 then BitVec.ofNat 8192 (natOfBytes (slice i.low (0x2800 + 8192 * n.val + 1024 * r.val) 1024)) else 0
    rows := Vector.ofFn fun (j : Fin 32) => if j.val < ownRows role then rows.getD j.val {} else {}
    cbs := Vector.ofFn fun (n : Fin 4) => restoreBook (slice i.low (0x1E00 + 640 * n.val) 640)
    deps := Vector.ofFn fun (n : Fin 8) => d.deps.getD n.val 0
    csr := { cerout := cerout }, mach := mach
    sup := ({} : Bank).set 5 tvec |>.set 6 scratch
    pfx := d.pfx.map fun w =>
      ⟨bit w 16, bit w 15, bits w 14 12, if bit w 17 then some (bits w 11 7) else none, w, d.epc - 4⟩ }
  let csrs := (imageCsrs (role = .control)).zipIdx.map fun (n, j) => (n, word (leAt i.low (0x40 + 8 * j) 8))
  (csrs.foldl (fun h (n, v) => restoreCsr h n v) h0, s5)

/-- R384: the queues of the crew whose loader's image this is. -/
def imageCrew (i : ImageRead) : Crew :=
  let rows := i.rows.zipIdx.map fun (b, j) => restoreRow (leAt i.low (0x1C00 + 4 * j) 4) b
  { rings := Vector.ofFn fun (k : Fin 8) => (rows.drop (16 + 4 * k.val)).take (i.hdr.rings.getD k.val 0)
    bqs := Vector.ofFn fun (k : Fin 2) => (List.range (i.hdr.bqs.getD k.val 0)).map fun j =>
      word (leAt i.tail (128 + 128 * k.val + 8 * j) 8) }

/-- R384, R105: an operation-table entry of the hart in a slot: a served one is written and its counter goes down, a
withdrawn one is issued again. -/
def restoreOp (coord : Nat) (e : List Byte) (kept : Option (CountedOp × Option TupleReq)) (s : State) : State :=
  match hartAt s coord with
  | none => s
  | some h =>
    let kind := leAt e 0 1
    let served := leAt e 1 1 == 1
    let handle := word (leAt e 8 8)
    let n := leAt e 5 1
    let o : CountedOp := {
      kind := .deq (leAt e 8 8), counter := leAt e 4 1, dest := some (leAt e 2 1 % 32)
      copy := kept.bind fun k => k.1.copy, inStrip := false, shadow := (kept.map fun k => k.1.shadow).getD h.inHandler }
    let fieldsAt := fun (off : Nat) => (List.range n).map fun i => word (leAt e (off + 8 * i) 8)
    if kind = 3 then
      setHart coord (if served then lowerCounter (opResult o (word (leAt e 80 8)) h) o.counter
        else { h with ops := h.ops ++ [o] }) s
    else if kind ≠ 1 ∧ kind ≠ 2 then s else
    let v := h.slot false
    let q : TupleReq := {
      num := s.tuples.next, coord := coord, func := kind, region := handleRegion handle, pa := 0
      slice := tupleHome ((fieldsAt 16).headD 0) (handleRegion handle), fields := fieldsAt 16
      mask := (List.range n).map fun i => bit (leAt e 6 1) i, handle := handle, vreg := leAt e 3 1 % 32
      tail := ((kept.bind (·.2)).map (·.tail)).getD v.tailZero, maxvl := ((kept.bind (·.2)).map (·.maxvl)).getD (h.maxIn v)
      machine := h.mode == .machine }
    if served then
      setHart coord (completeTuple { req := q, served := some (fieldsAt 80) } { o with kind := .tuple q.num kind q.vreg } h) s
    else
      let fail := fun (c : Nat) => setHart coord ((lowerCounter h o.counter).addErr ⟨c, handle, h.words⟩) s
      let seen := { s with dev := { s.dev with heldWrites := [] } }
      match translateFor coord {} h.csr.ptroot h.mode (handleBase handle) .rmw seen with
      | .error (.held _) => s
      | .error (.cause c) => fail c
      | .error (.poison _) => fail cUncorrectable
      | .ok (s0, x) =>
        if x.typ ≠ 4 then fail cType else
        let s1 := { s0 with dev := { s0.dev with heldWrites := s.dev.heldWrites ++ s0.dev.heldWrites } }
        setHart coord { h with ops := h.ops ++ [{ o with kind := .tuple q.num kind q.vreg }] } { s1 with tuples := { s1.tuples with
          next := q.num + 1, requests := s1.tuples.requests ++ [{ q with pa := x.pa }] } }

/-- R125: the resumed hart's channels are held no more: those of its pre-emption, or, of a hart that is not known, every one of
the slot. -/
def freeChannels (coord : Nat) (known : Option Nat) (s : State) : State :=
  let c := coreOf s (coreIndex coord)
  setCore (coreIndex coord) { c with channels := c.channels.map fun ch =>
    if ch.held && ch.owner == coordSlot coord && (known.isNone || known == some ch.image) then { ch with held := false } else ch } s

/-- Which pre-empted hart an image is (log 16): one whose image has its address and header, else one whose image has its header
(a copied image), else one whose image has its address. -/
def knownAs (i : ImageRead) (away : List (Nat × Away)) : Option (Nat × Away) :=
  let here := fun (e : Nat × Away) => e.2.image == i.pa
  let same := fun (e : Nat × Away) => e.2.header == i.low.take 64
  ((away.find? fun e => here e && same e).or (away.find? same)).or (away.find? here)

/-- R384: start the hart of an image in a slot. -/
def resumeOne (i : ImageRead) (coord stage : Nat) (gs : List Nat) (s : State) : State :=
  let known := knownAs i s.dev.away
  let away := known.map (·.2)
  let num := known.map (·.1)
  let (h, s1) := imageHart i stage away gs (slotOf s coord).cerout s
  let t := slotOf s1 coord
  let st := word (leAt i.low (0x40 + 8 * 28) 8)
  let replies := (List.range i.hdr.replies).map fun j => word (leAt i.tail (8 * j) 8)
  let s2 := setSlot coord { t with
    mail := (num.bind fun n => look n t.aside).getD { ret := wbit st 10 }, aside := (num.map fun n => cut n t.aside).getD t.aside
    reply := replies ++ t.reply, preempt := none, answer := none } (setHart coord h s1)
  let s3 := gs.foldl (fun s g => joinGroup coord g s) (freeChannels coord num s2)
  let s4 := if h.role = .loader then { s3 with crews := put coord (imageCrew i) s3.crews } else s3
  let s5 := (List.range i.hdr.ops).foldl (fun s n =>
    restoreOp coord (slice i.low (0x400 + 192 * n) 192) ((away.map (·.ops)).bind fun l => l[n]?) s) s4
  if h.role ≠ .control then s5 else
  let csr := fun (n : Nat) => word (leAt i.low (0x40 + 8 * (48 + n)) 8)
  let c := coordCluster coord
  (List.range 4).foldl (fun s q =>
    writeMseq c q (csr (2 + q)) (setQuad c q { quadOf s c q with opa := csr (6 + q), opb := csr (10 + q) } s)) s5

/-- R384: read an image: its header first, and of each row the bytes within its extent. -/
def readImage (va : Nat) (kind : Option Nat) : Act (Option ImageRead) := do
  let hd ← loadBytes (some 0) va 64 1
  match parseHeader kind hd with
  | none => return none
  | some d =>
    let rest ← loadBytes (some 0) (va + 64) (0x10800 - 64) 1
    let low := hd ++ rest
    let count := ownRows (roleOfKind d.kind) + (if d.kind = 1 then 32 else 0)
    let rows ← (List.range count).mapM fun j => do
      let n := min 512 (64 * bits (leAt low (0x1C00 + 4 * j) 4) 31 20)
      if n = 0 then return [] else loadBytes (some 0) (va + 0x10800 + 512 * j) n 1
    let tail ← loadBytes (some 0) (va + 0x17800) 2048 1
    let x ← translate va .read
    return some ⟨d, low, rows, tail, x.pa⟩

/-- R332, R384: whether a unit fits in the slot named: its lane groups. -/
def resumeGroups (s : State) (coord cls width kind : Nat) : Option (List Nat) :=
  let hs := coreHarts s (coreIndex coord)
  let free := fun (j : Nat) => !hs.any fun e => e.1 == j
  let j := coordSlot coord
  if (kind = 4) ≠ (coordCore coord = 127) then none
  else if kind = 4 then (if hs.isEmpty then some [] else none)
  else if kind = 0 then
    if !free j || (cls == 0) != (j == 7) then none
    else if cls = 0 then some [promptGroup hs] else groupsFor hs width 1
  else if 4 < j || !free j || !free (j + 1) || !free (j + 2) then none
  else groupsFor hs width 3

/-- RESUME (R384). -/
def execResume (o : RArgs) (s : State) : Result :=
  issue (privInfo 6 o .supervisor (.s o.d.toNat) [o.a, o.b]) (andNext do
    let h ← getH
    let va := (h.reg o.b.toNat).toNat
    let tgt ← slotNamed (h.reg o.a.toNat)
    commit 2
    let hd ← loadBytes (some 0) va 64 1
    match parseHeader none hd with
    | none => writeD o.d 3
    | some d =>
      if d.kind = 2 ∨ d.kind = 3 then writeD o.d 3 else
      let kinds := if d.kind = 1 then [1, 2, 3] else [d.kind]
      let hds ← kinds.zipIdx.mapM fun (k, i) => do
        return parseHeader (some k) (← loadBytes (some 0) (va + imageSize * i) 64 1)
      if hds.any Option.isNone then writeD o.d 3
      else if d.bound && tgt != d.coord % 2 ^ 20 then writeD o.d 2
      else match resumeGroups (← get) tgt d.cls d.width d.kind with
      | none => writeD o.d 1
      | some gs =>
        let imgs ← kinds.zipIdx.mapM fun (k, i) => readImage (va + imageSize * i) (some k)
        modify fun s => (imgs.zipIdx).foldl (fun s (im, i) => match im with
          | some im => resumeOne im (tgt + i) i gs s
          | none => s) s
        writeD o.d 0) s

end Sys2Proof.Machine
end

