-- ==== Sys2Proof/Machine/Slice.lean ====
section
/-! DEFINITION. The memory slices' and the cores' own steps: requests (R86 to R88), fills and writebacks (R56 to R58, R92),
lost stacks and the rebuild (R59 to R63), and the completion of counted operations (R40, R81). -/

namespace Sys2Proof.Machine

/-! Requests. -/

/-- R53, R387: what a requester may reach: the host's memory requests and the peers' reach HBM data alone. R394: a device held
in reset serves none. -/
def requestReaches (initiator pa n : Nat) (s : State) : Bool :=
  let outer := initiator == 0x50 || (decide (0x100 ≤ initiator) && decide (initiator < 0x200))
  !s.dev.mgmt.inReset && (!outer || (targetOf pa == .hbm && targetOf (pa + n - 1) == .hbm))

/-- R387: where the byte of a mailbox buffer at a BAR0 offset lies (R391). -/
def bufferAddress (off : Nat) : Nat := 0x190000020000 + (off - 0x10000)

/-- R387, R423, R422: the host reads at an offset of BAR0: a register, a mailbox buffer, or nothing. -/
def barRead (off n : Nat) (s : State) : Option (List Byte) :=
  match barTarget off with
  | .reg r => if regAligned off n then some (bytesOf n (readReg s r / 2 ^ (8 * (off % 8)))) else none
  | .buffer => if barTarget (off + n - 1) = .buffer then some (Memory.readBytes s.mem (bufferAddress off) n) else none
  | _ => none

/-- R87, R71: a read request performs, and its answer goes back. One of a line whose write a migration holds is kept (R85). -/
def readRequest (o : ReadArgs) (s : State) : State :=
  if o.bar then answer 0x50 o.tag (barRead o.pa o.len s) false s
  else if !requestReaches o.initiator o.pa o.len s then answer o.initiator o.tag none false s
  else serveRead { initiator := o.initiator, tag := o.tag, pa := o.pa, n := o.len, waits := o.pa } s

/-- R87, R71: a write request of the bits of a mask (all with none) performs, and its acknowledgement goes back: for a write
that a migration holds, at its end (R85). -/
def writeRequest (o : WriteArgs) (s : State) (mask : List Byte := []) : State :=
  if !requestReaches o.initiator o.pa o.bytes.length s then answer o.initiator o.tag none false s
  else match writeMasked (requestCtx o.initiator s) o.pa o.bytes mask s with
  | .error (0, _) => s
  | .error _ => answer o.initiator o.tag none false s
  | .ok (s1, _) =>
    if s.dev.heldWrites.length < s1.dev.heldWrites.length then
      stampHeld s.dev.heldWrites.length (fun last w => { w with ack := if last then some (o.initiator, o.tag) else none }) s1
    else answer o.initiator o.tag (some []) false s1

/-- MEMORY_READ_REQUEST (R87). -/
def execMemoryReadRequest (o : ReadArgs) (s : State) : Result := .next (readRequest o s)
/-- MEMORY_WRITE_REQUEST (R87). -/
def execMemoryWriteRequest (o : WriteArgs) (s : State) : Result := .next (writeRequest o s)

/-! Fills and writebacks. -/

/-- R386: a corrected error of an array. One marked counts towards the array's return to nominal voltage, another towards its
predictive failure. -/
def countCorrected (array : Nat) (marked : Bool) (s : State) : State :=
  let m := s.dev.mgmt
  let limit := Config.errorThreshold array
  let set' := fun (m : Mgmt) => { s with dev := { s.dev with mgmt := m } }
  if marked && !m.nominal.contains array then
    let n := lookD 0 array m.marked + 1
    set' { m with
      marked := put array n m.marked
      nominal := if limit < 4 * n then m.nominal ++ [array] else m.nominal }
  else
    let n := lookD 0 array m.counts + 1
    let m1 := { m with counts := put array n m.counts }
    if limit < n && !m.failing.contains array then raiseMsix 3 (set' { m1 with failing := m1.failing ++ [array] })
    else set' m1

/-- R58, R62: an uncorrectable error of HBM on a line: rebuilt from the stripe with all stacks in service and no second
error, which its stack counts as corrected (R390), else the line is written as poison, and its stack counts it so. -/
def repairLine (line : Nat) (second : Bool) (s : State) : State :=
  if s.hbm.lost.isEmpty && !second then
    storeImage line (s.hbm.rebuilt line) (countCorrected (dataStack line) false s)
  else countUncorrectable (arrayOf line) (storeImage line { tag := 15 } s)

/-- A load that has not performed, or a buffered store, has bytes in the line. -/
def lineWanted (line : Nat) (s : State) : Bool :=
  let near := fun (a : Access) (n : Nat) => decide (a.pa < line + 128) && decide (line < a.pa + n)
  (s.h :: s.harts.map (·.2)).any fun h =>
    h.strip.buf.any (fun b => near b.acc b.bytes.length)
      || h.ops.any fun o => match o.kind with
        | .load parts _ _ => o.value.isNone && parts.any fun p => near p.1 p.2
        | _ => false
/-- The types of the translations held in TLBs that map a line. -/
def lineTypes (line : Nat) (s : State) : List Nat :=
  ((s.cores.flatMap fun e => e.2.tlb) ++ s.clusters.flatMap fun e => e.2.tlb).filterMap fun t =>
    let base := ptePa t.leaf * 65536 / t.size * t.size
    if base ≤ line ∧ line < base + t.size then some (wbits t.leaf 15 13) else none
/-- R89: a line is filled for an access that is on its way. Else it is prefetched: where a translation in use maps it NORMAL or
WC, or the hart in hand runs in machine mode, whose HBM accesses are NORMAL (R72), and none maps it DEVICE or STRONG (log 45). -/
def mayFill (line : Nat) (s : State) : Bool :=
  let types := lineTypes line s
  lineWanted line s || (!types.any (fun x => x == 2 || x == 3)
    && (types.any (fun x => decide (x ≤ 1)) || (s.h.live && s.h.mode == .machine)))

/-- LINE_FILL (R92, R58): a missing line comes into the cache, but for one that is neither asked for nor prefetched (R89). A rebuild waits for the
stripe (R57). -/
def execLineFill (o : FillArgs) (s : State) : Result :=
  let line := lineOf o.line
  .next (if targetOf line != .hbm || cached s line || (keyOf s o.key).isNone || !mayFill line s then s
    else if (o.error || s.hbm.place line == 1) && s.hbm.stripePending (stripeOf line) then s
    else fillLine o.key line (if o.error then repairLine line o.second s else s))

/-- R56, R60, R88: a line's writeback; a parity-only write waits for the stripe (R57). An evicted line leaves the cache. -/
def writebackEvent (o : WritebackArgs) (s : State) : State :=
  let line := lineOf o.line
  if s.hbm.place line = 1 && s.hbm.stripePending (stripeOf line) then s else
  let s1 := startWriteback line s
  if o.evict && !((look line s1.hbm.cache).map fun r => r.dirty).getD true then dropLine line s1 else s1

/-- LINE_WRITEBACK (R56). -/
def execLineWriteback (o : WritebackArgs) (s : State) : Result := .next (writebackEvent o s)
/-- PARITY_DELTA (R56). -/
def execParityDelta (o : LineArgs) (s : State) : Result := .next (applyDelta (lineOf o.line) s)
/-- WRITEBACK_COMPLETE (R56). -/
def execWritebackComplete (o : LineArgs) (s : State) : Result := .next (endWriteback (lineOf o.line) s)

/-- R57, R60: the hold on a stripe: a lost line is reconstructed into the cache, or a dirty one forms a parity-only write.
Reconstruction breaks the line's links (R88). -/
def reconstructLine (line key : Nat) (s : State) : State :=
  if s.hbm.place line ≠ 1 || s.hbm.stripePending (stripeOf line) then s
  else if cached s line then startWriteback line s
  else if (keyOf s key).isNone then s
  else fillLine key line (breakLinks line none s)

/-- RECONSTRUCTION_HOLD (R57). -/
def execReconstructionHold (o : HoldArgs) (s : State) : Result := .next (reconstructLine (lineOf o.line) o.key s)

/-! Lost stacks (R59 to R63). -/

/-- R63, R389: a change of STATE sets EVT and raises vector 1. -/
def setClove (st : Nat) (s : State) : State :=
  raiseMsix 1 { s with hbm := { s.hbm with cloveState := st, evt := true } }

/-- R62, R377: machine mode takes a machine check at MGTGT's slot, which reports it to the host (log 18). -/
def machineCheck (s : State) : State :=
  let tgt := s.dev.mgmt.mgtgt.toNat
  match hartAt s tgt with
  | none => raiseMsix 2 s
  | some h =>
    if !h.live then raiseMsix 2 s else
    let s1 := focus tgt s
    focus s.cur (whenEntered (fun s => takeTrap cMachineCheck false true 0 s.h.pc s.h.savedPfx s) s1)

/-- R59, R62: a stack is declared lost. -/
def loseStack (x cause : Nat) (s : State) : State :=
  if s.hbm.lost.contains x then s
  else if s.hbm.lost.isEmpty then
    setClove 1 { s with hbm := { s.hbm with lost := [x], prog := 0, cause := cause } }
  else
    let s1 := { s with hbm := { s.hbm with lost := s.hbm.lost ++ [x] } }
    if s1.hbm.cloveState = 3 then s1 else machineCheck (setClove 3 s1)

/-- STACK_LOST (R59), with one of the causes that R63 lists. -/
def execStackLost (o : StackArgs) (s : State) : Result :=
  .next (if 1 ≤ o.cause ∧ o.cause ≤ 4 then loseStack (o.stack % 16) o.cause s else s)

/-- The number of stripes (R54). -/
def stripeCount : Nat := 2 ^ 29

/-- R61, R88: the next stripe is remapped: the lost stack's line takes the place of the parity. -/
def rebuildStripe (s : State) : State :=
  if s.hbm.cloveState ≠ 1 then s else
  match s.hbm.lost with
  | [x] =>
    let st := s.hbm.prog
    if s.hbm.stripePending st then s else
    let s1 := match (stripeLines st).find? fun l => dataStack l == x with
      | none => s
      | some l => breakLinks l none { s with hbm := { s.hbm with images := put l (s.hbm.rebuilt l) s.hbm.images } }
    let s2 := { s1 with hbm := { s1.hbm with prog := st + 1 } }
    if st + 1 = stripeCount then setClove 2 s2 else s2
  | _ => s

/-- REBUILD_STRIPE (R61). -/
def execRebuildStripe (s : State) : Result := .next (rebuildStripe s)

/-! Counted operations (R40). -/

/-- R40, R351: a load's bytes land, after those of the earlier loads that must perform first. -/
def completeLoad (i : Nat) (o : CountedOp) (parts : List (Access × Nat)) (natural : Bool) (cls : Nat) : Act Unit := do
  if o.value.isNone then
    let mine := parts.map fun (a, n) => (a.pa, n)
    let earlier := (← getH).ops.take i
    bindLoads fun p => earlier.contains p && loadConflicts (some cls) mine p
  let v ← loadNow o parts natural
  let o ← (do return ((← getH).ops[i]?).getD o : Act CountedOp)
  modH fun h => opResult o v (endOp h o)

/-- R40: the i-th outstanding operation of the current hart completes, if it can. A store does so when the strip buffer
performs (R374), a tuple operation when its reply lands (R102). -/
def completeOp (i : Nat) : Act Unit := do
  let s ← get
  match s.h.ops[i]? with
  | none => pure ()
  | some o =>
    match o.kind with
    | .load parts natural cls => completeLoad i o parts natural cls
    | .chstat ch => modH fun h => opResult o (chstatWord (channelOf s (coreIndex s.cur) ch)) (endOp h o)
    | .deq _ =>
      if !(s.h.ops.take i).any isDeq then
        match popPort s with
        | none => pure ()
        | some (x, s1) =>
          set s1
          modH fun h => opResult o x (endOp h o)
    | .store _ => pure ()
    | .tuple .. => pure ()

/-- The current hart's i-th operation, as an event between words. One that a hold keeps waiting changes nothing. -/
def completeNow (i : Nat) (s : State) : State :=
  if !s.h.live then s else
  match completeOp i s with
  | .ok _ s1 => s1
  | .error (.wait _) _ => s
  | .error e s1 => deliver 0 e s1

/-- COUNTED_OP_COMPLETE (R40). -/
def execCountedOpComplete (o : OpArgs) (s : State) : Result := .next (completeNow o.index s)
/-- PIN_ADMIT (R81). -/
def execPinAdmit (o : CoreArgs) (s : State) : Result := .next (admitNext o.core s)

end Sys2Proof.Machine
end

