-- ==== Sys2Proof/Machine/External.lean ====
section
/-! DEFINITION. What comes from outside the clusters: reset (R394, R424), register writes (R423 and the rules of each
register), the mailbox commands (R390, R391, R395, R398), Uliane links (R389, R396, R397), the host link (R53, R387), errors
and power (R386, R398). -/

namespace Sys2Proof.Machine

/-! Reset. -/

/-- R53: addresses of memory outside the device: the host's and the peers'. -/
def outside (pa : Nat) : Bool :=
  match targetOf pa with
  | .host => true
  | .peer _ => true
  | _ => false

/-- R394: a good image: its signature verifies, and its security version is at least the fused minimum. -/
def imageGood (image : List Byte) : Bool :=
  Config.signatureGood image && decide (Config.minimumVersion.toNat ≤ (Config.securityVersion image).toNat)

/-- R394: the image of the management firmware that runs: the one given when it is good, else one staged that is; with none the
device stays in reset. -/
def bootImage (image : List Byte) (staged : Option (List Byte)) : Option (List Byte) :=
  if imageGood image then some image else staged.filter imageGood

/-- R394: bytes that the management firmware writes to HBM data. -/
def loadBlock (a : Nat) (bs : List Byte) (s : State) : State :=
  match physWrite {} a bs s with
  | .ok (s1, _) => s1
  | .error _ => s
/-- R394: the management firmware launches the good machine-mode firmware on queue 47: parts of its image go into HBM data, and
packets into the queue's ring; QMTVEC holds its handler's address and QCTL EN and PRIV 2, and its doorbell rings. -/
def launchFirmware (o : ResetArgs) (s : State) : State :=
  let s1 := o.load.foldl (fun s (a, off, n) => loadBlock a ((o.machineImage.drop off).take n) s) s
  let s2 := writeReg true (.queue 47 6) 0 (bytesOf 8 o.handler.toNat) s1
  let s3 := writeReg true (.queue 47 1) 0 (bytesOf 8 o.ring.toNat) s2
  let ring := wbits (queueOf s3 47).qbase 51 8 * 256
  let s4 := o.packets.zipIdx.foldl (fun s (bs, i) => loadBlock (ring + 256 * i) (slice bs 0 256) s) s3
  let s5 := writeReg true (.queue 47 0) 0 (bytesOf 8 (wset (wset (queueOf s4 47).qctl 11 10 2) 0 0 1).toNat) s4
  writeReg true (.queue 47 3) 0 (bytesOf 8 o.packets.length) s5

/-- R394, R424, R65, R63: reset. Memory outside the device, its fabric number, its boot count and the staged image stay. A
machine-mode firmware that is not good is not launched (log 17). -/
def resetMachine (o : ResetArgs) (s : State) : State :=
  let m := { State.reset.dev.mgmt with boots := s.dev.mgmt.boots + 1, staged := s.dev.mgmt.staged }
  let s1 : State := { State.reset with
    mem := s.mem.filter fun c => outside c.1
    agenda := s.agenda
    freeCount := s.freeCount
    dev := { State.reset.dev with number := s.dev.number, mgmt := m } }
  match bootImage o.image s.dev.mgmt.staged with
  | none => { s1 with dev := { s1.dev with mgmt := { m with inReset := true, mbdb := word (3 * 2 ^ 32) } } }
  | some fw =>
    let s2 := { s1 with dev := { s1.dev with mgmt := { m with firmware := fw } } }
    let s3 := match o.failedStack with
      | some x => loseStack (x % 16) 1 s2
      | none => s2
    if !imageGood o.machineImage then s3
    else launchFirmware o { s3 with dev := { s3.dev with mgmt := { s3.dev.mgmt with machineFirmware := o.machineImage } } }

/-- RESET (R424, R394). -/
def execReset (o : ResetArgs) (s : State) : Result := .next (resetMachine o s)

/-! Register writes. -/

/-- R394: a device that is held in reset takes no register write. -/
def outOfReset (f : State → State) (s : State) : Result := .next (if s.dev.mgmt.inReset then s else f s)
/-- QTAIL (R326). -/
def execQtail (o : QueueWriteArgs) (s : State) : Result := outOfReset (writeQtail (o.queue % 64) o.value) s
/-- QCTL (R325): all 8 bytes are written. -/
def execQctl (o : QueueWriteArgs) (s : State) : Result :=
  outOfReset (writeQctl o.machine (o.queue % 64) o.value (wbit o.value 1)) s
/-- OWNWIN (R132). -/
def execOwnwin (o : OwnwinArgs) (s : State) : Result := outOfReset (writeOwnwin o.cluster (o.window % 16) o.value) s
/-- MBDONE (R391). -/
def execMbdone (o : MbdoneArgs) (s : State) : Result := outOfReset (writeMbdone o.value) s

/-- R423, R387, R422: the host writes at an offset of BAR0: a register, a mailbox buffer, or nothing. -/
def barWrite (off : Nat) (bs : List Byte) (s : State) : Option State :=
  match barTarget off with
  | .reg r => if regAligned off bs.length then some (writeReg false r (off % 8) bs s) else none
  | .buffer =>
    if barTarget (off + bs.length - 1) ≠ .buffer then none else
    some (sectors (bufferAddress off) bs.length |>.foldl (fun (s, bs) p =>
      ((mergeBytes { own := false } p.1 (bs.take p.2) s).1, bs.drop p.2)) (s, bs)).1
  | _ => none

/-- R423, R387, R422: a write to a device register or buffer: by the host at an offset of BAR0, by another requester at a
physical address. A device held in reset takes none (R394). -/
def registerWrite (o : WriteArgs) (s : State) : State :=
  let reply := fun (r : Option State) => match r with
    | some s1 => answer o.initiator o.tag (some []) false s1
    | none => answer o.initiator o.tag none false s
  if s.dev.mgmt.inReset then reply none
  else if o.initiator = 0x50 then reply (barWrite o.pa o.bytes s)
  else match targetOf o.pa with
    | .reg _ =>
      (match physWrite (requestCtx o.initiator s) o.pa o.bytes s with
        | .ok (s1, _) => reply (some s1)
        | .error _ => reply none)
    | _ => reply none

/-- REGISTER_WRITE (R423). -/
def execRegisterWrite (o : WriteArgs) (s : State) : Result := .next (registerWrite o s)

/-! The mailbox. -/

/-- R391: the buffers' physical addresses. -/
def requestBuffer : Nat := 0x190000020000
def replyBuffer : Nat := 0x190000021000

/-- R390: the controller has finished a command: its reply is written, BUSY is clear, RESULT and DONE are set and vector 0 is
raised. -/
def finishCommand (result : Nat) (reply : List Byte) (s : State) : State :=
  writeMbdone (word result) { s with mem := Memory.writeBytes replyBuffer (reply.take 4096) s.mem }

/-- R390: a command that the controller alone carries out is started if none runs, and done if it is the one that runs. -/
def runCommand (code : Nat) (body : State → State) (s : State) : State :=
  if s.dev.mgmt.inReset then s else
  let s1 := if s.dev.mgmt.running.isNone then startCommand code s else s
  if s1.dev.mgmt.running = some code then body s1 else s1

/-- The first n bytes of the request buffer. -/
def requestBytes (n : Nat) (s : State) : List Byte := Memory.readBytes s.mem requestBuffer n

/-- R395: an attestation report over the host's nonce. -/
def attestReport (nonce : List Byte) (m : Mgmt) : List Byte :=
  let body := bytesOf 4 0x51584154 ++ nonce ++ sha384 m.firmware ++ sha384 m.machineFirmware
    ++ bytesOf 4 (Config.securityVersion m.firmware).toNat ++ bytesOf 8 Config.deviceSerial.toNat ++ List.replicate 16 0
  let sig := Config.attestationSign body
  body ++ bytesOf 48 sig.1.toNat ++ bytesOf 48 sig.2.toNat

/-- MB_ATTEST (R395). -/
def execMbAttest (_ : MailboxArgs) (s : State) : Result :=
  .next (runCommand 1 (fun s => finishCommand 0 (attestReport (requestBytes 32 s) s.dev.mgmt) s) s)
/-- R391: a command that goes to the machine-mode firmware, whose MBDONE answers it. -/
def passCommand (code : Nat) (s : State) : State :=
  if s.dev.mgmt.inReset || s.dev.mgmt.running.isSome then s else startCommand code s
/-- MB_KEY_LOAD (R391). -/
def execMbKeyLoad (_ : MailboxArgs) (s : State) : Result := .next (passCommand 2 s)
/-- MB_ACCESS_ENTRY (R391): as MB_KEY_LOAD. -/
def execMbAccessEntry (_ : MailboxArgs) (s : State) : Result := .next (passCommand 3 s)

/-- R390, R398: what command 4 reports: the cap in force, whether clocks are lowered, the power and inlet temperature read
last, and by array (of which 0 to 15 are the stacks) the errors counted, marked and uncorrectable, the voltages raised and the
failures declared. -/
def reportedState (m : Mgmt) : List Nat :=
  let table := fun (l : List (Nat × Nat)) => l.flatMap fun e => [e.1, e.2]
  [m.cap, bitNat m.throttled, m.watts, m.inlet] ++ table m.counts ++ table m.marked ++ table m.uncorrectable
    ++ m.nominal ++ m.failing
/-- MB_ERROR_COUNTS (R390, R398): the reply's layout is not given. -/
def execMbErrorCounts (o : MailboxArgs) (s : State) : Result :=
  .next (runCommand 4 (fun s => finishCommand 0 (Config.errorReport (reportedState s.dev.mgmt) o.readings) s) s)
/-- MB_FIRMWARE_STAGE (R390): an image that R394 accepts is staged for the next reset. -/
def execMbFirmwareStage (_ : MailboxArgs) (s : State) : Result :=
  .next (runCommand 5 (fun s =>
    let image := requestBytes 4096 s
    if imageGood image then
      finishCommand 0 [] { s with dev := { s.dev with mgmt := { s.dev.mgmt with staged := some image } } }
    else finishCommand 3 [] s) s)
/-- MB_POWER_CAP (R398). -/
def execMbPowerCap (_ : MailboxArgs) (s : State) : Result :=
  .next (runCommand 6 (fun s =>
    let cap := natOfBytes (requestBytes 4 s)
    if 1000 ≤ cap ∧ cap ≤ 4200 then
      finishCommand 0 (bytesOf 4 0 ++ bytesOf 4 cap) { s with dev := { s.dev with mgmt := { s.dev.mgmt with cap := cap } } }
    else finishCommand 2 (bytesOf 4 2 ++ bytesOf 4 s.dev.mgmt.cap) s) s)
/-- R390: as many certificates as fit in n bytes, each with its length. -/
def fitCerts : Nat → List (List Byte) → List (List Byte)
  | _, [] => []
  | n, c :: cs => if 4 + c.length ≤ n then c :: fitCerts (n - 4 - c.length) cs else []
/-- R390: the certificate chain from an index on. DESIGN CHOICE: the count is that of the certificates in this reply, of which
an index past the chain's end has none. -/
def certReply (index : Nat) : List Byte :=
  let cs := fitCerts 4092 (Config.certificates.drop index)
  bytesOf 4 cs.length ++ cs.flatMap fun c => bytesOf 4 c.length ++ c
/-- MB_CERT_CHAIN (R390, R395). -/
def execMbCertChain (_ : MailboxArgs) (s : State) : Result :=
  .next (runCommand 7 (fun s => finishCommand 0 (certReply (natOfBytes (requestBytes 4 s))) s) s)
/-- MB_UNKNOWN_COMMAND (R390): RESULT 1. -/
def execMbUnknownCommand (o : MailboxArgs) (s : State) : Result :=
  .next (if (o.code = 0 ∨ 7 < o.code) ∧ s.dev.mgmt.inReset = false then startCommand o.code s else s)

/-! Uliane links. -/

def linkOf (s : State) (i : Nat) : Link := s.dev.links[i]?.getD {}
def setLink (i : Nat) (l : Link) (s : State) : State := { s with dev := { s.dev with links := s.dev.links.setIfInBounds i l } }

/-- R397: a write that a link carried performs in the peer's memory; the failure, where it merges into a flawed sector. -/
def performPeer (w : HeldWrite) (s : State) : State × Option (Nat × Nat) :=
  let bs := w.bytes.zipIdx.map fun (b, i) =>
    if w.mask.isEmpty then b else mergeBits (Memory.read s.mem (w.pa + i)) b (w.mask.getD i 0xFF)
  let (s1, bad) := mergeBytes { own := w.coord.isSome, coord := w.coord } w.pa bs s
  (s1, if bad then some (cUncorrectable, w.pa / 32 * 32) else none)
/-- R396: the peer acknowledges a write that performs. -/
def landPeerWrite (w : HeldWrite) (s : State) : State :=
  let (s1, bad) := performPeer w s
  endWrite w.pa bad w s1
/-- The writes on their way that a link's flits of some numbers carry, taken out. -/
def takeWrites (i : Nat) (seqs : Nat → Bool) (s : State) : List HeldWrite × State :=
  let (mine, rest) := s.dev.heldWrites.partition fun w => (w.link.map fun l => l.1 == i && seqs l.2).getD false
  (mine, { s with dev := { s.dev with heldWrites := rest } })
/-- R396: the first k flits of a link have reached the peer: their writes perform, and they leave the replay buffer. -/
def acknowledgeFlits (i k : Nat) (s : State) : State :=
  let l := linkOf s i
  let seqs := (l.replay.take k).map fun f => f.seq
  let (mine, s1) := takeWrites i seqs.contains s
  mine.foldl (fun s w => landPeerWrite w s) (setLink i (freeFlits k l) s1)
/-- R396: an acknowledgement frees the flits up to the one it names, of those sent. -/
def acknowledge (i ack : Nat) (s : State) : State :=
  match ((linkOf s i).replay.take replayFlits).findIdx? fun f => f.seq == ack with
  | some n => acknowledgeFlits i (n + 1) s
  | none => s

/-- R397, R71: a write that a link carried ends with an error response. -/
def refuseWrite (w : HeldWrite) (s : State) : State := endWrite w.pa (some (cAccess, w.pa)) w s
/-- R397, R71: the writes that a link's flits of some numbers carry end so. -/
def refuseWrites (i : Nat) (seqs : Nat → Bool) (s : State) : State :=
  let (mine, s1) := takeWrites i seqs s
  mine.foldl (fun s w => refuseWrite w s) s1
/-- R397, R71: a load in flight in a link's flits of some numbers. -/
def loadInFlight (i : Nat) (seqs : Nat → Bool) (o : CountedOp) : Bool :=
  o.value.isNone && (o.flit.map fun f => f.1 == i && seqs f.2).getD false
/-- R397, R71: such a load ends with an error response: it is over, and a pending error follows it. DESIGN CHOICE: R71 has a
denial fault ACCESS at a hart, and R370 does not list a load that its word has left behind: the fault comes with the pending
errors (log 44). -/
def refuseLoad (h : Hart) (o : CountedOp) : Hart :=
  let va := match o.kind with
    | .load parts _ _ => ((parts.find? fun p => match targetOf p.1.pa with
        | .peer _ => true
        | _ => false).map fun p => p.1.va).getD 0
    | _ => 0
  (endOp h o).addErr ⟨cAccess, word va, o.order⟩
def refuseLoads (i : Nat) (seqs : Nat → Bool) (s : State) : State :=
  let each := fun (h : Hart) => (h.ops.filter (loadInFlight i seqs)).foldl refuseLoad h
  { s with h := each s.h, harts := s.harts.map fun e => (e.1, each e.2) }

/-- R396, R53: what a flit carries is applied: a peer's requests are served as initiator 0x100 plus its number (R69), and its
answer that it refuses a request ends that one. Its other answers change nothing here: a read has its bytes already, and a
write performs when its flit is acknowledged (log 44). -/
def applyMsg (i : Nat) (m : PeerMsg) (s : State) : State :=
  let from' := 0x100 + (linkOf s i).peer
  match m with
  | .write tag pa bytes mask => writeRequest ⟨from', tag, pa, bytes⟩ s mask
  | .read tag pa n => readRequest ⟨from', tag, pa, n, false⟩ s
  | .answer tag none _ => refuseLoads i (· == tag) (refuseWrites i (· == tag) s)
  | .answer _ (some _) _ => s

/-- R396: a flit's CRC is good, for the event's kind. -/
def flitGood (kind : Nat) (o : FlitArgs) : Bool := o.crc == crc32 (flitBody kind o.seq o.ack o.payload)

/-- R396: a flit discarded: a retry request names the one expected. -/
def askRetry (i : Nat) (s : State) : State :=
  let l := linkOf s i
  setLink i { l with retryAsked := some l.expect } s

/-- R396: a data flit: applied in order, else discarded. What it carries is read under the receiver's header table, which then
advances. -/
def dataFlit (o : FlitArgs) (s : State) : State :=
  let i := o.link % 18
  let l := linkOf s i
  if !l.up then s
  else if !flitGood 0 o || o.seq % 4096 != l.expect then askRetry i s
  else
    acknowledge i o.ack ((Config.flitMessages l.receiving o.payload).foldl (fun s m => applyMsg i m s)
      (setLink i { l with
        expect := (l.expect + 1) % 4096, receiving := nextHeaders l.receiving o.payload, retryAsked := none } s))

/-- R396: an idle flit (kind 1) or one that acknowledges only (kind 2). -/
def ackFlit (kind : Nat) (o : FlitArgs) (s : State) : State :=
  let i := o.link % 18
  if !(linkOf s i).up then s else if flitGood kind o then acknowledge i o.ack s else askRetry i s

/-- R396: a retry request: every flit from the one named that was sent is sent again as first sent. -/
def retryFlit (o : FlitArgs) (s0 : State) : State :=
  let i := o.link % 18
  if !(linkOf s0 i).up then s0 else if !flitGood 3 o then askRetry i s0 else
  let s := acknowledge i o.ack s0
  let l := linkOf s i
  let again := (l.replay.take replayFlits).dropWhile fun f => f.seq != o.seq % 4096
  match again with
  | [] => s
  | f :: _ => setLink i { l with
      sent := l.sent ++ again
      replay := l.replay.map fun g => if g.seq == f.seq then { g with retries := g.retries + 1 } else g } s

/-- ULIANE_DATA_FLIT (R396). -/
def execUlianeDataFlit (o : FlitArgs) (s : State) : Result := .next (dataFlit o s)
/-- ULIANE_IDLE_FLIT (R396). -/
def execUlianeIdleFlit (o : FlitArgs) (s : State) : Result := .next (ackFlit 1 o s)
/-- ULIANE_ACK_FLIT (R396). -/
def execUlianeAckFlit (o : FlitArgs) (s : State) : Result := .next (ackFlit 2 o s)
/-- ULIANE_RETRY_FLIT (R396). -/
def execUlianeRetryFlit (o : FlitArgs) (s : State) : Result := .next (retryFlit o s)
/-- R397: a link goes down: what it has in flight ends with an error response. Of the flits sent, the oldest `reached` have
reached the peer: their writes take effect there once, the others none. -/
def dropLink (i reached : Nat) (s : State) : State :=
  let seqs := (((linkOf s i).replay.take replayFlits).take reached).map fun f => f.seq
  let (done, s1) := takeWrites i seqs.contains s
  let s2 := done.foldl (fun s w => refuseWrite w (performPeer w s).1) s1
  let s3 := refuseLoads i (fun _ => true) (refuseWrites i (fun _ => true) s2)
  raiseMsix 5 (setLink i { linkOf s3 i with up := false, replay := [], retryAsked := none } s3)
/-- LINK_DOWN (R397): after 16 retries of one flit. -/
def execLinkDown (o : LinkArgs) (s : State) : Result :=
  let l := linkOf s (o.link % 18)
  .next (if l.up && l.replay.any fun f => decide (16 ≤ f.retries) then dropLink (o.link % 18) o.reached s else s)
/-- ULIANE_LINK_UP (R389). -/
def execUlianeLinkUp (o : LinkArgs) (s : State) : Result :=
  .next (if (linkOf s (o.link % 18)).up then s else raiseMsix 5 (setLink (o.link % 18) { up := true, peer := o.peer } s))

/-! The host link, errors and power. -/

/-- CXL_SNOOP (R387): the device holds no host line: the answer is nothing. -/
def execCxlSnoop (o : LineArgs) (s : State) : Result :=
  .next (answer 0x50 o.line (some []) false s)

/-- R53: a step of an agent to which the host does not answer. -/
def unanswered (f : State → State) (s : State) : State :=
  let s1 := f { s with dev := { s.dev with silent := true } }
  { s1 with dev := { s1.dev with silent := false } }

/-- HOST_WINDOW_NO_ANSWER (R53, R387): the current hart's access to the host window faults ACCESS; an engine's stream fails
or landing fails there, the weight loader's copy is poison, and the dispatcher's packet is rejected. -/
def execHostWindowNoAnswer (o : HostArgs) (s : State) : Result :=
  .next (match o.reader with
  | .hart va =>
    if !s.h.live then s else
    match translate va .read s with
    | .ok x _ => if targetOf x.pa == .host then wordTrap 0 cAccess (word va) s else s
    | .error _ _ => s
  | .engine core ch => unanswered (startStream core (ch % 16)) s
  | .landing core ch i => unanswered (landElement core (ch % 16) i) s
  | .loader c => unanswered (fun s => (loadWeights c s).getD s) s
  | .dispatcher => unanswered dispatchPacket s)

/-- CORRECTED_ERROR (R386). -/
def execCorrectedError (o : ErrorArgs) (s : State) : Result := .next (countCorrected o.array o.marked s)

/-- POWER_THROTTLE (R398): clocks are lower while power or inlet temperature, as read now, is above its limit. -/
def execPowerThrottle (o : ThrottleArgs) (s : State) : Result :=
  .next { s with dev := { s.dev with mgmt := { s.dev.mgmt with
    watts := o.watts, inlet := o.inlet
    throttled := decide (s.dev.mgmt.cap < o.watts) || decide (Config.inletLimit < o.inlet) } } }

end Sys2Proof.Machine
end

