-- ==== Sys2Proof/Machine/Frames.lean ====
section
/-! DEFINITION. The frame table's records (R235 to R239), the rotation matrix (R240), and the chains of the Anise resolver
(R241 to R243). Every chain is run as one step, so its records are read as of one point of the frame order (R248). -/

namespace Sys2Proof.Machine

/-! Frame faults (R245). -/
def ffNull : Nat := 1
def ffStale : Nat := 2
def ffDisjoint : Nat := 3
def ffDeep : Nat := 4
def ffRange : Nat := 5

/-- The resolver's work: it fails with a frame fault's code and the failing tag (R246). -/
abbrev Fr := EStateM (Nat × Nat) State

/-- R236: kinds. -/
def kRoot : Nat := 0
def kCell : Nat := 1
def kBody : Nat := 2
def kBone : Nat := 3

/-- R236: a record. -/
structure Node where
  idx : Nat
  parent : Nat
  kind : Nat
  live : Bool
  tree : Nat
  gen : Nat
  depth : Nat
  version : Nat
  t : List Int
  q : List Nat
  child : Nat
  hexp : Int
  deriving DecidableEq, Repr

def Node.encode (n : Node) : List Byte :=
  bytesOf 4 (n.parent + n.kind * 2 ^ 21 + bitNat n.live * 2 ^ 23 + n.tree * 2 ^ 24)
    ++ bytesOf 4 (n.gen + n.depth * 2 ^ 10) ++ bytesOf 8 n.version
    ++ n.t.flatMap (fun x => bytesOf 8 (wrap 64 x)) ++ n.q.flatMap (fun x => bytesOf 4 x)
    ++ bytesOf 4 n.child ++ bytesOf 4 (wrap 8 n.hexp)
def Node.decode (idx : Nat) (b : List Byte) : Node :=
  let w := leAt b 0 4
  let g := leAt b 4 4
  { idx := idx, parent := bits w 20 0, kind := bits w 22 21, live := bit w 23, tree := bits w 27 24
    gen := bits g 9 0, depth := bits g 14 10, version := leAt b 8 8
    t := (List.range 3).map fun i => signed 64 (leAt b (16 + 8 * i) 8)
    q := (List.range 4).map fun i => leAt b (40 + 4 * i) 4
    child := bits (leAt b 56 4) 20 0, hexp := signed 8 (leAt b 60 1) }
/-- R9: the reserved fields are zero. -/
def recordClean (b : List Byte) : Bool :=
  bits (leAt b 0 4) 31 28 == 0 && bits (leAt b 4 4) 31 15 == 0 && bits (leAt b 56 4) 31 21 == 0 && leAt b 61 3 == 0

/-! Quaternions and the matrix (R240): FP64 operations rounded RNE, on values. -/

def f64 (v : Val × Nat) : Val := val fp64 (round fp64 .rne v.1).1
def mul64 (a b : Val) : Val := f64 (mulVal a b)
def add64 (a b : Val) : Val := f64 (addVal false a b)
def sub64 (a b : Val) : Val := add64 a b.negate
def one64 : Val := .num false 1 0 false

/-- The squared norm. -/
def quatNorm (q : List Nat) : Val :=
  match q.map (val fp32) with
  | [w, x, y, z] => add64 (add64 (add64 (mul64 w w) (mul64 x x)) (mul64 y y)) (mul64 z z)
  | _ => one64
/-- M, by rows. -/
def rotation (q : List Nat) : List (List Val) :=
  match q.map (val fp32) with
  | [w, x, y, z] =>
    let sc := f64 (divVal (.num false 2 0 false) (quatNorm q))
    let m := mul64
    [[sub64 one64 (m sc (add64 (m y y) (m z z))), m sc (sub64 (m x y) (m w z)), m sc (add64 (m x z) (m w y))],
     [m sc (add64 (m x y) (m w z)), sub64 one64 (m sc (add64 (m x x) (m z z))), m sc (sub64 (m y z) (m w x))],
     [m sc (sub64 (m x z) (m w y)), m sc (add64 (m y z) (m w x)), sub64 one64 (m sc (add64 (m x x) (m y y)))]]
  | _ => []
/-- The identity quaternion (1, 0, 0, 0), by value. -/
def quatIdentity (q : List Nat) : Bool :=
  q.headD 0 == 0x3F800000 && (q.drop 1).all fun x => x % 2 ^ 31 == 0
/-- R259: a quaternion without NaNs or infinities whose squared norm is within 2^-20 of 1. -/
def quatUnit (q : List Nat) : Bool :=
  (q.all fun x => (val fp32 x).finite) &&
    (let d := (quatNorm q).addReal false (.num true 1 0 false) |>.abs
     decide (d.cmp (.num false 1 (-20) false) ≤ 0))

/-! Records in the table. -/

/-- R237: kinds that may be a parent. -/
def suits (kind parent : Nat) : Bool :=
  if kind = kCell then parent == kRoot || parent == kCell
  else if kind = kBody then parent == kRoot || parent == kCell || parent == kBody
  else if kind = kBone then parent == kBody || parent == kBone
  else false

/-- R236, R237: what a live record shows by itself. -/
def Node.sound (n : Node) : Bool :=
  n.idx != 0 && decide (n.depth ≤ 24)
    && (if n.kind = kRoot then n.parent == 0 && n.depth == 0 && n.t.all (· == 0) else n.parent != 0)
    && (if n.kind ≤ kCell then quatIdentity n.q else quatUnit n.q)
    && (if n.kind = kCell then decide (-8 ≤ n.hexp ∧ n.hexp ≤ 39) else n.hexp == 0 && n.child == 0)

def nodePa (s : State) (i : Nat) : Nat := frameBase s.dev.frctl + 64 * i
def nodeCount (s : State) : Nat := frameCap s.dev.frctl

/-- A record's bytes, and whether they are poison or failed. A line of which a write is held reads as it stands. -/
def recordBytes (i : Nat) : Fr (List Byte × Bool) := do
  let s ← get
  let pa := nodePa s i
  match physRead recordCtx pa 64 s with
  | .ok (s1, bs, bad) =>
    set { s1 with dev := s.dev }
    return (bs, bad.isSome)
  | .error (0, _) => return (Memory.readBytes s.mem pa 64, false)
  | .error _ => return (List.replicate 64 0, false)

/-- R236: a bad live record is reported once. -/
def reportNode (i : Nat) : Fr Unit := modify fun s =>
  if s.dev.badNodes.contains i then s else
  countUncorrectable (arrayOf (nodePa s i)) { s with dev := { s.dev with badNodes := s.dev.badNodes ++ [i] } }

/-- A record as stored. -/
def storedNode (i : Nat) : Fr Node := do return Node.decode i (← recordBytes i).1

/-- R236, R237, R239: a live node: its record is live and keeps the rules, its parent's kind and tree included. -/
def liveNode (i : Nat) : Fr (Option Node) := do
  let s ← get
  if !wbit s.dev.frctl 0 || i = 0 || nodeCount s ≤ i then return none
  let (b, bad) ← recordBytes i
  let n := Node.decode i b
  if !n.live then return none
  let good ← if n.kind = kRoot then pure true else do
    let p ← storedNode n.parent
    pure (suits n.kind p.kind && n.tree == p.tree)
  if bad || !recordClean b || !n.sound || !good then
    reportNode i
    return none
  return some n

/-! Tags (R187, R239). -/

def tagNode (t : Nat) : Nat := bits t 20 0
def tagGen (t : Nat) : Nat := bits t 30 21
/-- R239: NODE and GEN are equal. -/
def sameTag (a b : Nat) : Bool := a % 2 ^ 31 == b % 2 ^ 31
/-- R239: the node of a live tag. -/
def liveTag (t : Nat) : Fr (Option Node) := do
  return (← liveNode (tagNode t)).filter fun n => n.gen == tagGen t
/-- R242: the first two checks, of one tag. -/
def checkTag (t : Nat) : Fr Node := do
  if tagNode t = 0 then throw (ffNull, t)
  match ← liveTag t with
  | some n => return n
  | none => throw (ffStale, t)

/-! Conversion (R241, R242): components are integers in units of 2^-64. The Bool says whether a rounding was inexact. -/

def toQ (t f : Nat) : Fr (Int × Bool) :=
  match val fp32 f with
  | .num neg m e _ =>
    if m != 0 && decide (62 ≤ expo (val fp32 f)) then throw (ffRange, t) else pure (roundInt .rne neg m (e + 64) false)
  | _ => throw (ffRange, t)
def toQs (t : Nat) : List Nat → Fr (List Int × Bool)
  | [] => pure ([], false)
  | f :: fs => do
    let (q, x) ← toQ t f
    let (qs, y) ← toQs t fs
    return (q :: qs, x || y)

/-- rq of a matrix entry times a component. -/
def rqMul (m : Val) (q : Int) : Int × Bool :=
  match m with
  | .num neg k e _ => roundInt .rne (neg != decide (q < 0)) (k * q.natAbs) e false
  | _ => (0, false)
/-- The range of the accumulator. -/
def inRange (t : Nat) (q : List Int) : Fr Unit :=
  if q.all fun x => decide (-(2 ^ 127 : Int) ≤ x ∧ x < 2 ^ 127) then pure () else throw (ffRange, t)

/-- R241: t(n), in units of 2^-64. -/
def Node.shift (n : Node) : List Int := n.t.map fun x => x * 2 ^ 40
/-- R241: the rotation of up, or of down (its transpose). -/
def turn (n : Node) (down : Bool) (q : List Int) : List Int × Bool :=
  if quatIdentity n.q then (q, false) else
  let m := rotation n.q
  let at' := fun (i j : Nat) => (m.getD i []).getD j (.num false 0 0 false)
  let cols := (List.range 3).map fun j => (List.range 3).map fun k =>
    rqMul (if down then at' k j else at' j k) (q.getD k 0)
  (cols.map fun c => (c.map (·.1)).sum, cols.any fun c => c.any (·.2))
def stepUp (t : Nat) (point : Bool) (n : Node) (q : List Int) : Fr (List Int × Bool) := do
  let (r, x) := turn n false q
  let r := if point then List.zipWith (· + ·) r n.shift else r
  inRange t r
  return (r, x)
def stepDown (t : Nat) (point : Bool) (n : Node) (q : List Int) : Fr (List Int × Bool) := do
  let d := if point then List.zipWith (· - ·) q n.shift else q
  inRange t d
  let (r, x) := turn n true d
  inRange t r
  return (r, x)

/-- The stored parents of a node, itself first: at most 26 of them. -/
def pathUp : Nat → Nat → Fr (List Nat)
  | 0, _ => pure []
  | fuel + 1, i => do
    let n ← storedNode i
    if n.parent = 0 || nodeCount (← get) ≤ n.parent then return [i]
    return i :: (← pathUp fuel n.parent)

/-- A record met on the path. -/
def meetNode (i t : Nat) : Fr Node := do
  match ← liveNode i with
  | some n => return n
  | none => throw (ffStale, t)

/-- The steps of a chain along a path, in order; one more than the number allowed is DEEP. -/
def climb (f : Node → List Int → Fr (List Int × Bool)) (t target : Nat) : Nat → List Nat → List Int → Bool → Fr (List Int × Bool)
  | _, [], q, x => pure (q, x)
  | 0, _ :: _, _, _ => throw (ffDeep, target)
  | n + 1, i :: is, q, x => do
    let (q1, y) ← f (← meetNode i t) q
    climb f t target n is q1 (x || y)

/-- R242: chain(v, B): v's components, tag and kind, and the target's tag. Where a record that is not live cuts a path short of
the common ancestor, the walk meets it. -/
def chain (v : List Nat) (a b : Nat) (point : Bool) : Fr (List Int × Bool) := do
  if tagNode a = 0 then throw (ffNull, a)
  if tagNode b = 0 then throw (ffNull, b)
  let na ← checkTag a
  let nb ← checkTag b
  if na.tree ≠ nb.tree then throw (ffDisjoint, b)
  let (q, x) ← toQs a v
  let pa ← pathUp 26 na.idx
  let pb ← pathUp 26 nb.idx
  match pa.find? fun i => pb.contains i with
  | none =>
    let _ ← climb (stepUp a point) a b 24 pa q x
    pb.forM fun i => do
      let _ ← meetNode i b
    throw (if pb.length = 26 then ffDeep else ffDisjoint, b)
  | some l =>
    let (q1, x1) ← climb (stepUp a point) a b 24 (pa.takeWhile (· != l)) q x
    let _ ← meetNode l a
    climb (stepDown a point) b b 24 (pb.takeWhile (· != l)).reverse q1 x1

/-- R242: the final rounding of a component, and whether it was inexact. -/
def fromQ (q : Int) : Nat × Bool :=
  let (b, f) := round fp32 .rne (.num (decide (q < 0)) q.natAbs (-64) false)
  (b, bit f 0)
def fromQs (q : List Int) (x : Bool) : List Nat × Nat :=
  let ys := q.map fromQ
  (ys.map (·.1), flagIf (x || ys.any (·.2)) flNX)

/-! The table as a whole, for frame changes. -/

/-- Every live node (R9, R236). A line that nothing has written holds none (R424). -/
def liveRecords : Fr (List Node) := do
  let s ← get
  let is := (linesHeld s (nodePa s 0) (64 * nodeCount s)).flatMap fun l => [(l - nodePa s 0) / 64, (l - nodePa s 0) / 64 + 1]
  return (← is.mapM liveNode).filterMap id

/-- The lowest free index from i on, in steps, at which `free` holds. -/
def firstIndex (free : Nat → Bool) (step : Nat) : Nat → Nat → Option Nat
  | 0, _ => none
  | n + 1, i => if free i then some i else firstIndex free step n (i + step)

/-- Write a record: what was wrong with it before is reported no more (R236). -/
def writeNode (n : Node) : Fr Unit := modify fun s =>
  match physWrite recordCtx (nodePa s n.idx) n.encode s with
  | .ok (s1, _) => { s1 with dev := { s1.dev with badNodes := s1.dev.badNodes.filter (· != n.idx) } }
  | .error _ => s

end Sys2Proof.Machine
end

