-- ==== Sys2Proof/Machine/Geom.lean ====
section
/-! DEFINITION. The GEOM words (R250 to R257) and GCELL (R261). -/

namespace Sys2Proof.Machine

/-! Geometric values (R187). -/

def comps (a : Nat) : List Nat := [bits a 31 0, bits a 63 32, bits a 95 64]
def tagOf (a : Nat) : Nat := bits a 127 96
def isVector (a : Nat) : Bool := bit a 127
def geoVal (cs : List Nat) (tag : Nat) : Nat := cs.getD 0 0 + 2 ^ 32 * cs.getD 1 0 + 2 ^ 64 * cs.getD 2 0 + 2 ^ 96 * (tag % 2 ^ 32)
/-- A tag's NODE and GEN with a KIND. -/
def withKind (tag : Nat) (vector : Bool) : Nat := tag % 2 ^ 31 + 2 ^ 31 * bitNat vector

/-! The loop: elements in order, until one faults (R245). -/

def geomElems (f : Nat → Fr (Nat × Nat)) : List Nat → State → List (Nat × Nat × Nat) × Option (Nat × Nat × Nat) × State
  | [], s => ([], none, s)
  | e :: es, s =>
    match f e s with
    | .ok (v, fl) s1 =>
      let (l, x, s2) := geomElems f es s1
      ((e, v, fl) :: l, x, s2)
    | .error (c, t) s1 => ([], some (e, c, t), s1)

/-- The first m elements of a row, as a word that stops there leaves it (R245, R209). -/
def Loop.part (w : Loop) (op : Nat → Nat → Nat → Option Elem) (r m : Nat) (old : Wide) : Wide :=
  let x := (List.range m).foldl (fun x i =>
    if r * w.n + i < w.start then x else
    match (if w.act r i then op r i 0 else none) with
    | some e => Wide.set x w.v.sew i e.value
    | none => if w.v.maskZero then Wide.zero x w.v.sew i else x) old
  { x.markTo m with tag := 0 }

/-- The destination rows of the elements computed; with a stop, the elements below it alone. -/
def geomRows (w : Loop) (got : List (Nat × Nat × Nat)) (stop : Option Nat) (olds : List Wide) : List Wide :=
  let op := fun (r i res : Nat) => (look (r * w.n + i) got).map fun (x : Nat × Nat) => (⟨x.1, x.2, res⟩ : Elem)
  olds.zipIdx.map fun (old, r) =>
    match stop with
    | none => (w.row op r 0 old 0).1
    | some k =>
      if k ≤ r * w.n then old
      else if r * w.n + w.n ≤ k then (w.row op r 0 old 0).1
      else w.part op r (k - r * w.n) old

/-- R250: a word that reads slot T and writes a type with n elements in each row, once earlier acquires have completed (R248). `kinds` is the check of R251 and R253, made
before any element; `op` answers an element and its flags. -/
def geomBody (v dv : VType) (n : Nat) (o : VArgs) (srcs : List Group) (kinds : Nat → Nat → Bool) (op : Nat → Nat → Fr (Nat × Nat)) :
    Act Unit := do
  let h ← getH
  let d : Group := ⟨o.d.toNat, v.rows⟩
  acquiresDone
  ringsReady srcs (d :: (h.copyReg.toList.map fun c => ⟨c, v.rows⟩))
  let s ← get
  let ins := srcs.map (sourceRows s)
  let at' := fun (j e : Nat) => getElem (rowAt (ins.getD j []) (e / n)).bits 128 (e % n)
  let a := at' 0
  let b := fun (e : Nat) => if o.x then (h.reg o.b.toNat).toNat % 2 ^ 32 else if srcs.length < 2 then 0 else at' 1 e
  let w : Loop := ⟨dv, n, h.maxIn dv, h.vstart, h.act o.mask o.neg⟩
  let es := (List.range (v.rows * n)).filter fun e => decide (w.start ≤ e) && w.act (e / n) (e % n)
  match es.find? fun e => !kinds (a e) (b e) with
  | some e => trapWith cGeomForm (word e)
  | none => pure ()
  let (got, stop, s1) := geomElems (fun e => op (a e) (b e)) es s
  set s1
  let flags := orFlags (got.map fun x => x.2.2)
  match stop with
  | none => putRows w.max d srcs (geomRows w got none) flags
  | some (e, c, t) =>
    modH fun h => h.raiseFlags flags
    w.stopAt d e (geomRows w got (some e)) (.frame c t e)

/-- A GEOM word: its source groups are va's and, when `two` holds, vb's. -/
def geomWord (func : Nat) (two cross : Bool) (dst : VType → VType → Option VType) (kinds : Nat → Nat → Bool)
    (op : VType → Nat → Nat → Fr (Nat × Nat)) (o : VArgs) (s : State) : Result :=
  let gs := fun (v : VType) => (⟨o.a.toNat, v.rows⟩ : Group) :: (if two && !o.x then [⟨o.b.toNat, v.rows⟩] else [])
  vWordOf (vInfo 0x2C func o .v (if o.x then [o.b] else [])) o false (fun _ v => (gs v).map fun g => ⟨g, !cross⟩) (fun v => do
    acceptType (v.fmt == fmtGEOM && v.sew == 128) v
    let h ← getH
    let u := h.slot !o.t
    match dst v u with
    | none => trapWith cVtypeForm u.word
    | some dv => geomBody v dv (min h.vl (min (h.maxIn v) (h.maxIn dv))) o (gs v) kinds (op v)) s

/-- R250: the destination is slot T, or slot S in a type that suits with ROWS equal to T's. -/
def toT (v _ : VType) : Option VType := some v
def toS (ok : VType → Bool) (v u : VType) : Option VType := if ok u && u.rows == v.rows then some u else none
def isF32 (u : VType) : Bool := u.fmt == fmtFLOAT && u.sew == 32

/-- R250: RND, with EFB read as RNE. -/
def geomRnd (v : VType) : Rnd := rndOf v.rnd
def v32 (a : Nat) : Val := val fp32 a
/-- R250: a component rounded to FP32; in every rounding mode an overflow gives an infinity. -/
def roundComp (r : Rnd) (x : Val × Nat) : Nat × Nat :=
  let (b, f) := roundWith fp32 r x
  (if bit f 2 && b % 2 ^ 31 < 0x7F800000 then b / 2 ^ 31 * 2 ^ 31 + 0x7F800000 else b, f)
def roundComps (r : Rnd) (vs : List (Val × Nat)) : List Nat × Nat :=
  let ys := vs.map (roundComp r)
  (ys.map (·.1), orFlags (ys.map (·.2)))

/-- R251: the kinds that GSUB and GADD accept. -/
def subKinds (a b : Nat) : Bool := !(isVector a && !isVector b)
def addKinds (a b : Nat) : Bool := isVector a || isVector b
/-- R253. -/
def firstVector (a _ : Nat) : Bool := isVector a
def bothVectors (a b : Nat) : Bool := isVector a && isVector b

/-- R252: GSUB and GADD. -/
def addSub (sub : Bool) (v : VType) (a b : Nat) : Fr (Nat × Nat) := do
  let kind := if sub then isVector a == isVector b else isVector a && isVector b
  let tag := withKind (tagOf a) kind
  let sgn := fun (y : Val) => if sub then y.negate else y
  if sameTag (tagOf a) (tagOf b) then
    let r := geomRnd v
    let (cs, f) := roundComps r (List.zipWith (fun x y => addVal r.down (v32 x) (sgn (v32 y))) (comps a) (comps b))
    return (geoVal cs tag, f)
  let (qb, x) ← chain (comps b) (tagOf b) (tagOf a) (!isVector b)
  let (qa, y) ← toQs (tagOf a) (comps a)
  let (cs, f) := fromQs (List.zipWith (fun p q => if sub then p - q else p + q) qa qb) (x || y)
  return (geoVal cs tag, f)

/-- R254: a value converted to a target tag. -/
def convertTo (a u : Nat) : Fr (Nat × Nat) := do
  if sameTag (tagOf a) u then return (a, 0)
  let (q, x) ← chain (comps a) (tagOf a) u (!isVector a)
  let (cs, f) := fromQs q x
  return (geoVal cs (withKind u (isVector a)), f)

/-- The target tag of GCVT and GSETTAG. -/
def targetTag (x : Bool) (b : Nat) : Nat := if x then b else tagOf b

/-- R253: a cross product's components, exact. -/
def crossComps (a b : List Nat) : List (Val × Nat) :=
  let p := a.map v32
  let q := b.map v32
  let z : Val := .num false 0 0 false
  (List.range 3).map fun j =>
    let k := (j + 1) % 3
    let l := (j + 2) % 3
    blockSum [(p.getD k z, q.getD l z), ((p.getD l z).negate, q.getD k z)]

/-- R255: a rotated by a quaternion. -/
def turnComps (a : List Nat) (q : List Nat) : List Nat × Nat :=
  if (q.any fun x => !(v32 x).finite) || (quatNorm q).isZero then (List.replicate 3 fp32.canonNan, flNV)
  else roundComps .rne ((rotation q).map fun row => blockSum (row.zip (a.map v32)))

/-- GSUB (R252). -/
def execGsub (o : VArgs) (s : State) : Result := geomWord 0 true false toT subKinds (addSub true) o s
/-- GADD (R252). -/
def execGadd (o : VArgs) (s : State) : Result := geomWord 1 true false toT addKinds (addSub false) o s
/-- GSCALE (R253). -/
def execGscale (o : VArgs) (s : State) : Result :=
  geomWord 2 true false toT firstVector (fun v a b => do
    let (cs, f) := roundComps (geomRnd v) ((comps a).map fun x => mulVal (v32 x) (v32 (b % 2 ^ 32)))
    return (geoVal cs (tagOf a), f)) o s
/-- GDOT (R253). -/
def execGdot (o : VArgs) (s : State) : Result :=
  geomWord 3 true true (toS isF32) bothVectors (fun _ a b => do
    let (c, f) ← convertTo b (tagOf a)
    let (y, g) := roundWith fp32 .rne (blockSum (((comps a).map v32).zip ((comps c).map v32)))
    return (y, Nat.lor f g)) o s
/-- GCROSS (R253). -/
def execGcross (o : VArgs) (s : State) : Result :=
  geomWord 4 true false toT bothVectors (fun _ a b => do
    let (c, f) ← convertTo b (tagOf a)
    let (cs, g) := roundComps .rne (crossComps (comps a) (comps c))
    return (geoVal cs (tagOf a), Nat.lor f g)) o s
/-- GLEN (R253). -/
def execGlen (o : VArgs) (s : State) : Result :=
  geomWord 5 false true (toS isF32) (fun _ _ => true) (fun _ a _ => do
    let xs := (comps a).map v32
    let (sq, f) := blockSum (xs.zip xs)
    let (y, g) := roundWith fp32 .rne (sqrtVal sq)
    return (y, Nat.lor f g)) o s
/-- GCVT (R254). -/
def execGcvt (o : VArgs) (s : State) : Result :=
  geomWord 6 true false toT (fun _ _ => true) (fun _ a b => convertTo a (targetTag o.x b)) o s
/-- GXFM (R255). -/
def execGxfm (o : VArgs) (s : State) : Result :=
  geomWord 7 true false toT (fun _ _ => true) (fun _ a b => do
    let (cs, f) := turnComps (comps a) (comps b ++ [tagOf b])
    return (geoVal cs (tagOf a), f)) o s
/-- GTAG (R256). -/
def execGtag (o : VArgs) (s : State) : Result :=
  geomWord 8 false true (toS fun u => u.fmt == fmtINT && (u.sew == 32 || u.sew == 64)) (fun _ _ => true)
    (fun _ a _ => return (tagOf a, 0)) o s
/-- GSETTAG (R256). -/
def execGsettag (o : VArgs) (s : State) : Result :=
  geomWord 9 true false toT (fun _ _ => true) (fun _ a b => return (geoVal (comps a) (targetTag o.x b), 0)) o s

/-- R256: whether each tag is live. -/
def tagsLive : List Nat → Fr (List Bool)
  | [] => pure []
  | t :: ts => do
    let n ← liveTag t
    return n.isSome :: (← tagsLive ts)

/-- GCHK (R256): which tags are live, into a k register. -/
def execGchk (o : VArgs) (s : State) : Result :=
  let v := s.h.slot o.t
  let g : Group := ⟨o.a.toNat, v.rows⟩
  issue (vInfo 0x2C 10 o .none) (andNext do
    acceptType (v.fmt == fmtGEOM && v.sew == 128) v
    acquiresDone
    ringsReady [g] []
    let s ← get
    let w := s.h.loop v o.mask o.neg
    let rows := sourceRows s g
    let tags := (List.range (v.rows * w.n)).map fun e => tagOf (getElem (rowAt rows (e / w.n)).bits 128 (e % w.n))
    match tagsLive tags s with
    | .error _ s1 => set s1
    | .ok live s1 =>
      set s1
      writeMask w o.d.toNat fun r i => (live.getD (r * w.n + i) false, 0)
      modify (popHeads [g])) s
    (legal := do require (groupsLegal (← getH) none [⟨g, false⟩]) cIllegal 0)

/-- R257: the children down to the deepest live cell that contains a point. -/
def descend : Nat → Node → List Int → Fr (Node × List Int)
  | 0, n, q => pure (n, q)
  | fuel + 1, n, q => do
    let lim : Int := 2 ^ (n.hexp + 64).toNat
    if n.kind = kCell && n.child ≠ 0 && q.all fun x => decide (-lim ≤ x ∧ x < lim) then
      let o := ((q.zipIdx).map fun (x, i) => if 0 ≤ x then 2 ^ i else 0).sum
      match ← liveNode (n.child + o) with
      | none => return (n, q)
      | some m => descend fuel m (List.zipWith (· - ·) q m.shift)
    else return (n, q)

/-- R257: GRETAG's element. A point that stays in its node is copied. -/
def retag (a : Nat) : Fr (Nat × Nat) := do
  if isVector a then return (a, 0)
  let n ← checkTag (tagOf a)
  let (q, x) ← toQs (tagOf a) (comps a)
  let (m, r) ← descend 64 n q
  if m.idx = n.idx then return (a, 0)
  let (cs, f) := fromQs r x
  return (geoVal cs (m.idx + 2 ^ 21 * m.gen), f)

/-- GRETAG (R257). -/
def execGretag (o : VArgs) (s : State) : Result :=
  geomWord 11 false false toT (fun _ _ => true) (fun _ a _ => retag a) o s

/-- R261: a component's cell coordinate, in 21 bits. -/
def cellCoord (e : Int) (x : Nat) : Nat × Nat :=
  let (c, f) := cvtInt ((v32 x).scale (-e)) 21 true .rdn
  (wrap 21 c, f)

/-- GCELL (R261): cell keys, through slot S. -/
def execGcell (o : VArgs) (s : State) : Result :=
  vWordOf (vInfo 0x2E 0 o .v [o.b]) o false (fun _ v => [⟨⟨o.a.toNat, v.rows⟩, false⟩]) (fun v => do
    acceptType (v.fmt == fmtGEOM && v.sew == 128) v
    let h ← getH
    let u := h.slot !o.t
    require (u.fmt == fmtINT && u.sew == 64 && u.rows == v.rows) cVtypeForm u.word
    let sb := h.reg o.b.toNat
    let e := signed 64 sb.toNat
    require (decide (-24 ≤ e ∧ e ≤ 40)) cGeomForm sb
    elementwiseIf (h.act o.mask o.neg) u v (min h.vl (min (h.maxIn v) (h.maxIn u))) o none false [⟨o.a.toNat, v.rows⟩]
      fun reads r i res =>
        let cs := (comps (srcAt reads 0 r i).1).map (cellCoord e)
        let key := ((cs.zipIdx).map fun (c, j) => c.1 * 2 ^ (21 * j)).sum
        some ⟨key, orFlags (cs.map (·.2)), res⟩) s

end Sys2Proof.Machine
end

