-- ==== Sys2Proof/Machine/FrameWords.lean ====
section
/-! DEFINITION. The FRAME words (R258 to R260) and FFENCE (R249). A frame change is one step of the machine, so the order of
steps is the frame order (R238). -/

namespace Sys2Proof.Machine

/-- R259: a frame spec. -/
structure FrameSpec where
  parent : Nat
  kind : Nat
  hexp : Int
  t : List Int
  q : List Nat
  deriving DecidableEq, Repr

def specOf (b : List Byte) : FrameSpec :=
  { parent := leAt b 0 4, kind := leAt b 4 1, hexp := signed 8 (leAt b 5 1)
    t := (List.range 3).map fun i => signed 64 (leAt b (16 + 8 * i) 8)
    q := (List.range 4).map fun i => leAt b (40 + 4 * i) 4 }
/-- R259: a spec that is not malformed. -/
def specGood (new : Bool) (b : List Byte) : Bool :=
  let p := specOf b
  leAt b 6 10 == 0 && leAt b 56 8 == 0 && (new || p.parent == 0) && decide (p.kind ≤ 3)
    && (if p.kind = kCell then decide (-8 ≤ p.hexp ∧ p.hexp ≤ 39) else p.hexp == 0)
    && quatUnit p.q && (decide (2 ≤ p.kind) || quatIdentity p.q) && (p.kind != kRoot || p.t.all (· == 0))

/-- R259: read a spec, in class c0. -/
def readSpec (new : Bool) (va : Word) : Act FrameSpec := do
  require (va.toNat % 8 == 0) cAlign va
  let b ← loadBytes (some 0) va.toNat 64 8
  require (specGood new b) cFrameForm va
  return specOf b

/-- A part of the resolver's work within a word: a frame fault is that of the word, at element 0. -/
def resolve {α : Type} (f : Fr α) : Act α := do
  match f (← get) with
  | .ok x s1 =>
    set s1
    return x
  | .error (c, t) s1 =>
    set s1
    throw (.frame c t 0)

/-- R258: the checks of a frame change, then its effect, a release at DEVICE scope (R248). -/
def frameWord (func : Nat) (o : RArgs) (dest : DestKind) (reads : List (BitVec 5)) (role : Bool) (body : Act Unit) (s : State) :
    Result :=
  issue (rInfo 0x2D func o dest reads) (andNext do
    let s ← get
    acquiresDone
    if !wbit s.dev.frctl 0 then
      throw (.frame ffStale (if func = 0 then 0 else (s.h.reg o.a.toNat).toNat % 2 ^ 32) 0)
    performEarlier 2
    body) s
    (later := do
      let s ← get
      require (s.h.mode != .user || wbit s.dev.frctl 1) cPrivileged 0
      require (!(role && s.h.role == .computer)) cRole 0)

/-- R260: the tag of a node, kind point. -/
def Node.tag (n : Node) : Nat := n.idx + 2 ^ 21 * n.gen

/-- R260: free indexes and trees, from the live records. -/
def freeNode (live : List Node) (i : Nat) : Bool := !live.any fun n => n.idx == i
def freeTree (live : List Node) : Option Nat :=
  (List.range 16).find? fun t => !live.any fun n => n.kind == kRoot && n.tree == t

/-- FNEW (R260): a new node: sD := its tag, or 0 when there is no free index or tree. -/
def execFnew (o : RArgs) (s : State) : Result :=
  frameWord 0 o (.s o.d.toNat) [o.a] true (do
    let va ← readS o.a
    let p ← readSpec true va
    let live ← resolve liveRecords
    let (tree, parent, depth) ← if p.kind = kRoot then do
        require (p.parent == 0) cFrameForm va
        pure (freeTree live, 0, 0)
      else do
        let n ← resolve (checkTag p.parent)
        require (suits p.kind n.kind) cFrameForm va
        if 24 ≤ n.depth then throw (.frame ffDeep p.parent 0)
        pure (some n.tree, n.idx, n.depth + 1)
    let idx := firstIndex (freeNode live) 1 (nodeCount (← get) - 1) 1
    match tree, idx with
    | some t, some i =>
      let old ← resolve (storedNode i)
      let n : Node := { idx := i, parent := parent, kind := p.kind, live := true, tree := t, gen := old.gen, depth := depth
                        version := 0, t := p.t, q := p.q, child := 0, hexp := p.hexp }
      resolve (writeNode n)
      writeD o.d (word n.tag)
    | _, _ => writeD o.d 0) s

/-- The tag in an s register: its low 32 bits. -/
def readTag (r : BitVec 5) : Act Nat := do return (← readS r).toNat % 2 ^ 32

/-- FFREE (R260). -/
def execFfree (o : RArgs) (s : State) : Result :=
  frameWord 1 o .none [o.a] false (do
    let n ← resolve (checkTag (← readTag o.a))
    let live ← resolve liveRecords
    require (!live.any fun m => m.parent == n.idx) cFrameForm (word (← readTag o.a))
    resolve (writeNode { n with live := false, gen := (n.gen + 1) % 1024 })) s

/-- R260: a spec's translation and quaternion on a node. -/
def Node.posed (n : Node) (p : FrameSpec) : Node := { n with t := p.t, q := p.q, version := (n.version + 1) % 2 ^ 64 }

/-- FUPD (R260). -/
def execFupd (o : RArgs) (s : State) : Result :=
  frameWord 2 o .none [o.a, o.b] true (do
    let n ← resolve (checkTag (← readTag o.a))
    let p ← readSpec false (← readS o.b)
    require (n.kind != kRoot && p.kind == n.kind && p.hexp == n.hexp) cFrameForm (word (← readTag o.a))
    resolve (writeNode (n.posed p))) s

/-- R260: child o of a split cell. -/
def splitChild (n : Node) (first : Nat) (gen o : Nat) : Node :=
  let u : Int := 2 ^ (n.hexp + 23).toNat
  { idx := first + o, parent := n.idx, kind := kCell, live := true, tree := n.tree, gen := gen, depth := n.depth + 1
    version := 0, t := (List.range 3).map fun c => if bit o c then u else -u, q := [0x3F800000, 0, 0, 0], child := 0
    hexp := n.hexp - 1 }

/-- FSPLIT (R260): eight children; sD := the first one's tag, or 0 when there is no free run. -/
def execFsplit (o : RArgs) (s : State) : Result :=
  frameWord 3 o (.s o.d.toNat) [o.a] false (do
    let tag ← readTag o.a
    let n ← resolve (checkTag tag)
    require (n.kind == kCell && n.child == 0 && decide (-7 ≤ n.hexp)) cFrameForm (word tag)
    if 24 ≤ n.depth then throw (.frame ffDeep tag 0)
    let live ← resolve liveRecords
    match firstIndex (fun i => (List.range 8).all fun k => freeNode live (i + k)) 8 (nodeCount (← get) / 8 - 1) 8 with
    | none => writeD o.d 0
    | some i =>
      let olds ← resolve ((List.range 8).mapM fun k => storedNode (i + k))
      let kids := olds.zipIdx.map fun (m, k) => splitChild n i m.gen k
      resolve (kids.forM writeNode)
      resolve (writeNode { n with child := i })
      writeD o.d (word ((kids.map Node.tag).headD 0))) s

/-- The nodes of a subtree: one more level a round. -/
def subtree (live : List Node) : Nat → List Nat → List Nat
  | 0, is => is
  | n + 1, is =>
    let more := (live.filter fun m => is.contains m.parent && !is.contains m.idx).map (·.idx)
    if more.isEmpty then is else subtree live n (is ++ more)

/-- FREPAR (R260): a node's new parent, and with sC its new pose. -/
def execFrepar (o : RArgs) (s : State) : Result :=
  frameWord 4 o .none [o.a, o.b, o.d] true (do
    let n ← resolve (checkTag (← readTag o.a))
    let ptag ← readTag o.b
    let p ← resolve (checkTag ptag)
    let spec ← if o.d = 0 then pure none else do
        let f ← readSpec false (← readS o.d)
        pure (some f)
    let live ← resolve liveRecords
    let sub := subtree live 26 [n.idx]
    let fits := match spec with
      | some f => f.kind == n.kind && f.hexp == n.hexp
      | none => true
    require (!sub.contains p.idx && suits n.kind p.kind && fits) cFrameForm (word (← readTag o.a))
    let nodes := live.filter fun m => sub.contains m.idx
    let moved : Node → Node := fun m => { m with depth := m.depth + p.depth + 1 - n.depth, tree := p.tree }
    if nodes.any fun m => decide (24 < (moved m).depth) then throw (.frame ffDeep ptag 0)
    resolve (nodes.forM fun m =>
      let m1 := moved m
      writeNode (if m.idx = n.idx then
        let m2 := { m1 with parent := p.idx }
        match spec with
        | some f => m2.posed f
        | none => m2
      else m1))) s

/-- FFENCE (R249): earlier vector words have completed, and later conversions see later points of the frame order. -/
def execFfence (o : RArgs) (s : State) : Result := issue (rInfo 0x2D 5 o .none) (andNext (commit 2)) s

end Sys2Proof.Machine
end

