-- ==== Sys2Proof/Machine/Hash.lean ====
section
/-! DEFINITION. The HASH words but GCELL (R262 to R266). -/

namespace Sys2Proof.Machine

/-- R262: the table's first address, its buckets and a key's bucket. -/
def hashBase (h : Hart) : Nat := wrap 64 (signed 55 (wbits h.csr.htab 54 7 * 128))
def hashBuckets (h : Hart) : Nat := 2 ^ wbits h.csr.htab 4 0
def bucketOf (h : Hart) (key : Nat) : Nat :=
  key * 0x9E3779B97F4A7C15 % 2 ^ 64 / 2 ^ (64 - wbits h.csr.htab 4 0)
def bucketAddr (h : Hart) (b : Nat) : Nat := (hashBase h + 128 * b) % 2 ^ 64

/-- R262: ranges must lie in scratchpads of the hart's cluster on NORMAL or WC pages; they are translated and pinned. -/
def hashRanges (kind : AccKind) : List (Nat × Nat) → Act (List (Nat × Nat × Nat))
  | [] => pure []
  | (va, n) :: rs => do
    let parts ← translateRange va n kind
    let c := coordCluster (← get).cur
    let ok := fun (p : Nat × Nat × Xlat) => decide (p.2.2.typ ≤ 1) && (match targetOf p.2.2.pa with
      | .scratch cl .. => cl == c
      | _ => false)
    match parts.find? fun p => !ok p with
    | some p => trapWith cType (word p.1)
    | none => pure ()
    return parts.map (fun p => p.2.2.entry) ++ (← hashRanges kind rs)
def hashTable (kind : AccKind) (more : List (Nat × Nat)) : Act Unit := do
  let h ← getH
  let t ← hashRanges kind [(hashBase h, 128 * hashBuckets h)]
  let u ← hashRanges .write more
  if h.mode != .machine then admitPins (t ++ u).dedup

/-- R263: the slot's type, and keys without bit 63, before any access. -/
def hashType (v : VType) (oneRow : Bool) : Act Unit :=
  acceptType (v.fmt == fmtINT && v.sew == 64 && (!oneRow || v.rows == 1)) v
def hashKeys (es : List Nat) (key : Nat → Nat) : Act Unit :=
  match es.find? fun e => bit (key e) 63 with
  | some e => trapWith cGeomForm (word e)
  | none => pure ()

/-- A bucket's keys and payloads. -/
def slotsOf (bs : List Byte) : List (Nat × Nat) := (List.range 8).map fun j => (leAt bs (16 * j) 8, leAt bs (16 * j + 8) 8)
def emptyKey : Nat := 2 ^ 64 - 1

/-- A store of the table that performs at once at its scratchpad (R266), in class c0. -/
def hashWrite (va : Nat) (bs : List Byte) : Act Unit := do
  let parts ← translateRange va bs.length .write
  watermark va bs.length
  bindLoads (loadConflicts (some 0) (parts.map fun p => (p.2.2.pa, p.2.1)))
  writeNowParts false parts bs

/-- R264: insert one entry: whether its bucket was full. -/
def hashInsert (key payload : Nat) : Act Bool := do
  let h ← getH
  let va := bucketAddr h (bucketOf h key)
  let bs ← loadBytes (some 0) va 128 8
  match (slotsOf bs).findIdx? fun p => p.1 == emptyKey with
  | none => return true
  | some j =>
    hashWrite (va + 16 * j) (bytesOf 8 key ++ bytesOf 8 payload)
    return false
def hashInserts (key payload : Nat → Nat) : List Nat → Act (List (Nat × Bool))
  | [] => pure []
  | e :: es => do
    let full ← hashInsert (key e) (payload e)
    return (e, full) :: (← hashInserts key payload es)

/-- Element e of a group's row e / n, as stored. -/
def storedAt (s : State) (g : Group) (n : Nat) (e : Nat) : Nat := getElem (groupRow s g (e / n)).bits 64 (e % n)

/-- R263: a crew computer traps ROLE. -/
def hashRole : Act Unit := do require ((← getH).role != .computer) cRole 0

/-- HINS (R264): insert the active elements in order; kD marks those that found their bucket full. -/
def execHins (o : VArgs) (s : State) : Result :=
  let v := s.h.slot o.t
  let ga : Group := ⟨o.a.toNat, v.rows⟩
  let gb : Group := ⟨o.b.toNat, v.rows⟩
  issue (vInfo 0x2E 1 o .none) (andNext do
    hashType v false
    ringsReady [ga, gb] []
    let s ← get
    let w : Loop := { s.h.loop v o.mask o.neg with start := 0 }
    let es := (List.range (v.rows * w.n)).filter fun e => w.act (e / w.n) (e % w.n)
    hashKeys es (storedAt s ga w.n)
    hashTable .rmw []
    es.forM fun e => watermark (bucketAddr s.h (bucketOf s.h (storedAt s ga w.n e))) 128
    commit 2
    let full ← hashInserts (storedAt s ga w.n) (storedAt s gb w.n) es
    writeMask w o.d.toNat fun r i => (lookD false (r * w.n + i) full, 0)
    modify (releasePins s.cur)
    modify (popHeads [ga, gb])) s
    (legal := do require (groupsLegal (← getH) none [⟨ga, false⟩, ⟨gb, false⟩]) cIllegal 0)
    (later := hashRole)

/-- HCLR (R264, R266): every bucket in ascending order, every key all ones and every payload zero. DESIGN CHOICE: HCLR may take
a lent k guard, as every V-format word may (R46), and has no element that the guard could hold or mask: it ignores it. -/
def execHclr (o : VArgs) (s : State) : Result :=
  issue (vInfo 0x2E 3 o .none) (andNext do
    hashType ((← getH).slot o.t) false
    hashTable .write []
    commit 2
    let h ← getH
    (List.range (hashBuckets h)).forM fun b =>
      hashWrite (bucketAddr h b) ((List.replicate 8 (bytesOf 8 emptyKey ++ bytesOf 8 0)).flatten)
    modify (releasePins s.cur)
    modH fun h => { h with vstart := 0 }) s
    (later := hashRole)

/-- R265: the key of neighbour n of a key. -/
def neighbour (key n : Nat) : Nat :=
  let ds : List Nat := [n % 3, n / 3 % 3, n / 9]
  ((ds.zipIdx).map fun (d, j) => (bits key (21 * j + 20) (21 * j) + 2 ^ 21 + d - 1) % 2 ^ 21 * 2 ^ (21 * j)).sum

/-- R265: one query's neighbours from n on: their payloads to the output, and how many there were. -/
def lookNeighbours (key out : Nat) : List Nat → Act Nat
  | [] => pure 0
  | n :: ns => do
    let h ← getH
    let g := neighbour key n
    let bs ← loadBytes (some 0) (bucketAddr h (bucketOf h g)) 128 8
    let hits := (slotsOf bs).map fun p => if p.1 = g then some p.2 else none
    let _ ← storeBytes (some 0) ((out + 64 * n) % 2 ^ 64) 8 (hits.flatMap fun p => bytesOf 8 (p.getD emptyKey))
    return (hits.filter Option.isSome).length + (← lookNeighbours key out ns)
/-- The queries in order until one does not complete. -/
def lookQueries (f : Nat → Act Nat) : List Nat → Act (List (Nat × Nat × Nat) × Option (Nat × Exc))
  | [] => pure ([], none)
  | e :: es => do
    match ← attempt (f e) with
    | .error x => return ([], some (e, x))
    | .ok n =>
      let (rest, x) ← lookQueries f es
      return ((e, n, 0) :: rest, x)

/-- HLOOK (R265): look up the 27 neighbours of each active query. -/
def execHlook (o : VArgs) (s : State) : Result :=
  vWordOf (vInfo 0x2E 2 o .v [o.b]) o false (fun _ v => [⟨⟨o.a.toNat, v.rows⟩, true⟩]) (fun v => do
    hashType v true
    let h ← getH
    let ga : Group := ⟨o.a.toNat, v.rows⟩
    let d : Group := ⟨o.d.toNat, v.rows⟩
    ringsReady [ga] (d :: (h.copyReg.toList.map fun c => ⟨c, v.rows⟩))
    let s ← get
    let w := s.h.loop v o.mask o.neg
    let es := (List.range w.n).filter fun e => decide (w.start ≤ e) && w.act 0 e
    let out := fun (e : Nat) => ((h.reg o.b.toNat).toNat + 1728 * e) % 2 ^ 64
    hashKeys es (storedAt s ga w.n)
    hashTable .read (es.map fun e => (out e, 1728))
    let (got, stop) ← lookQueries (fun e => lookNeighbours (storedAt s ga w.n e) (out e) (List.range 27)) es
    match stop with
    | none => putRows w.max d [ga] (geomRows w got none) 0
    | some (e, x) => w.stopAt d e (geomRows w got (some e)) x
    modify (releasePins s.cur)) s
    (later := hashRole)

end Sys2Proof.Machine
end

