-- ==== Sys2Proof/Machine/Matrix.lean ====
section
/-! DEFINITION. The MATRIX words (R277, R282 to R290) and the steps of the sequencers and the weight loader. -/

namespace Sys2Proof.Machine

def matrixInfo (func : Nat) (o : RArgs) (dest : DestKind) (reads : List (BitVec 5)) : Info := rInfo 0x30 func o dest reads

/-- R283: a quadrant stopped with an error traps the word that names it. -/
def errorTrap (q : Nat) : Act Unit := do
  let s ← get
  let w := (quadOf s (coordCluster s.cur) q).seq
  require (!(seqActive w && seqErr w != 0)) cMatrixForm (word q)
/-- R268: wait until a quadrant is idle. -/
def quadrantIdle (q : Nat) : Act Unit := do
  let s ← get
  if quadBusy (quadOf s (coordCluster s.cur) q) then waitFor .matrix

/-- R286: read n bytes of a descriptor's data. -/
def descRead (va n : Nat) : Act (List Byte) := do
  require (va % 8 == 0) cAlign (word va)
  loadBytes (some 0) va n 8

/-- R286: a drain descriptor's faults in a mode. -/
def drainBad (mode : Nat) (d : List Byte) : Bool :=
  let out := leAt d 0 1
  let hlev := leAt d 1 1
  !(if mode = 1 then out == 5 else if mode = 2 then out == 6 else decide (out ≤ 4))
    || decide (3 < hlev) || (hlev != 0 && mode != 0) || leAt d 2 1 / 8 != 0 || decide (1 < leAt d 3 1) || leAt d 5 3 != 0
    || leAt d 32 32 != 0 || !thresholdsLegal (word (leAt d 8 8))

/-- R286: the bias values that a mode reads. -/
def biasOf (mode : Nat) (bs : List Byte) : List Nat :=
  if mode = 2 then (List.range 128).map fun i => leAt bs (8 * i) 8 else (List.range 256).map fun i => leAt bs (4 * i) 4

/-- MCFG (R286). Read a drain descriptor and set a quadrant's drain configuration. -/
def execMcfg (o : RArgs) (s : State) : Result :=
  issue (matrixInfo 0 o .none [o.a]) (andNext do
    let h ← getH
    let q := o.d.toNat % 4
    errorTrap q
    quadrantIdle q
    let va := (h.reg o.a.toNat).toNat
    let d ← descRead va 64
    let mode := mtMode h.mx.mtype
    require (!drainBad mode d) cMatrixForm (word va)
    let bias ← if leAt d 3 1 = 1 then do
        pure (some (biasOf mode (← descRead (leAt d 16 8) 1024)))
      else pure none
    let out := leAt d 0 1
    let book ← if 2 ≤ out ∧ out ≤ 4 then do
        let n := 2 ^ (outFormat out).2
        pure (entriesOf n (← descRead (leAt d 24 8) (2 * n)))
      else pure []
    match tableFault book with
    | some i => trapWith cCbOrder (word i)
    | none =>
      let drain : Drain := {
        out := some out, hlev := leAt d 1 1, thr := leAt d 2 1, bias := bias, scale := signed 8 (leAt d 4 1), book := book
        thresholds := word (leAt d 8 8) }
      modify fun s => setQuad (coordCluster s.cur) q { quadOf s (coordCluster s.cur) q with drain := drain } s) s

/-- R81, R277: pin a copy's source pages, beside the pins of the copies still to be read. -/
def pinCopy (pages : List (Nat × Nat × Nat)) : Act Unit := do
  require (decide (pages.length ≤ 1024)) cPins 0
  let s ← get
  let ci := coreIndex s.cur
  let mine := fun (s : State) => (coreOf s ci).pins.filter fun p => p.coord == s.cur
  let queued := ((clusterOf s (coordCluster s.cur)).loader.filter WeightCopy.unread).length
  if (mine s).length ≤ queued then
    modify fun s => let c := coreOf s ci; setCore ci { c with pins := c.pins ++ [⟨s.cur, pages, false⟩] } s
  modify (admitNext ci)
  if (mine (← get)).any fun p => !p.admitted then waitFor .pins

/-- MLDB (R277). Pin the source and queue a copy into the weight buffer. -/
def execMldb (o : RArgs) (s : State) : Result :=
  issue (matrixInfo 1 o .none [o.a, o.b]) (andNext do
    let h ← getH
    let va := (h.reg o.a.toNat).toNat
    let b := h.reg o.b.toNat
    let off := wbits b 17 0
    let len := wbits b 41 24
    require (va % 64 == 0 && len != 0 && decide (off + len ≤ granules) && wbits b 23 18 == 0 && wbits b 63 42 == 0)
      cMatrixForm b
    let parts ← translateRange va (64 * len) .read
    match parts.find? fun p => 2 ≤ p.2.2.typ with
    | some p => trapWith cType (word p.1)
    | none => pure ()
    pinCopy (if h.mode = .machine then [] else (parts.map fun p => p.2.2.entry).dedup)
    performOwn 3
    modify fun s =>
      let c := coordCluster s.cur
      let cl := clusterOf s c
      setCluster c { cl with
        issued := cl.issued + 1
        loader := cl.loader ++ [⟨parts.map fun (a, n, x) => (accessOf s a x, n), off, len, cl.issued, none⟩] } s) s

/-- R268, R282: start a command on a quadrant. -/
def startCommandQ (cmd q : Nat) (a b : Word) : Act Unit := modify fun s =>
  let c := coordCluster s.cur
  let cl := clusterOf s c
  setCluster c { cl with
    issued := cl.issued + 1
    quads := cl.quads.setIfInBounds q { quadOf s c q with
      running := true, seq := seqWord cmd 0 false 0, opa := a, opb := b, mtype := s.h.mx.mtype, order := cl.issued
      g := wbits a 17 0, block := [] } } s

/-- R282, R287: a row range, ROW0 in [11:0] and M in [24:12]. -/
def rowsOk (w : Word) : Bool := wbits w 24 12 != 0 && decide (wbits w 11 0 + wbits w 24 12 ≤ 4096) && wbits w 31 25 == 0

/-- MMAC (R282). Start a product on a quadrant's sequencer. -/
def execMmac (o : RArgs) (s : State) : Result :=
  issue (matrixInfo 2 o .none [o.a, o.b]) (andNext do
    let h ← getH
    let q := o.d.toNat % 4
    errorTrap q
    let a := h.reg o.a.toNat
    let b := h.reg o.b.toNat
    let kb := wbits b 40 32
    require (wbits a 63 18 == 0 && rowsOk b && wbits b 63 41 == 0 && kb != 0 && decide (kb ≤ 256)
      && (mtMode h.mx.mtype != 2 || kb == 1)) cMatrixForm b
    quadrantIdle q
    startCommandQ 2 q a b) s

/-- R287: with a transform, ROW0 and M are multiples of 8. -/
def groupsOk (s : State) (q : Nat) (a : Word) : Bool :=
  (quadOf s (coordCluster s.cur) q).drain.hlev == 0 || (wbits a 11 0 % 8 == 0 && wbits a 24 12 % 8 == 0)

/-- MDRAIN (R287). Start draining accumulator rows to the output port. -/
def execMdrain (o : RArgs) (s : State) : Result :=
  issue (matrixInfo 3 o .none [o.a]) (andNext do
    let s ← get
    let q := o.d.toNat % 4
    errorTrap q
    let a := s.h.reg o.a.toNat
    require (rowsOk a && wbits a 63 33 == 0 && groupsOk s q a) cMatrixForm a
    quadrantIdle q
    startCommandQ 3 q a 0) s

/-- MZERO (R288). Start zeroing accumulator rows. -/
def execMzero (o : RArgs) (s : State) : Result :=
  issue (matrixInfo 4 o .none [o.a]) (andNext do
    let s ← get
    let q := o.d.toNat % 4
    errorTrap q
    let a := s.h.reg o.a.toNat
    require (rowsOk a && wbits a 63 32 == 0 && groupsOk s q a) cMatrixForm a
    quadrantIdle q
    startCommandQ 4 q a 0) s

/-- MWAIT (R289). Wait until the named quadrants and weight loader are idle. -/
def execMwait (o : RArgs) (s : State) : Result :=
  issue (matrixInfo 5 o .none [o.a]) (andNext do
    let s ← get
    let a := s.h.reg o.a.toNat
    require (wbits a 63 5 == 0) cMatrixForm 0
    let named := (List.range 4).filter fun q => wbit a q
    named.forM errorTrap
    named.forM quadrantIdle
    if wbit a 4 && loaderBusy s (coordCluster s.cur) then waitFor .matrix) s

/-- MSYNC (R289). Wait until earlier MLDB and MCFG reads and MDRAIN pushes are done. -/
def execMsync (o : RArgs) (s : State) : Result :=
  issue (matrixInfo 6 o .none []) (andNext do
    let s ← get
    let c := coordCluster s.cur
    if loaderBusy s c || (clusterOf s c).quads.toList.any fun k => quadBusy k && seqCmd k.seq == 3 then waitFor .matrix) s

/-- MSTEP (R285). Run a held quadrant command to its next interruption point; it waits where that point waits for a copy. -/
def execMstep (o : RArgs) (s : State) : Result :=
  issue (matrixInfo 7 o (.s o.d.toNat) []) (andNext do
    let s ← get
    let c := coordCluster s.cur
    let q := o.a.toNat % 4
    let w := (quadOf s c q).seq
    if seqActive w && seqHold w && seqErr w == 0 then
      let t := runToPoint c q (pointFuel s c) (seqRestart c q w s)
      if (quadOf t c q).running then waitFor .matrix
      set t
    writeD o.d (quadOf (← get) c q).seq) s

/-! The engine's own steps. -/

/-- WEIGHT_LOAD (R277): a piece of the loader's work. -/
def execWeightLoad (o : ClusterArgs) (s : State) : Result := .next ((loadWeights o.cluster s).getD s)

/-- One step of a quadrant whose command and position it fits. -/
def quadrantStep (o : ClusterArgs) (fits : Quadrant → Bool) (s : State) : Result :=
  let k := quadOf s o.cluster (o.quadrant % 4)
  if k.running && fits k then .next (seqStep o.cluster (o.quadrant % 4) s).1 else .next s

/-- The next step of an MMAC is a B load. -/
def needsBlock (k : Quadrant) : Bool := !seqBld k.seq || k.block.isEmpty

/-- SEQ_B_LOAD (R282). -/
def execSeqBLoad (o : ClusterArgs) (s : State) : Result := quadrantStep o (fun k => seqCmd k.seq == 2 && needsBlock k) s
/-- SEQ_A_ROW (R282). -/
def execSeqARow (o : ClusterArgs) (s : State) : Result := quadrantStep o (fun k => seqCmd k.seq == 2 && !needsBlock k) s
/-- DRAIN_GROUP (R287). -/
def execDrainGroup (o : ClusterArgs) (s : State) : Result := quadrantStep o (fun k => seqCmd k.seq == 3) s
/-- SEQ_ZERO_ROWS (R288): one row. -/
def execSeqZeroRows (o : ClusterArgs) (s : State) : Result := quadrantStep o (fun k => seqCmd k.seq == 4) s
/-- SEQ_STOP (R284): a busy quadrant runs to its next interruption point and stops. -/
def execSeqStop (o : ClusterArgs) (s : State) : Result :=
  if (quadOf s o.cluster (o.quadrant % 4)).running then .next (runToPoint o.cluster (o.quadrant % 4) (pointFuel s o.cluster) s)
  else .next s

end Sys2Proof.Machine
end

