-- ==== Sys2Proof/Machine/Dispatch.lean ====
section
/-! DEFINITION. One arm per instruction: each calls its meaning. -/

namespace Sys2Proof.Machine

open Sys2Proof

/-- The meaning of an instruction or event at a state. -/
def exec (i : Instr) (s : State) : Host.Outcome State Fault Refusal :=
  match i with
  | .reset o => Sys2Proof.Machine.execReset o s
  | .memoryReadRequest o => Sys2Proof.Machine.execMemoryReadRequest o s
  | .memoryWriteRequest o => Sys2Proof.Machine.execMemoryWriteRequest o s
  | .lineFill o => Sys2Proof.Machine.execLineFill o s
  | .lineWriteback o => Sys2Proof.Machine.execLineWriteback o s
  | .parityDelta o => Sys2Proof.Machine.execParityDelta o s
  | .writebackComplete o => Sys2Proof.Machine.execWritebackComplete o s
  | .reconstructionHold o => Sys2Proof.Machine.execReconstructionHold o s
  | .stackLost o => Sys2Proof.Machine.execStackLost o s
  | .rebuildStripe => Sys2Proof.Machine.execRebuildStripe s
  | .tupleRequestStep o => Sys2Proof.Machine.execTupleRequestStep o s
  | .tupleWithdraw o => Sys2Proof.Machine.execTupleWithdraw o s
  | .tupleReply o => Sys2Proof.Machine.execTupleReply o s
  | .countedOpComplete o => Sys2Proof.Machine.execCountedOpComplete o s
  | .pinAdmit o => Sys2Proof.Machine.execPinAdmit o s
  | .watermarkRelease => Sys2Proof.Machine.execWatermarkRelease s
  | .engineStreamStart o => Sys2Proof.Machine.execEngineStreamStart o s
  | .landing o => Sys2Proof.Machine.execLanding o s
  | .streamFail o => Sys2Proof.Machine.execStreamFail o s
  | .userInterruptEntry => Sys2Proof.Machine.execUserInterruptEntry s
  | .userFrameFaultEntry o => Sys2Proof.Machine.execUserFrameFaultEntry o s
  | .trapEntry o => Sys2Proof.Machine.execTrapEntry o s
  | .pendingErrorTrap => Sys2Proof.Machine.execPendingErrorTrap s
  | .wakeInterrupt => Sys2Proof.Machine.execWakeInterrupt s
  | .mgmtInterrupt => Sys2Proof.Machine.execMgmtInterrupt s
  | .preemptionPoint => Sys2Proof.Machine.execPreemptionPoint s
  | .stripAgeExpiry => Sys2Proof.Machine.execStripAgeExpiry s
  | .stripRewind o => Sys2Proof.Machine.execStripRewind o s
  | .idleTimeout => Sys2Proof.Machine.execIdleTimeout s
  | .dispatchPacket => Sys2Proof.Machine.execDispatchPacket s
  | .dependenceRead o => Sys2Proof.Machine.execDependenceRead o s
  | .placeUnit o => Sys2Proof.Machine.execPlaceUnit o s
  | .launchDoneAdd o => Sys2Proof.Machine.execLaunchDoneAdd o s
  | .qtail o => Sys2Proof.Machine.execQtail o s
  | .qctl o => Sys2Proof.Machine.execQctl o s
  | .ownwin o => Sys2Proof.Machine.execOwnwin o s
  | .mbdone o => Sys2Proof.Machine.execMbdone o s
  | .mbAttest o => Sys2Proof.Machine.execMbAttest o s
  | .mbKeyLoad o => Sys2Proof.Machine.execMbKeyLoad o s
  | .mbAccessEntry o => Sys2Proof.Machine.execMbAccessEntry o s
  | .mbErrorCounts o => Sys2Proof.Machine.execMbErrorCounts o s
  | .mbFirmwareStage o => Sys2Proof.Machine.execMbFirmwareStage o s
  | .mbPowerCap o => Sys2Proof.Machine.execMbPowerCap o s
  | .mbCertChain o => Sys2Proof.Machine.execMbCertChain o s
  | .mbUnknownCommand o => Sys2Proof.Machine.execMbUnknownCommand o s
  | .registerWrite o => Sys2Proof.Machine.execRegisterWrite o s
  | .frctl o => Sys2Proof.Machine.execFrctl o s
  | .bqpush o => Sys2Proof.Machine.execBqpush o s
  | .efcclr => Sys2Proof.Machine.execEfcclr s
  | .mseqRestart o => Sys2Proof.Machine.execMseqRestart o s
  | .mseqAbandon o => Sys2Proof.Machine.execMseqAbandon o s
  | .weightLoad o => Sys2Proof.Machine.execWeightLoad o s
  | .seqBLoad o => Sys2Proof.Machine.execSeqBLoad o s
  | .seqARow o => Sys2Proof.Machine.execSeqARow o s
  | .drainGroup o => Sys2Proof.Machine.execDrainGroup o s
  | .seqZeroRows o => Sys2Proof.Machine.execSeqZeroRows o s
  | .seqStop o => Sys2Proof.Machine.execSeqStop o s
  | .ulianeDataFlit o => Sys2Proof.Machine.execUlianeDataFlit o s
  | .ulianeIdleFlit o => Sys2Proof.Machine.execUlianeIdleFlit o s
  | .ulianeAckFlit o => Sys2Proof.Machine.execUlianeAckFlit o s
  | .ulianeRetryFlit o => Sys2Proof.Machine.execUlianeRetryFlit o s
  | .linkDown o => Sys2Proof.Machine.execLinkDown o s
  | .cxlSnoop o => Sys2Proof.Machine.execCxlSnoop o s
  | .correctedError o => Sys2Proof.Machine.execCorrectedError o s
  | .powerThrottle o => Sys2Proof.Machine.execPowerThrottle o s
  | .waitgeRecheck => Sys2Proof.Machine.execWaitgeRecheck s
  | .add o => Sys2Proof.Machine.execAdd o s
  | .sub o => Sys2Proof.Machine.execSub o s
  | .and o => Sys2Proof.Machine.execAnd o s
  | .or o => Sys2Proof.Machine.execOr o s
  | .xor o => Sys2Proof.Machine.execXor o s
  | .andn o => Sys2Proof.Machine.execAndn o s
  | .shl o => Sys2Proof.Machine.execShl o s
  | .shr o => Sys2Proof.Machine.execShr o s
  | .sra o => Sys2Proof.Machine.execSra o s
  | .rotl o => Sys2Proof.Machine.execRotl o s
  | .min o => Sys2Proof.Machine.execMin o s
  | .max o => Sys2Proof.Machine.execMax o s
  | .minn o => Sys2Proof.Machine.execMinn o s
  | .maxn o => Sys2Proof.Machine.execMaxn o s
  | .mul o => Sys2Proof.Machine.execMul o s
  | .mulh o => Sys2Proof.Machine.execMulh o s
  | .mulhn o => Sys2Proof.Machine.execMulhn o s
  | .div o => Sys2Proof.Machine.execDiv o s
  | .divn o => Sys2Proof.Machine.execDivn o s
  | .rem o => Sys2Proof.Machine.execRem o s
  | .remn o => Sys2Proof.Machine.execRemn o s
  | .clz o => Sys2Proof.Machine.execClz o s
  | .ctz o => Sys2Proof.Machine.execCtz o s
  | .popc o => Sys2Proof.Machine.execPopc o s
  | .sextb o => Sys2Proof.Machine.execSextb o s
  | .sexth o => Sys2Proof.Machine.execSexth o s
  | .sextw o => Sys2Proof.Machine.execSextw o s
  | .zextb o => Sys2Proof.Machine.execZextb o s
  | .zexth o => Sys2Proof.Machine.execZexth o s
  | .zextw o => Sys2Proof.Machine.execZextw o s
  | .addi o => Sys2Proof.Machine.execAddi o s
  | .andi o => Sys2Proof.Machine.execAndi o s
  | .ori o => Sys2Proof.Machine.execOri o s
  | .xori o => Sys2Proof.Machine.execXori o s
  | .shli o => Sys2Proof.Machine.execShli o s
  | .shri o => Sys2Proof.Machine.execShri o s
  | .srai o => Sys2Proof.Machine.execSrai o s
  | .lih o => Sys2Proof.Machine.execLih o s
  | .addpc o => Sys2Proof.Machine.execAddpc o s
  | .cmp o => Sys2Proof.Machine.execCmp o s
  | .cmpImm o => Sys2Proof.Machine.execCmpImm o s
  | .fcmp o => Sys2Proof.Machine.execFcmp o s
  | .fcmpD o => Sys2Proof.Machine.execFcmpD o s
  | .pand o => Sys2Proof.Machine.execPand o s
  | .por o => Sys2Proof.Machine.execPor o s
  | .pxor o => Sys2Proof.Machine.execPxor o s
  | .pandn o => Sys2Proof.Machine.execPandn o s
  | .pmov o => Sys2Proof.Machine.execPmov o s
  | .pnot o => Sys2Proof.Machine.execPnot o s
  | .b o => Sys2Proof.Machine.execB o s
  | .bp o => Sys2Proof.Machine.execBp o s
  | .call o => Sys2Proof.Machine.execCall o s
  | .callr o => Sys2Proof.Machine.execCallr o s
  | .bqNz o => Sys2Proof.Machine.execBqNz o s
  | .bqZ o => Sys2Proof.Machine.execBqZ o s
  | .ldb o => Sys2Proof.Machine.execLdb o s
  | .ldh o => Sys2Proof.Machine.execLdh o s
  | .ldw o => Sys2Proof.Machine.execLdw o s
  | .ldd o => Sys2Proof.Machine.execLdd o s
  | .ldbn o => Sys2Proof.Machine.execLdbn o s
  | .ldhn o => Sys2Proof.Machine.execLdhn o s
  | .ldwn o => Sys2Proof.Machine.execLdwn o s
  | .stb o => Sys2Proof.Machine.execStb o s
  | .sth o => Sys2Proof.Machine.execSth o s
  | .stw o => Sys2Proof.Machine.execStw o s
  | .std o => Sys2Proof.Machine.execStd o s
  | .ldacq o => Sys2Proof.Machine.execLdacq o s
  | .strel o => Sys2Proof.Machine.execStrel o s
  | .ldl o => Sys2Proof.Machine.execLdl o s
  | .stc o => Sys2Proof.Machine.execStc o s
  | .fadd o => Sys2Proof.Machine.execFadd o s
  | .fsub o => Sys2Proof.Machine.execFsub o s
  | .fmul o => Sys2Proof.Machine.execFmul o s
  | .fdiv o => Sys2Proof.Machine.execFdiv o s
  | .fsqrt o => Sys2Proof.Machine.execFsqrt o s
  | .fmin o => Sys2Proof.Machine.execFmin o s
  | .fmax o => Sys2Proof.Machine.execFmax o s
  | .fma o => Sys2Proof.Machine.execFma o s
  | .fnma o => Sys2Proof.Machine.execFnma o s
  | .fcvti o => Sys2Proof.Machine.execFcvti o s
  | .fcvtf o => Sys2Proof.Machine.execFcvtf o s
  | .fcvtp o => Sys2Proof.Machine.execFcvtp o s
  | .faddD o => Sys2Proof.Machine.execFaddD o s
  | .fsubD o => Sys2Proof.Machine.execFsubD o s
  | .fmulD o => Sys2Proof.Machine.execFmulD o s
  | .fdivD o => Sys2Proof.Machine.execFdivD o s
  | .fsqrtD o => Sys2Proof.Machine.execFsqrtD o s
  | .fminD o => Sys2Proof.Machine.execFminD o s
  | .fmaxD o => Sys2Proof.Machine.execFmaxD o s
  | .fmaD o => Sys2Proof.Machine.execFmaD o s
  | .fnmaD o => Sys2Proof.Machine.execFnmaD o s
  | .fcvtiD o => Sys2Proof.Machine.execFcvtiD o s
  | .fcvtfD o => Sys2Proof.Machine.execFcvtfD o s
  | .fcvtpD o => Sys2Proof.Machine.execFcvtpD o s
  | .csrr o => Sys2Proof.Machine.execCsrr o s
  | .csrw o => Sys2Proof.Machine.execCsrw o s
  | .csrx o => Sys2Proof.Machine.execCsrx o s
  | .svc o => Sys2Proof.Machine.execSvc o s
  | .trap o => Sys2Proof.Machine.execTrap o s
  | .tret o => Sys2Proof.Machine.execTret o s
  | .uiret o => Sys2Proof.Machine.execUiret o s
  | .idle o => Sys2Proof.Machine.execIdle o s
  | .nop o => Sys2Proof.Machine.execNop o s
  | .brk o => Sys2Proof.Machine.execBrk o s
  | .exit o => Sys2Proof.Machine.execExit o s
  | .vadd o => Sys2Proof.Machine.execVadd o s
  | .vsub o => Sys2Proof.Machine.execVsub o s
  | .vmul o => Sys2Proof.Machine.execVmul o s
  | .vmulh o => Sys2Proof.Machine.execVmulh o s
  | .vmulhn o => Sys2Proof.Machine.execVmulhn o s
  | .vmin o => Sys2Proof.Machine.execVmin o s
  | .vmax o => Sys2Proof.Machine.execVmax o s
  | .vminn o => Sys2Proof.Machine.execVminn o s
  | .vmaxn o => Sys2Proof.Machine.execVmaxn o s
  | .vand o => Sys2Proof.Machine.execVand o s
  | .vor o => Sys2Proof.Machine.execVor o s
  | .vxor o => Sys2Proof.Machine.execVxor o s
  | .vandn o => Sys2Proof.Machine.execVandn o s
  | .vshl o => Sys2Proof.Machine.execVshl o s
  | .vshr o => Sys2Proof.Machine.execVshr o s
  | .vsra o => Sys2Proof.Machine.execVsra o s
  | .vsadd o => Sys2Proof.Machine.execVsadd o s
  | .vssub o => Sys2Proof.Machine.execVssub o s
  | .vsaddn o => Sys2Proof.Machine.execVsaddn o s
  | .vssubn o => Sys2Proof.Machine.execVssubn o s
  | .vabsd o => Sys2Proof.Machine.execVabsd o s
  | .vclz o => Sys2Proof.Machine.execVclz o s
  | .vpopc o => Sys2Proof.Machine.execVpopc o s
  | .vneg o => Sys2Proof.Machine.execVneg o s
  | .vfadd o => Sys2Proof.Machine.execVfadd o s
  | .vfsub o => Sys2Proof.Machine.execVfsub o s
  | .vfmul o => Sys2Proof.Machine.execVfmul o s
  | .vfma o => Sys2Proof.Machine.execVfma o s
  | .vfms o => Sys2Proof.Machine.execVfms o s
  | .vfnma o => Sys2Proof.Machine.execVfnma o s
  | .vfdiv o => Sys2Proof.Machine.execVfdiv o s
  | .vfsqrt o => Sys2Proof.Machine.execVfsqrt o s
  | .vfmin o => Sys2Proof.Machine.execVfmin o s
  | .vfmax o => Sys2Proof.Machine.execVfmax o s
  | .vfabs o => Sys2Proof.Machine.execVfabs o s
  | .vfneg o => Sys2Proof.Machine.execVfneg o s
  | .vfclass o => Sys2Proof.Machine.execVfclass o s
  | .vcmp o => Sys2Proof.Machine.execVcmp o s
  | .vfcmp o => Sys2Proof.Machine.execVfcmp o s
  | .kand o => Sys2Proof.Machine.execKand o s
  | .kor o => Sys2Proof.Machine.execKor o s
  | .kxor o => Sys2Proof.Machine.execKxor o s
  | .kandn o => Sys2Proof.Machine.execKandn o s
  | .knot o => Sys2Proof.Machine.execKnot o s
  | .kmov o => Sys2Proof.Machine.execKmov o s
  | .kpopc o => Sys2Proof.Machine.execKpopc o s
  | .kfirst o => Sys2Proof.Machine.execKfirst o s
  | .vmv o => Sys2Proof.Machine.execVmv o s
  | .vmvX o => Sys2Proof.Machine.execVmvX o s
  | .vbcast o => Sys2Proof.Machine.execVbcast o s
  | .vsel o => Sys2Proof.Machine.execVsel o s
  | .vslideup o => Sys2Proof.Machine.execVslideup o s
  | .vslidedn o => Sys2Proof.Machine.execVslidedn o s
  | .vgathr o => Sys2Proof.Machine.execVgathr o s
  | .vcompr o => Sys2Proof.Machine.execVcompr o s
  | .vexpnd o => Sys2Proof.Machine.execVexpnd o s
  | .viota o => Sys2Proof.Machine.execViota o s
  | .vexts o => Sys2Proof.Machine.execVexts o s
  | .vinss o => Sys2Proof.Machine.execVinss o s
  | .vrowmv o => Sys2Proof.Machine.execVrowmv o s
  | .vtrn o => Sys2Proof.Machine.execVtrn o s
  | .vcvt o => Sys2Proof.Machine.execVcvt o s
  | .vcbenc o => Sys2Proof.Machine.execVcbenc o s
  | .vcbdec o => Sys2Proof.Machine.execVcbdec o s
  | .vpack o => Sys2Proof.Machine.execVpack o s
  | .vunpk o => Sys2Proof.Machine.execVunpk o s
  | .vredo o => Sys2Proof.Machine.execVredo o s
  | .vredt o => Sys2Proof.Machine.execVredt o s
  | .vredmax o => Sys2Proof.Machine.execVredmax o s
  | .vredmin o => Sys2Proof.Machine.execVredmin o s
  | .vredand o => Sys2Proof.Machine.execVredand o s
  | .vredor o => Sys2Proof.Machine.execVredor o s
  | .vdoto o => Sys2Proof.Machine.execVdoto o s
  | .vdott o => Sys2Proof.Machine.execVdott o s
  | .vexp2 o => Sys2Proof.Machine.execVexp2 o s
  | .vlog2 o => Sys2Proof.Machine.execVlog2 o s
  | .vrcp o => Sys2Proof.Machine.execVrcp o s
  | .vrsq o => Sys2Proof.Machine.execVrsq o s
  | .vsin o => Sys2Proof.Machine.execVsin o s
  | .vcos o => Sys2Proof.Machine.execVcos o s
  | .vtanh o => Sys2Proof.Machine.execVtanh o s
  | .vsigm o => Sys2Proof.Machine.execVsigm o s
  | .vmrg o => Sys2Proof.Machine.execVmrg o s
  | .vmrgi o => Sys2Proof.Machine.execVmrgi o s
  | .vbsrch o => Sys2Proof.Machine.execVbsrch o s
  | .vconf o => Sys2Proof.Machine.execVconf o s
  | .vsetl o => Sys2Proof.Machine.execVsetl o s
  | .vclaim o => Sys2Proof.Machine.execVclaim o s
  | .vclaimp o => Sys2Proof.Machine.execVclaimp o s
  | .vsett o => Sys2Proof.Machine.execVsett o s
  | .vcbld o => Sys2Proof.Machine.execVcbld o s
  | .wthset o => Sys2Proof.Machine.execWthset o s
  | .vld o => Sys2Proof.Machine.execVld o s
  | .vst o => Sys2Proof.Machine.execVst o s
  | .vstn o => Sys2Proof.Machine.execVstn o s
  | .vldcl o => Sys2Proof.Machine.execVldcl o s
  | .vstcl o => Sys2Proof.Machine.execVstcl o s
  | .vgll o => Sys2Proof.Machine.execVgll o s
  | .vscc o => Sys2Proof.Machine.execVscc o s
  | .vlda o => Sys2Proof.Machine.execVlda o s
  | .vstl o => Sys2Proof.Machine.execVstl o s
  | .qdrain o => Sys2Proof.Machine.execQdrain o s
  | .fence o => Sys2Proof.Machine.execFence o s
  | .efence o => Sys2Proof.Machine.execEfence o s
  | .waitge o => Sys2Proof.Machine.execWaitge o s
  | .waitdc o => Sys2Proof.Machine.execWaitdc o s
  | .bar o => Sys2Proof.Machine.execBar o s
  | .hgive o => Sys2Proof.Machine.execHgive o s
  | .htake o => Sys2Proof.Machine.execHtake o s
  | .enq o => Sys2Proof.Machine.execEnq o s
  | .deq o => Sys2Proof.Machine.execDeq o s
  | .venq o => Sys2Proof.Machine.execVenq o s
  | .vdeq o => Sys2Proof.Machine.execVdeq o s
  | .stream o => Sys2Proof.Machine.execStream o s
  | .charm o => Sys2Proof.Machine.execCharm o s
  | .chstat o => Sys2Proof.Machine.execChstat o s
  | .chclr o => Sys2Proof.Machine.execChclr o s
  | .tdep o => Sys2Proof.Machine.execTdep o s
  | .tcpy o => Sys2Proof.Machine.execTcpy o s
  | .ttak o => Sys2Proof.Machine.execTtak o s
  | .tcpyn o => Sys2Proof.Machine.execTcpyn o s
  | .ttakn o => Sys2Proof.Machine.execTtakn o s
  | .treg o => Sys2Proof.Machine.execTreg o s
  | .tfree o => Sys2Proof.Machine.execTfree o s
  | .gsub o => Sys2Proof.Machine.execGsub o s
  | .gadd o => Sys2Proof.Machine.execGadd o s
  | .gscale o => Sys2Proof.Machine.execGscale o s
  | .gdot o => Sys2Proof.Machine.execGdot o s
  | .gcross o => Sys2Proof.Machine.execGcross o s
  | .glen o => Sys2Proof.Machine.execGlen o s
  | .gcvt o => Sys2Proof.Machine.execGcvt o s
  | .gxfm o => Sys2Proof.Machine.execGxfm o s
  | .gtag o => Sys2Proof.Machine.execGtag o s
  | .gsettag o => Sys2Proof.Machine.execGsettag o s
  | .gchk o => Sys2Proof.Machine.execGchk o s
  | .gretag o => Sys2Proof.Machine.execGretag o s
  | .fnew o => Sys2Proof.Machine.execFnew o s
  | .ffree o => Sys2Proof.Machine.execFfree o s
  | .fupd o => Sys2Proof.Machine.execFupd o s
  | .fsplit o => Sys2Proof.Machine.execFsplit o s
  | .frepar o => Sys2Proof.Machine.execFrepar o s
  | .ffence o => Sys2Proof.Machine.execFfence o s
  | .gcell o => Sys2Proof.Machine.execGcell o s
  | .hins o => Sys2Proof.Machine.execHins o s
  | .hlook o => Sys2Proof.Machine.execHlook o s
  | .hclr o => Sys2Proof.Machine.execHclr o s
  | .wfwd o => Sys2Proof.Machine.execWfwd o s
  | .winv o => Sys2Proof.Machine.execWinv o s
  | .wtag o => Sys2Proof.Machine.execWtag o s
  | .wsettag o => Sys2Proof.Machine.execWsettag o s
  | .mcfg o => Sys2Proof.Machine.execMcfg o s
  | .mldb o => Sys2Proof.Machine.execMldb o s
  | .mmac o => Sys2Proof.Machine.execMmac o s
  | .mdrain o => Sys2Proof.Machine.execMdrain o s
  | .mzero o => Sys2Proof.Machine.execMzero o s
  | .mwait o => Sys2Proof.Machine.execMwait o s
  | .msync o => Sys2Proof.Machine.execMsync o s
  | .mstep o => Sys2Proof.Machine.execMstep o s
  | .launch o => Sys2Proof.Machine.execLaunch o s
  | .spawn o => Sys2Proof.Machine.execSpawn o s
  | .steal o => Sys2Proof.Machine.execSteal o s
  | .taskget o => Sys2Proof.Machine.execTaskget o s
  | .yield o => Sys2Proof.Machine.execYield o s
  | .tlbi o => Sys2Proof.Machine.execTlbi o s
  | .msq o => Sys2Proof.Machine.execMsq o s
  | .migrate o => Sys2Proof.Machine.execMigrate o s
  | .keyld o => Sys2Proof.Machine.execKeyld o s
  | .actbl o => Sys2Proof.Machine.execActbl o s
  | .preempt o => Sys2Proof.Machine.execPreempt o s
  | .resume o => Sys2Proof.Machine.execResume o s
  | .pfx o => Sys2Proof.Machine.execPfx o s
  | .pfxCopy o => Sys2Proof.Machine.execPfxCopy o s
  | .cAdd o => Sys2Proof.Machine.execCAdd o s
  | .cSub o => Sys2Proof.Machine.execCSub o s
  | .cAnd o => Sys2Proof.Machine.execCAnd o s
  | .cOr o => Sys2Proof.Machine.execCOr o s
  | .cXor o => Sys2Proof.Machine.execCXor o s
  | .cShl o => Sys2Proof.Machine.execCShl o s
  | .cShr o => Sys2Proof.Machine.execCShr o s
  | .cAddi o => Sys2Proof.Machine.execCAddi o s
  | .cMov o => Sys2Proof.Machine.execCMov o s
  | .cLdd o => Sys2Proof.Machine.execCLdd o s
  | .cStd o => Sys2Proof.Machine.execCStd o s
  | .cBnz o => Sys2Proof.Machine.execCBnz o s
  | .cNop o => Sys2Proof.Machine.execCNop o s
  | .migrationComplete o => Sys2Proof.Machine.execMigrationComplete o s
  | .ulianeLinkUp o => Sys2Proof.Machine.execUlianeLinkUp o s
  | .hostWindowNoAnswer o => Sys2Proof.Machine.execHostWindowNoAnswer o s
  | .laneGroupArbitration o => Sys2Proof.Machine.execLaneGroupArbitration o s

end Sys2Proof.Machine
end

