-- ==== Sys2Proof/Machine/VQueue.lean ====
section
/-! DEFINITION. The vector queue (R335, R25, R368, R369): words that have settled and wait for a ring or a port are in it, and
the front end goes on behind them (log 12). -/

namespace Sys2Proof.Machine

/-- R335: its entries. -/
def queueRoom : Nat := 16

/-- A pre-emption, an interrupt or a pending error waits only for the words in the queue. -/
def pressing (s : State) : Bool :=
  let s0 := { s with h := { s.h with vq := [] } }
  preemptReady s0 || wakeReady s0 || mgmtReady s0 || userInterruptReady s0 || !s.h.errs.isEmpty

/-- R335, R368: a word that has settled and waits for a ring or a port goes into the queue, and the front end goes on. While it
is full, and where a pre-emption is to come, the word stays in hand. -/
def enterQueue (s : State) : State :=
  match s.h.waiting, s.h.latch with
  | some w, some l =>
    (match l.settled with
      | some (stall, vector) =>
        if (w == .ring || w == .port) && decide (s.h.vq.length < queueRoom) && !pressing s then
          { s with h := { s.h.leave with
            vq := s.h.vq ++ [⟨l, s.h.pc, s.h.pfx, s.h.words⟩]
            pc := s.h.pc + 4, pfx := none, clock := s.h.clock + stall, words := s.h.words + 1
            vcount := if vector then s.h.vcount + 1 else s.h.vcount } }
        else s
      | none => s)
  | _, _ => s
/-- The outcome of a word that the front end has issued. -/
def issued (r : Result) : Result :=
  match r with
  | .next s => .next (enterQueue s)
  | r => r

/-- A hart with a queued word in hand, and nothing behind it. -/
def Hart.withQueued (h : Hart) (q : Queued) : Hart :=
  { h.leave with vq := [], pc := q.pc, pfx := q.pfx, words := q.order, latch := some q.latch }
/-- What the front end has stays as it is when a queued word completes. -/
def Hart.withFront (h front : Hart) (rest : List Queued) : Hart :=
  { h with
    vq := rest, pc := front.pc, pfx := front.pfx, words := front.words, vcount := front.vcount, clock := front.clock
    waiting := front.waiting, latch := front.latch, given := front.given, moved := front.moved, before := front.before
    admitted := front.admitted, idleFrom := front.idleFrom, idleStall := front.idleStall }

/-- R335: the word at the head of the current hart's queue completes; none when it waits. -/
noncomputable def runHead (s : State) : Option State :=
  match s.h.vq with
  | [] => none
  | q :: rest =>
    match decode q.latch.bytes with
    | .error _ => none
    | .ok (i, _) =>
      match exec i { s with h := s.h.withQueued q } with
      | .next s1 =>
        if s1.h.waiting.isSome then none
        else if s1.h.words = q.order + 1 then some { s1 with h := s1.h.withFront s.h rest }
        else some s1
      | _ => none

/-- Nothing has issued behind the words of the queue: the hart is as it was with the first of them in hand. -/
def unqueue (s : State) : Option State :=
  match s.h.vq with
  | [] => none
  | q :: rest =>
    if s.h.latch.isNone && s.h.words == q.order + rest.length + 1 then
      let vectors := ((q :: rest).filter fun u => (u.latch.settled.map fun x => x.2).getD false).length
      some { s with h := { s.h.withQueued q with waiting := some .ring, vcount := s.h.vcount - vectors } }
    else none

/-- The front end waits for the queue. -/
def holdFront (s : State) : State := { s with h := { s.h with waiting := some .ring, clock := s.h.clock + 1 } }

/-- The words that issue behind the queue (log 12): those of the scalar front end that neither read nor write what its words
do: compact forms, ALU to FP64 words, prefixes, NOP, ENQ, DEQ, and the CSRW that pushes to a branch queue. -/
def passesQueue (w : Nat) : Bool :=
  let major := w / 2 % 64
  w % 2 == 0 || decide (major ≤ 0x11) || major == 0x33
    || (major == 0x13 && w / 2 ^ 28 % 16 == 5)
    || (major == 0x2A && decide (w / 2 ^ 28 % 16 ≤ 1))
    || (major == 0x12 && w / 2 ^ 29 % 8 == 1 && (w / 2 ^ 17 % 4096 == 0xE6 || w / 2 ^ 17 % 4096 == 0xE7))
/-- The words that may join the queue. -/
def joinsQueue (w : Nat) : Bool :=
  let major := w / 2 % 64
  (decide (0x14 ≤ major) && decide (major ≤ 0x1E)) || major == 0x2C || major == 0x2E || major == 0x2F
    || (major == 0x2A && w / 2 ^ 28 % 16 == 2)

/-- R335, R368: a word that comes behind others in the queue: one that settles on entry joins them once its checks are done; one
that they do not allow traps; another waits. -/
noncomputable def joinQueue (i : Instr) (s : State) : Result :=
  match exec i { s with h := { s.h with queueing := true } } with
  | .next s1 =>
    let s2 := { s1 with h := { s1.h with queueing := false } }
    if s1.h.words ≠ s.h.words then .next (holdFront s)
    else match s1.h.latch with
      | none => .next s2
      | some l => if l.settled.isSome then .next (enterQueue s2) else .next (holdFront s)
  | r => r

/-- The front end issues a word. -/
noncomputable def issueFront (bs : List Byte) (i : Instr) (s : State) : Result :=
  if s.h.vq.isEmpty || passesQueue (natOfBytes bs) then issued (exec i s)
  else if joinsQueue (natOfBytes bs) && s.h.latch.isNone && decide (s.h.vq.length < queueRoom) then joinQueue i s
  else .next (holdFront s)

end Sys2Proof.Machine
end

