-- ==== Sys2Proof/Machine/Schedule.lean ====
section
/-! DEFINITION. How the machine moves (log 1): fetching a word (R26), the events a hart takes between words, the work that
goes on while a word waits, and whose turn comes next. -/

namespace Sys2Proof.Machine

/-! Fetching (R26, R74, R77). -/

/-- A halfword at an address, as the current hart fetches it; a channel's range makes it wait (R112). A fetch that waits keeps
the translations that it was given (R82). -/
def fetchHalf (va : Word) : Act (List Byte) := do
  let x ← translateNow (← getH).mode va.toNat .fetch
  watermark va.toNat 2
  let s ← get
  match physRead { ctxOf s.cur s.h.mode x.key x.z with moved := s.h.moved } x.pa 2 s with
  | .error (0, a) => waitFor (.hold a)
  | .error (c, _) => trapWith c va
  | .ok (_, _, some a) => throw (.poison a)
  | .ok (s1, bs, none) =>
    set s1
    return bs

/-- R26: the bytes of the word at the pc: a compact form, or two halfwords. One whose channel has failed while it waited faults
(R114). -/
def fetchWord : Act (List Byte) := do
  match (← getH).waiting with
  | some (.failed va) => trapWith cChannelFailed (word va)
  | _ => pure ()
  let pc := (← getH).pc
  let lo ← fetchHalf pc
  let hi ← if (lo.headD 0).toNat % 2 = 0 then pure [] else fetchHalf (pc + 2)
  modH fun h => { h with given := [] }
  return lo ++ hi

/-! Turns. -/

/-- The next slot in turn with a running hart: the lowest above the current one, else the lowest; none without another. -/
def nextHart (s : State) : Option Nat :=
  let ls := (s.harts.filter fun e => e.2.live).map (·.1)
  (ls.find? fun c => decide (s.cur < c)).or ls.head?
def rotate (s : State) : State :=
  match nextHart s with
  | some c => focus c s
  | none => s

/-! The work of the other agents, one piece at a time (log 1). Each answers what it changes, if it has work. -/

/-- R57: a writeback under way ends. -/
def workWriteback (s : State) : Option State := s.hbm.pending.head?.map fun l => settleStripe (stripeOf l) s
/-- R84: a migration ends. -/
def workMigration (s : State) : Option State :=
  (s.dev.migrating.find? fun e => migrationQuiet e.1 (entryMatches (some e.2.asn) (some e.2.va)) s).map fun e => endMigration e.1 s
/-- R102: a reply lands, but for one kept for an image (R383). -/
def workReply (s : State) : Option State := (s.tuples.replies.find? fun r => !keptFor s r).map fun r => landReply r s
/-- R101, R105: a home slice takes a request or a withdrawal. -/
def workTuples (s : State) : Option State :=
  match s.tuples.requests.find? fun q => !q.parked || q.withdrawn with
  | none => none
  | some q => some (if q.parked then tupleWithdraw q.num s else tupleStep q.slice s)
/-- R40: the oldest operation of the current hart that can complete. -/
def workOps (s : State) : Option State :=
  let due := fun (o : CountedOp) => (match o.kind with
    | .load .. => true
    | .chstat _ => true
    | .deq _ => (popPort s).isSome
    | _ => false)
  if !s.h.live then none else
  (s.h.ops.findIdx? due).map fun i => completeNow i s
/-- R108, R111, R114, R115: a copy engine serves the channel that comes next of those with work: it lands an element, starts a
stream or ends a failed one. -/
def workEngine (e : Nat) (s : State) : Option State :=
  let lands := fun (k : Nat) => !(toLand (channelOf s (k / 16) (k % 16))).isEmpty
  let started := (engineChannels e true s).filter fun k => lands k || (dueFailure (k / 16) (k % 16) s).isSome
  (roundRobin e (engineChannels e false s ++ started) s).map fun k =>
    if lands k then landElement (k / 16) (k % 16) 0 (serve e k s)
    else if (engineChannels e false s).contains k then startStream (k / 16) (k % 16) s
    else failStream (k / 16) (k % 16) (serve e k s)
/-- Each engine with cores in use works. -/
def workChannels (s : State) : Option State :=
  ((s.cores.map fun e => engineOf e.1).dedup).foldl (fun (r : Option State) e => (workEngine e (r.getD s)).or r) none
/-- R396: a link's oldest flit reaches its peer and is acknowledged. -/
def workLinks (s : State) : Option State :=
  (List.range 18).findSome? fun i =>
    if (linkOf s i).up && !(linkOf s i).replay.isEmpty then some (acknowledgeFlits i 1 s) else none
/-- R277: a weight loader makes its oldest copy. -/
def workLoader (s : State) : Option State := s.clusters.findSome? fun e => loadWeights e.1 s
/-- R282: a quadrant's sequencer takes a step. -/
def workQuads (s : State) : Option State :=
  s.clusters.findSome? fun e => (List.range 4).findSome? fun q =>
    if !(quadOf s e.1 q).running then none else
    match seqStep e.1 q s with
    | (_, .waits _) => none
    | (s1, _) => some s1
/-- R81: a waiting instruction's pins are admitted. -/
def workPins (s : State) : Option State :=
  (s.cores.find? fun e => match nextPin s e.2 with
    | some w => decide (pinsHeld e.2 + w.pages.length ≤ 1024)
    | none => false).map fun e => admitNext e.1 s
/-- R332: units that fit are placed, up to a number of them. -/
def placeUnits : Nat → State → State
  | 0, s => s
  | k + 1, s =>
    match nextUnit s with
    | none => s
    | some (n, l, o, at', gs) => placeUnits k (placeLaunch n l o at' gs s)
/-- R331 to R334: a launch ends, or the units that fit are placed. -/
def workLaunches (s : State) : Option State :=
  match s.dev.launches.find? fun e => e.2.unfinished == 0 with
  | some e => some (finishLaunch e.1 s)
  | none =>
    if (nextUnit s).isNone then none
    else some (placeUnits (s.dev.launches.map fun e => e.2.waiting.length).sum s)
/-- R326, R329: the dispatcher looks at its queues. -/
def workQueues (s : State) : Option State :=
  let open' := (List.range 64).filter fun n => queueOpen n s
  if open'.isEmpty then none else
  some (dispatchPacket (open'.foldl (fun s n => readDependence n s) s))

/-- The works of the other agents. -/
def works : List (State → Option State) :=
  [workWriteback, workMigration, workReply, workTuples, workOps, workChannels, workLinks, workLoader, workQuads, workPins,
    workQueues, workLaunches]
/-- Each of them does one piece of its work, if it has any; none when none has. -/
def backgroundWork (s : State) : Option State :=
  works.foldl (fun (r : Option State) w => (w (r.getD s)).or r) none

/-- Where a turn ends, each agent does a piece of its work, and the next hart has its turn. -/
def background (s : State) : State := rotate ((backgroundWork s).getD s)

/-! Between words. -/

/-- Whether the word at the pc is an EFENCE, which takes a pending error itself (R358, R370). -/
def efenceNext (s : State) : Bool :=
  match fetchWord s with
  | .ok bs _ => natOfBytes bs % 128 == 0x53 && natOfBytes bs / 2 ^ 28 == 2
  | .error _ _ => false

/-- R370, R358, R378: a pending error is taken between words, but for one that the EFENCE there takes itself, and where a
pre-emption would stop the hart, which it precedes. -/
def errorReady (s : State) : Bool :=
  !s.h.errs.isEmpty && (preemptReady s || (s.h.latch.isNone && !efenceNext s))

/-- What the current hart takes before its next word: the strip's age (R375), a pending error (R370), a pre-emption (R378), an
interrupt (R391, R381, R126). A hart in IDLE completes it first (R321). -/
def boundary (s : State) : Option State :=
  if stripOld s.h then some (ageCommit s)
  else if s.h.idleFrom.isSome then none
  else if errorReady s then some (whenEntered (takePendingError true) s)
  else if preemptReady s then some (background (preemptPoint s))
  else if mgmtReady s then some (whenEntered (fun s => takeMgmt s.h.pc s) s)
  else if wakeReady s then some (whenEntered (fun s => takeWake s.h.pc s) s)
  else if userInterruptReady s then some (takeUserInterrupt ((interruptChannel s).getD 0) s)
  else none

/-- A hart's turn lasts for at most this many cycles of its clock (log 1). -/
def turnCycles : Nat := 64
/-- A hart's turn ends where its word waits, and where its clock crosses a multiple of `turnCycles`. -/
def turnEnds (before : Nat) (h : Hart) : Bool := h.waiting.isSome || before / turnCycles != h.clock / turnCycles
/-- Where a turn ends, the others work. `before` is the hart's clock before its word. -/
def settle (before : Nat) (r : Result) : Result :=
  match r with
  | .next s => .next (if turnEnds before s.h then background s else s)
  | r => r

/-- No hart runs in the current slot: another has its turn, or the others work, or nothing moves. -/
def emptyTurn (s : State) : Result :=
  match nextHart s, backgroundWork s with
  | some c, _ => .next (focus c s)
  | none, some s1 => .next (rotate s1)
  | none, none => .fault .noHart

/-- Time passes for the current hart. -/
def passTime (n : Nat) (s : State) : State := { s with h := { s.h with clock := s.h.clock + n } }

/-! The probe of the host: a word at the place of the next fetch. -/

/-- A running hart in machine mode stands in the current slot, with nothing to take before its next word, and the bytes of a
word lie at its pc (log 5). -/
def placeWord (bs : List Byte) (s : State) : State :=
  let h := s.h
  let s1 := { s with
    agenda := []
    h := { h with
      live := true, stopped := false, mode := .machine, waiting := none, latch := none, given := [], idleFrom := none
      errs := [], pfx := none, vq := [], queueing := false, admitted := false, staged := [], before := [], moved := []
      strip := { h.strip with firstStore := none } }
    dev := { s.dev with mgmt := { s.dev.mgmt with pending := false } } }
  match physWrite {} s1.h.pc.toNat bs s1 with
  | .ok (s2, _) => s2
  | .error _ => s1

end Sys2Proof.Machine
end

