-- ==== Sys2Proof/Machine/Step.lean ====
section
/-! DEFINITION. One step of the machine (log 1), and the host's probe `State.withFetchWord`. -/

namespace Sys2Proof.Machine

/-- The bytes of the current hart's word: those that it waits with (R25), or those at its pc (R26). -/
def wordBytes (s : State) : EStateM.Result Exc State (List Byte) :=
  match s.h.latch with
  | some l => .ok l.bytes s
  | none => fetchWord s

/-- The current hart's word issues: the one that it waits with, or the one at its pc (R35). -/
noncomputable def wordTurn (s : State) : Result :=
  match wordBytes s with
  | .error e s1 => settle s.h.clock (.next (deliver 0 e s1))
  | .ok bs s1 =>
    match decode bs with
    | .ok (i, _) => settle s.h.clock (issueFront bs i s1)
    | .error _ => .next (wordTrap (natOfBytes bs) cIllegal 0 s1)

/-- The current hart's turn: the head of its vector queue, what it takes before its next word, else its word, and, where its
turn ends, the others' work. Where something is to be taken that the queue keeps back, no word issues behind it (R378). -/
noncomputable def hartTurn (s : State) : Result :=
  if !s.h.live then emptyTurn s else
  match runHead s with
  | some s1 => settle s.h.clock (.next s1)
  | none =>
    if !s.h.vq.isEmpty && pressing s then
      match unqueue s with
      | some s1 => .next s1
      | none => settle s.h.clock (.next (holdFront s))
    else
      match boundary s with
      | some s1 => .next s1
      | none => wordTurn s

/-- A step: the agenda's head, or the current hart's turn. -/
noncomputable def step (s : State) : Host.Outcome State Fault Refusal :=
  match s.agenda with
  | .event i :: rest => exec i { s with agenda := rest }
  | .tick n :: rest => .next (passTime n { s with agenda := rest })
  | .hart c :: rest => hartTurn (focus c { s with agenda := rest })
  | [] => hartTurn s

/-- The state with the instruction of these bits where step fetches its next instruction (log 5). -/
def State.withFetchWord (s : State) (nbits w : Nat) : State := placeWord (bytesOf (max 4 ((nbits + 7) / 8)) w) s

end Sys2Proof.Machine
end

