-- ==== Sys2Proof/Safety.lean ====
section
/-! DEFINITION. The terms in which claims speak of a state: the invariant of the machine, and a hart that is ready to issue a
word. -/

namespace Sys2Proof.Machine

/-- The invariant: memory is in its canonical form. -/
def State.Inv (s : State) : Prop := Memory.wf s.mem = true

/-- A hart at a word boundary with nothing outstanding: it runs, no prefix is live, no word has issued and waits (R25, R114) or
is queued (R335), no result, counted operation or STRONG store (R80) is on its way, and STALL_SHORT checks are off (R38, R45). -/
structure State.Ready (s : State) : Prop where
  live : s.h.live = true
  pfx : s.h.pfx = none
  latch : s.h.latch = none
  waits : ∀ va, s.h.waiting ≠ some (.failed va)
  pend : s.h.pend = []
  ops : s.h.ops = []
  vq : s.h.vq = []
  queueing : s.h.queueing = false
  moved : s.h.moved = []
  admitted : s.h.admitted = false
  strong : strongOut s.cur s = false
  schk : wbit s.h.csr.schk 0 = false

/-! What a completed word leaves. -/

/-- R310, R36: a word of so many bytes, with a stall count, has completed. -/
def Hart.past (h : Hart) (size stall : Nat) : Hart :=
  { h.leave with words := h.words + 1, pc := h.pc + BitVec.ofNat 64 size, clock := h.clock + 1 + stall }
def State.past (size stall : Nat) (s : State) : State := { s with h := s.h.past size stall }

/-- R315: a taken branch. -/
def Hart.jumped (h : Hart) (target : Word) : Hart :=
  { h.leave with words := h.words + 1, pc := target, clock := h.clock + 3 }
def State.jumped (target : Word) (s : State) : State := { s with h := s.h.jumped target }

/-- R319, R127: a word that has set the pc itself has completed. -/
def Hart.ended (h : Hart) : Hart := { h.leave with words := h.words + 1, clock := h.clock + 1 }

/-- R366, R284: the word in hand traps with no prefix live: the entry, or the control core's wait for its weight loader
(log 51). -/
def State.trapped (cause : Nat) (tval epc : Word) (s : State) : State := whenEntered (takeTrap cause false false tval epc none) s

/-- R25, R378: a word of four bytes, other than a vector word, of a ready hart in state `s` has issued and waits, having done `t`: it
keeps the registers and predicates as it read them, unless it is held at issue. `settled` is that of a word that settles on entry
to the vector queue (R368): its stall count, and whether it counts as a vector word. -/
def State.waits (s : State) (i : Instr) (w : Wait) (t : State) (settled : Option (Nat × Bool) := none) : State :=
  { t with h := { t.h with
    waiting := some w, clock := t.h.clock + 1, given := []
    latch := if t.h.given = [] ∧ (w = .register ∨ w = .tuple ∨ w = .engine) then none
      else some ⟨bytesOf 4 i.word, s.h.s, s.h.shadow, s.h.p, t.h.given, w != .stop, s.h.vstart, settled⟩ } }

/-- R372: a vector word of four bytes has completed. -/
def State.pastVector (s : State) : State := { s with h := { s.h.past 4 0 with vcount := s.h.vcount + 1 } }

/-- A hart of its own, with all 32 rows (R158), ready. -/
structure State.Solo (s : State) : Prop extends s.Ready where
  solo : s.h.role = .solo
/-- R201, R191, R182: a vector word's destination rows, residuals and flags are in place; VSTART is 0. Each row comes with its
flags and its residual. -/
def State.rowsPut (v : VType) (d : BitVec 5) (out : List (Wide × Nat × Nat)) (s : State) : State :=
  let s1 := { s with h := { s.h with
    efc := out.zipIdx.foldl (fun e (x, r) => e.setIfInBounds r (BitVec.ofNat 32 x.2.2)) s.h.efc } }
  let s2 := writeGroup (s.h.maxIn v) ⟨d.toNat, v.rows⟩ (out.map (·.1)) s1
  { s2 with h := { s2.h.raiseFlags (orFlags (out.map (·.2.1))) with vstart := 0 } }
/-- R204: how a word reads element i of row r of the group named. -/
def State.elem (s : State) (v : VType) (asStored : Bool) (name : Nat) (r i : Nat) : Nat × Nat :=
  srcElem v asStored (rowAt (sourceRows s ⟨name, v.rows⟩) r) i
/-- R202, R205: the tag of destination row r of a word that keeps LEVELS, or of one that does not. -/
def State.tagOf (s : State) (v : VType) (kept : Option Nat) (first : Nat) (r : Nat) : BitVec 6 :=
  match kept with
  | some l => haarTag l (tagThr (rowAt (sourceRows s ⟨first, v.rows⟩) r).tag)
  | none => 0
/-- R201: the destination rows of an element-wise word with this operation. -/
def State.rowsOf (s : State) (v : VType) (o : VArgs) (n : Nat) (start : Nat) (act : Nat → Nat → Bool) (tags : Nat → BitVec 6)
    (op : Nat → Nat → Nat → Option Elem) : List (Wide × Nat × Nat) :=
  Loop.rows ⟨v, n, s.h.maxIn v, start, act⟩ op tags (groupRows s ⟨o.d.toNat, v.rows⟩) fun r => (s.h.efc[r]?.getD 0).toNat

/-- R215: a k destination takes the bits of a loop; flags are raised and VSTART is 0. -/
def State.maskPut (w : Loop) (d : Nat) (f : Nat → Nat → Bool × Nat) (s : State) : State :=
  let out := (List.range w.v.rows).map fun r => w.krow f r (s.h.krow d r)
  { s with h := { (s.h.setK d (out.map (·.1))).raiseFlags (orFlags (out.map (·.2))) with vstart := 0 } }
/-- R201: the loop of a word that may stop part-way. -/
def State.loopOf (s : State) (v : VType) (mask : BitVec 3) (neg : Bool) : Loop :=
  ⟨v, s.h.vlIn v, s.h.maxIn v, s.h.vstart, s.h.act mask neg⟩

/-- R51, R36, R182: sD takes a value after a latency, with the flags that come with it; LASTD is d at once. `locked` says that
consumers wait for it (R37). -/
def Hart.wrote (h : Hart) (d : BitVec 5) (v : Word) (lat flags : Nat) (locked : Bool) : Hart :=
  if lat ≤ 1 then (({ h with lastd := d } : Hart).setReg d.toNat v).raiseFlags flags
  else { h with
    lastd := d
    pend := [{ reg := if d = 0 then none else some (.s d.toNat), value := v, ready := h.clock + lat, flags := flags
               shadow := h.inHandler, locked := locked }] }
def State.wrote (d : BitVec 5) (v : Word) (lat flags : Nat) (s : State) (locked : Bool := false) : State :=
  { s with h := s.h.wrote d v lat flags locked }

/-- R307, R308: predicates take values after a latency. -/
def Hart.wrotePreds (h : Hart) (ps : List (BitVec 3 × Bool)) (lat flags : Nat) : Hart :=
  if lat ≤ 1 then (ps.foldl (fun h e => h.setPred e.1.toNat e.2) h).raiseFlags flags
  else { h with pend := (ps.map fun e =>
      ({ reg := if e.1 = (7 : BitVec 3) then none else some (.p e.1.toNat), value := if e.2 then 1 else 0, ready := h.clock + lat
         flags := 0 } : Pending)) ++ [{ reg := none, value := 0, ready := h.clock + lat, flags := flags }] }
def State.wrotePreds (ps : List (BitVec 3 × Bool)) (lat flags : Nat) (s : State) : State :=
  { s with h := s.h.wrotePreds ps lat flags }

/-- The current hart of `t` is that of `s`, but for links that evictions or its own writes have broken (R88, R138). -/
def State.keepsHart (s t : State) : Prop := t.h = { s.h with link := t.h.link, vlink := t.h.vlink }
/-- R277: no copy of the hart's into the weight buffer is due. -/
def State.loaded (s : State) : Prop := s.h.role = .control → loadsDue (clusterOf s (coordCluster s.cur)) = false
/-- R72, R80, R112: n bytes at va are an ordinary access, within one page, of a machine-mode hart that holds no store back:
no device page, and no channel of the core covers them. -/
structure State.Plain (s : State) (va n : Nat) : Prop where
  machine : s.h.mode = .machine
  some : 0 < n
  page : va % 65536 + n ≤ 65536
  kind : untranslatedType va = 0
  free : blockingChannels s va n = []
  empty : s.h.strip.buf = []
  loaded : s.loaded
/-- The request of a machine-mode hart. -/
def State.ctx (s : State) : Ctx := ctxOf s.cur .machine 0 false
/-- The access of a machine-mode hart at an address. -/
def State.access (va : Nat) : Access := ⟨va, va, 0, false, false, none⟩

/-! An access through a successful walk (R72 to R79). -/

/-- R75, R78: where a 64 KB page's leaf puts a virtual address. -/
def pageAddr (e : Word) (va : Nat) : Nat := ptePa e * 65536 + va % 65536
/-- R77: a leaf's right to read or to write, in a mode other than machine mode. -/
def pageRight (e : Word) (mode : Mode) (write : Bool) : Bool :=
  wbit e (if mode = .user then (if write then 11 else 12) else (if write then 8 else 9))
/-- R74 to R79: no TLB serves a hart's access of n bytes at `va`, and the walk's reads are answered with two pointers and the
leaf `e` of an ordinary page in HBM that grants the access; the walk, with the leaf's byte marked, has done `t`. -/
structure State.Walks (s : State) (va n : Nat) (write : Bool) (e : Word) (t : State) : Prop where
  mode : s.h.mode ≠ .machine
  canonical : canonical va = true
  some : 0 < n
  page : va % 65536 + n ≤ 65536
  given : s.h.given = []
  empty : s.h.strip.buf = []
  core : (coreOf s (coreIndex s.cur)).tlb.find? (fun x => x.serves (wbits s.h.csr.ptroot 7 0) (va % 2 ^ 55) write) = none
  cluster : (clusterOf s (coordCluster s.cur)).tlb.find? (fun x => x.serves (wbits s.h.csr.ptroot 7 0) (va % 2 ^ 55) write) = none
  walk : ∃ (e1 e2 : Word) (s1 s2 s3 : State),
    physRead {} (wbits s.h.csr.ptroot 63 28 * 65536 + bits va 54 42 * 8) 8 s = .ok (s1, bytesOf 8 e1.toNat, none) ∧
    physRead {} (ptePa e1 * 65536 + bits va 41 29 * 8) 8 s1 = .ok (s2, bytesOf 8 e2.toNat, none) ∧
    physRead {} (ptePa e2 * 65536 + bits va 28 16 * 8) 8 s2 = .ok (s3, bytesOf 8 e.toNat, none) ∧
    (∀ p ∈ [e1, e2], wbit p 0 = true ∧ pteRights p = 0 ∧ pointerBad p = false) ∧
    (if e ||| (if write then 6 else 2) = e then t = s3
      else physWrite {} (ptePa e2 * 65536 + bits va 28 16 * 8) (bytesOf 1 (e ||| (if write then 6 else 2)).toNat) s3 = .ok (t, none))
  leaf : wbit e 0 = true ∧ pteRights e ≠ 0 ∧ leafBad e 3 (va % 2 ^ 55) = false ∧ wbits e 6 4 = 0
  right : pageRight e s.h.mode write = true
  kind : wbits e 15 13 ≤ 1
  place : pageAddr e va < 0xF000000000
  loaded : t.loaded
  free : blockingChannels t va n = []
/-- R79, R82: the entry that such a walk makes, and the state in which the access performs: the TLBs hold the entry, and the
word keeps it. -/
def State.entryOf (s : State) (va : Nat) (write : Bool) (e : Word) : TlbEntry :=
  ⟨wbits s.h.csr.ptroot 7 0, va % 2 ^ 55 / 65536 * 65536, 65536, e ||| (if write then 6 else 2)⟩
def State.walked (s : State) (va : Nat) (write : Bool) (e : Word) (t : State) : State :=
  let u := keepEntry s.cur (s.entryOf va write e) t
  { u with h := { u.h with given := [s.entryOf va write e] } }

/-- R374: stores enter a hart's strip buffer in order: addresses, bytes and masks. -/
def Hart.bufferAll (h : Hart) (cls : Option Nat) (ws : List (Nat × List Byte × List Byte)) : Hart :=
  { h with strip := { h.strip with
    buf := h.strip.buf ++ ws.zipIdx.map fun (w, j) => ⟨h.strip.nextSeq + j, State.access w.1, w.2.1, cls, w.2.2, h.words⟩
    nextSeq := h.strip.nextSeq + ws.length
    firstStore := if ws.isEmpty then h.strip.firstStore else some (h.strip.firstStore.getD h.clock) } }
/-- R128, R140, R370: write requests of a machine-mode hart made in order, each accepted: addresses, bytes and the bits written
(none listed: whole bytes). One that a migration or a link holds keeps its word's place. -/
def State.putNow : List (Nat × List Byte × List Byte) → State → Option State
  | [], s => some s
  | (pa, bs, mask) :: ws, s =>
    match writeMasked s.ctx pa bs mask s with
    | .ok (s1, none) => State.putNow ws (stampAccess s.dev.heldWrites.length (State.access pa) s.h.words none s1)
    | _ => none
/-- No pin of the current hart is held (R81). -/
def State.unpinned (s : State) : Prop := (coreOf s (coreIndex s.cur)).pins = []

/-- R30: an R-format or C-format word's own guard holds. -/
def State.guarded (s : State) (g : BitVec 3) (neg : Bool) : Prop := s.h.pred g.toNat = !neg

end Sys2Proof.Machine
end

