-- ==== Sys2Proof/Certificates/Slice0/Obligations.lean ====
section
/-! DEFINITION. The statements of this model, from the numbered rules of spec/. A statement about a word of a hart speaks of
one that is ready (`State.Ready`): what it answers then is given whole, so that it is the word's frame as well. -/

open Sys2Proof Sys2Proof.Machine

/-- R302, R303 with R36, R51 and R315: the words of majors 0x00 to 0x02, each with its result and its latency; a division's
follows the k significant bits of its dividend's magnitude, and its consumers wait (R37). The next state is the whole frame: a
register the word does not name, every flag, every special register and every byte of memory stay. A count is stated by what it
counts. -/
def Obligations.IntegerWordsCompute : Prop :=
  (∀ e ∈ ([(Instr.add, fun a b => a + b, 1), (.sub, fun a b => a - b, 1), (.and, fun a b => a &&& b, 1),
      (.or, fun a b => a ||| b, 1), (.xor, fun a b => a ^^^ b, 1), (.andn, fun a b => a &&& ~~~b, 1),
      (.shl, fun a b => a <<< (b.toNat % 64), 1), (.shr, fun a b => a >>> (b.toNat % 64), 1),
      (.sra, fun a b => a.sshiftRight (b.toNat % 64), 1), (.rotl, fun a b => a.rotateLeft (b.toNat % 64), 1),
      (.min, fun a b => if a.toInt < b.toInt then a else b, 1), (.max, fun a b => if a.toInt < b.toInt then b else a, 1),
      (.minn, fun a b => if a.toNat < b.toNat then a else b, 1), (.maxn, fun a b => if a.toNat < b.toNat then b else a, 1),
      (.mul, fun a b => a * b, 3), (.mulh, fun a b => BitVec.ofInt 64 (a.toInt * b.toInt / 2 ^ 64), 3),
      (.mulhn, fun a b => BitVec.ofNat 64 (a.toNat * b.toNat / 2 ^ 64), 3)] :
      List ((RArgs → Instr) × (Word → Word → Word) × Nat)),
    ∀ (o : RArgs) (s : State), s.Ready → s.guarded o.guard o.neg →
      exec (e.1 o) s =
        .next ((s.wrote o.d (e.2.1 (s.h.reg o.a.toNat) (s.h.reg o.b.toNat)) e.2.2 0).past 4 o.stall.toNat)) ∧
  (∀ e ∈ ([(Instr.div, fun a b => if b = 0 then BitVec.allOnes 64 else BitVec.ofInt 64 (a.toInt.tdiv b.toInt),
        fun a => a.toInt.natAbs),
      (.divn, fun a b => if b = 0 then BitVec.allOnes 64 else BitVec.ofNat 64 (a.toNat / b.toNat), fun a => a.toNat),
      (.rem, fun a b => if b = 0 then a else BitVec.ofInt 64 (a.toInt.tmod b.toInt), fun a => a.toInt.natAbs),
      (.remn, fun a b => if b = 0 then a else BitVec.ofNat 64 (a.toNat % b.toNat), fun a => a.toNat)] :
      List ((RArgs → Instr) × (Word → Word → Word) × (Word → Nat))),
    ∀ (o : RArgs) (s : State), s.Ready → s.guarded o.guard o.neg →
      let mag := e.2.2 (s.h.reg o.a.toNat)
      ∃ k, mag < 2 ^ k ∧ (0 < k → 2 ^ (k - 1) ≤ mag) ∧
        exec (e.1 o) s = .next ((s.wrote o.d (e.2.1 (s.h.reg o.a.toNat) (s.h.reg o.b.toNat)) (4 + (k + 3) / 4) 0 true).past 4
          o.stall.toNat)) ∧
  (∀ e ∈ ([(Instr.sextb, fun a => (a.setWidth 8).signExtend 64), (.sexth, fun a => (a.setWidth 16).signExtend 64),
      (.sextw, fun a => (a.setWidth 32).signExtend 64), (.zextb, fun a => a &&& 0xFF), (.zexth, fun a => a &&& 0xFFFF),
      (.zextw, fun a => a &&& 0xFFFFFFFF)] : List ((RArgs → Instr) × (Word → Word))),
    ∀ (o : RArgs) (s : State), s.Ready → s.guarded o.guard o.neg →
      exec (e.1 o) s = .next ((s.wrote o.d (e.2 (s.h.reg o.a.toNat)) 1 0).past 4 o.stall.toNat)) ∧
  ∀ (o : RArgs) (s : State), s.Ready → s.guarded o.guard o.neg →
    (∃ n ≤ 64, exec (.clz o) s = .next ((s.wrote o.d (BitVec.ofNat 64 n) 1 0).past 4 o.stall.toNat) ∧
      (∀ i < n, (s.h.reg o.a.toNat).getLsbD (63 - i) = false) ∧ (n < 64 → (s.h.reg o.a.toNat).getLsbD (63 - n) = true)) ∧
    (∃ n ≤ 64, exec (.ctz o) s = .next ((s.wrote o.d (BitVec.ofNat 64 n) 1 0).past 4 o.stall.toNat) ∧
      (∀ i < n, (s.h.reg o.a.toNat).getLsbD i = false) ∧ (n < 64 → (s.h.reg o.a.toNat).getLsbD n = true)) ∧
    exec (.popc o) s = .next ((s.wrote o.d
      (BitVec.ofNat 64 ((List.range 64).countP fun i => (s.h.reg o.a.toNat).getLsbD i)) 1 0).past 4 o.stall.toNat)

/-- R303, and its worked example: −7 by 2. -/
def Obligations.DivisionEdgeCases : Prop :=
  ∀ (o : RArgs) (s : State), s.Ready → s.guarded o.guard o.neg →
    let gives := fun (i : Instr) (v : Word) => ∃ lat, exec i s = .next ((s.wrote o.d v lat 0 true).past 4 o.stall.toNat)
    (∀ e ∈ ([Instr.div, .divn, .rem, .remn] : List (RArgs → Instr)), ∃ v, gives (e o) v) ∧
    (s.h.reg o.b.toNat = 0 →
      gives (.div o) 0xFFFFFFFFFFFFFFFF ∧ gives (.rem o) (s.h.reg o.a.toNat) ∧
      gives (.divn o) 0xFFFFFFFFFFFFFFFF ∧ gives (.remn o) (s.h.reg o.a.toNat)) ∧
    (s.h.reg o.a.toNat = 0x8000000000000000 → s.h.reg o.b.toNat = 0xFFFFFFFFFFFFFFFF →
      gives (.div o) 0x8000000000000000 ∧ gives (.rem o) 0) ∧
    (s.h.reg o.a.toNat = -7 → s.h.reg o.b.toNat = 2 → gives (.div o) (-3) ∧ gives (.rem o) (-1))

/-- R304 to R306, R52, R323. How an operand is written in a listing is no part of the machine. -/
def Obligations.ImmediateWordsCompute : Prop :=
  (∀ e ∈ ([(Instr.addi, fun a i => a + i.signExtend 64), (.andi, fun a i => a &&& i.signExtend 64),
      (.ori, fun a i => a ||| i.signExtend 64), (.xori, fun a i => a ^^^ i.signExtend 64),
      (.shli, fun a i => a <<< i.toNat), (.shri, fun a i => a >>> i.toNat), (.srai, fun a i => a.sshiftRight i.toNat)] :
      List ((IArgs → Instr) × (Word → BitVec 12 → Word))),
    ∀ (o : IArgs) (s : State), s.Ready → (e.1 o).wf = true →
      exec (e.1 o) s = .next ((s.wrote o.d (e.2 (s.h.reg o.a.toNat) o.imm) 1 0).past 4 0)) ∧
  ((∀ (o : UArgs) (s : State), s.Ready →
    exec (.lih o) s = .next ((s.wrote o.d (((o.imm.setWidth 32) <<< 12).signExtend 64) 1 0).past 4 0) ∧
    exec (.addpc o) s = .next ((s.wrote o.d (s.h.pc + ((o.imm.setWidth 32) <<< 12).signExtend 64) 1 0).past 4 0)) ∧
  Instr.word (.addpc ⟨10, 1⟩) = 0x0000150B) ∧
  (∀ e ∈ ([(Instr.cAdd, fun a b => a + b), (.cSub, fun a b => a - b), (.cAnd, fun a b => a &&& b),
      (.cOr, fun a b => a ||| b), (.cXor, fun a b => a ^^^ b), (.cShl, fun a b => a <<< (b.toNat % 64)),
      (.cShr, fun a b => a >>> (b.toNat % 64))] : List ((KArgs → Instr) × (Word → Word → Word))),
    ∀ (o : KArgs) (s : State), s.Ready →
      exec (e.1 o) s = .next ((s.wrote o.a (e.2 (s.h.reg s.h.lastd.toNat) (s.h.reg o.b.toNat)) 1 0).past 2 0)) ∧
  ∀ (o : KArgs) (s : State), s.Ready →
    exec (.cAddi o) s = .next ((s.wrote o.a (s.h.reg s.h.lastd.toNat + o.b.signExtend 64) 1 0).past 2 0) ∧
    exec (.cMov o) s = .next ((s.wrote o.a (s.h.reg o.b.toNat) 1 0).past 2 0) ∧
    exec (.cNop o) s = .next (s.past 2 0)

/-- R307, R309. p7 discards (R30): that is `wrotePreds`, whose writes go through `Hart.setPred`. -/
def Obligations.PredicateWordsCompute : Prop :=
  (∀ (o : CArgs) (s : State) (c : Word → Word → Bool), s.Ready → s.guarded o.guard o.neg →
    (o.cond, c) ∈ ([(0, fun a b => a == b), (1, fun a b => a != b), (2, fun a b => decide (a.toInt < b.toInt)),
        (3, fun a b => decide (b.toInt ≤ a.toInt)), (4, fun a b => decide (a.toNat < b.toNat)),
        (5, fun a b => decide (b.toNat ≤ a.toNat)), (6, fun a b => decide (a.toInt ≤ b.toInt)),
        (7, fun a b => decide (b.toInt < a.toInt)), (8, fun a b => decide (a.toNat ≤ b.toNat)),
        (9, fun a b => decide (b.toNat < a.toNat)), (10, fun a b => a &&& b != 0), (11, fun a b => a &&& b == 0)] :
        List (BitVec 4 × (Word → Word → Bool))) →
    (let r := c (s.h.reg o.a.toNat) (s.h.reg o.b.toNat)
     exec (.cmp o) s = .next ((s.wrotePreds [(o.d1, r), (o.d2, !r)] 1 0).past 4 0)) ∧
    (let r := c (s.h.reg o.a.toNat) (if o.cond.toNat < 10 then o.b.signExtend 64 else 1 <<< o.b.toNat)
     exec (.cmpImm o) s = .next ((s.wrotePreds [(o.d1, r), (o.d2, !r)] 1 0).past 4 0))) ∧
  (∀ e ∈ ([(Instr.pand, fun a b => a && b), (.por, fun a b => a || b), (.pxor, fun a b => xor a b),
      (.pandn, fun a b => a && !b), (.pmov, fun a _ => a), (.pnot, fun a _ => !a)] :
      List ((RArgs → Instr) × (Bool → Bool → Bool))),
    ∀ (o : RArgs) (s : State), s.Ready → s.guarded o.guard o.neg → (e.1 o).wf = true →
      exec (e.1 o) s = .next ((s.wrotePreds [(o.d.setWidth 3, e.2 (s.h.pred o.a.toNat) (s.h.pred o.b.toNat))] 1 0).past 4
        o.stall.toNat))

/-- R310, R312, R313, R323. -/
def Obligations.BranchesTransferControl : Prop :=
  (∀ (o : JArgs) (s : State), s.Ready →
    exec (.bp o) s = .next (if s.h.pred o.pred.toNat != o.neg
      then s.jumped ((s.h.pc &&& ~~~3) + 4 * o.off.signExtend 64) else s.past 4 0) ∧
    exec (.call o) s = .next (if s.h.pred o.pred.toNat != o.neg
      then (s.wrote 1 ((s.h.pc + 7) &&& ~~~3) 1 0).jumped ((s.h.pc &&& ~~~3) + 4 * o.off.signExtend 64)
      else s.past 4 0)) ∧
  (∀ (o : KArgs) (s : State), s.Ready →
    exec (.cBnz o) s = .next (if s.h.reg o.a.toNat ≠ 0
      then s.jumped ((s.h.pc &&& ~~~3) + 4 * o.b.signExtend 64) else s.past 2 0)) ∧
  (∀ (o : IArgs) (s : State), s.Ready →
    let target := s.h.reg o.a.toNat + o.imm.signExtend 64
    exec (.callr o) s = .next (if target.toNat % 4 = 0
      then (s.wrote o.d ((s.h.pc + 7) &&& ~~~3) 1 0).jumped target
      else State.trapped cAlign target s.h.pc s))

/-- R316, R317, R308: the words of majors 0x10 and 0x11 with their operation on the values of s[a], s[b] and s[d] (R190),
rounded once; readable after four cycles, but for FDIV and FSQRT, whose consumers wait (R37, R315). -/
def Obligations.ScalarFloatComputes : Prop :=
  (∀ e ∈ ([(Instr.fadd, fp32, fun r a b _ => addVal r.down a b, 4, false), (.fsub, fp32, fun r a b _ => addVal r.down a b.negate, 4, false),
      (.fmul, fp32, fun _ a b _ => mulVal a b, 4, false), (.fdiv, fp32, fun _ a b _ => divVal a b, 12, true),
      (.fsqrt, fp32, fun _ a _ _ => sqrtVal a, 12, true), (.fma, fp32, fun r a b d => fmaVal r.down a b d, 4, false),
      (.fnma, fp32, fun r a b d => fmaVal r.down a.negate b d, 4, false),
      (.faddD, fp64, fun r a b _ => addVal r.down a b, 4, false), (.fsubD, fp64, fun r a b _ => addVal r.down a b.negate, 4, false),
      (.fmulD, fp64, fun _ a b _ => mulVal a b, 4, false), (.fdivD, fp64, fun _ a b _ => divVal a b, 20, true),
      (.fsqrtD, fp64, fun _ a _ _ => sqrtVal a, 22, true), (.fmaD, fp64, fun r a b d => fmaVal r.down a b d, 4, false),
      (.fnmaD, fp64, fun r a b d => fmaVal r.down a.negate b d, 4, false)] :
      List ((RArgs → Instr) × Fmt × (Rnd → Val → Val → Val → Val × Nat) × Nat × Bool)),
    ∀ (o : RArgs) (s : State), s.Ready → s.guarded o.guard o.neg →
      let v := fun (r : BitVec 5) => val e.2.1 (s.h.reg r.toNat).toNat
      let y := roundWith e.2.1 s.h.rm (e.2.2.1 s.h.rm (v o.a) (v o.b) (v o.d))
      exec (e.1 o) s = .next ((s.wrote o.d (word y.1) e.2.2.2.1 y.2 e.2.2.2.2).past 4 o.stall.toNat)) ∧
  (∀ e ∈ ([(Instr.fmin, fp32, false), (.fmax, fp32, true), (.fminD, fp64, false), (.fmaxD, fp64, true)] :
      List ((RArgs → Instr) × Fmt × Bool)),
    ∀ (o : RArgs) (s : State), s.Ready → s.guarded o.guard o.neg →
      let v := fun (r : BitVec 5) => (s.h.reg r.toNat).toNat % 2 ^ e.2.1.width
      let y := minMax e.2.1 e.2.2 (v o.a) (v o.b)
      exec (e.1 o) s = .next ((s.wrote o.d (word y.1) 4 y.2).past 4 o.stall.toNat)) ∧
  (∀ e ∈ ([(Instr.fcvti, fun n r a => toInteger fp32 n r a), (.fcvtf, fun n r a => fromInteger fp32 n r a),
      (.fcvtp, fun n r a => betweenFloats fp32 fp64 n r a), (.fcvtiD, fun n r a => toInteger fp64 n r a),
      (.fcvtfD, fun n r a => fromInteger fp64 n r a), (.fcvtpD, fun n r a => betweenFloats fp64 fp32 n r a)] :
      List ((RArgs → Instr) × (Nat → Rnd → Nat → Nat × Nat))),
    ∀ (o : RArgs) (s : State), s.Ready → s.guarded o.guard o.neg →
      let y := e.2 o.b.toNat s.h.rm (s.h.reg o.a.toNat).toNat
      exec (e.1 o) s = .next ((s.wrote o.d (word y.1) 4 y.2).past 4 o.stall.toNat)) ∧
  ∀ e ∈ ([(Instr.fcmp, fp32), (.fcmpD, fp64)] : List ((CArgs → Instr) × Fmt)),
    ∀ (o : CArgs) (s : State), s.Ready → s.guarded o.guard o.neg →
      let y := floatCompare o.cond.toNat (val e.2 (s.h.reg o.a.toNat).toNat) (val e.2 (s.h.reg o.b.toNat).toNat)
      exec (e.1 o) s = .next ((s.wrotePreds [(o.d1, y.1), (o.d2, !y.1)] 4 y.2).past 4 0)

/-- R31: a word of every R-format and C-format family of the scalar hart. R45 to R48: there the hart is ready but for the live
prefix. -/
def Obligations.GuardsAndPrefixes : Prop :=
  ((∀ e ∈ ([Instr.add, .sub, .and, .or, .xor, .andn, .shl, .shr, .sra, .rotl, .min, .max, .minn, .maxn, .mul, .mulh, .mulhn,
      .div, .divn, .rem, .remn, .clz, .ctz, .popc, .sextb, .sexth, .sextw, .zextb, .zexth, .zextw, .pand, .por, .pxor,
      .pandn, .pmov, .pnot, .fadd, .fsub, .fmul, .fdiv, .fsqrt, .fmin, .fmax, .fma, .fnma, .fcvti, .fcvtf, .fcvtp,
      .faddD, .fsubD, .fmulD, .fdivD, .fsqrtD, .fminD, .fmaxD, .fmaD, .fnmaD, .fcvtiD, .fcvtfD, .fcvtpD,
      .svc, .trap, .uiret, .idle, .nop, .brk] : List (RArgs → Instr)),
    ∀ (o : RArgs) (s : State), s.Ready → ¬s.guarded o.guard o.neg → exec (e o) s = .next (s.past 4 o.stall.toNat)) ∧
  ∀ e ∈ ([Instr.cmp, .cmpImm, .fcmp, .fcmpD] : List (CArgs → Instr)),
    ∀ (o : CArgs) (s : State), s.Ready → ¬s.guarded o.guard o.neg → exec (e o) s = .next (s.past 4 0)) ∧
  (∀ (o : PArgs) (s : State), s.Ready →
    exec (.pfx o) s = .next { s with h := { s.h.past 4 0 with
      pfx := some ⟨o.isK, o.neg, o.guard.toNat, none, Instr.word (.pfx o), s.h.pc⟩ } } ∧
    exec (.pfxCopy o) s = .next { s with h := { s.h.past 4 0 with
      pfx := some ⟨o.isK, o.neg, o.guard.toNat, some o.copy.toNat, Instr.word (.pfxCopy o), s.h.pc⟩ } }) ∧
  ∀ (s : State) (g : BitVec 3) (neg : Bool) (c : BitVec 5) (w : Nat) (at' : Word),
    State.Ready { s with h := { s.h with pfx := none } } → s.h.pfx = some ⟨false, neg, g.toNat, some c.toNat, w, at'⟩ →
    (∀ e ∈ ([(Instr.add, fun a b => a + b), (.sub, fun a b => a - b), (.and, fun a b => a &&& b), (.or, fun a b => a ||| b),
        (.xor, fun a b => a ^^^ b)] : List ((RArgs → Instr) × (Word → Word → Word))), ∀ o : RArgs,
      (s.guarded o.guard o.neg → s.guarded g neg →
        exec (e.1 o) s = .next (State.past 4 o.stall.toNat { s with h :=
          ((({ s.h with lastd := o.d, pfx := none } : Hart).setReg o.d.toNat
            (e.2 (s.h.reg o.a.toNat) (s.h.reg o.b.toNat))).setReg c.toNat
            (e.2 (s.h.reg o.a.toNat) (s.h.reg o.b.toNat))).raiseFlags 0 })) ∧
      (¬(s.guarded o.guard o.neg ∧ s.guarded g neg) →
        exec (e.1 o) s = .next (State.past 4 o.stall.toNat { s with h := { s.h with pfx := none } }))) ∧
    ∀ o : BArgs, exec (.b o) s = .next (State.trapped 0x02 (BitVec.ofNat 64 (Instr.word (.b o))) at' s)

/-- R311: where a taken branch goes is R310's, and what it costs is R315's: `State.jumped`. -/
def Obligations.ConditionalBranches : Prop :=
  (∀ (o : BArgs) (s : State) (c : Word → Word → Bool), s.Ready →
    (o.cond, c) ∈ ([(0, fun a b => a == b), (1, fun a b => a != b), (2, fun a b => decide (a.toInt < b.toInt)),
        (3, fun a b => decide (b.toInt ≤ a.toInt)), (4, fun a b => decide (a.toNat < b.toNat)),
        (5, fun a b => decide (b.toNat ≤ a.toNat))] : List (BitVec 3 × (Word → Word → Bool))) →
    exec (.b o) s = .next (if c (s.h.reg o.a.toNat) (s.h.reg o.b.toNat)
      then s.jumped ((s.h.pc &&& ~~~3) + 4 * o.off.signExtend 64) else s.past 4 0)) ∧
  Instr.word (.b ⟨2, 0, 0, 15⟩) = 0x00F00113

/-- R135, R42, R323: in machine mode the access is `State.Plain`; what it reads is what the read request of R69 to R71 is answered.
R72 to R79: `State.Walks` is a walk that succeeds, `State.walked` what it leaves. -/
def Obligations.ScalarLoadsRead : Prop :=
  (∀ e ∈ ([(Instr.ldb, 1, fun bs => (BitVec.ofNat 8 (natOfBytes bs)).signExtend 64),
      (.ldh, 2, fun bs => (BitVec.ofNat 16 (natOfBytes bs)).signExtend 64),
      (.ldw, 4, fun bs => (BitVec.ofNat 32 (natOfBytes bs)).signExtend 64),
      (.ldd, 8, fun bs => BitVec.ofNat 64 (natOfBytes bs)), (.ldbn, 1, fun bs => BitVec.ofNat 64 (natOfBytes bs)),
      (.ldhn, 2, fun bs => BitVec.ofNat 64 (natOfBytes bs)), (.ldwn, 4, fun bs => BitVec.ofNat 64 (natOfBytes bs))] :
      List ((LArgs → Instr) × Nat × (List Byte → Word))),
    ∀ (o : LArgs) (s s1 : State) (bs : List Byte), s.Ready → s.h.role ≠ .computer → o.ctr = 7 →
      let va := (s.h.reg o.a.toNat + BitVec.ofNat 64 (o.imm.toNat * e.2.1)).toNat
      (s.Plain va e.2.1 → physRead s.ctx va e.2.1 s = .ok (s1, bs, none) →
        s1.h = { s.h with link := s1.h.link, vlink := s1.h.vlink } ∧
          exec (e.1 o) s = .next ((s1.wrote o.d (e.2.2 bs) 1 0).past 4 0)) ∧
      ∀ (leaf : Word) (t : State), s.Walks va e.2.1 false leaf t →
        physRead (ctxOf s.cur s.h.mode (wbits leaf 27 16) (wbit leaf 3)) (pageAddr leaf va) e.2.1 (s.walked va false leaf t) =
          .ok (s1, bs, none) →
        exec (e.1 o) s = .next ((s1.wrote o.d (e.2.2 bs) 1 0).past 4 0)) ∧
  ∀ (o : KArgs) (s s1 : State) (bs : List Byte), s.Ready → s.h.role ≠ .computer →
    let va := (s.h.reg s.h.lastd.toNat + BitVec.ofNat 64 (8 * o.b.toNat)).toNat
    s.Plain va 8 → physRead s.ctx va 8 s = .ok (s1, bs, none) →
    s1.h = { s.h with link := s1.h.link, vlink := s1.h.vlink } ∧
      exec (.cLdd o) s = .next ((s1.wrote o.a (BitVec.ofNat 64 (natOfBytes bs)) 1 0).past 2 0)

/-- R40, R43: the destination keeps its value until the operation completes, by when the load performs (R324, log 35). -/
def Obligations.CountedLoadsIssue : Prop :=
  ∀ e ∈ ([(Instr.ldb, 1, false, fun bs => (BitVec.ofNat 8 (natOfBytes bs)).signExtend 64),
      (.ldh, 2, false, fun bs => (BitVec.ofNat 16 (natOfBytes bs)).signExtend 64),
      (.ldw, 4, false, fun bs => (BitVec.ofNat 32 (natOfBytes bs)).signExtend 64),
      (.ldd, 8, true, fun bs => BitVec.ofNat 64 (natOfBytes bs)), (.ldbn, 1, true, fun bs => BitVec.ofNat 64 (natOfBytes bs)),
      (.ldhn, 2, true, fun bs => BitVec.ofNat 64 (natOfBytes bs)),
      (.ldwn, 4, true, fun bs => BitVec.ofNat 64 (natOfBytes bs))] :
      List ((LArgs → Instr) × Nat × Bool × (List Byte → Word))),
    ∀ (o : LArgs) (s s1 : State) (bs : List Byte), s.Ready → s.h.role ≠ .computer → o.ctr.toNat < 6 →
      (s.h.deps[o.ctr.toNat]?.getD 0) < 63 →
      let va := (s.h.reg o.a.toNat + BitVec.ofNat 64 (o.imm.toNat * e.2.1)).toNat
      s.Plain va e.2.1 → physRead s.ctx va e.2.1 s = .ok (s1, bs, none) →
      let v := e.2.2.2 bs
      exec (e.1 o) s = .next (State.past 4 0 { s1 with h := { s1.h with
        ops := [{ kind := .load [(State.access va, e.2.1)] e.2.2.1 o.cls.toNat, counter := o.ctr.toNat
                  dest := some o.d.toNat, copy := none, first := some v, flit := peerFlit [(State.access va, e.2.1)] s
                  shadow := s.h.inHandler, order := s.h.words }]
        deps := s.h.deps.setIfInBounds o.ctr.toNat ((s.h.deps[o.ctr.toNat]?.getD 0) + 1)
        lastd := o.d } }) ∧
      s1.h = { s.h with link := s1.h.link, vlink := s1.h.vlink }

/-- R135, R374. The bytes perform later: `BufferedStoresPerform`. R72 to R79: `State.Walks` is a walk that succeeds,
`State.walked` what it leaves. -/
def Obligations.ScalarStoresBuffer : Prop :=
  (∀ e ∈ ([(Instr.stb, 1), (.sth, 2), (.stw, 4), (.std, 8)] : List ((LArgs → Instr) × Nat)),
    ∀ (o : LArgs) (s : State), s.Ready → s.h.role ≠ .computer →
      let va := (s.h.reg o.a.toNat + BitVec.ofNat 64 (o.imm.toNat * e.2)).toNat
      (s.Plain va e.2 →
      let buffered : Hart := { s.h with strip := { s.h.strip with
        buf := [⟨s.h.strip.nextSeq, State.access va, bytesOf e.2 (s.h.reg o.d.toNat).toNat, some o.cls.toNat, [], s.h.words⟩]
        nextSeq := s.h.strip.nextSeq + 1, firstStore := some (s.h.strip.firstStore.getD s.h.clock) } }
      (o.ctr = 7 → exec (e.1 o) s = .next (State.past 4 0 { s with h := buffered })) ∧
      (o.ctr.toNat < 6 → (s.h.deps[o.ctr.toNat]?.getD 0) < 63 →
        exec (e.1 o) s = .next (State.past 4 0 { s with h := { buffered with
          ops := [{ kind := .store s.h.strip.nextSeq, counter := o.ctr.toNat, dest := none, copy := none
                    shadow := s.h.inHandler, order := s.h.words }]
          deps := s.h.deps.setIfInBounds o.ctr.toNat ((s.h.deps[o.ctr.toNat]?.getD 0) + 1) } }))) ∧
      ∀ (leaf : Word) (t : State), o.ctr = 7 → s.Walks va e.2 true leaf t →
        let u := s.walked va true leaf t
        exec (e.1 o) s = .next (State.past 4 0 { u with h := { u.h with strip := { u.h.strip with
          buf := [⟨s.h.strip.nextSeq, ⟨va, pageAddr leaf va, wbits leaf 27 16, wbit leaf 3, s.h.mode == .user,
            some (wbits s.h.csr.ptroot 7 0, va % 2 ^ 55 / 65536 * 65536, 65536)⟩,
            bytesOf e.2 (s.h.reg o.d.toNat).toNat, some o.cls.toNat, [], s.h.words⟩]
          nextSeq := s.h.strip.nextSeq + 1, firstStore := some (s.h.strip.firstStore.getD s.h.clock) } } })) ∧
  ∀ (o : KArgs) (s : State), s.Ready → s.h.role ≠ .computer →
    let va := (s.h.reg s.h.lastd.toNat + BitVec.ofNat 64 (8 * o.b.toNat)).toNat
    s.Plain va 8 →
    exec (.cStd o) s = .next (State.past 2 0 { s with h := { s.h with strip := { s.h.strip with
      buf := [⟨s.h.strip.nextSeq, State.access va, bytesOf 8 (s.h.reg o.a.toNat).toNat, some 0, [], s.h.words⟩]
      nextSeq := s.h.strip.nextSeq + 1, firstStore := some (s.h.strip.firstStore.getD s.h.clock) } } })

/-- R374, R375: `earlyCommit` is what each event of R375 calls. The store lies within one sector, on a sector without a
flaw. -/
def Obligations.BufferedStoresPerform : Prop :=
  ∀ (s : State) (why seq core off order : Nat) (bs : List Byte) (cls : Option Nat),
    let pa := 0x100000000000 + coordCluster s.cur * 2 ^ 27 + core * 2 ^ 20 + off
    Memory.wf s.mem = true → core < 96 → off % 32 + bs.length ≤ 32 → off < 2 ^ 20 → bs ≠ [] →
    look (pa / 32 * 32) s.flaws = none →
    s.h.strip.buf = [⟨seq, State.access pa, bs, cls, [], order⟩] → s.h.ops = [] →
    let t := earlyCommit why s
    (∀ x, Memory.read t.mem x = if pa ≤ x ∧ x < pa + bs.length then bs.getD (x - pa) 0 else Memory.read s.mem x) ∧
    t.h.strip.buf = [] ∧ t.h.strip.early = true ∧ t.h.strip.why = why ∧ t.h.errs = s.h.errs ∧
    t.h.s = s.h.s ∧ t.h.p = s.h.p ∧ t.h.csr = s.h.csr ∧ t.h.pc = s.h.pc ∧ t.h.mode = s.h.mode ∧ t.h.rows = s.h.rows

/-- R4: consecutive bytes, lowest first; `Memory.wf` is the model's own canonical form (log 2). R53, R128, R88: where
`physRead` and `physWrite`, the hypotheses of the load and store statements, are met, and what they do. -/
def Obligations.PlainRequests : Prop :=
  (∀ (m : List Host.Cell) (a x : Nat) (bs : List Byte), Memory.wf m = true →
    Memory.wf (Memory.writeBytes a bs m) = true ∧
    Memory.read (Memory.writeBytes a bs m) x = if a ≤ x ∧ x < a + bs.length then bs.getD (x - a) 0 else Memory.read m x) ∧
  (∀ (s : State) (pa n : Nat), 0 < n → pa % 32 + n ≤ 32 → look (pa / 32 * 32) s.flaws = none →
    (∀ core off, core < 96 → off < 2 ^ 20 →
      pa = 0x100000000000 + coordCluster s.cur * 2 ^ 27 + core * 2 ^ 20 + off →
      physRead s.ctx pa n s = .ok (s, Memory.readBytes s.mem pa n, none)) ∧
    (pa < 0xF000000000 → cached s (lineOf pa) = true → s.dev.heldWrites = [] → (keyOf s 0).isSome = true →
      physRead s.ctx pa n s = .ok (s, Memory.readBytes s.mem pa n, none))) ∧
  ∀ (s : State) (core off : Nat) (bs : List Byte),
    let pa := 0x100000000000 + coordCluster s.cur * 2 ^ 27 + core * 2 ^ 20 + off
    Memory.wf s.mem = true → core < 96 → off < 2 ^ 20 → off % 32 + bs.length ≤ 32 → bs ≠ [] →
    look (pa / 32 * 32) s.flaws = none →
    ∃ t, physWrite s.ctx pa bs s = .ok (t, none) ∧ t.h = s.h ∧
      ∀ x, Memory.read t.mem x = if pa ≤ x ∧ x < pa + bs.length then bs.getD (x - pa) 0 else Memory.read s.mem x

/-- R136 to R138. A write that is made goes to the address computed, through `writePiece`'s merge into memory; one that a
migration or a link holds (R85, R397) is marked by `stampAccess`, which changes nothing else. -/
def Obligations.AcquireReleaseWords : Prop :=
  ∀ (o : AArgs) (s : State), s.Ready → s.h.role ≠ .computer →
    let va := (s.h.reg o.a.toNat).toNat
    let n := 2 ^ o.size.toNat
    s.Plain va n → va % n = 0 →
    (∀ s1 bs, physRead s.ctx va n s = .ok (s1, bs, none) →
      exec (.ldacq o) s = .next ((s1.wrote o.d (BitVec.ofNat 64 (natOfBytes bs)) 1 0).past 4 0) ∧
      exec (.ldl o) s = .next ((({ s1 with h := { s1.h with link := some (va / 128 * 128) } } : State).wrote o.d
        (BitVec.ofNat 64 (natOfBytes bs)) 1 0).past 4 0)) ∧
    (s.h.link ≠ some (va / 128 * 128) →
      exec (.stc o) s = .next ((({ earlyCommit 2 s with h := { (earlyCommit 2 s).h with link := none } } : State).wrote o.d 1
        1 0).past 4 0)) ∧
    ∀ s1, unstepped s = false →
      physWrite s.ctx va (bytesOf n (s.h.reg o.data.toNat).toNat) (earlyCommit 2 s) = .ok (s1, none) →
      let t := stampAccess s.dev.heldWrites.length (State.access va) s.h.words none s1
      exec (.strel o) s = .next (t.past 4 0) ∧
      (s.h.link = some (va / 128 * 128) →
        exec (.stc o) s = .next ((({ t with h := { t.h with link := none } } : State).wrote o.d 0 1 0).past 4 0))

/-- R366: the trap is taken before any register is written; `takeTrap` is stated by `TrapEntrySaves`. -/
def Obligations.AccessFaultsTrap : Prop :=
  (∀ e ∈ ([(Instr.ldb, 1, AccKind.read), (.ldh, 2, .read), (.ldw, 4, .read), (.ldd, 8, .read), (.ldbn, 1, .read),
      (.ldhn, 2, .read), (.ldwn, 4, .read), (.stb, 1, .write), (.sth, 2, .write), (.stw, 4, .write), (.std, 8, .write)] :
      List ((LArgs → Instr) × Nat × AccKind)),
    ∀ (o : LArgs) (s : State) (c : Nat), s.Ready → s.h.role ≠ .computer → o.ctr = 7 →
      let va := (s.h.reg o.a.toNat + BitVec.ofNat 64 (o.imm.toNat * e.2.1)).toNat
      va % e.2.1 = 0 →
      translateKept s.h.mode va e.2.2 s = .error (.cause c) → 4 < c →
      exec (e.1 o) s = .next (State.trapped c (BitVec.ofNat 64 va) s.h.pc s)) ∧
  (∀ e ∈ ([Instr.ldacq, .strel, .ldl, .stc] : List (AArgs → Instr)),
    ∀ (o : AArgs) (s : State), s.Ready → s.h.role ≠ .computer → s.h.mode = .machine →
      let va := (s.h.reg o.a.toNat).toNat
      va % 2 ^ o.size.toNat ≠ 0 →
      exec (e o) s = .next (State.trapped 0x16 (BitVec.ofNat 64 va) s.h.pc s)) ∧
  (∀ e ∈ ([Instr.ldb, .ldh, .ldw, .ldd, .ldbn, .ldhn, .ldwn, .stb, .sth, .stw, .std] : List (LArgs → Instr)),
    ∀ (o : LArgs) (s : State), s.Ready → s.h.role = .computer →
      exec (e o) s = .next (State.trapped 0x04 (BitVec.ofNat 64 (e o).word) s.h.pc s)) ∧
  ∀ e ∈ ([Instr.ldacq, .strel, .ldl, .stc] : List (AArgs → Instr)),
    ∀ (o : AArgs) (s : State), s.Ready → s.h.role = .computer →
      exec (e o) s = .next (State.trapped 0x04 (BitVec.ofNat 64 (e o).word) s.h.pc s)

/-- R366. `takeTrap` is what every trap of a word and every interrupt calls. -/
def Obligations.TrapEntrySaves : Prop :=
  ∀ (s : State) (cause : Nat) (int imp : Bool) (tval epc : Word) (pfxs : Option Nat),
    s.h.role ≠ .control → s.h.strip.buf = [] → s.h.pend = [] → cause < 256 →
    let t := takeTrap cause int imp tval epc pfxs s
    let m : Bool := s.h.mode == .machine || (!int && cause == 0x31) || (!int && cause == 0x06 && s.h.mode == .supervisor)
    let old := if m then s.h.mach else s.h.sup
    let new := if m then t.h.mach else t.h.sup
    t.mem = s.mem ∧ t.h.s = s.h.s ∧ t.h.shadow = s.h.shadow ∧ t.h.p = s.h.p ∧ t.h.k = s.h.k ∧ t.h.rows = s.h.rows ∧
    t.h.csr = s.h.csr ∧ t.h.deps = s.h.deps ∧ t.h.lastd = s.h.lastd ∧
    (s.h.mode = .machine ∧ cause = 0x31 ∧ int = false → t.h.live = false ∧ t.h.stopped = true ∧ t.h.pc = s.h.pc) ∧
    (¬(s.h.mode = .machine ∧ cause = 0x31 ∧ int = false) →
      new.epc = epc ∧ new.cause = BitVec.ofNat 64 (cause + 2 ^ 63 * bitNat int + 2 ^ 62 * bitNat imp) ∧ new.tval = tval ∧
      wbits new.status 1 0 = modeNum s.h.mode ∧ wbit new.status 2 = false ∧ wbit new.status 3 = wbit old.status 2 ∧
      wbit new.status 6 = s.h.inHandler ∧ wbits new.status 12 8 = s.h.lastd.toNat ∧
      new.pfxs = (match pfxs with
        | some w => BitVec.ofNat 64 (2 ^ 32 + w)
        | none => 0) ∧
      new.evstart = BitVec.ofNat 64 (s.h.vstart % 2 ^ 17) ∧ new.tvec = old.tvec ∧ new.scratch = old.scratch ∧
      (if m then t.h.sup = s.h.sup else t.h.mach = s.h.mach) ∧
      t.h.mode = (if m then .machine else .supervisor) ∧ t.h.pc = old.tvec &&& ~~~3 ∧ t.h.vstart = 0 ∧
      t.h.inHandler = false ∧ t.h.pfx = none ∧ t.h.link = none ∧ t.h.vlink = [] ∧ t.h.live = s.h.live)

/-- R319: the d field is n. R127: UIRET. The control core's entry may first wait for its weight loader (`State.trapped`, log 51). -/
def Obligations.TrapWordsEnter : Prop :=
  (∀ (o : RArgs) (s : State), s.Ready → s.guarded o.guard o.neg →
    (entryWaits s = false →
      let t := takeTrap 0x06 false false (o.d.setWidth 64) ((s.h.pc + 7) &&& ~~~3) none s
      exec (.svc o) s = .next { t with h := t.h.ended }) ∧
    exec (.trap o) s = .next (State.trapped 0x07 (o.d.setWidth 64) s.h.pc s) ∧
    exec (.brk o) s = .next (State.trapped 0x08 0 s.h.pc s) ∧
    exec (.nop o) s = .next (s.past 4 o.stall.toNat)) ∧
  ∀ (o : RArgs) (s : State), s.Ready → s.guarded o.guard o.neg →
    (s.h.inHandler = true → exec (.uiret o) s = .next { s with h := { s.h.ended with
      lastd := s.h.uiLastd, inHandler := false, pc := s.h.csr.uepc } }) ∧
    (s.h.inHandler = false →
      exec (.uiret o) s = .next (State.trapped 0x01 (BitVec.ofNat 64 (Instr.word (.uiret o))) s.h.pc s))

/-- R367 (with R320 for user mode). Word is the trap's TVAL for decode-time causes (R8). -/
def Obligations.ReturnsRestore : Prop :=
  (∀ (o : RArgs) (s : State), s.Ready → s.guarded o.guard o.neg → s.h.mode ≠ .user →
    let b := if s.h.mode = .machine then s.h.mach else s.h.sup
    (wbits b.status 1 0 ≤ modeNum s.h.mode →
      ∃ t, exec (.tret o) s = .next t ∧
        t.h.mode = (if wbits b.status 1 0 = 0 then .user else if wbits b.status 1 0 = 1 then .supervisor else .machine) ∧
        t.h.inHandler = wbit b.status 6 ∧ t.h.lastd.toNat = wbits b.status 12 8 ∧ t.h.vstart = wbits b.evstart 16 0 ∧
        t.h.pc = b.epc ∧ (wbit b.pfxs 32 = false → t.h.pfx = none) ∧
        (wbit b.pfxs 32 = true → let w := wbits b.pfxs 31 0
          ∃ at', t.h.pfx = some ⟨bit w 16, bit w 15, bits w 14 12, if bit w 17 then some (bits w 11 7) else none, w, at'⟩) ∧
        wbit (if s.h.mode = .machine then t.h.mach else t.h.sup).status 2 = wbit b.status 3 ∧
        (if s.h.mode = .machine then t.h.sup = s.h.sup else t.h.mach = s.h.mach) ∧
        t.h.s = s.h.s ∧ t.h.shadow = s.h.shadow ∧ t.h.p = s.h.p ∧ t.h.rows = s.h.rows ∧ t.h.csr = s.h.csr ∧
        t.mem = s.mem ∧ t.harts = s.harts ∧ t.h.clock = s.h.clock + 1 + o.stall.toNat) ∧
    (modeNum s.h.mode < wbits b.status 1 0 →
      exec (.tret o) s = .next (State.trapped 0x03 (BitVec.ofNat 64 (Instr.word (.tret o))) s.h.pc s))) ∧
  ∀ (o : RArgs) (s : State), s.Ready → s.h.mode = .user →
    exec (.tret o) s = .next (State.trapped 0x03 (BitVec.ofNat 64 (Instr.word (.tret o))) s.h.pc s)

/-- R318, R6, R7: each register with its number, its value and what a write of v makes of the state; then R166, R318. -/
def Obligations.CsrWords : Prop :=
  (∀ e ∈ ([
      (0x0C3, fun s => s.h.csr.schk, fun v s => { s with h := { s.h with csr := { s.h.csr with schk := v &&& 1 } } }),
      (0x0C5, fun s => s.h.csr.rowstr, fun v s => { s with h := { s.h with csr := { s.h.csr with rowstr := v } } }),
      (0x0C6, fun s => s.h.csr.ncount, fun v s => { s with h := { s.h with csr := { s.h.csr with ncount := v } } }),
      (0x0C8, fun s => s.h.csr.uivec, fun v s =>
        { s with h := { s.h with csr := { s.h.csr with uivec := v &&& 0xFFFFFFFFFFFFFFFD } } }),
      (0x0CC, fun s => BitVec.ofNat 64 s.h.vstart, fun v s => { s with h := { s.h with vstart := v.toNat % 2 ^ 17 } }),
      (0x0D0, fun s => (s.h.efc[0]).setWidth 64, fun v s => { s with h := { s.h with efc := s.h.efc.set 0 (v.setWidth 32) } }),
      (0x0DA, fun s => s.h.csr.cbsel, fun v s => { s with h := { s.h with csr := { s.h.csr with cbsel := v &&& 0x3FF } } }),
      (0x0E3, fun s => s.h.csr.indmask, fun v s =>
        { s with h := { s.h with csr := { s.h.csr with indmask := v &&& 0xFFFFFFFF } } }),
      (0x140, fun s => s.h.sup.epc, fun v s => { s with h := { s.h with sup := { s.h.sup with epc := v } } }),
      (0x141, fun s => s.h.sup.cause, fun v s =>
        { s with h := { s.h with sup := { s.h.sup with cause := v &&& 0xC0000000000000FF } } }),
      (0x145, fun s => s.h.sup.tvec, fun v s => { s with h := { s.h with sup := { s.h.sup with tvec := v &&& ~~~3 } } }),
      (0x180, fun s => s.h.csr.ptroot, fun v s =>
        { s with h := { s.h with csr := { s.h.csr with ptroot := v &&& 0xFFFFFFFFF00000FF } } }),
      (0x1C0, fun s => s.h.lastd.setWidth 64, fun v s => { s with h := { s.h with lastd := v.setWidth 5 } }),
      (0x240, fun s => s.h.mach.epc, fun v s => { s with h := { s.h with mach := { s.h.mach with epc := v } } }),
      (0x245, fun s => s.h.mach.tvec, fun v s => { s with h := { s.h with mach := { s.h.mach with tvec := v &&& ~~~3 } } }),
      (0x246, fun s => s.h.mach.scratch, fun v s => { s with h := { s.h with mach := { s.h.mach with scratch := v } } })] :
      List (BitVec 12 × (State → Word) × (Word → State → State))),
    ∀ (o : IArgs) (s : State), s.Ready → o.imm = e.1 → e.1.toNat / 256 ≤ modeNum s.h.mode →
      exec (.csrr o) s = .next ((s.wrote o.d (e.2.1 s) 2 0).past 4 0) ∧
      exec (.csrw o) s = .next ((e.2.2 (s.h.reg o.a.toNat) s).past 4 0) ∧
      exec (.csrx o) s = .next (((e.2.2 (s.h.reg o.a.toNat) s).wrote o.d (e.2.1 s) 2 0).past 4 0)) ∧
  ∀ (o : IArgs) (s : State), s.Ready →
    let trap := fun (c : Nat) (i : Instr) => Host.Outcome.next (State.trapped c (BitVec.ofNat 64 i.word) s.h.pc s)
    (o.imm.toNat < 0xC0 ∨ 0x248 ≤ o.imm.toNat →
      exec (.csrr o) s = trap 0x01 (.csrr o) ∧ exec (.csrw o) s = trap 0x01 (.csrw o) ∧ exec (.csrx o) s = trap 0x01 (.csrx o)) ∧
    (o.imm ∈ ([0xC0, 0xC1, 0xC2, 0xCA, 0xCF, 0xDB, 0xDE, 0xE0, 0xE1, 0xE4] : List (BitVec 12)) →
      exec (.csrw o) s = trap 0x01 (.csrw o) ∧ exec (.csrx o) s = trap 0x01 (.csrx o)) ∧
    (0x140 ≤ o.imm.toNat → o.imm.toNat ≤ 0x147 → s.h.mode = .user →
      exec (.csrr o) s = trap 0x03 (.csrr o) ∧ exec (.csrw o) s = trap 0x03 (.csrw o) ∧ exec (.csrx o) s = trap 0x03 (.csrx o)) ∧
    (0x240 ≤ o.imm.toNat → o.imm.toNat ≤ 0x247 → s.h.mode ≠ .machine →
      exec (.csrr o) s = trap 0x03 (.csrr o) ∧ exec (.csrw o) s = trap 0x03 (.csrw o) ∧ exec (.csrx o) s = trap 0x03 (.csrx o))

/-- R201. `Loop.row` makes one row; r numbers it, and element i of it is number r·vl + i of the instruction. At SEW 6 an element
and its word's unused bits move together (R154), so the rule is stated for the other widths. -/
def Obligations.ElementRule : Prop :=
  ∀ (w : Loop) (op : Nat → Nat → Nat → Option Elem) (r : Nat) (tag : BitVec 6) (old : Wide) (res : Nat),
    w.v.sew ≠ 6 → 0 < w.v.sew → (∀ i res res', (op r i res).map (·.value) = (op r i res').map (·.value)) →
    let new := (w.row op r tag old res).1
    let at' := fun (x : Wide) (i : Nat) => Machine.getElem x.bits w.v.sew i
    (∀ i < w.n, r * w.n + i < w.start → at' new i = at' old i) ∧
    (∀ i < w.n, w.start ≤ r * w.n + i → w.act r i = true → ∀ e, op r i res = some e → at' new i = e.value % 2 ^ w.v.sew) ∧
    (∀ i < w.n, w.start ≤ r * w.n + i → (w.act r i = false ∨ op r i res = none) →
      at' new i = if w.v.maskZero then 0 else at' old i) ∧
    (∀ i, w.n ≤ i → w.n < w.max → at' new i = if w.v.tailZero then 0 else at' old i) ∧
    new.tag = tag ∧
    (let flags := (w.row op r tag old res).2.1
     let computed := fun (i : Nat) => i < w.n ∧ w.start ≤ r * w.n + i ∧ w.act r i = true
     ∀ b, (flags.testBit b = true → ∃ i res' e, computed i ∧ op r i res' = some e ∧ e.flags.testBit b = true) ∧
       ((∃ i, computed i ∧ ∀ res', ∃ e, op r i res' = some e ∧ e.flags.testBit b = true) → flags.testBit b = true))

/-- R154, R158: a named row of one physical row holds 4,096 bits. -/
def Obligations.RowsAreReadBack : Prop :=
  ∀ (s : State) (v : VType) (d : BitVec 5) (out : List (Wide × Nat × Nat)), s.Solo → s.h.span = 0 →
    d.toNat + v.rows ≤ 32 → out.length = v.rows → 0 < v.rows →
    let t := s.rowsPut v d out
    (∀ j < v.rows, ∀ x, out[j]? = some x →
      (groupRow t ⟨d.toNat, v.rows⟩ j).bits = x.1.bits % 2 ^ 4096 ∧ (groupRow t ⟨d.toNat, v.rows⟩ j).tag = x.1.tag ∧
      (groupRow t ⟨d.toNat, v.rows⟩ j).mark = x.1.mark) ∧
    (∀ n < 32, n < d.toNat ∨ d.toNat + v.rows ≤ n → t.h.rows[n]? = s.h.rows[n]?) ∧
    t.h.s = s.h.s ∧ t.h.p = s.h.p ∧ t.h.k = s.h.k ∧ t.h.vl = s.h.vl ∧ t.h.vt = s.h.vt ∧ t.mem = s.mem

/-- R211, R212: each word with its natural mark (R200) and its operation on patterns of SEW bits. What the rows hold is
`ElementRule`; where they lie is `RowsAreReadBack`. -/
def Obligations.VectorIntegerWords : Prop :=
  (∀ e ∈ ([(Instr.vadd, false, fun w a b => (a + b) % 2 ^ w), (.vsub, false, fun w a b => (a + 2 ^ w - b) % 2 ^ w),
      (.vmul, false, fun _ a b => a * b), (.vmulh, false, fun w a b => wrap w (signed w a * signed w b / (2 ^ w : Nat))),
      (.vmulhn, true, fun w a b => a * b / 2 ^ w), (.vmin, false, fun w a b => wrap w (min (signed w a) (signed w b))),
      (.vmax, false, fun w a b => wrap w (max (signed w a) (signed w b))), (.vminn, true, fun _ a b => min a b),
      (.vmaxn, true, fun _ a b => max a b), (.vand, false, fun _ a b => a &&& b), (.vor, false, fun _ a b => a ||| b),
      (.vxor, false, fun _ a b => a ^^^ b), (.vandn, false, fun w a b => a &&& (2 ^ w - 1 - b)),
      (.vshl, false, fun w a b => a * 2 ^ (b % w)), (.vshr, false, fun w a b => a / 2 ^ (b % w)),
      (.vsra, false, fun w a b => wrap w (signed w a / 2 ^ (b % w))),
      (.vsadd, false, fun w a b => wrap w (sat (signed w a + signed w b) w true)),
      (.vssub, false, fun w a b => wrap w (sat (signed w a - signed w b) w true)),
      (.vsaddn, true, fun w a b => min (a + b) (2 ^ w - 1)), (.vssubn, true, fun _ a b => a - b),
      (.vabsd, false, fun w a b => (signed w a - signed w b).natAbs)] :
      List ((VArgs → Instr) × Bool × (Nat → Nat → Nat → Nat))),
    ∀ (o : VArgs) (s : State), s.Solo →
      let v := s.h.slot o.t
      let x := (s.h.reg o.b.toNat).toNat % 2 ^ v.sew
      groupsLegal s.h (some (⟨o.d.toNat, v.rows⟩, false))
        (⟨⟨o.a.toNat, v.rows⟩, true⟩ :: (if o.x then [] else [⟨⟨o.b.toNat, v.rows⟩, true⟩])) = true →
      ((o.mask == 7 && o.neg) = true → exec (e.1 o) s = .next s.pastVector) ∧
      ((o.mask == 7 && o.neg) = false → v.fmt = 0 → v.sew ≠ 128 → (e.2.1 = true → v.sew ≠ 4) →
        exec (e.1 o) s = .next (s.rowsPut v o.d
          (s.rowsOf v o (s.h.vlIn v) (if wholeBlock s none ⟨o.d.toNat, v.rows⟩ (binaryGroups o v) then 0 else s.h.vstart)
            (s.h.act o.mask o.neg) (fun _ => 0) fun r i res =>
            some ⟨e.2.2 v.sew (s.elem v false o.a.toNat r i).1 (if o.x then x else (s.elem v false o.b.toNat r i).1)
              % 2 ^ v.sew, 0, res⟩)).pastVector)) ∧
  ∀ e ∈ ([(Instr.vclz, fun w a => if a = 0 then w else w - 1 - Nat.log2 a),
      (.vpopc, fun w a => (List.range w).countP fun i => a.testBit i), (.vneg, fun w a => 2 ^ w - a)] :
      List ((VArgs → Instr) × (Nat → Nat → Nat))),
    ∀ (o : VArgs) (s : State), s.Solo →
      let v := s.h.slot o.t
      groupsLegal s.h (some (⟨o.d.toNat, v.rows⟩, false)) [⟨⟨o.a.toNat, v.rows⟩, true⟩] = true →
      (o.mask == 7 && o.neg) = false → v.fmt = 0 →
      exec (e.1 o) s = .next (s.rowsPut v o.d
        (s.rowsOf v o (s.h.vlIn v) (if wholeBlock s none ⟨o.d.toNat, v.rows⟩ [⟨o.a.toNat, v.rows⟩] then 0 else s.h.vstart)
          (s.h.act o.mask o.neg) (fun _ => 0) fun r i res =>
          some ⟨e.2 v.sew (s.elem v false o.a.toNat r i).1 % 2 ^ v.sew, 0, res⟩)).pastVector

/-- R213, R214: with each word, when it is class L (R205). -/
def Obligations.VectorFloatWords : Prop :=
  let legal := fun (s : State) (o : VArgs) (two rd : Bool) =>
    (o.mask == 7 && o.neg) = false ∧ groupsLegal s.h (some (⟨o.d.toNat, (s.h.slot o.t).rows⟩, rd))
      (⟨⟨o.a.toNat, (s.h.slot o.t).rows⟩, true⟩ ::
        (if two && !o.x then [⟨⟨o.b.toNat, (s.h.slot o.t).rows⟩, true⟩] else [])) = true
  let done := fun (s : State) (o : VArgs) (kept : Option Nat) (gs : List Group) (op : Nat → Nat → Nat → Option Elem) =>
    let v := s.h.slot o.t
    s.rowsPut v o.d (s.rowsOf v o (s.h.vlIn v) (if wholeBlock s kept ⟨o.d.toNat, v.rows⟩ gs then 0 else s.h.vstart)
      (s.h.act o.mask o.neg) (s.tagOf v kept o.a.toNat) op)
  let x := fun (s : State) (o : VArgs) => (s.h.reg o.b.toNat).toNat % 2 ^ (s.h.slot o.t).sew
  let b := fun (s : State) (o : VArgs) (kept : Option Nat) (r i : Nat) =>
    if o.x then (x s o, 0) else s.elem (s.h.slot o.t) kept.isSome o.b.toNat r i
  (∀ e ∈ ([(Instr.vfmul, true, fun v F p q fl res => roundEf v F (mulVal (val F p) (val F q)) fl res),
      (.vfdiv, true, fun v F p q fl res => roundEf v F (divVal (val F p) (val F q)) fl res),
      (.vfmin, false, fun _ F p q fl res => ⟨(minMax F false p q).1, Nat.lor fl (minMax F false p q).2, res⟩),
      (.vfmax, false, fun _ F p q fl res => ⟨(minMax F true p q).1, Nat.lor fl (minMax F true p q).2, res⟩)] :
      List ((VArgs → Instr) × Bool × (VType → Fmt → Nat → Nat → Nat → Nat → Elem))),
    ∀ (o : VArgs) (s : State) (F : Fmt), s.Solo → legal s o true false → (s.h.slot o.t).float = some F →
      let v := s.h.slot o.t
      let gs := binaryGroups o v
      let kept := if e.2.1 && o.x then keptLevels s v o gs else none
      exec (e.1 o) s = .next (done s o kept gs fun r i res =>
        some (e.2.2 v F (s.elem v kept.isSome o.a.toNat r i).1 (b s o kept r i).1
          (Nat.lor (s.elem v kept.isSome o.a.toNat r i).2 (b s o kept r i).2) res)).pastVector) ∧
  (∀ e ∈ ([(Instr.vfsqrt, false, fun v F p fl res => roundEf v F (sqrtVal (val F p)) fl res),
      (.vfabs, false, fun _ F p _ res => ⟨p % F.signBit, 0, res⟩),
      (.vfneg, true, fun _ F p _ res => ⟨(p + F.signBit) % 2 ^ F.width, 0, res⟩),
      (.vfclass, false, fun _ F p fl res => ⟨2 ^ classOf F p, fl, res⟩)] :
      List ((VArgs → Instr) × Bool × (VType → Fmt → Nat → Nat → Nat → Elem))),
    ∀ (o : VArgs) (s : State) (F : Fmt), s.Solo → legal s o false false → (s.h.slot o.t).float = some F →
      let v := s.h.slot o.t
      let gs : List Group := [⟨o.a.toNat, v.rows⟩]
      let kept := if e.2.1 then keptLevels s v o gs else none
      exec (e.1 o) s = .next (done s o kept gs fun r i res =>
        some (e.2.2 v F (s.elem v kept.isSome o.a.toNat r i).1 (s.elem v kept.isSome o.a.toNat r i).2 res)).pastVector) ∧
  (∀ e ∈ ([(Instr.vfadd, fun q => q), (.vfsub, fun q => q.negate)] : List ((VArgs → Instr) × (Val → Val))),
    ∀ (o : VArgs) (s : State) (F : Fmt), s.Solo → legal s o true false → (s.h.slot o.t).float = some F →
      let v := s.h.slot o.t
      let gs := binaryGroups o v
      let kept := keptLevels s v o gs
      exec (e.1 o) s = .next (done s o kept gs fun r i res =>
        let p := s.elem v kept.isSome o.a.toNat r i
        if (match kept with
          | some l => detailLevel l r != 0 && copiesDetails s o l
          | none => false) then some ⟨p.1, 0, res⟩
        else some (roundEf v F (addVal (rndOf v.rnd).down (val F p.1) (e.2 (val F (b s o kept r i).1)))
          (Nat.lor p.2 (b s o kept r i).2) res)).pastVector) ∧
  ∀ e ∈ ([(Instr.vfma, false, false), (.vfms, false, true), (.vfnma, true, false)] :
      List ((VArgs → Instr) × Bool × Bool)),
    ∀ (o : VArgs) (s : State) (F : Fmt), s.Solo → legal s o true true → (s.h.slot o.t).float = some F →
      let v := s.h.slot o.t
      let gs := binaryGroups o v ++ [⟨o.d.toNat, v.rows⟩]
      let kept := if o.x then keptLevels s v o gs else none
      exec (e.1 o) s = .next (done s o kept gs fun r i res =>
        let p := s.elem v kept.isSome o.a.toNat r i
        let c := s.elem v kept.isSome o.d.toNat r i
        some (roundEf v F (fmaVal (rndOf v.rnd).down (if e.2.1 then (val F p.1).negate else val F p.1)
          (val F (b s o kept r i).1) (if e.2.2 then (val F c.1).negate else val F c.1))
          (orFlags [p.2, (b s o kept r i).2, c.2]) res)).pastVector

/-- R219 to R223. An element beyond MAXVL reads as zero; moves raise no flag, a reconstruction's included (R207). -/
def Obligations.VectorMoveWords : Prop :=
  let legal := fun (s : State) (o : VArgs) (srcs : List (BitVec 5)) (same : Bool) =>
    (o.mask == 7 && o.neg) = false ∧ groupsLegal s.h (some (⟨o.d.toNat, (s.h.slot o.t).rows⟩, false))
      (srcs.map fun a => ⟨⟨a.toNat, (s.h.slot o.t).rows⟩, same⟩) = true
  let done := fun (s : State) (o : VArgs) (kept : Option Nat) (whole : Bool) (gs : List Group)
      (act : Nat → Nat → Bool) (op : Nat → Nat → Nat → Option Elem) =>
    let v := s.h.slot o.t
    s.rowsPut v o.d (s.rowsOf v o (s.h.vlIn v) (if whole || wholeBlock s kept ⟨o.d.toNat, v.rows⟩ gs then 0 else s.h.vstart)
      act (s.tagOf v kept o.a.toNat) op)
  let copy := fun (ok : Bool) (p : Nat × Nat) (res : Nat) => some ⟨if ok then p.1 else 0, 0, res⟩
  (∀ e ∈ ([(Instr.vmv, true, true, false, fun _ _ _ _ el r i res => copy true (el r i) res),
      (.vbcast, false, true, false, fun _ _ mx x el r _ res => copy (decide (x < mx)) (el r x) res),
      (.vslideup, false, true, false, fun _ _ _ x el r i res => if x ≤ i then copy true (el r (i - x)) res else none),
      (.vslidedn, false, true, false, fun _ _ mx x el r i res => copy (decide (i + x < mx)) (el r (i + x)) res),
      (.vrowmv, false, false, true, fun v _ _ x el r i res => copy true (el ((r + x) % v.rows) i) res),
      (.vtrn, false, false, true, fun v n _ _ el r i res => copy true (if i < v.rows * (n / v.rows)
        then el (i % v.rows) (v.rows * (i / v.rows) + r) else el r i) res)] :
      List ((VArgs → Instr) × Bool × Bool × Bool ×
        (VType → Nat → Nat → Nat → (Nat → Nat → Nat × Nat) → Nat → Nat → Nat → Option Elem))),
    ∀ (o : VArgs) (s : State), s.Solo → legal s o [o.a] e.2.1 →
      let v := s.h.slot o.t
      let gs : List Group := [⟨o.a.toNat, v.rows⟩]
      let kept := if e.2.2.1 then keptLevels s v o gs else none
      exec (e.1 o) s = .next (done s o kept e.2.2.2.1 gs (s.h.act o.mask o.neg)
        (e.2.2.2.2 v (s.h.vlIn v) (s.h.maxIn v) (s.h.reg o.b.toNat).toNat (s.elem v kept.isSome o.a.toNat))).pastVector) ∧
  (∀ (o : VArgs) (s : State), s.Solo → legal s o [o.a, o.b] false →
    let v := s.h.slot o.t
    exec (.vgathr o) s = .next (done s o none false [⟨o.a.toNat, v.rows⟩, ⟨o.b.toNat, v.rows⟩] (s.h.act o.mask o.neg)
      fun r i res =>
        let j := (s.elem v false o.b.toNat r i).1 % 2 ^ 64
        copy (decide (j < s.h.maxIn v)) (s.elem v false o.a.toNat r j) res).pastVector) ∧
  (∀ (o : VArgs) (s : State), s.Solo → legal s o [o.a, o.b] true →
    let v := s.h.slot o.t
    exec (.vsel o) s = .next (done s o none false [⟨o.a.toNat, v.rows⟩, ⟨o.b.toNat, v.rows⟩] (fun _ _ => true)
      fun r i res => copy true (s.elem v false (if s.h.act o.mask o.neg r i then o.a.toNat else o.b.toNat) r i) res).pastVector) ∧
  (∀ (o : VArgs) (s : State), s.Solo → legal s o [] false → (s.h.slot o.t).sew ≠ 128 →
    let v := s.h.slot o.t
    exec (.vmvX o) s = .next (done s o none false [] (s.h.act o.mask o.neg)
      fun _ _ res => some ⟨(s.h.reg o.b.toNat).toNat % 2 ^ v.sew, 0, res⟩).pastVector) ∧
  (∀ (o : VArgs) (s : State), s.Solo → legal s o [] false → (s.h.slot o.t).fmt = 0 →
    let v := s.h.slot o.t
    exec (.viota o) s = .next (done s o none true [] (s.h.act o.mask o.neg) fun r i res =>
      some ⟨((List.range i).filter (s.h.act o.mask o.neg r)).length % 2 ^ v.sew, 0, res⟩).pastVector) ∧
  (∀ (o : VArgs) (s : State), s.Solo → legal s o [o.a] false →
    let v := s.h.slot o.t
    let active := fun r => (List.range (s.h.vlIn v)).filter (s.h.act o.mask o.neg r)
    exec (.vexpnd o) s = .next (done s o none true [⟨o.a.toNat, v.rows⟩] (s.h.act o.mask o.neg) fun r i res =>
      copy true (s.elem v false o.a.toNat r (((List.range i).filter (s.h.act o.mask o.neg r)).length)) res).pastVector ∧
    exec (.vcompr o) s = .next (s.rowsPut v o.d ((groupRows s ⟨o.d.toNat, v.rows⟩).zipIdx.map fun (w, r) =>
      let xs := (active r).map fun i => (s.elem v false o.a.toNat r i).1
      ({ (((xs.zipIdx).foldl (fun w (x, p) => Wide.set w v.sew p x) w).cutTail v xs.length (s.h.maxIn v)).markTo
          (s.h.vlIn v) with tag := 0 }, 0, (s.h.efc[r]?.getD 0).toNat))).pastVector) ∧
  (∀ (o : VArgs) (s : State), s.Solo → (o.mask == 7 && o.neg) = false → (s.h.slot o.t).sew ≠ 128 →
    let v := s.h.slot o.t
    groupsLegal s.h none [⟨⟨o.a.toNat, v.rows⟩, false⟩] = true →
    let j := (s.h.reg o.b.toNat).toNat
    let e := if j < s.h.maxIn v then (s.elem v false o.a.toNat 0 j).1 else 0
    let t := s.wrote o.d (BitVec.ofInt 64 (signed v.sew e)) 1 0
    exec (.vexts o) s = .next (State.pastVector { t with h := { t.h with vstart := 0 } })) ∧
  ∀ (o : VArgs) (s : State), s.Solo → legal s o [] false → (s.h.slot o.t).sew ≠ 128 → blockOf s o.d.toNat = none →
    let v := s.h.slot o.t
    let j := (s.h.reg o.b.toNat).toNat
    let rows := (groupRows s ⟨o.d.toNat, v.rows⟩).zipIdx.map fun (w, r) =>
      if r = 0 ∧ j < s.h.maxIn v then (w.set v.sew j ((s.h.reg o.a.toNat).toNat % 2 ^ v.sew)).markTo (j + 1) else w
    let t := writeGroup (s.h.maxIn v) ⟨o.d.toNat, v.rows⟩ rows s
    exec (.vinss o) s = .next (State.pastVector { t with h := { t.h.raiseFlags 0 with vstart := 0 } })

/-- R203: with each word, whether it reads its destination too, and its source fields, each with whether the source group may
be the destination group itself. -/
def Obligations.VectorGroupChecks : Prop :=
  let two := fun (a b : Bool) (_ : Hart) (o : VArgs) => (o.a, a) :: (if o.x then [] else [(o.b, b)])
  let both := fun (b : Bool) (_ : Hart) (o : VArgs) => [(o.a, b), (o.b, b)]
  let oneOf := fun (b : Bool) (_ : Hart) (o : VArgs) => [(o.a, b)]
  let other := fun (h : Hart) (o : VArgs) => [(o.a, (h.slot !o.t).sew == (h.slot o.t).sew)]
  let noneOf := fun (_ : Hart) (_ : VArgs) => ([] : List (BitVec 5 × Bool))
  ∀ e ∈ ([Instr.vadd, .vsub, .vmul, .vmulh, .vmulhn, .vmin, .vmax, .vminn, .vmaxn, .vand, .vor, .vxor, .vandn, .vshl, .vshr,
        .vsra, .vsadd, .vssub, .vsaddn, .vssubn, .vabsd, .vfadd, .vfsub, .vfmul, .vfdiv, .vfmin, .vfmax].map
        (fun c => (c, false, two true true)) ++
      [Instr.gsub, .gadd, .gscale, .gcross, .gcvt, .gxfm, .gsettag].map (fun c => (c, false, two true true)) ++
      [Instr.gdot].map (fun c => (c, false, two false false)) ++
      [Instr.vfma, .vfms, .vfnma].map (fun c => (c, true, two true true)) ++
      [Instr.vclz, .vpopc, .vneg, .vfsqrt, .vfabs, .vfneg, .vfclass, .vmv, .vexp2, .vlog2, .vrcp, .vrsq, .vsin, .vcos, .vtanh,
        .vsigm, .hlook, .gretag, .wfwd, .winv].map (fun c => (c, false, oneOf true)) ++
      [Instr.vbcast, .vslideup, .vslidedn, .vcompr, .vexpnd, .vrowmv, .vtrn, .vunpk, .glen, .gtag,
        .gcell].map
        (fun c => (c, false, oneOf false)) ++
      [Instr.vredo, .vredt, .vredmax, .vredmin, .vredand, .vredor].map (fun c => (c, false, two false true)) ++
      [Instr.vdoto, .vdott].map (fun c => (c, true, both false)) ++
      [Instr.vgathr, .vpack, .vmrg, .vmrgi, .vbsrch].map (fun c => (c, false, both false)) ++
      [Instr.vsel].map (fun c => (c, false, both true)) ++
      [Instr.vcvt, .vcbenc, .vcbdec].map (fun c => (c, false, other)) ++
      [Instr.vmvX, .viota, .vinss, .wsettag].map (fun c => (c, false, noneOf)) :
      List ((VArgs → Instr) × Bool × (Hart → VArgs → List (BitVec 5 × Bool)))),
    ∀ (o : VArgs) (s : State), s.Solo →
      let legal := groupsLegal s.h (some (⟨o.d.toNat, (s.h.slot o.t).rows⟩, e.2.1))
        ((e.2.2 s.h o).map fun a => ⟨⟨a.1.toNat, (s.h.slot o.t).rows⟩, a.2⟩)
      (legal = false →
        exec (e.1 o) s = .next (State.trapped 0x01 (BitVec.ofNat 64 (e.1 o).word) s.h.pc s)) ∧
      (legal = true → (o.mask == 7 && o.neg) = true → exec (e.1 o) s = .next s.pastVector)

/-- R224: a conversion runs over the elements that both types hold. -/
def Obligations.VectorConvertWords : Prop :=
  let legal := fun (s : State) (o : VArgs) (srcs : List (BitVec 5)) (same : Bool) =>
    (o.mask == 7 && o.neg) = false ∧ groupsLegal s.h (some (⟨o.d.toNat, (s.h.slot o.t).rows⟩, false))
      (srcs.map fun a => ⟨⟨a.toNat, (s.h.slot o.t).rows⟩, same⟩) = true
  let convert := fun (s : State) (o : VArgs) (op : Nat → Nat → Nat → Elem) =>
    let v := s.h.slot o.t
    let u := s.h.slot !o.t
    s.rowsPut v o.d (s.rowsOf v o (min s.h.vl (min (s.h.maxIn u) (s.h.maxIn v)))
      (if wholeBlock s none ⟨o.d.toNat, v.rows⟩ [⟨o.a.toNat, v.rows⟩] then 0 else s.h.vstart) (s.h.act o.mask o.neg) (fun _ => 0)
      fun r i res => some (op (s.elem u false o.a.toNat r i).1 (s.elem u false o.a.toNat r i).2 res))
  let natural := fun (v : VType) (n : Bool) => (v.fmt = 0 ∧ (n = true → v.sew ≠ 4)) ∨ v.float.isSome = true
  (∀ (o : VArgs) (s : State), s.Solo →
    let v := s.h.slot o.t
    let u := s.h.slot !o.t
    let ni := o.b.getLsbD 0
    let no := o.b.getLsbD 1
    let int := fun (a : Nat) => if ni then (a : Int) else signed u.sew a
    legal s o [o.a] (u.sew == v.sew) → u.rows = v.rows → natural v no → natural u ni →
    exec (.vcvt o) s = .next (convert s o fun a f res =>
      match u.float, v.float with
      | none, none => ⟨wrap v.sew (if u.sew ≤ v.sew ∨ o.b.getLsbD 2 = true then int a else sat (int a) v.sew (!no)), f, res⟩
      | none, some F => roundEf v F (ofInt (int a), 0) f res
      | some G, some F => roundEf v F (val G a, sigFlag [val G a]) f res
      | some G, none =>
        ⟨wrap v.sew (cvtInt (val G a) v.sew (!no) (rndOf v.rnd)).1, Nat.lor f (cvtInt (val G a) v.sew (!no) (rndOf v.rnd)).2, res⟩
      ).pastVector) ∧
  (∀ (o : VArgs) (s : State) (F : Fmt), s.Solo →
    let v := s.h.slot o.t
    let u := s.h.slot !o.t
    legal s o [o.a] (u.sew == v.sew) → u.rows = v.rows → v.fmt = 3 → u.float = some F →
    (s.h.book v).entries.length = 2 ^ v.sew →
    exec (.vcbenc o) s = .next (convert s o fun a f res => encodeEf v (s.h.book v) (val F a) f res).pastVector) ∧
  (∀ (o : VArgs) (s : State) (F : Fmt), s.Solo →
    let v := s.h.slot o.t
    let u := s.h.slot !o.t
    legal s o [o.a] (u.sew == v.sew) → u.rows = v.rows → u.fmt = 3 → v.float = some F →
    (s.h.book u).entries.length = 2 ^ u.sew →
    exec (.vcbdec o) s = .next (convert s o fun a f res => roundEf v F (cbDecode (s.h.book u) a, 0) f res).pastVector) ∧
  (∀ (o : VArgs) (s : State), s.Solo → legal s o [o.a, o.b] false →
    let v := s.h.slot o.t
    let gs : List Group := [⟨o.a.toNat, v.rows⟩, ⟨o.b.toNat, v.rows⟩]
    let kept := keptLevels s v o gs
    exec (.vpack o) s = .next (s.rowsPut v o.d (s.rowsOf v o (s.h.vlIn v)
      (if wholeBlock s kept ⟨o.d.toNat, v.rows⟩ gs then 0 else s.h.vstart) (s.h.act o.mask o.neg) (s.tagOf v kept o.a.toNat)
      fun r i res =>
        let e := s.elem v kept.isSome (if i % 2 = 0 then o.a.toNat else o.b.toNat) r (i / 2)
        some ⟨e.1, 0, res⟩)).pastVector) ∧
  ∀ (o : VArgs) (s : State), s.Solo → legal s o [o.a] false →
    let v := s.h.slot o.t
    let gs : List Group := [⟨o.a.toNat, v.rows⟩]
    let kept := keptLevels s v o gs
    exec (.vunpk o) s = .next (s.rowsPut v o.d (s.rowsOf v o (s.h.vlIn v)
      (if wholeBlock s kept ⟨o.d.toNat, v.rows⟩ gs then 0 else s.h.vstart) (s.h.act o.mask o.neg) (s.tagOf v kept o.a.toNat)
      fun r i res =>
        let j := 2 * i + (s.h.reg o.b.toNat).toNat % 2
        some ⟨if j < s.h.maxIn v then (s.elem v kept.isSome o.a.toNat r j).1 else 0, 0, res⟩)).pastVector

/-- R227, R228: `sumO` and `sumT` are the two orders of R227. -/
def Obligations.VectorReduceWords : Prop :=
  let legal := fun (s : State) (o : VArgs) (rd : Bool) (srcs : List Source) =>
    (o.mask == 7 && o.neg) = false ∧ groupsLegal s.h (some (⟨o.d.toNat, (s.h.slot o.t).rows⟩, rd)) srcs = true
  let done := fun (s : State) (o : VArgs) (f : Nat → Nat × Nat) =>
    let v := s.h.slot o.t
    s.rowsPut v o.d ((groupRows s ⟨o.d.toNat, v.rows⟩).zipIdx.map fun e =>
      ({ (((e.1.set v.sew 0 (f e.2).1).cutTail v 1 (s.h.maxIn v)).markTo 1) with tag := 0 }, (f e.2).2,
        (s.h.efc[e.2]?.getD 0).toNat))
  let active := fun (s : State) (o : VArgs) (r i : Nat) => s.h.act o.mask o.neg r i
  let sums := fun (v : VType) => (v.fmt = 0 ∧ v.sew ≠ 4) ∨ v.float.isSome = true
  let ints := fun (v : VType) => v.fmt = 0
  let extreme := fun (isMax : Bool) (v : VType) (acc : Nat) (xs : List (Option Nat)) =>
    (xs.filterMap id).foldl (fun a x => match v.float with
      | some F => ((minMax F isMax a.1 x).1, Nat.lor a.2 (minMax F isMax a.1 x).2)
      | none => (wrap v.sew ((if isMax then max else min) (signed v.sew a.1) (signed v.sew x)), a.2)) (acc, 0)
  (∀ e ∈ ([(Instr.vredo, sums, fun v acc xs => match v.float with
        | some F => sumO F .rne acc xs
        | none => ((acc + (xs.filterMap id).sum) % 2 ^ v.sew, 0)),
      (.vredt, sums, fun v acc xs => match v.float with
        | some F => (match sumT F .rne xs with
          | (some t, f) => ((addF F .rne acc t).1, Nat.lor f (addF F .rne acc t).2)
          | (none, f) => (acc, f))
        | none => ((acc + (xs.filterMap id).sum) % 2 ^ v.sew, 0)),
      (.vredmax, sums, extreme true), (.vredmin, sums, extreme false),
      (.vredand, ints, fun _ acc xs => ((xs.filterMap id).foldl Nat.land acc, 0)),
      (.vredor, ints, fun _ acc xs => ((xs.filterMap id).foldl Nat.lor acc, 0))] :
      List ((VArgs → Instr) × (VType → Prop) × (VType → Nat → List (Option Nat) → Nat × Nat))),
    ∀ (o : VArgs) (s : State), s.Solo →
      let v := s.h.slot o.t
      legal s o false (⟨⟨o.a.toNat, v.rows⟩, false⟩ :: (if o.x then [] else [⟨⟨o.b.toNat, v.rows⟩, true⟩])) →
      e.2.1 v → (o.x = true → v.sew ≠ 128) →
      exec (e.1 o) s = .next (done s o fun r =>
        let n := s.h.vlIn v
        let present := (List.range n).filter (active s o r)
        let xs := (List.range n).map fun i => if active s o r i then some (s.elem v false o.a.toNat r i) else none
        let acc := if o.x then ((s.h.reg o.b.toNat).toNat % 2 ^ v.sew, 0) else s.elem v false o.b.toNat r 0
        let y := if present = [] then (acc.1, 0) else e.2.2 v acc.1 (xs.map fun x => x.map (·.1))
        (y.1, orFlags [acc.2, orFlags (xs.filterMap fun x => x.map (·.2)), y.2])).pastVector) ∧
  ∀ e ∈ ([(Instr.vdoto, fun F acc ps => (ps.filterMap id).foldl (fun a p =>
        ((roundWith F .rne (fmaVal false (val F p.1) (val F p.2) (val F a.1))).1,
          Nat.lor a.2 (roundWith F .rne (fmaVal false (val F p.1) (val F p.2) (val F a.1))).2)) (acc, 0)),
      (.vdott, fun F acc ps =>
        let prods := ps.map fun p => p.map fun x => roundWith F .rne (mulVal (val F x.1) (val F x.2))
        let fl := orFlags (prods.filterMap fun p => p.map (·.2))
        match sumT F .rne (prods.map fun p => p.map (·.1)) with
        | (some t, f) => ((addF F .rne acc t).1, orFlags [fl, f, (addF F .rne acc t).2])
        | (none, _) => (acc, fl))] :
      List ((VArgs → Instr) × (Fmt → Nat → List (Option (Nat × Nat)) → Nat × Nat))),
    ∀ (o : VArgs) (s : State), s.Solo →
      let v := s.h.slot o.t
      legal s o true [⟨⟨o.a.toNat, v.rows⟩, false⟩, ⟨⟨o.b.toNat, v.rows⟩, false⟩] → sums v →
      exec (e.1 o) s = .next (done s o fun r =>
        let a := fun i => s.elem v false o.a.toNat r i
        let b := fun i => s.elem v false o.b.toNat r i
        let pairs := (List.range (s.h.vlIn v)).map fun i => if active s o r i then some (a i, b i) else none
        let ps := pairs.map fun p => p.map fun x => (x.1.1, x.2.1)
        let acc := s.elem v false o.d.toNat r 0
        let y := match v.float with
          | some F => e.2 F acc.1 ps
          | none => ((acc.1 + (ps.filterMap fun (p : Option (Nat × Nat)) => p.map fun (x : Nat × Nat) => x.1 * x.2).sum) % 2 ^ v.sew, 0)
        (y.1, orFlags [orFlags (pairs.filterMap fun p => p.map fun x => Nat.lor x.1.2 x.2.2), acc.2, y.2])).pastVector

/-- R229, R232 to R234. `specVal` is the exact value of R229's function, by its number in the table; `mergeKeys` pairs each key
with its position. -/
def Obligations.VectorSpecialAndMerge : Prop :=
  let legal := fun (s : State) (o : VArgs) (srcs : List (BitVec 5)) (same : Bool) =>
    (o.mask == 7 && o.neg) = false ∧ groupsLegal s.h (some (⟨o.d.toNat, (s.h.slot o.t).rows⟩, false))
      (srcs.map fun a => ⟨⟨a.toNat, (s.h.slot o.t).rows⟩, same⟩) = true
  (∀ e ∈ ([(Instr.vexp2, 0), (.vlog2, 1), (.vrcp, 2), (.vrsq, 3), (.vsin, 4), (.vcos, 5), (.vtanh, 6), (.vsigm, 7)] :
      List ((VArgs → Instr) × Nat)),
    ∀ (o : VArgs) (s : State) (F : Fmt), s.Solo → legal s o [o.a] true → (s.h.slot o.t).float = some F →
      (s.h.slot o.t).sew ≠ 64 →
      let v := s.h.slot o.t
      exec (e.1 o) s = .next (s.rowsPut v o.d (s.rowsOf v o (s.h.vlIn v)
        (if wholeBlock s none ⟨o.d.toNat, v.rows⟩ [⟨o.a.toNat, v.rows⟩] then 0 else s.h.vstart) (s.h.act o.mask o.neg) (fun _ => 0)
        fun r i res =>
          let x := s.elem v false o.a.toNat r i
          let y := roundWith F .rne (specVal e.2 (val F x.1))
          some ⟨y.1, Nat.lor x.2 y.2, res⟩)).pastVector) ∧
  (∀ e ∈ ([(Instr.vmrg, 8, false), (.vmrgi, 16, true)] : List ((VArgs → Instr) × Nat × Bool)),
    ∀ (o : VArgs) (s : State), s.Solo → legal s o [o.a, o.b] false →
      let v := s.h.slot o.t
      let n := s.h.vlIn v
      v.fmt = 0 → e.2.1 ≤ v.sew → v.rows = 1 →
      let key := fun (name i : Nat) => getElem (groupRow s ⟨name, 1⟩ 0).bits v.sew i
      let merged := mergeKeys n (key o.a.toNat) (key o.b.toNat) n 0 0
      let t := s.rowsPut v o.d ((groupRows s ⟨o.d.toNat, v.rows⟩).zipIdx.map fun w =>
        ({ (((merged.1.zipIdx.foldl (fun w x => Wide.set w v.sew x.2 ((if e.2.2 then x.1.2 else x.1.1) % 2 ^ v.sew))
          w.1).cutTail v n (s.h.maxIn v)).markTo n) with tag := 0 }, 0, (s.h.efc[w.2]?.getD 0).toNat))
      exec (e.1 o) s =
        .next (State.pastVector { t with h := { t.h with csr := { t.h.csr with mrgcnt := BitVec.ofNat 64 merged.2 } } })) ∧
  ∀ (o : VArgs) (s : State), s.Solo → legal s o [o.a, o.b] false →
    let v := s.h.slot o.t
    v.fmt = 0 → 16 ≤ v.sew →
    exec (.vbsrch o) s = .next (s.rowsPut v o.d (s.rowsOf v o (s.h.vlIn v)
      (if wholeBlock s none ⟨o.d.toNat, v.rows⟩ [⟨o.a.toNat, v.rows⟩, ⟨o.b.toNat, v.rows⟩] then 0 else s.h.vstart)
      (s.h.act o.mask o.neg) (fun _ => 0) fun r i res =>
        some ⟨(List.range (s.h.vlIn v)).countP fun j =>
          decide ((s.elem v false o.a.toNat r j).1 < (s.elem v false o.b.toNat r i).1), 0, res⟩)).pastVector

/-- R215 to R218: `State.maskPut` writes k[d] under R215; the conditions are those of R307 and R308. -/
def Obligations.MaskWords : Prop :=
  (∀ (o : VCmpArgs) (s : State), s.Solo → (o.mask == 7 && o.neg) = false →
    let v := s.h.slot o.t
    groupsLegal s.h none (⟨⟨o.a.toNat, v.rows⟩, true⟩ :: (if o.x then [] else [⟨⟨o.b.toNat, v.rows⟩, true⟩])) = true →
    (o.x = true → v.sew ≠ 128) →
    let b := fun (r i : Nat) => if o.x then ((s.h.reg o.b.toNat).toNat % 2 ^ v.sew, 0) else s.elem v false o.b.toNat r i
    let a := fun (r i : Nat) => s.elem v false o.a.toNat r i
    (v.fmt = 0 → (naturalCond o.cond.toNat = true → v.sew ≠ 4) →
      exec (.vcmp o) s = .next (s.maskPut (s.loopOf v o.mask o.neg) o.d.toNat fun r i =>
        (compare o.cond.toNat (BitVec.ofInt 64 (signed v.sew (a r i).1)) (BitVec.ofInt 64 (signed v.sew (b r i).1)),
          orFlags [(a r i).2, (b r i).2, 0])).pastVector) ∧
    (∀ F, v.float = some F →
      exec (.vfcmp o) s = .next (s.maskPut (s.loopOf v o.mask o.neg) o.d.toNat fun r i =>
        ((floatCompare o.cond.toNat (val F (a r i).1) (val F (b r i).1)).1,
          orFlags [(a r i).2, (b r i).2, (floatCompare o.cond.toNat (val F (a r i).1) (val F (b r i).1)).2])).pastVector)) ∧
  (∀ e ∈ ([(Instr.kand, fun a b => a && b), (.kor, fun a b => a || b), (.kxor, fun a b => Bool.xor a b),
      (.kandn, fun a b => a && !b), (.knot, fun a _ => !a), (.kmov, fun a _ => a)] :
      List ((VArgs → Instr) × (Bool → Bool → Bool))),
    ∀ (o : VArgs) (s : State), s.Solo →
      ((o.mask == 7 && o.neg) = true → exec (e.1 o) s = .next s.pastVector) ∧
      ((o.mask == 7 && o.neg) = false →
        exec (e.1 o) s = .next (s.maskPut (s.loopOf (s.h.slot o.t) o.mask o.neg) o.d.toNat fun r i =>
          (e.2 (s.h.kbit o.a.toNat r i) (s.h.kbit o.b.toNat r i), 0)).pastVector)) ∧
  (∀ (o : VArgs) (s : State), s.Solo → (o.mask == 7 && o.neg) = true →
    exec (.kpopc o) s = .next s.pastVector ∧ exec (.kfirst o) s = .next s.pastVector) ∧
  ∀ (o : VArgs) (s : State), s.Solo → (o.mask == 7 && o.neg) = false →
    let v := s.h.slot o.t
    let n := s.h.vlIn v
    let set := (List.range v.rows).flatMap fun r => ((List.range n).filter fun i =>
      s.h.act o.mask o.neg r i && s.h.kbit o.a.toNat r i).map fun i => r * n + i
    let done := fun (x : Word) => State.pastVector { s.wrote o.d x 1 0 with h := { (s.wrote o.d x 1 0).h with vstart := 0 } }
    exec (.kpopc o) s = .next (done (BitVec.ofNat 64 set.length)) ∧
    exec (.kfirst o) s = .next (done ((set.head?.map (BitVec.ofNat 64)).getD (BitVec.allOnes 64)))

/-- R170 to R176. A pool that no launch backs grants nothing (log 40, the model's choice). Of VCLAIMP's record (R173), the
words at 0, 4, 8 and 12 are its rows, its columns and the two cursors; 16 is the base, 24 the stride. -/
def Obligations.VectorConfigurationWords : Prop :=
  (∀ (o : RArgs) (s : State), s.Ready → s.h.role ≠ .control → s.guarded o.guard o.neg →
    let x := s.h.reg o.a.toNat
    let mx := s.h.maxIn (s.h.slot (o.b.getLsbD 0))
    let n := min x.toNat mx
    (s.h.role = .solo → exec (.vconf o) s = .next (State.past 4 o.stall.toNat { s with h := { s.h with
      span := o.a.toNat % 4, vl := 0, vstart := 0, rows := Vector.replicate 32 {} } })) ∧
    (exec (.vsetl o) s = .next ((takeCheckpoint (s.h.pc + 4)
        (State.wrote o.d (BitVec.ofNat 64 n) 1 0 { s with h := { s.h with vl := n } })).past 4 o.stall.toNat)) ∧
    (∀ l, look s.h.launch s.dev.launches = some l →
      let k := if x = 0 ∨ mx < x.toNat then mx else x.toNat
      let g := min k (l.packet.n.toNat - l.cursor)
      let t : State := { s with
        dev := { s.dev with launches := put s.h.launch { l with cursor := l.cursor + g } s.dev.launches }
        h := { (s.h.setReg o.a.toNat (BitVec.ofNat 64 g)) with vl := g } }
      exec (.vclaim o) s = .next ((takeCheckpoint (s.h.pc + 4)
        (t.wrote o.d (BitVec.ofNat 64 (if o.d = o.a then g else l.cursor)) 1 0)).past 4 o.stall.toNat)) ∧
    (look s.h.launch s.dev.launches = none →
      let t : State := { s with h := { (s.h.setReg o.a.toNat 0) with vl := 0 } }
      exec (.vclaim o) s = .next ((takeCheckpoint (s.h.pc + 4) (t.wrote o.d 0 1 0)).past 4 o.stall.toNat)) ∧
    (vtypeLegal x = true → exec (.vsett o) s =
      .next (State.past 4 o.stall.toNat { s with h := { s.h with vt := s.h.vt.setIfInBounds (o.d.toNat % 2) x } })) ∧
    (vtypeLegal x = false → exec (.vsett o) s = .next (State.trapped 0x19 x s.h.pc s)) ∧
    (thresholdsLegal x = true → exec (.wthset o) s =
      .next (State.past 4 o.stall.toNat { s with h := { s.h with wth := s.h.wth.setIfInBounds (o.d.toNat % 8) x } })) ∧
    (thresholdsLegal x = false → exec (.wthset o) s = .next (State.trapped 0x19 x s.h.pc s)) ∧
    ∀ (s1 : State) (es : List (BitVec 16)), s.h.role ≠ .computer →
      let ctl := s.h.reg o.b.toNat
      ctl.toNat % 4 ≠ 0 → ctl.toNat / 4 % 64 = 0 → ctl.toNat / 65536 = 0 → x.toNat % 2 = 0 →
      readTable x (2 ^ (2 * (ctl.toNat % 4) + 2)) s = .ok es s1 → s1.h.pfx = none → tableFault es = none →
      exec (.vcbld o) s = .next (State.past 4 o.stall.toNat (releasePins s1.cur { s1 with h := { s1.h with
        cbs := s1.h.cbs.setIfInBounds (o.d.toNat % 4) ⟨signed 8 (ctl.toNat / 256 % 256), es⟩ } }))) ∧
  ∀ (o : RArgs) (s s1 s2 : State) (rec' : List Byte) (id : Option Nat), s.Ready → s.h.role ≠ .control → s.h.role ≠ .computer →
    s.guarded o.guard o.neg →
    let x := s.h.reg o.a.toNat
    let slot := o.b.getLsbD 0
    let v := s.h.slot slot
    8 ≤ v.sew → x.toNat % 8 = 0 → loadBytes (some 0) x.toNat 32 8 s = .ok rec' s1 → s1.h.pfx = none →
    let rows := leAt rec' 0 4
    let cols := leAt rec' 4 4
    let r0 := leAt rec' 8 4
    let c0 := leAt rec' 12 4
    let stride := BitVec.ofNat 64 (leAt rec' 24 8)
    ((rows ≤ r0 ∨ cols = 0) →
      exec (.vclaimp o) s = .next ((takeCheckpoint (s1.h.pc + 4)
        (State.wrote o.d 0 1 0 { s1 with h := { s1.h with vl := 0 } })).past 4 o.stall.toNat)) ∧
    (r0 < rows → cols ≠ 0 →
      let r := min (rows - r0) 8
      let c := min (cols - c0) (s.h.maxIn v)
      let next := if cols ≤ c0 + c then (r0 + r, 0) else (r0, c0 + c)
      storeBytes (some 0) (x.toNat + 8) 8 (bytesOf 4 next.1 ++ bytesOf 4 next.2) s1 = .ok id s2 → s2.h.pfx = none →
      exec (.vclaimp o) s = .next ((takeCheckpoint (s2.h.pc + 4)
        (State.wrote o.d (BitVec.ofNat 64 (leAt rec' 16 8) + BitVec.ofNat 64 r0 * stride
            + BitVec.ofNat 64 (c0 * (v.sew / 8))) 1 0
          { s2 with h := { s2.h with
            vl := c, csr := { s2.h.csr with rowstr := stride }
            vt := s2.h.vt.setIfInBounds (if slot then 1 else 0) (wset v.word 8 6 (r - 1)) } })).past 4 o.stall.toNat))

/-- R373, R376, R126. No counted operation is outstanding. `Hart.before` holds the rows that the word in hand has overwritten. -/
def Obligations.CheckpointAndRewind : Prop :=
  (∀ (s : State) (next : Word), s.h.strip.buf = [] → s.h.pend = [] → s.h.ops = [] →
    let t := takeCheckpoint next s
    (∃ c, t.h.strip.check = some c ∧ (∀ n < 32, c.s[n]? = some (s.h.reg n)) ∧
      c = ⟨c.s, s.h.inHandler, s.h.csr.indmask, s.h.p, s.h.lastd, s.h.vl, s.h.vt, s.h.efc, s.h.csr.ncount, s.h.csr.fcsr, next⟩) ∧
    t.h.strip.early = false ∧ t.h.strip.retry = false ∧ t.h.strip.firstStore = none ∧ t.h.strip.aged = false ∧
    t.mem = s.mem ∧ t.h.s = s.h.s ∧ t.h.shadow = s.h.shadow) ∧
  ∀ (s : State) (c : Checkpoint), s.h.strip.check = some c → s.h.ops = [] →
    let t := rewind s
    (∀ n < 32, t.h.s[n]? = if n ≠ 0 ∧ c.mask.getLsbD n ∧ ¬(c.handler ∧ 24 ≤ n) then c.s[n]? else s.h.s[n]?) ∧
    (∀ n, 24 ≤ n → n < 32 → t.h.shadow[n - 24]? = if c.mask.getLsbD n ∧ c.handler then c.s[n]? else s.h.shadow[n - 24]?) ∧
    t.h.p = c.p ∧ t.h.lastd = c.lastd ∧ t.h.vl = c.vl ∧ t.h.vt = c.vt ∧ t.h.efc = c.efc ∧ t.h.csr.ncount = c.ncount ∧
    t.h.csr.fcsr = c.fcsr ∧ t.h.pc = c.pc ∧ t.h.vstart = 0 ∧ t.h.strip.buf = [] ∧ t.h.strip.retry = true ∧
    t.h.strip.rewinds = min (s.h.strip.rewinds + 1) 0xFFFF ∧ t.h.pend = [] ∧ t.mem = s.mem ∧ t.h.vq = [] ∧ t.h.staged = [] ∧
    t.h.rows = s.h.before.foldl (fun rows e => rows.setIfInBounds e.1 e.2) s.h.rows ∧
    t.h.k = s.h.k ∧ t.h.sup = s.h.sup ∧ t.h.mach = s.h.mach ∧ t.h.mode = s.h.mode ∧ t.h.inHandler = s.h.inHandler

/-- R139 to R141, in both directions. That a segment's fields share their element's number is the model's choice (log 52). -/
def Obligations.VectorElementAddresses : Prop :=
  ∀ (o : MArgs) (s : State) (e : Elt),
    let v := s.h.slot false
    let n := s.h.vlIn v
    let F := if o.mode = 3 then o.b.toNat + 1 else 1
    let base := fun (r : Nat) => s.h.reg o.a.toNat + BitVec.ofNat 64 r * s.h.csr.rowstr
    let index := fun (r i : Nat) => Machine.getElem (groupRow s ⟨o.b.toNat, v.rows⟩ r).bits v.sew i % 2 ^ 64
    (8 ≤ v.sew → (e ∈ memElts s v o s.h.vstart ↔ ∃ r < v.rows, ∃ i < n, ∃ f < F,
      s.h.act o.mask o.neg r i = true ∧ s.h.vstart ≤ r * n + i ∧
      e = ⟨r * n + i,
        (base r + BitVec.ofNat 64 (if o.mode = 0 then i * (v.sew / 8) else if o.mode = 1 then i * (s.h.reg o.b.toNat).toNat
          else if o.mode = 2 then index r i else (i * F + f) * (v.sew / 8))).toNat,
        v.sew / 8, f * v.rows + r, [(i, 0)]⟩)) ∧
    (v.sew < 8 →
      let per := if v.sew = 4 then 2 else 5
      let size := if v.sew = 4 then 1 else 4
      let here := fun (r c : Nat) => (List.range per).filter fun j =>
        decide (c * per + j < n) && s.h.act o.mask o.neg r (c * per + j) && decide (s.h.vstart ≤ r * n + (c * per + j))
      (e ∈ memElts s v o s.h.vstart ↔ ∃ r < v.rows, ∃ c < (n + per - 1) / per, ∃ j, (here r c).head? = some j ∧
        e = ⟨r * n + (c * per + j), ((base r).toNat + c * size) % 2 ^ 64, size, r,
          (here r c).map fun k => (c * per + k, v.sew * k)⟩))

/-- R139 to R150. `memElts` is stated by `VectorElementAddresses`; `loadedRows` places each value at its element. That the
link set takes every line that an element touches is the model's choice (log 27), as is the mark, of the highest element
written (log 26). Packed tiles are `PackedTiles`. -/
def Obligations.VectorLoads : Prop :=
  let done := fun (s : State) (o : MArgs) (F : Nat) (got : List (Elt × Nat)) =>
    let v := s.h.slot false
    let t := writeGroup (s.h.maxIn v) ⟨o.d.toNat, F * v.rows⟩
      (loadedRows (s.loopOf v o.mask o.neg) (groupRows s ⟨o.d.toNat, F * v.rows⟩) got none) s
    ({ t with h := { t.h with vstart := 0 } } : State)
  let legal := fun (s : State) (o : MArgs) (F : Nat) =>
    let v := s.h.slot false
    groupsLegal s.h (some (⟨o.d.toNat, F * v.rows⟩, false))
      (if o.mode = 2 then [⟨⟨o.b.toNat, v.rows⟩, false⟩] else [])
  let F := fun (o : MArgs) => if o.mode = 3 then o.b.toNat + 1 else 1
  (∀ e ∈ ([Instr.vld, .vlda, .vgll] : List (MArgs → Instr)), ∀ (o : MArgs) (s : State), s.Solo →
    (o.mode = 3 → o.b ≠ 0) → legal s o (F o) = false →
    exec (e o) s = .next (State.trapped 0x01 (BitVec.ofNat 64 (e o).word) s.h.pc s)) ∧
  (∀ e ∈ ([Instr.vld, .vlda, .vgll, .vldcl] : List (MArgs → Instr)), ∀ (o : MArgs) (s : State), s.Solo → o.mode ≠ 3 →
    legal s o 1 = true → (o.mask == 7 && o.neg) = true → exec (e o) s = .next s.pastVector) ∧
  (∀ (o : MArgs) (s : State) (value : Elt → Nat), s.Solo → s.unpinned → (o.mode = 3 → o.b ≠ 0) →
    let v := s.h.slot false
    let es := memElts s v o s.h.vstart
    s.h.mode = .machine → s.h.strip.buf = [] → legal s o (F o) = true → (o.mask == 7 && o.neg) = false →
    (o.mode = 0 ∨ 8 ≤ v.sew ∧ v.fmt ≠ 3) →
    (∀ e ∈ es, s.Plain e.va e.size ∧ (v.sew = 6 → e.va % 4 = 0) ∧
      ∃ bs, physRead s.ctx e.va e.size s = .ok (s, bs, none) ∧ natOfBytes bs = value e) →
    let t := done s o (F o) (es.map fun e => (e, value e))
    exec (.vld o) s = .next t.pastVector ∧ exec (.vlda o) s = .next t.pastVector ∧
    (o.mode ≠ 3 → exec (.vgll o) s = .next (State.pastVector { t with h := { t.h with
      vlink := es.foldl (fun l e => (l ++ (cutAt 128 (e.size / 128 + 2) e.va e.size).map
        fun (p : Nat × Nat) => p.1 / 128 * 128).dedup) [] } }))) ∧
  ∀ (o : MArgs) (s : State) (value : Elt → Nat), s.Solo → o.mode = 2 →
    let v := s.h.slot false
    let es := clusterElts s v o
    s.h.mode = .machine → s.h.strip.buf = [] → legal s o 1 = true → (o.mask == 7 && o.neg) = false →
    (v.sew = 32 ∨ v.sew = 64) →
    (∀ e ∈ es, e.va < 2 ^ 27 ∧ e.va / 2 ^ 20 < 96 ∧
      let pa := 0x100000000000 + coordCluster s.cur * 2 ^ 27 + e.va / 2 ^ 20 * 2 ^ 20 +
        ((s.h.reg o.a.toNat).toNat + e.va % 2 ^ 20) % 2 ^ 20
      pa % (v.sew / 8) = 0 ∧ ∃ bs, physRead s.ctx pa e.size s = .ok (s, bs, none) ∧ natOfBytes bs = value e) →
    exec (.vldcl o) s = .next (done s o 1 (es.map fun e => (e, value e))).pastVector

/-- R139 to R150, R181. `storedBytes` gives an access's bytes and the bits it writes. That the elements perform in order, so
that the last of two writes to a byte stays, is the model's choice (log 26); that VSTL and VSCC write at once, and VSCC only
where every line that an element touches is linked, is another (log 27). -/
def Obligations.VectorStores : Prop :=
  let legal := fun (s : State) (o : MArgs) (F : Nat) =>
    let v := s.h.slot false
    groupsLegal s.h none (⟨⟨o.d.toNat, F * v.rows⟩, false⟩ :: (if o.mode = 2 then [⟨⟨o.b.toNat, v.rows⟩, false⟩] else []))
  let F := fun (o : MArgs) => if o.mode = 3 then o.b.toNat + 1 else 1
  let bytes := fun (s : State) (o : MArgs) (e : Elt) =>
    storedBytes (s.h.slot false) (sourceRows s ⟨o.d.toNat, F o * (s.h.slot false).rows⟩) e
  let ready := fun (s : State) (o : MArgs) =>
    s.Solo ∧ s.unpinned ∧ s.h.mode = .machine ∧ s.h.strip.buf = [] ∧ legal s o (F o) = true ∧ (o.mask == 7 && o.neg) = false
  let plain := fun (s : State) (o : MArgs) (es : List Elt) =>
    (o.mode = 0 ∨ 8 ≤ (s.h.slot false).sew ∧ (s.h.slot false).fmt ≠ 3) ∧
    ∀ e ∈ es, s.Plain e.va e.size ∧ ((s.h.slot false).sew = 6 → e.va % 4 = 0)
  (∀ e ∈ ([Instr.vst, .vstl, .vscc, .vstn, .vstcl] : List (MArgs → Instr)), ∀ (o : MArgs) (s : State), s.Solo → o.mode ≠ 3 →
    (legal s o 1 = false →
      exec (e o) s = .next (State.trapped 0x01 (BitVec.ofNat 64 (e o).word) s.h.pc s)) ∧
    (legal s o 1 = true → (o.mask == 7 && o.neg) = true → exec (e o) s = .next s.pastVector)) ∧
  (∀ (o : MArgs) (s : State), (o.mode = 3 → o.b ≠ 0) → ready s o →
    let es := memElts s (s.h.slot false) o s.h.vstart
    plain s o es → (es.flatMap fun e => sectors e.va e.size).length ≤ 1024 →
    let t : State := { s with h := (s.h.bufferAll (some o.cls.toNat)
      (es.map fun e => (e.va, bytes s o e))) }
    exec (.vst o) s = .next (State.pastVector { t with h := { t.h with vstart := 0 } }) ∧
    (s.h.csr.notify.getLsbD 0 = false → exec (.vstn o) s = .next (State.trapped 0x18 s.h.csr.notify s.h.pc s)) ∧
    ∀ w, s.h.csr.notify.getLsbD 0 = true →
      let count := s.h.csr.ncount + BitVec.ofNat 64 (s.h.vlIn (s.h.slot false) * (s.h.slot false).rows)
      storeRelease 2 (notifyAddr s.h.csr.notify) (bytesOf 8 count.toNat) (earlyCommit 2 t) = .ok () w →
      w.h.pfx = none → w.h.role = .solo → w.unpinned →
      exec (.vstn o) s =
        .next (State.pastVector { w with h := { w.h with csr := { w.h.csr with ncount := count }, vstart := 0 } })) ∧
  (∀ (o : MArgs) (s w : State), (o.mode = 3 → o.b ≠ 0) → ready s o → unstepped s = false →
    let es := memElts s (s.h.slot false) o s.h.vstart
    plain s o es →
    State.putNow (es.map fun e => (e.va, bytes s o e)) (earlyCommit 2 s) = some w →
    exec (.vstl o) s = .next (State.pastVector { w with h := { w.h with vstart := 0 } })) ∧
  (∀ (o : MArgs) (s w : State), o.mode = 2 → ready s o → unstepped s = false →
    let v := s.h.slot false
    let es := clusterElts s v o
    (v.sew = 32 ∨ v.sew = 64) →
    let pa := fun (e : Elt) => 0x100000000000 + coordCluster s.cur * 2 ^ 27 + e.va / 2 ^ 20 * 2 ^ 20 +
      ((s.h.reg o.a.toNat).toNat + e.va % 2 ^ 20) % 2 ^ 20
    (∀ e ∈ es, e.va < 2 ^ 27 ∧ e.va / 2 ^ 20 < 96 ∧ pa e % (v.sew / 8) = 0) →
    State.putNow (es.map fun e => (pa e, (bytes s o e).1, [])) (earlyCommit 2 s) = some w →
    exec (.vstcl o) s = .next (State.pastVector { w with h := { w.h with vstart := 0 } })) ∧
  ∀ (o : MArgs) (s w : State), o.mode ≠ 3 → ready s o → unstepped s = false →
    let v := s.h.slot false
    let es := memElts s v o s.h.vstart
    let all := memElts s v o 0
    let stored := fun (e : Elt) =>
      ((cutAt 128 (e.size / 128 + 2) e.va e.size).all fun p => s.h.vlink.contains (p.1 / 128 * 128)) &&
        !(all.any fun x => decide (x.idx < e.idx) && x.va / x.size == e.va / e.size)
    plain s o es →
    State.putNow ((es.filter stored).map fun e => (e.va, bytes s o e))
      (earlyCommit 2 s) = some w → w.h.vlink = s.h.vlink →
    let n := s.h.vlIn v
    let ok := fun (r i : Nat) => if r * n + i < s.h.vstart then s.h.kbit (o.cls.toNat % 8) r i
      else decide (r * n + i < n * v.rows) && es.any fun e => stored e && (e.g == r && (e.els.map (·.1)).contains i)
    exec (.vscc o) s = .next (State.pastVector { w with h := {
      (w.h.setK (o.cls.toNat % 8) ((List.range v.rows).map fun r => (List.range n).foldl (fun (b : BitVec 8192) i =>
        if ok r i then b ||| BitVec.ofNat 8192 (2 ^ i) else b) 0)) with vstart := 0, vlink := [] } })

/-- R296: bits 1:0 of the header are LEVELS, 4:2 THR, 5 the format, 21:8 vl, 63:32 the number of values. That VST.w stores in
pieces of 32 bytes is the model's choice (log 28). -/
def Obligations.PackedTiles : Prop :=
  ∀ (o : MArgs) (s : State), s.Solo → s.unpinned → s.h.mode = .machine → s.h.strip.buf = [] → o.mode = 3 → o.b = 0 →
    (o.mask == 7 && !o.neg) = true → o.d.toNat + 8 ≤ 32 / 2 ^ s.h.span →
    let v := s.h.slot false
    let n := s.h.vlIn v
    let va := (s.h.reg o.a.toNat).toNat
    ((v.float = none ∨ v.rows ≠ 8 ∨ o.d.toNat % 8 ≠ 0 ∨ v.float = some fp16 ∨ v.float = some fp64) →
      exec (.vld o) s = .next (State.trapped 0x18 v.word s.h.pc s) ∧
      exec (.vst o) s = .next (State.trapped 0x18 v.word s.h.pc s)) ∧
    ∀ F, v.float = some F → (F = fp32 ∨ F = bf16) → v.rows = 8 → o.d.toNat % 8 = 0 → n ≠ 0 → va % 8 = 0 →
      (∀ hd : List Byte, s.Plain va 8 → physRead s.ctx va 8 s = .ok (s, hd, none) → headerBad F n (natOfBytes hd) = true →
        exec (.vld o) s = .next (State.trapped 0x18 (BitVec.ofNat 64 va) s.h.pc s)) ∧
      (∀ (hd map vals : List Byte) (count : Nat),
        let e := F.width / 8
        let h0 := natOfBytes hd
        let m0 := natOfBytes map
        let size := 8 + bitmapSize n + valuesSize F count
        s.Plain va size → va + size < 2 ^ 64 →
        physRead s.ctx va 8 s = .ok (s, hd, none) → physRead s.ctx (va + 8) (bitmapSize n) s = .ok (s, map, none) →
        (count ≠ 0 → physRead s.ctx (va + 8 + bitmapSize n) (valuesSize F count) s = .ok (s, vals, none)) →
        headerBad F n h0 = false → h0 / 2 ^ 32 = count → m0 < 2 ^ (8 * n) → popCount (8 * n) m0 = count →
        (∀ b ∈ vals.drop (count * e), count ≠ 0 → b = 0) →
        let w : Loop := { s.loopOf v o.mask o.neg with start := 0 }
        let t := writeGroup (s.h.maxIn v) ⟨o.d.toNat, 8⟩ ((w.rows (fun r i res =>
          some ⟨if m0.testBit (r * n + i) then leAt vals (e * popCount (r * n + i) m0) e else 0, 0, res⟩)
          (fun _ => haarTag (h0 % 4) (h0 / 4 % 8)) (groupRows s ⟨o.d.toNat, 8⟩) fun _ => 0).map (·.1)) s
        exec (.vld o) s = .next (State.pastVector { t with h := { t.h with vstart := 0 } })) ∧
      let x := tileOf F s v o.d.toNat
      let bs := tileBytes F n x.1 x.2.1 (fun _ _ => true) x.2.2.1
      s.Plain va bs.length → va + bs.length < 2 ^ 64 → bs.length ≤ 32000 →
      let t : State := { s with h := (s.h.bufferAll (some o.cls.toNat) ((cutAt 32 (bs.length / 32 + 2) va bs.length).map
        fun p => (p.1, (bs.drop (p.1 - va)).take p.2, []))).raiseFlags x.2.2.2 }
      exec (.vst o) s = .next (State.pastVector { t with h := { t.h with vstart := 0 } })

/-- R357 to R362. No tuple request of the hart is unstepped, and a migration holds none of its stores (R85). That a trap of the
control core may wait is the model's choice (log 51). -/
def Obligations.SyncWords : Prop :=
  ∀ (o : RArgs) (s : State), s.Ready → s.guarded o.guard o.neg → unstepped s = false → unstepped (earlyCommit 2 s) = false →
    let x := s.h.reg o.a.toNat
    let y := s.h.reg o.b.toNat
    let core := coreIndex s.cur
    let me := coordSlot s.cur
    let waits := fun (i : RArgs → Instr) (w : Wait) (t : State) => s.waits (i o) w t
    let form := fun (v : Word) (t : State) => State.trapped 0x1C v s.h.pc t
    (o.a = 0 → ¬s.loaded → exec (.fence o) s = .next (waits .fence .matrix s)) ∧
    (s.loaded → (earlyCommit 2 s).loaded →
    (x.toNat < 2 ^ 32 → exec (.fence o) s = .next ((if o.d = 0 then s else earlyCommit 3 s).past 4 o.stall.toNat)) ∧
    (2 ^ 32 ≤ x.toNat → exec (.fence o) s = .next (form x s)) ∧
    ((∀ r ∈ s.tuples.replies, r.req.coord ≠ s.cur) →
      let t := earlyCommit 3 s
      (t.h.errs = [] → exec (.efence o) s = .next (t.past 4 o.stall.toNat)) ∧
      (∀ e rest, t.h.errs = e :: rest →
        let u := State.trapped e.cause e.tval t.h.pc { t with h := { t.h with errs := rest } }
        (entryWaits t = false → exec (.efence o) s = .next { u with h := u.h.ended }) ∧
        (entryWaits t = true → exec (.efence o) s = .next (waits .efence .matrix t)))) ∧
    (∀ (s1 : State) (bs : List Byte), s.h.role ≠ .computer → s.Plain x.toNat 8 → x.toNat % 8 = 0 →
      physRead s.ctx x.toNat 8 (earlyCommit 3 s) = .ok (s1, bs, none) → s1.h.pfx = none →
      (y.toNat ≤ natOfBytes bs → natOfBytes bs < 2 ^ 64 → exec (.waitge o) s = .next (s1.past 4 o.stall.toNat)) ∧
      (natOfBytes bs < y.toNat →
        exec (.waitge o) s = .next (waits .waitge (.progress x.toNat y o.stall.toNat) s1))) ∧
    (s.h.role ≠ .computer → s.h.mode = .machine → x.toNat % 8 ≠ 0 →
      exec (.waitge o) s = .next (State.trapped 0x16 x s.h.pc s)) ∧
    ((s.h.deps[o.a.toNat]?.getD 0) ≤ o.b.toNat → exec (.waitdc o) s = .next (s.past 4 o.stall.toNat)) ∧
    (o.b.toNat < (s.h.deps[o.a.toNat]?.getD 0) → exec (.waitdc o) s = .next (waits .waitdc .order s)) ∧
    ((x = 0 ∨ 8 < x.toNat) → exec (.bar o) s = .next (form x s)) ∧
    (x ≠ 0 → x.toNat ≤ 8 → o.d.toNat < 8 →
      let b := (coreOf s core).barriers[o.d.toNat]?.getD {}
      let t := earlyCommit 3 s
      let set := fun (b : Barrier) (u : State) =>
        setCore core { coreOf u core with barriers := (coreOf u core).barriers.setIfInBounds o.d.toNat b } u
      (me ∈ b.released → exec (.bar o) s =
        .next ((set { b with released := b.released.filter (· != me) } s).past 4 o.stall.toNat)) ∧
      (me ∉ b.released → me ∈ b.arrived → exec (.bar o) s = .next (waits .bar .order s)) ∧
      (me ∉ b.released → me ∉ b.arrived → b.arrived ≠ [] → b.count ≠ x.toNat → exec (.bar o) s = .next (form x t)) ∧
      (me ∉ b.released → me ∉ b.arrived → (b.arrived = [] ∨ b.count = x.toNat) →
        (b.arrived.length + 1 < x.toNat →
          exec (.bar o) s = .next (waits .bar .order (set { b with count := x.toNat, arrived := b.arrived ++ [me] } t))) ∧
        (x.toNat ≤ b.arrived.length + 1 →
          let u := set ⟨x.toNat, [], b.released ++ (b.arrived ++ [me])⟩ t
          exec (.bar o) s =
            .next ((set ⟨x.toNat, [], (b.released ++ (b.arrived ++ [me])).filter (· != me)⟩ u).past 4 o.stall.toNat)))) ∧
    (let cl := coordCluster s.cur
     let slot := slotInCluster s.cur
     let window := fun (u : State) => (clusterOf u cl).ownwin[x.toNat]?.getD 0
     let set := fun (d : Word) (u : State) =>
       setCluster cl { clusterOf u cl with ownwin := (clusterOf u cl).ownwin.setIfInBounds x.toNat d } u
     let held := (window s).getLsbD 63 = true ∧ (window s).getLsbD 62 = false ∧
       (s.h.mode = .user → wbits (window s) 41 32 = slot)
     let offered := fun (u : State) => (window u).getLsbD 63 = true ∧ (window u).getLsbD 62 = true ∧ wbits (window u) 51 42 = slot
     (15 < x.toNat → exec (.hgive o) s = .next (form x s) ∧ exec (.htake o) s = .next (form x s)) ∧
     (x.toNat ≤ 15 → 768 ≤ y.toNat → exec (.hgive o) s = .next (form y s)) ∧
     (x.toNat ≤ 15 → y.toNat < 768 →
       (held → exec (.hgive o) s = .next ((set (wset (wset (window s) 62 62 1) 51 42 y.toNat) (earlyCommit 2 s)).past 4
         o.stall.toNat)) ∧
       (¬held → exec (.hgive o) s = .next (State.trapped 0x17 0 s.h.pc s))) ∧
     (x.toNat ≤ 15 →
       let t := earlyCommit 2 s
       (offered t → exec (.htake o) s = .next ((set (wset (wset (window t) 62 62 0) 41 32 slot) t).past 4 o.stall.toNat)) ∧
       (¬offered t → exec (.htake o) s = .next (waits .htake .order t))))) ∧
    ∀ (u s1 : State) (l : Latch) va least stall v, u.h.waiting = some (.progress va least stall) → u.h.latch = some l →
      progressRead va { u with h := { u.h with given := l.given } } = .ok v s1 →
      (least.toNat ≤ v.toNat →
        exec .waitgeRecheck u = .next (State.past 4 stall { s1 with h := { s1.h with pfx := none } })) ∧
      (v.toNat < least.toNat → exec .waitgeRecheck u = .next { s1 with h := { s1.h with given := [] } })

/-- R161, R314, R356. A queue is named by R356's numbers: 0 to 3 lq, 4 to 7 sq, 8 and 9 bq. -/
def Obligations.CrewQueueWords : Prop :=
  ∀ (s : State), s.Ready → unstepped s = false → unstepped (earlyCommit 2 s) = false →
    let base := s.cur - s.h.stage
    let crew := fun (u : State) => lookD {} base u.crews
    (∀ e ∈ ([(Instr.bqNz, fun v => v != 0), (.bqZ, fun v => v == 0)] : List ((BqArgs → Instr) × (Word → Bool))), ∀ (o : BqArgs),
      (s.h.role ≠ .computer → exec (e.1 o) s = .next (State.trapped 0x04 (BitVec.ofNat 64 (e.1 o).word) s.h.pc s)) ∧
      (s.h.role = .computer → (crew s).bqs[o.a.toNat]?.getD [] = [] →
        exec (e.1 o) s = .next (s.waits (e.1 o) .ring (earlyCommit 3 s))) ∧
      (∀ v rest, s.h.role = .computer → (crew s).bqs[o.a.toNat]?.getD [] = v :: rest →
        let t := earlyCommit 2 s
        let u : State := { t with crews := put base { crew s with bqs := (crew s).bqs.setIfInBounds o.a.toNat rest } t.crews }
        exec (e.1 o) s = .next (if e.2 v then u.jumped (branchTarget s.h.pc o.off) else u.past 4 0))) ∧
    (∀ (o : RArgs), s.guarded o.guard o.neg →
      let m := s.h.reg o.a.toNat
      let named := (List.range 10).filter fun q => m.getLsbD q
      let pushes := fun (q : Nat) => (s.h.role = .loader ∧ (q < 4 ∨ 8 ≤ q)) ∨ (s.h.role = .computer ∧ 4 ≤ q ∧ q < 8)
      let pops := fun (q : Nat) => (s.h.role = .computer ∧ (q < 4 ∨ 8 ≤ q)) ∨ (s.h.role = .storer ∧ 4 ≤ q ∧ q < 8)
      ((s.h.role = .solo ∨ s.h.role = .control) →
        exec (.qdrain o) s = .next (State.trapped 0x04 (BitVec.ofNat 64 (Instr.qdrain o).word) s.h.pc s)) ∧
      (s.h.role ≠ .solo → s.h.role ≠ .control →
        (2 ^ 10 ≤ m.toNat → exec (.qdrain o) s = .next (State.trapped 0x1C m s.h.pc s)) ∧
        (m.toNat < 2 ^ 10 → (∃ q ∈ named, ¬pushes q ∧ ¬pops q) →
          exec (.qdrain o) s = .next (State.trapped 0x04 (BitVec.ofNat 64 (Instr.qdrain o).word) s.h.pc s)) ∧
        (m.toNat < 2 ^ 10 → (∀ q ∈ named, pushes q ∨ pops q) →
          ((∃ q ∈ named, pushes q ∧ queueEmpty (crew s) q = false) →
            exec (.qdrain o) s = .next (s.waits (.qdrain o) .ring (earlyCommit 3 s))) ∧
          ((∀ q ∈ named, pushes q → queueEmpty (crew s) q = true) → (∀ q ∈ named, ¬pops q) →
            exec (.qdrain o) s = .next (s.past 4 o.stall.toNat)) ∧
          ((∀ q ∈ named, pushes q → queueEmpty (crew s) q = true) → (∃ q ∈ named, pops q) → ∃ t,
            exec (.qdrain o) s = .next t ∧ t.mem = (earlyCommit 2 s).mem ∧
            (∀ q < 10, (q ∈ named ∧ pops q → queueEmpty (crew t) q = true) ∧
              (¬(q ∈ named ∧ pops q) → queueEmpty (crew t) q = queueEmpty (crew s) q)))))) ∧
    ∀ (o : BqpushArgs), s.h.role = .loader →
      let q := o.queue % 2
      let l := (crew s).bqs[q]?.getD []
      (l.length < 16 → ∃ t, exec (.bqpush o) s = .next t ∧ (crew t).bqs[q]?.getD [] = l ++ [o.value] ∧ t.h.s = s.h.s) ∧
      (16 ≤ l.length →
        let t := earlyCommit 3 s
        exec (.bqpush o) s = .next { t with h := { t.h with waiting := some .ring, clock := t.h.clock + 1 } })

/-- R269 to R274. The command FIFO holds 64, a reply FIFO 16, the A port 64 rows. -/
def Obligations.PortWords : Prop :=
  ∀ (o : RArgs) (s : State), s.Ready → s.guarded o.guard o.neg → unstepped s = false →
    unstepped (earlyCommit 2 s) = false → s.loaded →
    let x := s.h.reg o.a.toNat
    let cl := coordCluster s.cur
    let t := earlyCommit 2 s
    let waits := fun (i : RArgs → Instr) (w : Wait) (u : State) => s.waits (i o) w u
    let control := s.h.role = .control
    let ill := fun (i : Instr) => State.trapped 0x01 (BitVec.ofNat 64 i.word) s.h.pc s
    (o.d.toNat ≠ (if control then 1 else 2) → exec (.enq o) s = .next (ill (.enq o))) ∧
    (¬control → o.d = 2 → o.b = 0 →
      ((clusterOf t cl).cmds.length < 64 → exec (.enq o) s =
        .next ((setCluster cl { clusterOf t cl with cmds := (clusterOf t cl).cmds ++ [x] } t).past 4 o.stall.toNat)) ∧
      (64 ≤ (clusterOf t cl).cmds.length → exec (.enq o) s = .next (waits .enq .port t))) ∧
    (control → o.d = 1 →
      let n := (s.h.reg o.b.toNat).toNat
      let tgt := coordOf cl (n / 8) (n % 8)
      (768 ≤ n → exec (.enq o) s = .next (State.trapped 0x1F (s.h.reg o.b.toNat) s.h.pc s)) ∧
      (n < 768 → (slotOf t tgt).reply.length < 16 → exec (.enq o) s =
        .next ((setSlot tgt { slotOf t tgt with reply := (slotOf t tgt).reply ++ [x] } t).past 4 o.stall.toNat)) ∧
      (n < 768 → 16 ≤ (slotOf t tgt).reply.length → exec (.enq o) s = .next (waits .enq .port t))) ∧
    (o.a.toNat ≠ (if control then 0 else 3) → exec (.deq o) s = .next (ill (.deq o))) ∧
    (o.a.toNat = (if control then 0 else 3) → o.b = 7 →
      (∀ v rest, ¬control → (slotOf t s.cur).reply = v :: rest → exec (.deq o) s =
        .next (((setSlot s.cur { slotOf t s.cur with reply := rest } t).wrote o.d v 1 0).past 4 o.stall.toNat)) ∧
      (¬control → (slotOf t s.cur).reply = [] → exec (.deq o) s = .next (waits .deq .port t)) ∧
      (∀ v rest, control → (clusterOf t cl).cmds = v :: rest → exec (.deq o) s =
        .next (((setCluster cl { clusterOf t cl with cmds := rest } t).wrote o.d v 1 0).past 4 o.stall.toNat)) ∧
      (control → (clusterOf t cl).cmds = [] → exec (.deq o) s = .next (waits .deq .port t))) ∧
    (o.a.toNat = (if control then 0 else 3) → o.b.toNat < 6 → (s.h.deps[o.b.toNat]?.getD 0) < 63 →
      exec (.deq o) s = .next (State.past 4 o.stall.toNat { t with h := { t.h with
        ops := [{ kind := .deq o.a.toNat, counter := o.b.toNat, dest := some o.d.toNat, copy := none, shadow := s.h.inHandler
                  order := t.h.words }]
        deps := t.h.deps.setIfInBounds o.b.toNat ((t.h.deps[o.b.toNat]?.getD 0) + 1), lastd := o.d } })) ∧
    (s.h.role = .solo →
      let v := s.h.slot false
      let q := s.cur / 256 % 128 / 24
      let n := s.h.vlIn v
      (∀ w, o.d = 0 → groupsLegal s.h none [⟨⟨o.a.toNat, v.rows⟩, false⟩] = true →
        (w = 256 ∧ (v.fmt = 2 ∧ v.sew = 16 ∨ v.fmt = 0 ∧ v.sew = 8) ∨ w = 128 ∧ v.fmt = 1 ∧ v.sew = 64) → n ≤ w →
        let block := v.rows = 8 ∧ o.a.toNat % 8 = 0 ∧ (blockOf t o.a.toNat).isSome = true
        let xs := fun r => (List.range n).map fun i => t.elem v (decide block) o.a.toNat r i
        let rows := (List.range v.rows).map fun r => (⟨v.fmt, v.sew,
          if block then (groupRow t ⟨o.a.toNat, v.rows⟩ r).tag else 0,
          (xs r).map (·.1) ++ List.replicate (w - n) 0⟩ : PortRow)
        let k := quadOf t cl q
        (k.aPort.length + v.rows ≤ 64 →
          let u := setQuad cl q { k with aPort := k.aPort ++ rows } t
          exec (.venq o) s = .next (State.past 4 o.stall.toNat { u with
            h := (u.h.raiseFlags (orFlags ((List.range v.rows).map fun r => orFlags ((xs r).map (·.2))))) })) ∧
        (64 < k.aPort.length + v.rows → exec (.venq o) s = .next (s.waits (.venq o) .port t (some (o.stall.toNat, false))))) ∧
      (o.a = 1 → groupsLegal s.h (some (⟨o.d.toNat, v.rows⟩, false)) [] = true →
        let k := quadOf t cl q
        (k.outPort.length < v.rows → exec (.vdeq o) s = .next (waits .vdeq .port t)) ∧
        (∀ first rest, k.outPort = first :: rest → v.rows ≤ k.outPort.length → 0 < v.rows →
          (¬(first.fmt = v.fmt ∧ first.sew = v.sew ∧ first.vals.length ≤ s.h.maxIn v) →
            exec (.vdeq o) s = .next (State.trapped 0x19 v.word s.h.pc t)) ∧
          (first.fmt = v.fmt ∧ first.sew = v.sew ∧ first.vals.length ≤ s.h.maxIn v →
            let u := setQuad cl q { k with outPort := k.outPort.drop v.rows } t
            let out := ((groupRows t ⟨o.d.toNat, v.rows⟩).zip (k.outPort.take v.rows)).map fun e =>
              let w := e.2.vals.zipIdx.foldl (fun w x => Wide.set w v.sew x.2 (x.1 % 2 ^ v.sew)) e.1
              ({ ((w.cutTail v e.2.vals.length (s.h.maxIn v)).markTo e.2.vals.length) with tag := e.2.tag } : Wide)
            let y := writeGroup (s.h.maxIn v) ⟨o.d.toNat, v.rows⟩ out u
            exec (.vdeq o) s = .next (State.past 4 o.stall.toNat { y with h := { y.h with vstart := 0 } })))))

/-- R119 to R124. CTL's fields are those of R121 and R122; a class without ENGINE words traps by R34, which `issue` says. Where
a routine's entry lies, and what counts as a valid one, is the model's choice (log 10), as is CHCLR on an idle channel. -/
def Obligations.ChannelWords : Prop :=
  ∀ (o : RArgs) (s : State), s.Ready → s.guarded o.guard o.neg → unstepped s = false →
    unstepped (earlyCommit 2 s) = false →
    let core := coreIndex s.cur
    let t := earlyCommit 2 s
    let a := s.h.reg o.a.toNat
    let ctl := s.h.reg o.b.toNat
    let ch := (coreOf s core).channels[o.d.toNat]?.getD {}
    let set := fun (c : Channel) (u : State) =>
      setCore core { coreOf u core with channels := (coreOf u core).channels.setIfInBounds o.d.toNat c } u
    let waits := fun (i : RArgs → Instr) (w : Wait) (u : State) => s.waits (i o) w u
    let traps := fun (c : Nat) (v : Word) => State.trapped c v s.h.pc s
    let number := BitVec.ofNat 64 o.d.toNat
    (s.h.role ≠ .computer →
      let esize := wbits ctl 42 40
      let count := wbits ctl 39 0
      (ch.state ≠ .idle → exec (.charm o) s = .next (traps 0x21 number)) ∧
      (ch.state = .idle → (wbits ctl 63 44 ≠ 0 ∨ esize = 7 ∨ count = 0) → exec (.charm o) s = .next (traps 0x22 ctl)) ∧
      (ch.state = .idle → wbits ctl 63 44 = 0 → esize ≠ 7 → count ≠ 0 →
        let size := count * 2 ^ esize
        let legal := a.toNat % 2 ^ esize = 0 ∧ canonical a.toNat = true ∧ a.toNat % 2 ^ 55 + size ≤ 2 ^ 55 ∧
          ∀ c ∈ (coreOf s core).channels.toList, c.state = .idle ∨
            ¬(a.toNat < c.base + c.expected * 2 ^ c.esize ∧ c.base < a.toNat + size)
        let armed : Channel := { state := .armed, owner := coordSlot s.cur, base := a.toNat, esize := esize, expected := count
                                 uie := ctl.getLsbD 43 }
        (¬legal → exec (.charm o) s = .next (traps 0x22 a)) ∧
        (legal → exec (.charm o) s = .next ((set armed t).past 4 o.stall.toNat)))) ∧
    (s.h.role ≠ .computer →
      let n := s.h.vl * (s.h.slot false).rows
      let routine := wbits ctl 7 0
      let mine := ch.owner = coordSlot s.cur ∧ ch.held = false ∧ ch.state ≠ .idle
      (¬mine → exec (.stream o) s = .next (traps 0x21 number)) ∧
      (mine → ch.state = .failed → exec (.stream o) s = .next (traps 0x23 number)) ∧
      (routine < 16 → routineEntry routine s = .ok (if routine ≤ 4 then some (0, decide (routine ≠ 0)) else none) s) ∧
      (∀ s1 bs, 16 ≤ routine →
        physRead { initiator := 0x10 + engineOf core } (s.h.csr.cerout.toNat + 16 * routine) 16 s = .ok (s1, bs, none) →
        routineEntry routine s = .ok (if (leAt bs 8 4 = 1 ∨ leAt bs 8 4 = 3) ∧ leAt bs 12 4 = 0 ∧ leAt bs 0 8 % 4 = 0 then
          some (leAt bs 0 8, decide (leAt bs 8 4 = 3)) else none) s1) ∧
      (∀ s1 entry, mine → ch.state ≠ .failed → routineEntry routine s = .ok entry s1 → s1.h.pfx = none →
        let form := wbits ctl 63 48 = 0 ∧ wbits ctl 15 11 = 0 ∧ wbits ctl 10 8 = ch.esize ∧ entry.isSome = true
        let t1 := earlyCommit 2 s1
        (¬form → exec (.stream o) s = .next (State.trapped 0x22 ctl s1.h.pc s1)) ∧
        (form → ch.expected < ch.issued + n →
          exec (.stream o) s = .next (State.trapped 0x24 (BitVec.ofNat 64 (ch.expected - ch.issued)) s1.h.pc s1)) ∧
        (form → ch.issued + n ≤ ch.expected →
          (n = 0 → exec (.stream o) s = .next (t1.past 4 o.stall.toNat)) ∧
          (n ≠ 0 → 16 ≤ ch.streams.length → exec (.stream o) s = .next (waits .stream .engine s1)) ∧
          (n ≠ 0 → ch.streams.length < 16 → s1.loaded → s1.h.ops = [] → unstepped s1 = false → unstepped t1 = false →
            exec (.stream o) s = .next ((set { ch with
              state := .running, issued := ch.issued + n
              streams := ch.streams ++ [{
                src := a.toNat, first := ch.issued, n := n, routine := routine, param := wbits ctl 47 16
                scouted := (entry.map (·.2)).getD false, dist := wbits s.h.csr.scout 11 0, root := s.h.csr.ptroot
                mode := s.h.mode, entry := (entry.map (·.1)).getD 0 }] } t1).past 4 o.stall.toNat))))) ∧
    (let c := (coreOf t core).channels[o.a.toNat]?.getD {}
     let state := match c.state with
       | .idle => 0
       | .armed => 1
       | .running => 2
       | .done => 3
       | .failed => 4
     (o.b = 7 → exec (.chstat o) s = .next ((t.wrote o.d (BitVec.ofNat 64 (state * 2 ^ 61 + (if c.uip then 2 ^ 60 else 0) +
       (if c.state = .failed then c.fcause else 0) * 2 ^ 57 + (if c.state = .idle then 0 else c.landed) % 2 ^ 40)) 1 0).past
         4 o.stall.toNat)) ∧
     (o.b.toNat < 6 → (s.h.deps[o.b.toNat]?.getD 0) < 63 →
       exec (.chstat o) s = .next (State.past 4 o.stall.toNat { t with h := { t.h with
         ops := [{ kind := .chstat o.a.toNat, counter := o.b.toNat, dest := some o.d.toNat, copy := none
                   shadow := s.h.inHandler, order := t.h.words }]
         deps := t.h.deps.setIfInBounds o.b.toNat ((t.h.deps[o.b.toNat]?.getD 0) + 1), lastd := o.d } }))) ∧
    (let idle : Channel := { ch with state := .idle, uip := false, held := false, clearing := false, fcause := 0, streams := [], ahead := [] }
     let mine := s.h.mode = .user → ch.owner = coordSlot s.cur ∧ ch.held = false
     (ch.state = .idle → exec (.chclr o) s = .next (t.past 4 o.stall.toNat)) ∧
     (ch.state ≠ .idle → ¬mine → exec (.chclr o) s = .next (State.trapped 0x21 number s.h.pc t)) ∧
     (ch.state ≠ .idle → ch.state ≠ .running → mine → (coreOf t core).channels = (coreOf s core).channels →
       (landingHeld core o.d.toNat t = false → exec (.chclr o) s = .next ((set idle t).past 4 o.stall.toNat)) ∧
       (landingHeld core o.d.toNat t = true → exec (.chclr o) s = .next (waits .chclr .stop t))) ∧
     (ch.state = .running → mine → (coreOf t core).channels = (coreOf s core).channels →
       let u := failAt core o.d.toNat 4 t
       let failed := { ch with state := .failed, fcause := 4, streams := [], ahead := [] }
       channelOf u core o.d.toNat = failed ∧ u.mem = t.mem ∧
       exec (.chclr o) s = .next (waits .chclr .stop (set { failed with clearing := true } u))))

/-- R95 to R107. The hart's translation of the base is given. What TREG does with a page whose key slot is EMPTY is the model's
choice (log 29). -/
def Obligations.TupleWords : Prop :=
  (∀ e ∈ ([(Instr.tdep, 0), (.tcpy, 1), (.ttak, 2), (.tcpyn, 3), (.ttakn, 4)] : List ((RArgs → Instr) × Nat)),
    ∀ (o : RArgs) (s s1 : State) (x : Xlat), s.Solo → s.guarded o.guard o.neg → o.a.toNat * 2 ^ s.h.span < 32 →
      let v := s.h.slot false
      let handle := s.h.reg o.b.toNat
      let dc := wbits s.h.csr.tupctl 2 0
      let concrete := fun i => e.2 = 0 ∨ s.h.kbit (wbits s.h.csr.tupctl 6 4) 0 i = true
      let form := v.sew = 64 ∧ s.h.vl ≠ 0 ∧ s.h.vl ≤ 8 ∧ concrete 0
      (¬form → exec (e.1 o) s = .next (State.trapped 0x25 (BitVec.ofNat 64 s.h.vl) s.h.pc s)) ∧
      (form → wbits handle 15 8 ≠ 0 → exec (e.1 o) s = .next (State.trapped 0x26 handle s.h.pc s)) ∧
      (form → wbits handle 15 8 = 0 → translateKept s.h.mode (handleBase handle) .rmw s = .ok (s1, x) → x.typ = 4 →
        s1.h.pfx = none → s1.h.ops = [] → s1.h.role = .solo → unstepped s1 = false → unstepped (earlyCommit 2 s1) = false →
        s1.h.deps = s.h.deps → (dc < 6 ∧ (s.h.deps[dc]?.getD 0) < 63 ∨ dc = 7) →
        let t := earlyCommit 2 s1
        let fields := (List.range s.h.vl).map fun i =>
          BitVec.ofNat 64 (Machine.getElem (groupRow t ⟨o.a.toNat, 1⟩ 0).bits 64 i)
        let q : TupleReq := {
          num := t.tuples.next, coord := s.cur, func := e.2, region := handle.toNat % 256, pa := x.pa
          slice := tupleHome (fields.headD 0) (handle.toNat % 256), fields := fields
          mask := (List.range s.h.vl).map fun i => e.2 == 0 || s.h.kbit (wbits s.h.csr.tupctl 6 4) 0 i
          handle := handle, vreg := o.a.toNat, tail := v.tailZero, maxvl := s.h.maxIn v, machine := s.h.mode == .machine }
        exec (e.1 o) s = .next (State.past 4 o.stall.toNat { t with
          tuples := { t.tuples with next := t.tuples.next + 1, requests := t.tuples.requests ++ [q] }
          h := { t.h with
            deps := if dc < 6 then t.h.deps.setIfInBounds dc ((t.h.deps[dc]?.getD 0) + 1) else t.h.deps
            ops := [{ kind := .tuple t.tuples.next e.2 o.a.toNat, counter := dc, dest := some o.d.toNat, copy := none
                      shadow := t.h.inHandler, order := t.h.words }]
            lastd := o.d } }))) ∧
  (∀ (o : RArgs) (s : State), s.Ready → s.h.role ≠ .control → s.h.mode = .user →
    exec (.treg o) s = .next (State.trapped 0x03 (BitVec.ofNat 64 (Instr.treg o).word) s.h.pc s) ∧
    exec (.tfree o) s = .next (State.trapped 0x03 (BitVec.ofNat 64 (Instr.tfree o).word) s.h.pc s)) ∧
  (∀ (o : RArgs) (s s1 : State) (pages : List (Nat × Nat × Bool)), s.Ready → s.h.role ≠ .control → s.guarded o.guard o.neg →
    s.h.mode ≠ .user →
    let va := s.h.reg o.a.toNat
    let n := s.h.reg o.b.toNat
    let t := earlyCommit 2 s1
    (va.toNat % 65536 ≠ 0 → exec (.treg o) s = .next (State.trapped 0x25 va s.h.pc s)) ∧
    (va.toNat % 65536 = 0 → (n = 0 ∨ 4096 < n.toNat) → exec (.treg o) s = .next (State.trapped 0x25 n s.h.pc s)) ∧
    (va.toNat % 65536 = 0 → n ≠ 0 → n.toNat ≤ 4096 → regionPages va.toNat n.toNat s = .ok pages s1 → s1.h.pfx = none →
      s1.h.pend = [] →
      (∀ i p, pages[i]? = some p → keyOf s1 p.2.1 = none → (∀ j < i, ∀ p', pages[j]? = some p' → keyOf s1 p'.2.1 ≠ none) →
        exec (.treg o) s = .next (State.trapped 0x14 (va + BitVec.ofNat 64 (65536 * i)) s1.h.pc s1)) ∧
      ((∀ p ∈ pages, keyOf s1 p.2.1 ≠ none) → (∀ r < 256, (regionOf t r).isSome = true) →
        exec (.treg o) s = .next ((t.wrote o.d (BitVec.allOnes 64) 1 0).past 4 o.stall.toNat)) ∧
      (∀ r < 256, (∀ p ∈ pages, keyOf s1 p.2.1 ≠ none) → (regionOf t r) = none → (∀ k < r, (regionOf t k).isSome = true) →
        let u := pages.foldl (fun u p => zeroPage p u) t
        exec (.treg o) s = .next ((State.wrote o.d (va ||| BitVec.ofNat 64 r) 1 0
          { u with tuples := { u.tuples with regions := u.tuples.regions ++ [⟨r, pages⟩] } }).past 4 o.stall.toNat)))) ∧
  ∀ (o : RArgs) (s s1 : State) (x : Xlat), s.Ready → s.h.role ≠ .control → s.guarded o.guard o.neg → s.h.mode ≠ .user →
    let handle := s.h.reg o.a.toNat
    (wbits handle 15 8 ≠ 0 → exec (.tfree o) s = .next (State.trapped 0x26 handle s.h.pc s)) ∧
    (wbits handle 15 8 = 0 → translateKept s.h.mode (handleBase handle) .rmw s = .ok (s1, x) → x.typ = 4 → s1.h.pfx = none →
      s1.h.mode = s.h.mode →
      let t := earlyCommit 2 s1
      let fails := fun (c : Nat) => State.past 4 o.stall.toNat { t with h := t.h.addErr ⟨c, handle, t.h.words⟩ }
      (regionHere t (handle.toNat % 256) x.pa = none → exec (.tfree o) s = .next (fails 0x26)) ∧
      ∀ g, regionHere t (handle.toNat % 256) x.pa = some g →
        let verdict := checkRequest (arrivalCtx (s.h.mode == .machine) s.cur (pageOf g x.pa)) x.pa 8 true true t
        (∀ c, c ≠ 0 → verdict = some c → exec (.tfree o) s = .next (fails c)) ∧
        (verdict = none →
          let u : State := { t with tuples := { t.tuples with
            regions := t.tuples.regions.filter fun r => r.num != g.num
            tuples := t.tuples.tuples.filter fun y => y.region != g.num } }
          exec (.tfree o) s = .next (((u.tuples.requests.filter fun q => q.parked && q.region == g.num).foldl
            (fun u q => sendReply { req := q, status := 1 } u) u).past 4 o.stall.toNat)))

/-- R100, R101, R102, R105. That a stored tuple with a poisoned or failed field is matched by its bytes is the model's choice
(log 13). The stored match is stated where every stored tuple's line is at hand, so that reading them changes
nothing, and for `storedMatch` in general. -/
def Obligations.TupleSlices : Prop :=
  (∀ (s : State) (o : SliceArgs), ∃ t, exec (.tupleRequestStep o) s = .next t ∧
    t.h = { s.h with link := t.h.link, vlink := t.h.vlink } ∧ t.tuples.regions = s.tuples.regions ∧ t.cur = s.cur) ∧
  (∀ (s : State) (o : WithdrawArgs), ∃ t, exec (.tupleWithdraw o) s = .next t ∧ t.h = s.h ∧ t.mem = s.mem ∧
    t.tuples.tuples = s.tuples.tuples) ∧
  (∀ (s : State) (o : OpArgs), ∃ t, exec (.tupleReply o) s = .next t ∧ t.mem = s.mem ∧ t.h.mode = s.h.mode ∧
    t.h.pc = s.h.pc ∧ t.h.csr = s.h.csr ∧ t.h.k = s.h.k ∧ t.h.sup = s.h.sup ∧ t.h.mach = s.h.mach) ∧
  (∀ (m : List Bool) (p x : List Word), fieldsMatch m p x = true ↔
    p.length = x.length ∧ ∀ i < p.length, m[i]?.getD true = true → p[i]? = x[i]?) ∧
  (∀ (s : State) (o : SliceArgs) (q : TupleReq), s.tuples.requests.find? (fun q => q.slice == o.slice && !q.parked) = some q →
    (regionHere s q.region q.pa = none →
      exec (.tupleRequestStep o) s = .next (sendReply { req := q, fault := some 0x26 } s)) ∧
    ∀ g, regionHere s q.region q.pa = some g →
      let verdict := checkRequest (arrivalCtx q.machine q.coord (pageOf g q.pa)) q.pa 8 true true s
      (∀ c, c ≠ 0 → verdict = some c → exec (.tupleRequestStep o) s = .next (sendReply { req := q, fault := some c } s)) ∧
      (verdict = none → q.func = 0 →
        let matching := fun (f : Nat) => s.tuples.requests.filter fun c =>
          c.parked && c.func == f && c.region == q.region && c.slice == q.slice && fieldsMatch c.mask c.fields q.fields
        ∃ cs : List TupleReq, cs.Perm (matching 1) ∧ cs.Pairwise (fun a b => a.arrival ≤ b.arrival) ∧
        let copies := fun (u : State) => cs.foldl (fun u c => sendReply { req := c, served := some q.fields } u) u
        (matching 2 ≠ [] → ∃ c ∈ matching 2, (∀ c' ∈ matching 2, c.arrival ≤ c'.arrival) ∧ exec (.tupleRequestStep o) s =
          .next (sendReply { req := q } (sendReply { req := c, served := some q.fields } (copies s)))) ∧
        (matching 2 = [] → freeSlot s g q.slice = none →
          exec (.tupleRequestStep o) s = .next (sendReply { req := q, status := 2 } (copies s))) ∧
        (∀ pa, matching 2 = [] → freeSlot s g q.slice = some pa →
          let written := physWrite (slotCtx (pageOf g pa)) pa (q.fields.flatMap fun f => bytesOf 8 f.toNat) s
          (∀ s2 bad, written = .ok (s2, bad) →
            exec (.tupleRequestStep o) s = .next (sendReply { req := q } (copies { s2 with tuples := { s2.tuples with
              tuples := s2.tuples.tuples ++ [⟨q.region, q.slice, pa, q.fields.length, s2.tuples.arrivals⟩]
              arrivals := s2.tuples.arrivals + 1 } }))) ∧
          (∀ c at', c ≠ 0 → written = .error (c, at') →
            exec (.tupleRequestStep o) s = .next (sendReply { req := q, fault := some c } s)))) ∧
      (verdict = none → q.func ≠ 0 →
        let stored := s.tuples.tuples.filter fun t => t.region == q.region && t.slice == q.slice
        let serve := fun (t : Tuple) (fs : List Word) (bad : Bool) (s1 : State) =>
          sendReply { req := q, served := some fs, poison := bad } (if q.func = 2 ∨ q.func = 4 then
            { s1 with tuples := { s1.tuples with tuples := s1.tuples.tuples.filter fun u => u.pa != t.pa } } else s1)
        let unserved := fun (s1 : State) =>
          (3 ≤ q.func → exec (.tupleRequestStep o) s = .next (sendReply { req := q, status := 1 } s1)) ∧
          (q.func < 3 → 4096 ≤ (s1.tuples.requests.countP fun c => c.parked && c.slice == q.slice) →
            exec (.tupleRequestStep o) s = .next (sendReply { req := q, status := 3 } s1)) ∧
          (q.func < 3 → (s1.tuples.requests.countP fun c => c.parked && c.slice == q.slice) < 4096 →
            exec (.tupleRequestStep o) s = .next { s1 with tuples := { s1.tuples with
              requests := (s1.tuples.requests.filter fun c => c.num != q.num) ++
                [{ q with parked := true, arrival := s1.tuples.arrivals }]
              arrivals := s1.tuples.arrivals + 1 } })
        ((∀ u ∈ stored, ∃ fs bad, readTuple g u s = .ok (s, fs, bad)) →
          let hit := fun (u : Tuple) => ∃ fs bad, readTuple g u s = .ok (s, fs, bad) ∧ fieldsMatch q.mask q.fields fs = true
          (∀ t ∈ stored, ∀ fs bad, readTuple g t s = .ok (s, fs, bad) → fieldsMatch q.mask q.fields fs = true →
            (∀ u ∈ stored, hit u → u = t ∨ t.arrival < u.arrival) →
            exec (.tupleRequestStep o) s = .next (serve t fs bad s)) ∧
          ((∀ u ∈ stored, ¬hit u) → unserved s)) ∧
        (∀ s1 t fs bad, storedMatch q g (storedFor s q) s = .ok (s1, some (t, fs, bad)) →
          t ∈ stored ∧ fieldsMatch q.mask q.fields fs = true ∧ exec (.tupleRequestStep o) s = .next (serve t fs bad s1)) ∧
        (∀ s1, storedMatch q g (storedFor s q) s = .ok (s1, none) → unserved s1) ∧
        (∀ c, c ≠ 0 → storedMatch q g (storedFor s q) s = .error c →
          exec (.tupleRequestStep o) s = .next (sendReply { req := q, fault := some c } s)))) ∧
  (∀ (s : State) (o : WithdrawArgs) (q : TupleReq),
    s.tuples.requests.find? (fun c => c.num == o.request && c.parked && c.withdrawn) = some q →
    exec (.tupleWithdraw o) s = .next (sendReply { req := q, gone := true } s)) ∧
  ∀ (s : State) (o : OpArgs) (p : CountedOp) (n f v : Nat) (r : TupleReply), s.h.ops[o.index]? = some p →
    p.kind = .tuple n f v → p.counter < 6 → p.copy = none → s.h.ops.find? (tupleOp n) = some p →
    s.tuples.replies.find? (fun r => r.req.coord == s.cur && tupleOp r.req.num p) = some r → keptFor s r = false →
    let h1 : Hart := { s.h with ops := s.h.ops.erase p
                                deps := s.h.deps.setIfInBounds p.counter ((s.h.deps[p.counter]?.getD 0) - 1) }
    let landed := fun (h : Hart) =>
      ({ s with tuples := { s.tuples with replies := s.tuples.replies.erase r }, h := h } : State)
    (r.gone = true → r.req.saving = false → exec (.tupleReply o) s = .next (landed h1)) ∧
    (r.gone = true → r.req.saving = true → exec (.tupleReply o) s = .next (sendAgain r.req (landed s.h))) ∧
    (∀ c, r.gone = false → r.fault = some c → exec (.tupleReply o) s =
      .next (landed (h1.addErr ⟨c, r.req.handle, p.order⟩))) ∧
    (r.gone = false → r.fault = none → r.poison = true → exec (.tupleReply o) s =
      .next (landed (h1.addErr ⟨0x30, r.req.handle, p.order⟩))) ∧
    (∀ d row fs, r.gone = false → r.fault = none → r.poison = false → p.dest = some d →
      (r.served = none →
        exec (.tupleReply o) s = .next (landed (h1.setRegIn p.shadow d (BitVec.ofNat 64 r.status)))) ∧
      (r.served = some fs → homeOf h1 r.req.vreg = some (.own row) →
        exec (.tupleReply o) s = .next (landed ((h1.setOwnRow row (servedRow r.req fs (h1.ownRow row))).setRegIn p.shadow d
          (BitVec.ofNat 64 r.status)))))

/-- R250 to R257, R261. An `Fr` operation reads the frame table. -/
def Obligations.GeomWords : Prop :=
  let toOther := fun (ok : VType → Bool) (v u : VType) => if ok u && u.rows == v.rows then some u else none
  let isF := fun (u : VType) => u.fmt == 1 && u.sew == 32
  let every := fun (_ _ : Nat) => true
  let tag := fun (o : VArgs) (b : Nat) => if o.x then b else b / 2 ^ 96 % 2 ^ 32
  (∀ e ∈ ([(Instr.gsub, true, false, fun v _ => some v, fun a b => !(a.testBit 127 && !b.testBit 127), fun _ v a b => addSub true v a b),
      (.gadd, true, false, fun v _ => some v, fun a b => a.testBit 127 || b.testBit 127, fun _ v a b => addSub false v a b),
      (.gscale, true, false, fun v _ => some v, fun a _ => a.testBit 127, fun _ v a b => do
        let (cs, f) := roundComps (geomRnd v) ((comps a).map fun x => mulVal (v32 x) (v32 (b % 2 ^ 32)))
        return (geoVal cs (Machine.tagOf a), f)),
      (.gdot, true, true, toOther isF, fun a b => a.testBit 127 && b.testBit 127, fun _ _ a b => do
        let (c, f) ← convertTo b (Machine.tagOf a)
        let (y, g) := roundWith fp32 .rne (blockSum (((comps a).map v32).zip ((comps c).map v32)))
        return (y, Nat.lor f g)),
      (.gcross, true, false, fun v _ => some v, fun a b => a.testBit 127 && b.testBit 127, fun _ _ a b => do
        let (c, f) ← convertTo b (Machine.tagOf a)
        let (cs, g) := roundComps .rne (crossComps (comps a) (comps c))
        return (geoVal cs (Machine.tagOf a), Nat.lor f g)),
      (.glen, false, true, toOther isF, every, fun _ _ a _ => do
        let xs := (comps a).map v32
        let (sq, f) := blockSum (xs.zip xs)
        let (y, g) := roundWith fp32 .rne (sqrtVal sq)
        return (y, Nat.lor f g)),
      (.gcvt, true, false, fun v _ => some v, every, fun o _ a b => convertTo a (tag o b)),
      (.gxfm, true, false, fun v _ => some v, every, fun _ _ a b => do
        let (cs, f) := turnComps (comps a) (comps b ++ [Machine.tagOf b])
        return (geoVal cs (Machine.tagOf a), f)),
      (.gtag, false, true, toOther fun u => u.fmt == 0 && (u.sew == 32 || u.sew == 64), every,
        fun _ _ a _ => return (a / 2 ^ 96 % 2 ^ 32, 0)),
      (.gsettag, true, false, fun v _ => some v, every, fun o _ a b => return (geoVal (comps a) (tag o b), 0)),
      (.gretag, false, false, fun v _ => some v, every, fun _ _ a _ => retag a)] :
      List ((VArgs → Instr) × Bool × Bool × (VType → VType → Option VType) × (Nat → Nat → Bool) ×
        (VArgs → VType → Nat → Nat → Fr (Nat × Nat)))),
    ∀ (o : VArgs) (s : State) (dv : VType), s.Solo →
      let v := s.h.slot o.t
      let two := e.2.1 && !o.x
      v.fmt = 4 → v.sew = 128 → e.2.2.2.1 v (s.h.slot !o.t) = some dv → (o.mask == 7 && o.neg) = false →
      groupsLegal s.h (some (⟨o.d.toNat, v.rows⟩, false)) (⟨⟨o.a.toNat, v.rows⟩, !e.2.2.1⟩ ::
        (if two then [⟨⟨o.b.toNat, v.rows⟩, !e.2.2.1⟩] else [])) = true →
      let n := min s.h.vl (min (s.h.maxIn v) (s.h.maxIn dv))
      let at' := fun (name i : Nat) =>
        Machine.getElem (rowAt (sourceRows s ⟨name, v.rows⟩) (i / n)).bits 128 (i % n)
      let a := at' o.a.toNat
      let b := fun (i : Nat) => if o.x then (s.h.reg o.b.toNat).toNat % 2 ^ 32 else if two then at' o.b.toNat i else 0
      let w : Loop := ⟨dv, n, s.h.maxIn dv, s.h.vstart, s.h.act o.mask o.neg⟩
      let es := (List.range (v.rows * n)).filter fun i => decide (w.start ≤ i) && w.act (i / n) (i % n)
      let op := fun i => e.2.2.2.2.2 o v (a i) (b i)
      let d : Group := ⟨o.d.toNat, v.rows⟩
      (∀ i, es.find? (fun i => !e.2.2.2.2.1 (a i) (b i)) = some i →
        exec (e.1 o) s = .next (State.trapped 0x2E (BitVec.ofNat 64 i) s.h.pc s)) ∧
      (∀ got s1, (∀ i ∈ es, e.2.2.2.2.1 (a i) (b i) = true) → s.keepsHart s1 →
        (geomElems op es s = (got, none, s1) →
          let t := writeGroup w.max d (geomRows w got none (groupRows s1 d)) s1
          exec (e.1 o) s = .next (State.pastVector { t with h := {
            (t.h.raiseFlags (orFlags (got.map fun x => x.2.2))) with vstart := 0 } })) ∧
        (∀ i c tg, geomElems op es s = (got, some (i, c, tg), s1) → 1 ≤ c →
          let t := writeGroup w.max d (geomRows w got (some i) (groupRows s1 d)) s1
          let u : State := { t with h := { (t.h.raiseFlags (orFlags (got.map fun x => x.2.2))) with vstart := i } }
          (frameDelegated s.h c = false →
            exec (e.1 o) s = .next (State.trapped (0x28 + c) (ufcauseWord c tg i) s.h.pc u)) ∧
          (frameDelegated s.h c = true →
            let y := enterUser s.h.pc (BitVec.ofNat 64 (wbits s.h.csr.ufvec 63 2 * 4)) u
            exec (e.1 o) s = .next { y with h := { y.h with
              vstart := 0, csr := { y.h.csr with ufcause := ufcauseWord c tg i } } })))) ∧
  (∀ (o : VArgs) (s s1 : State) (live : List Bool), s.Solo → (o.mask == 7 && o.neg) = false →
    let v := s.h.slot o.t
    let n := s.h.vlIn v
    v.fmt = 4 → v.sew = 128 → groupsLegal s.h none [⟨⟨o.a.toNat, v.rows⟩, false⟩] = true →
    tagsLive ((List.range (v.rows * n)).map fun i => (Machine.getElem (rowAt (sourceRows s ⟨o.a.toNat, v.rows⟩) (i / n)).bits 128
      (i % n)) / 2 ^ 96 % 2 ^ 32) s = .ok live s1 → s.keepsHart s1 →
    exec (.gchk o) s = .next (s1.maskPut (s.loopOf v o.mask o.neg) o.d.toNat fun r i =>
      (live.getD (r * n + i) false, 0)).pastVector) ∧
  ∀ (o : VArgs) (s : State), s.Solo → (o.mask == 7 && o.neg) = false →
    let v := s.h.slot o.t
    let u := s.h.slot !o.t
    let sb := s.h.reg o.b.toNat
    v.fmt = 4 → v.sew = 128 → u.fmt = 0 → u.sew = 64 → u.rows = v.rows →
    groupsLegal s.h (some (⟨o.d.toNat, v.rows⟩, false)) [⟨⟨o.a.toNat, v.rows⟩, false⟩] = true →
    (¬(-24 ≤ sb.toInt ∧ sb.toInt ≤ 40) → exec (.gcell o) s = .next (State.trapped 0x2E sb s.h.pc s)) ∧
    (-24 ≤ sb.toInt → sb.toInt ≤ 40 →
      let cells := fun (x : Nat) => (comps x).map fun c => cvtInt ((val fp32 c).scale (-sb.toInt)) 21 true .rdn
      exec (.gcell o) s = .next (s.rowsPut u o.d (s.rowsOf u o (min s.h.vl (min (s.h.maxIn v) (s.h.maxIn u)))
        (if wholeBlock s none ⟨o.d.toNat, u.rows⟩ [⟨o.a.toNat, v.rows⟩] then 0 else s.h.vstart)
        (s.h.act o.mask o.neg) (fun _ => 0) fun r i res =>
          let cs := cells (s.elem v false o.a.toNat r i).1
          some ⟨(cs.zipIdx.map fun c => wrap 21 c.1.1 * 2 ^ (21 * c.2)).sum, orFlags (cs.map (·.2)), res⟩)).pastVector)

/-- R258 to R260. `Fr` results are those of the frame table's records. -/
def Obligations.FrameWords : Prop :=
  ∀ (o : RArgs) (s : State), s.Ready → s.guarded o.guard o.neg → s.h.role ≠ .control →
    let tag := (s.h.reg o.a.toNat).toNat % 2 ^ 32
    let t := earlyCommit 2 s
    let done := fun (u : State) => (Host.Outcome.next (u.past 4 o.stall.toNat) : Result)
    let faults := fun (c tg : Nat) (u : State) => State.trapped (0x28 + c) (ufcauseWord c tg 0) s.h.pc u
    exec (.ffence o) s = done t ∧
    (s.h.mode = .user → s.dev.frctl.getLsbD 1 = false →
      ∀ i ∈ [Instr.fnew o, .ffree o, .fupd o, .fsplit o, .frepar o],
        exec i s = .next (State.trapped 0x03 (BitVec.ofNat 64 i.word) s.h.pc s)) ∧
    (s.h.role ≠ .computer → (s.h.mode = .user → s.dev.frctl.getLsbD 1 = true) → s.dev.frctl.getLsbD 0 = false →
      frameDelegated s.h 2 = false →
      exec (.fnew o) s = .next (faults 2 0 s) ∧
      ∀ i ∈ [Instr.ffree o, .fupd o, .fsplit o, .frepar o], exec i s = .next (faults 2 tag s)) ∧
    (s.h.role ≠ .computer → (s.h.mode = .user → s.dev.frctl.getLsbD 1 = true) → s.dev.frctl.getLsbD 0 = true →
      unstepped s = false → unstepped t = false →
      (∀ c tg u, checkTag tag t = .error (c, tg) u → t.keepsHart u → 1 ≤ c → frameDelegated t.h c = false →
        ∀ i ∈ [Instr.ffree o, .fupd o, .fsplit o, .frepar o], exec i s = .next (faults c tg u)) ∧
      (∀ n u1 live u2, checkTag tag t = .ok n u1 → liveRecords u1 = .ok live u2 → t.keepsHart u2 →
        ((∃ m ∈ live, m.parent = n.idx) →
          exec (.ffree o) s = .next (State.trapped 0x2F (BitVec.ofNat 64 tag) s.h.pc u2)) ∧
        (∀ u3, (∀ m ∈ live, m.parent ≠ n.idx) →
          writeNode { n with live := false, gen := (n.gen + 1) % 1024 } u2 = .ok () u3 → t.keepsHart u3 →
          exec (.ffree o) s = done u3)) ∧
      (∀ n u1 p u2 u3, checkTag tag t = .ok n u1 → readSpec false (s.h.reg o.b.toNat) u1 = .ok p u2 → t.keepsHart u2 →
        ((n.kind = 0 ∨ p.kind ≠ n.kind ∨ p.hexp ≠ n.hexp) →
          exec (.fupd o) s = .next (State.trapped 0x2F (BitVec.ofNat 64 tag) s.h.pc u2)) ∧
        (n.kind ≠ 0 → p.kind = n.kind → p.hexp = n.hexp →
          writeNode { n with t := p.t, q := p.q, version := (n.version + 1) % 2 ^ 64 } u2 = .ok () u3 → t.keepsHart u3 →
          exec (.fupd o) s = done u3)) ∧
      (∀ p live u1 u2 u3 parent, readSpec true (s.h.reg o.a.toNat) t = .ok p u1 → liveRecords u1 = .ok live u2 → p.kind ≠ 0 →
        checkTag p.parent u2 = .ok parent u3 → t.keepsHart u3 →
        (suits p.kind parent.kind = false →
          exec (.fnew o) s = .next (State.trapped 0x2F (s.h.reg o.a.toNat) s.h.pc u3)) ∧
        (suits p.kind parent.kind = true → parent.depth < 24 →
          let free := firstIndex (fun i => !live.any fun n => n.idx == i) 1 (nodeCount u3 - 1) 1
          (free = none → exec (.fnew o) s = done (u3.wrote o.d 0 1 0)) ∧
          ∀ i old u4 u5, free = some i → storedNode i u3 = .ok old u4 →
            writeNode { idx := i, parent := parent.idx, kind := p.kind, live := true, tree := parent.tree, gen := old.gen
                        depth := parent.depth + 1, version := 0, t := p.t, q := p.q, child := 0, hexp := p.hexp } u4 = .ok () u5 →
            t.keepsHart u5 →
            exec (.fnew o) s = done (u5.wrote o.d (BitVec.ofNat 64 (i + 2 ^ 21 * old.gen)) 1 0))) ∧
      (∀ p live u1 u2, readSpec true (s.h.reg o.a.toNat) t = .ok p u1 → liveRecords u1 = .ok live u2 → p.kind = 0 → t.keepsHart u2 →
        (p.parent ≠ 0 → exec (.fnew o) s = .next (State.trapped 0x2F (s.h.reg o.a.toNat) s.h.pc u2)) ∧
        (p.parent = 0 →
          let free := firstIndex (fun i => !live.any fun n => n.idx == i) 1 (nodeCount u2 - 1) 1
          ((freeTree live = none ∨ free = none) → exec (.fnew o) s = done (u2.wrote o.d 0 1 0)) ∧
          ∀ tr i old u4 u5, freeTree live = some tr → free = some i → storedNode i u2 = .ok old u4 →
            writeNode { idx := i, parent := 0, kind := 0, live := true, tree := tr, gen := old.gen, depth := 0, version := 0
                        t := p.t, q := p.q, child := 0, hexp := p.hexp } u4 = .ok () u5 → t.keepsHart u5 →
            exec (.fnew o) s = done (u5.wrote o.d (BitVec.ofNat 64 (i + 2 ^ 21 * old.gen)) 1 0))) ∧
      (∀ n u1 live u2, checkTag tag t = .ok n u1 → liveRecords u1 = .ok live u2 → t.keepsHart u2 → t.keepsHart u1 →
        (¬(n.kind = 1 ∧ n.child = 0 ∧ -7 ≤ n.hexp) →
          exec (.fsplit o) s = .next (State.trapped 0x2F (BitVec.ofNat 64 tag) s.h.pc u1)) ∧
        (n.kind = 1 → n.child = 0 → -7 ≤ n.hexp → n.depth < 24 →
          let free := firstIndex (fun i => (List.range 8).all fun k => !live.any fun m => m.idx == i + k) 8
            (nodeCount u2 / 8 - 1) 8
          (free = none → exec (.fsplit o) s = done (u2.wrote o.d 0 1 0)) ∧
          ∀ i olds u3 u4 u5, free = some i → (List.range 8).mapM (fun k => storedNode (i + k)) u2 = .ok olds u3 →
            (olds.zipIdx.map fun m => splitChild n i m.1.gen m.2).forM writeNode u3 = .ok () u4 →
            writeNode { n with child := i } u4 = .ok () u5 → t.keepsHart u5 →
            exec (.fsplit o) s = done (u5.wrote o.d (BitVec.ofNat 64
              (((olds.zipIdx.map fun m => splitChild n i m.1.gen m.2).map Node.tag).headD 0)) 1 0))) ∧
      (∀ n u1 p u2 spec u3 live u4, checkTag tag t = .ok n u1 →
        checkTag ((s.h.reg o.b.toNat).toNat % 2 ^ 32) u1 = .ok p u2 →
        (o.d = 0 ∧ spec = none ∧ u3 = u2 ∨
          o.d ≠ 0 ∧ ∃ f, spec = some f ∧ readSpec false (s.h.reg o.d.toNat) u2 = .ok f u3) →
        t.keepsHart u2 → liveRecords u3 = .ok live u4 → t.keepsHart u4 →
        let sub := subtree live 26 [n.idx]
        let fits := suits n.kind p.kind = true ∧ ∀ f, spec = some f → f.kind = n.kind ∧ f.hexp = n.hexp
        let moved := fun (m : Node) => ({ m with depth := m.depth + p.depth + 1 - n.depth, tree := p.tree } : Node)
        let posed := fun (m : Node) => match spec with
          | some f => ({ m with t := f.t, q := f.q, version := (m.version + 1) % 2 ^ 64 } : Node)
          | none => m
        ((p.idx ∈ sub ∨ ¬fits) → exec (.frepar o) s = .next (State.trapped 0x2F (BitVec.ofNat 64 tag) s.h.pc u4)) ∧
        ∀ u5, p.idx ∉ sub → fits → (∀ m ∈ live, m.idx ∈ sub → (moved m).depth ≤ 24) →
          ((live.filter fun m => sub.contains m.idx).forM fun m =>
            writeNode (if m.idx = n.idx then posed { moved m with parent := p.idx } else moved m)) u4 = .ok () u5 →
          t.keepsHart u5 → exec (.frepar o) s = done u5))

/-- R262 to R266, in machine mode. `hashRanges` says that the table lies where R262 allows. That HCLR and HINS commit the strip
early, with WHY 2, is the model's choice (log 35: R375 does not list HASH words). -/
def Obligations.HashWords : Prop :=
  let ready := fun (s : State) (o : VArgs) => s.Solo ∧ s.h.mode = .machine ∧ (o.mask == 7 && o.neg) = false
  let typed := fun (v : VType) => v.fmt = 0 ∧ v.sew = 64
  let table := fun (s : State) => (hashBase s.h, 128 * hashBuckets s.h)
  (∀ (o : VArgs) (s : State), ready s o → ¬typed (s.h.slot o.t) →
    exec (.hclr o) s = .next (State.trapped 0x19 (s.h.slot o.t).word s.h.pc s)) ∧
  (∀ (o : VArgs) (s w : State) (ps : List (Nat × Nat × Nat)), ready s o → typed (s.h.slot o.t) → s.unpinned →
    hashRanges .write [table s] s = .ok ps s → w.unpinned → w.h.pfx = none →
    (List.range (hashBuckets s.h)).forM (fun b => hashWrite (bucketAddr s.h b)
      ((List.replicate 8 (bytesOf 8 (2 ^ 64 - 1) ++ bytesOf 8 0)).flatten)) (earlyCommit 2 s) = .ok () w →
    exec (.hclr o) s = .next (State.pastVector { w with h := { w.h with vstart := 0 } })) ∧
  (∀ (o : VArgs) (s w : State) (ps : List (Nat × Nat × Nat)) (full : List (Nat × Bool)), ready s o → typed (s.h.slot o.t) →
    s.unpinned →
    let v := s.h.slot o.t
    let n := s.h.vlIn v
    let es := (List.range (v.rows * n)).filter fun e => s.h.act o.mask o.neg (e / n) (e % n)
    let key := fun (e : Nat) => Machine.getElem (groupRow s ⟨o.a.toNat, v.rows⟩ (e / n)).bits 64 (e % n)
    let payload := fun (e : Nat) => Machine.getElem (groupRow s ⟨o.b.toNat, v.rows⟩ (e / n)).bits 64 (e % n)
    groupsLegal s.h none [⟨⟨o.a.toNat, v.rows⟩, false⟩, ⟨⟨o.b.toNat, v.rows⟩, false⟩] = true →
    (∀ e, es.find? (fun e => (key e).testBit 63) = some e →
      exec (.hins o) s = .next (State.trapped 0x2E (BitVec.ofNat 64 e) s.h.pc s)) ∧
    ((∀ e ∈ es, (key e).testBit 63 = false) → hashRanges .rmw [table s] s = .ok ps s →
      (∀ e ∈ es, blockingChannels s (bucketAddr s.h (bucketOf s.h (key e))) 128 = []) →
      hashInserts key payload es (earlyCommit 2 s) = .ok full w → w.h.k = s.h.k → w.h.pfx = none → w.h.role = .solo →
      w.unpinned →
      exec (.hins o) s = .next (w.maskPut { s.loopOf v o.mask o.neg with start := 0 } o.d.toNat fun r i =>
        (lookD false (r * n + i) full, 0)).pastVector)) ∧
  (∀ (s s1 : State) (key payload : Nat) (bs : List Byte),
    let va := bucketAddr s.h (bucketOf s.h key)
    loadBytes (some 0) va 128 8 s = .ok bs s1 →
    ((∀ j < 8, leAt bs (16 * j) 8 ≠ 2 ^ 64 - 1) → hashInsert key payload s = .ok true s1) ∧
    ∀ j < 8, leAt bs (16 * j) 8 = 2 ^ 64 - 1 → (∀ k < j, leAt bs (16 * k) 8 ≠ 2 ^ 64 - 1) →
      ∀ s2, hashWrite (va + 16 * j) (bytesOf 8 key ++ bytesOf 8 payload) s1 = .ok () s2 →
        hashInsert key payload s = .ok false s2) ∧
  ∀ (o : VArgs) (s w : State) (got : List (Nat × Nat × Nat)), ready s o → s.unpinned →
    let v := s.h.slot o.t
    typed v → v.rows = 1 →
    let n := s.h.vlIn v
    let d : Group := ⟨o.d.toNat, 1⟩
    let es := (List.range n).filter fun e => decide (s.h.vstart ≤ e) && s.h.act o.mask o.neg 0 e
    let key := fun (e : Nat) => Machine.getElem (groupRow s ⟨o.a.toNat, 1⟩ (e / n)).bits 64 (e % n)
    let out := fun (e : Nat) => ((s.h.reg o.b.toNat).toNat + 1728 * e) % 2 ^ 64
    groupsLegal s.h (some (d, false)) [⟨⟨o.a.toNat, 1⟩, true⟩] = true →
    (∀ e ∈ es, (key e).testBit 63 = false) → hashTable .read (es.map fun e => (out e, 1728)) s = .ok () s →
    lookQueries (fun e => lookNeighbours (key e) (out e) (List.range 27)) es s = .ok (got, none) w →
    w.h.rows = s.h.rows → w.h.span = s.h.span → w.h.pfx = none → w.h.role = .solo → w.unpinned →
    let t := writeGroup (s.h.maxIn v) d (geomRows (s.loopOf v o.mask o.neg) got none (groupRows s d)) w
    exec (.hlook o) s = .next (State.pastVector { t with h := { t.h with vstart := 0 } })

/-- R299 to R301. -/
def Obligations.WaveWords : Prop :=
  ∀ (o : VArgs) (s : State), s.Solo → (o.mask == 7 && o.neg) = false →
    let v := s.h.slot o.t
    let n := s.h.vlIn v
    let b := s.h.reg o.b.toNat
    let d : Group := ⟨o.d.toNat, v.rows⟩
    let src : Group := ⟨o.a.toNat, v.rows⟩
    let suits := fun (F : Fmt) => v.float = some F ∧ v.rows = 8 ∧ o.d.toNat % 8 = 0 ∧ o.a.toNat % 8 = 0
    let column := fun (i : Nat) => (groupRows s src).map fun w => Machine.getElem w.bits v.sew i
    let levels := (blockOf s o.a.toNat).map (·.1)
    let done := fun (tag : BitVec 6) (cols : List (List Nat × Nat)) => s.rowsPut v o.d
      ((groupRows s d).zipIdx.map fun w =>
        ({ (((cols.zipIdx.foldl (fun w' c => Wide.set w' v.sew c.2 (c.1.1.getD w.2 0)) w.1).cutTail v n (s.h.maxIn v)).markTo n)
            with tag := tag }, orFlags (cols.map (·.2)), (s.h.efc[w.2]?.getD 0).toNat))
    (groupsLegal s.h (some (d, false)) [⟨src, true⟩] = true →
      ((¬∃ F, suits F) →
        exec (.wfwd o) s = .next (State.trapped 0x19 v.word s.h.pc s) ∧
        exec (.winv o) s = .next (State.trapped 0x19 v.word s.h.pc s)) ∧
      ∀ F, suits F →
        ((b.toNat % 4 = 0 ∨ 32 ≤ b.toNat) → exec (.wfwd o) s = .next (State.trapped 0x19 b s.h.pc s)) ∧
        (b.toNat % 4 ≠ 0 → b.toNat < 32 →
          exec (.wfwd o) s = .next (done (haarTag (b.toNat % 4) (b.toNat / 4)) ((List.range n).map fun i =>
            let x := match levels with
              | some l => haarInverse F l (column i)
              | none => (column i, 0)
            ((haarForward F (b.toNat % 4) x.1).1, Nat.lor x.2 (haarForward F (b.toNat % 4) x.1).2))).pastVector) ∧
        exec (.winv o) s = .next (done 0 ((List.range n).map fun i =>
          match levels with
          | some l => haarInverse F l (column i)
          | none => (column i, 0))).pastVector) ∧
    (groupsLegal s.h none [⟨src, false⟩] = true →
      let t := s.wrote o.d (BitVec.ofNat 64
        (((groupRows s src).map (·.tag)).zipIdx.map fun x => x.1.toNat * 2 ^ (6 * x.2)).sum) 1 0
      exec (.wtag o) s = .next (State.pastVector { t with h := { t.h with vstart := 0 } })) ∧
    (groupsLegal s.h (some (d, false)) [] = true →
      (2 ^ (6 * v.rows) ≤ b.toNat → exec (.wsettag o) s = .next (State.trapped 0x19 b s.h.pc s)) ∧
      (b.toNat < 2 ^ (6 * v.rows) →
        let t := writeGroup (s.h.maxIn v) d ((groupRows s d).zipIdx.map fun w =>
          { w.1 with tag := BitVec.ofNat 6 (b.toNat / 2 ^ (6 * w.2)) }) s
        exec (.wsettag o) s = .next (State.pastVector { t with h := { t.h with vstart := 0 } })))

/-- R267 to R289. TVAL sA at MDRAIN and MZERO is the model's choice (log 29), as is the error trap before the operand checks
(log 32). -/
def Obligations.MatrixWords : Prop :=
  (∀ (o : RArgs) (s : State), s.Ready → s.h.role ≠ .control →
    ∀ i ∈ [Instr.mcfg o, .mldb o, .mmac o, .mdrain o, .mzero o, .mwait o, .msync o, .mstep o],
      exec i s = .next (State.trapped 0x01 (BitVec.ofNat 64 i.word) s.h.pc s)) ∧
  ∀ (o : RArgs) (s : State), s.Ready → s.h.role = .control → s.guarded o.guard o.neg →
    let cl := coordCluster s.cur
    let q := o.d.toNat % 4
    let k := quadOf s cl q
    let a := s.h.reg o.a.toNat
    let b := s.h.reg o.b.toNat
    let mode := s.h.mx.mtype.toNat % 4
    let failed := fun (k : Quadrant) => k.seq.getLsbD 63 = true ∧ wbits k.seq 58 56 ≠ 0
    let busy := fun (k : Quadrant) => k.running = true ∨ k.seq.getLsbD 63 = true
    let form := fun (v : Word) (t : State) => State.trapped 0x20 v s.h.pc t
    let waits := fun (i : RArgs → Instr) => s.waits (i o) .matrix s
    let started := fun (cmd : Nat) (b : Word) =>
      let c := clusterOf s cl
      setCluster cl { c with issued := c.issued + 1, quads := c.quads.setIfInBounds q { k with
        running := true, seq := BitVec.ofNat 64 (cmd * 2 ^ 59), opa := a, opb := b, mtype := s.h.mx.mtype, order := c.issued
        g := wbits a 17 0, block := [] } } s
    let range := fun (w : Word) => wbits w 24 12 ≠ 0 ∧ wbits w 11 0 + wbits w 24 12 ≤ 4096 ∧ wbits w 31 25 = 0
    let groups := k.drain.hlev = 0 ∨ wbits a 11 0 % 8 = 0 ∧ wbits a 24 12 % 8 = 0
    (∀ e ∈ ([(Instr.mmac, 2, b, b, wbits a 63 18 = 0 ∧ range b ∧ wbits b 63 41 = 0 ∧ wbits b 40 32 ≠ 0 ∧ wbits b 40 32 ≤ 256 ∧
          (mode = 2 → wbits b 40 32 = 1)),
        (.mdrain, 3, a, 0, range a ∧ wbits a 63 33 = 0 ∧ groups), (.mzero, 4, a, 0, range a ∧ wbits a 63 32 = 0 ∧ groups)] :
        List ((RArgs → Instr) × Nat × Word × Word × Prop)),
      (failed k → exec (e.1 o) s = .next (form (BitVec.ofNat 64 q) s)) ∧
      (¬failed k → ¬e.2.2.2.2 → exec (e.1 o) s = .next (form e.2.2.1 s)) ∧
      (¬failed k → e.2.2.2.2 → busy k → exec (e.1 o) s = .next (waits e.1)) ∧
      (¬busy k → e.2.2.2.2 → exec (e.1 o) s = .next ((started e.2.1 e.2.2.2.1).past 4 o.stall.toNat))) ∧
    (let named := (List.range 4).filter fun q => a.getLsbD q
     let loading := (clusterOf s cl).loader ≠ []
     (32 ≤ a.toNat → exec (.mwait o) s = .next (form 0 s)) ∧
     (a.toNat < 32 → (∀ q ∈ named, ¬failed (quadOf s cl q)) →
       ((∀ q ∈ named, ¬busy (quadOf s cl q)) → (a.getLsbD 4 = true → ¬loading) →
         exec (.mwait o) s = .next (s.past 4 o.stall.toNat)) ∧
       (((∃ q ∈ named, busy (quadOf s cl q)) ∨ a.getLsbD 4 = true ∧ loading) → exec (.mwait o) s = .next (waits .mwait))) ∧
     (let pending := loading ∨ ∃ q < 4, busy (quadOf s cl q) ∧ wbits (quadOf s cl q).seq 61 59 = 3
      (¬pending → exec (.msync o) s = .next (s.past 4 o.stall.toNat)) ∧
      (pending → exec (.msync o) s = .next (waits .msync)))) ∧
    (let q := o.a.toNat % 4
     let w := (quadOf s cl q).seq
     let held := w.getLsbD 63 = true ∧ w.getLsbD 62 = true ∧ wbits w 58 56 = 0
     (¬held → exec (.mstep o) s = .next ((s.wrote o.d w 1 0).past 4 o.stall.toNat)) ∧
     (held →
       let t := runToPoint cl q (200 + 2 * (clusterOf s cl).loader.length) (seqRestart cl q w s)
       ((quadOf t cl q).running = true → exec (.mstep o) s = .next (waits .mstep)) ∧
       ((quadOf t cl q).running = false → t.h.pfx = none → t.h.pend = [] →
         exec (.mstep o) s = .next ((t.wrote o.d (quadOf t cl q).seq 1 0).past 4 o.stall.toNat)))) ∧
    (let off := wbits b 17 0
     let len := wbits b 41 24
     let legal := a.toNat % 64 = 0 ∧ len ≠ 0 ∧ off + len ≤ 196608 ∧ wbits b 23 18 = 0 ∧ wbits b 63 42 = 0
     (¬legal → exec (.mldb o) s = .next (form b s)) ∧
     ∀ (s1 : State) (parts : List (Nat × Nat × Xlat)), legal → s.h.mode = .machine →
       translateRange a.toNat (64 * len) .read s = .ok parts s → (∀ p ∈ parts, p.2.2.typ ≤ 1) → pinCopy [] s = .ok () s1 →
       s1.h = s.h → s1.cur = s.cur → unstepped s1 = false → unstepped (earlyCommit 3 s1) = false →
       let t := earlyCommit 3 s1
       let c := clusterOf t cl
       exec (.mldb o) s = .next ((setCluster cl { c with
         issued := c.issued + 1
         loader := c.loader ++ [⟨parts.map fun p => (State.access p.1, p.2.1), off, len, c.issued, none⟩] } t).past 4 o.stall.toNat)) ∧
    ∀ (s1 s2 s3 : State) (d bs cs : List Byte), ¬failed k → ¬busy k → a.toNat % 8 = 0 →
      loadBytes (some 0) a.toNat 64 8 s = .ok d s1 →
      (drainBad mode d = true → s.keepsHart s1 → exec (.mcfg o) s = .next (form a s1)) ∧
      (drainBad mode d = false →
        let out := leAt d 0 1
        let codes := 2 ≤ out ∧ out ≤ 4
        (leAt d 3 1 = 1 → leAt d 16 8 % 8 = 0 ∧ loadBytes (some 0) (leAt d 16 8) 1024 8 s1 = .ok bs s2) →
        (leAt d 3 1 ≠ 1 → s2 = s1) →
        (codes → leAt d 24 8 % 8 = 0 ∧ loadBytes (some 0) (leAt d 24 8) (2 * 2 ^ (outFormat out).2) 8 s2 = .ok cs s3) →
        (¬codes → s3 = s2) → s3.cur = s.cur → s.keepsHart s3 →
        (codes → tableFault (entriesOf (2 ^ (outFormat out).2) cs) = none) →
        exec (.mcfg o) s = .next ((setQuad cl q { quadOf s3 cl q with drain := {
          out := some out, hlev := leAt d 1 1, thr := leAt d 2 1
          bias := if leAt d 3 1 = 1 then some (biasOf mode bs) else none, scale := signed 8 (leAt d 4 1)
          book := if codes then entriesOf (2 ^ (outFormat out).2) cs else []
          thresholds := BitVec.ofNat 64 (leAt d 8 8) } } s3).past 4 o.stall.toNat))

/-- R277 to R288. These events change nothing of any hart but MSTAT of the control core. -/
def Obligations.MatrixSteps : Prop :=
  ∀ (o : ClusterArgs) (s : State),
    let c := o.cluster
    let q := o.quadrant % 4
    let k := quadOf s c q
    let cmd := wbits k.seq 61 59
    let bld := k.seq.getLsbD 28
    let rows := wbits k.seq 12 0
    let mode := k.mtype.toNat % 4
    (k.running = false → exec (.seqBLoad o) s = .next s ∧ exec (.seqARow o) s = .next s ∧ exec (.drainGroup o) s = .next s ∧
      exec (.seqZeroRows o) s = .next s ∧ exec (.seqStop o) s = .next s) ∧
    (k.running = true → exec (.seqStop o) s = .next (runToPoint c q (200 + 2 * (clusterOf s c).loader.length) s)) ∧
    (k.running = true → ∀ s1,
      (seqStep c q s = (s1, .ended) → exec (.seqStop o) s = .next s1) ∧
      (∀ n, seqStep c q s = (s1, .moved false) → runToPoint c q (n + 1) s = runToPoint c q n s1) ∧
      (seqStep c q s = (s1, .moved true) ∨ seqStep c q s = (s1, .waits true) → (quadOf s1 c q).running = true →
        exec (.seqStop o) s = .next (setQuad c q { quadOf s1 c q with
          running := false, block := [], seq := wset (wset (quadOf s1 c q).seq 63 63 1) 62 62 1 } s1))) ∧
    (k.running = true → cmd = 2 → (bld = false ∨ k.block = []) →
      (fetchBlock c q s = none → exec (.seqBLoad o) s = .next s) ∧
      (∀ e, fetchBlock c q s = some (.error e) → exec (.seqBLoad o) s =
        .next (setQuad c q { k with running := false, seq := wset (wset (wset k.seq 63 63 1) 62 62 1) 58 56 e } s)) ∧
      (∀ b, fetchBlock c q s = some (.ok b) →
        exec (.seqBLoad o) s = .next (setQuad c q { k with
          seq := wset k.seq 28 28 1, block := b, next := k.g + blockGranules (clusterOf s c) k.g } s))) ∧
    (k.running = true → cmd = 2 → bld = true → k.block ≠ [] → wbits k.opb 24 12 ≤ rows →
      (wbits k.seq 40 32 + 1 < wbits k.opb 40 32 → exec (.seqARow o) s = .next (setQuad c q
        { k with seq := BitVec.ofNat 64 (2 * 2 ^ 59 + (wbits k.seq 40 32 + 1) * 2 ^ 32), block := [], g := k.next } s)) ∧
      (wbits k.opb 40 32 ≤ wbits k.seq 40 32 + 1 →
        exec (.seqARow o) s = .next (setQuad c q { k with running := false, seq := 0, block := [] } s))) ∧
    (k.running = true → cmd = 2 → bld = true → k.block ≠ [] → rows < wbits k.opb 24 12 →
      (k.aPort = [] → exec (.seqARow o) s = .next s) ∧
      ∀ r rest, k.aPort = r :: rest →
        let suits := if mode = 1 then r.fmt = 0 else if mode = 2 then r.fmt = 1 else r.fmt = 2
        (¬suits → ∃ t, exec (.seqARow o) s = .next t ∧ (quadOf t c q).running = false ∧ (quadOf t c q).aPort = rest ∧
          wbits (quadOf t c q).seq 58 56 = 4 ∧ t.h = s.h) ∧
        (suits →
          let n := wbits k.opb 11 0 + rows
          let old := lookD {} n k.acc
          let vals : List (Nat × Nat) := ((accVals mode old.bits).zip (blockColumns mode k.block)).map fun x =>
            macOne mode (wbits k.mtype 6 4) x.1 (aRowVals r) x.2
          let mixed := old.fresh = false ∧ (tagHaar r.tag ≠ tagHaar old.tag ∨ tagLevels r.tag ≠ tagLevels old.tag)
          let row : AccRow := ⟨BitVec.ofNat 8192 (packRow (accWidth mode) (vals.map fun (x : Nat × Nat) => x.1)),
            if old.fresh then r.tag else old.tag, false⟩
          let k1 := { k with aPort := rest, acc := put n row k.acc }
          let s1 := raiseMstat c (orFlags (vals.map fun (x : Nat × Nat) => x.2) + (if mixed then 32 else 0)) s
          exec (.seqARow o) s = .next (setQuad c q { k1 with seq := wset k.seq 12 0 (rows + 1) } s1))) ∧
    (k.running = true → cmd = 3 →
      let g := if k.drain.hlev = 0 then 1 else 8
      let r0 := wbits k.opa 11 0 + rows
      let out := drainRows k r0 g
      (wbits k.opa 24 12 ≤ rows →
        exec (.drainGroup o) s = .next (setQuad c q { k with running := false, seq := 0, block := [] } s)) ∧
      (rows < wbits k.opa 24 12 → 64 < k.outPort.length + g → exec (.drainGroup o) s = .next s) ∧
      (rows < wbits k.opa 24 12 → k.outPort.length + g ≤ 64 → ∃ t, exec (.drainGroup o) s = .next t ∧
        (quadOf t c q).outPort = k.outPort ++ out.1 ∧
        (quadOf t c q).acc = (if k.opa.getLsbD 32 then (List.range g).foldl (fun a j => cut (r0 + j) a) k.acc else k.acc) ∧
        (quadOf t c q).seq = wset k.seq 12 0 (rows + g) ∧ (quadOf t c q).running = true ∧ t.mem = s.mem)) ∧
    (k.running = true → cmd = 4 →
      (wbits k.opa 24 12 ≤ rows →
        exec (.seqZeroRows o) s = .next (setQuad c q { k with running := false, seq := 0, block := [] } s)) ∧
      (rows < wbits k.opa 24 12 → exec (.seqZeroRows o) s = .next (setQuad c q { k with
        acc := cut (wbits k.opa 11 0 + rows) k.acc, seq := wset k.seq 12 0 (rows + 1) } s))) ∧
    ((clusterOf s c).loader = [] → exec (.weightLoad o) s = .next s) ∧
    (let holds := fun (t : State) (g : Nat) (v : BitVec 512) (bad : Bool) =>
       lookD 0 g (clusterOf t c).weights = v ∧ (g ∈ (clusterOf t c).poisoned ↔ bad = true)
     (∀ w rest data, (clusterOf s c).loader = w :: rest → w.data = some data → (∀ u ∈ rest, u.data ≠ none) →
       (fetchPending (clusterOf s c) w = true → exec (.weightLoad o) s = .next s) ∧
       (fetchPending (clusterOf s c) w = false → ∃ t, exec (.weightLoad o) s = .next t ∧ (clusterOf t c).loader = rest ∧
         (∀ i x, data[i]? = some x → holds t (w.granule + i) x.1 x.2) ∧
         ∀ g, (g < w.granule ∨ w.granule + data.length ≤ g) →
           look g (clusterOf t c).weights = look g (clusterOf s c).weights)) ∧
     ∀ (w : WeightCopy) (bs : Nat → List Byte) (bad : Nat → Bool),
       (clusterOf s c).loader.find? (fun u => u.data.isNone) = some w → (∀ ch ∈ copyChannels c w s, ch.state = .failed) →
       (∀ p ∈ w.parts, heldOver s p.1.pa p.2 = false) →
       (∀ i < w.count, readGranule c w.parts (64 * i) s = (s, bs i, bad i)) →
       let written := (clusterOf s c).loader.head? = some w ∧ fetchPending (clusterOf s c) w = false
       ∃ t, exec (.weightLoad o) s = .next t ∧
         (written → ∀ i < w.count, holds t (w.granule + i) (BitVec.ofNat 512 (natOfBytes (bs i))) (bad i)) ∧
         (¬written → { w with data := some ((List.range w.count).map fun i => (BitVec.ofNat 512 (natOfBytes (bs i)), bad i)) } ∈
           (clusterOf t c).loader)) ∧
    (k.seq.getLsbD 63 = false → exec (.mseqRestart o) s = .next s) ∧
    (k.seq.getLsbD 63 = true → ∃ t, exec (.mseqRestart o) s = .next t ∧ (quadOf t c q).running = true ∧
      (quadOf t c q).seq.getLsbD 63 = false ∧ (quadOf t c q).block = [] ∧ (quadOf t c q).opa = k.opa ∧
      (quadOf t c q).opb = k.opb ∧ t.h = s.h) ∧
    ∃ t, exec (.mseqAbandon o) s = .next t ∧ (quadOf t c q).running = false ∧ (quadOf t c q).seq.getLsbD 63 = false ∧
      (quadOf t c q).aPort = k.aPort ∧ (quadOf t c q).outPort = k.outPort ∧ (quadOf t c q).acc = k.acc ∧ t.h = s.h

/-- R338 to R345, R322. Records are read and written as loads and stores of class c0. What a slot keeps when EXIT empties it is the
model's choice: UFDELEG and CEROUT (log 15), the mail set aside there (log 16) and a pending WAKE (log 41). -/
def Obligations.TaskWords : Prop :=
  ∀ (o : RArgs) (s : State), s.Ready → s.h.role ≠ .control → s.guarded o.guard o.neg → unstepped s = false →
    unstepped (earlyCommit 2 s) = false →
    let x := s.h.reg o.a.toNat
    let done := fun (v : Nat) (t : State) =>
      Host.Outcome.next (((t.wrote o.d (BitVec.ofNat 64 v) 1 0).past 4 o.stall.toNat))
    let mail := fun (t : State) => (slotOf t s.cur).mail
    let u := earlyCommit 2 s
    (∀ (s1 s2 : State) (bs : List Byte), s.h.role ≠ .computer → x.toNat % 256 = 0 →
      loadBytes (some 0) x.toNat 256 256 u = .ok bs s1 → s1.cur = s.cur → s1.h.pfx = none → s1.h.pend = [] →
      (bits (leAt bs 16 1) 1 0 = 0 → s1.h.mode ≠ .user) →
      let parsed := parsePacket ⟨s1.cur, s1.h.csr.ptroot, s1.h.mode, fun key z => ctxOf s1.cur s1.h.mode key z⟩ 0
        s1.h.sup.tvec s1.h.mach.tvec bs s1
      (∀ p, parsed = .ok p s2 → s2.cur = s1.cur → s2.h.pfx = none → s2.h.pend = [] →
        let n := 48 + coordCluster s.cur
        let q := queueOf s2 n
        (q.fifo.length < 64 → exec (.launch o) s =
          done q.accepted (setQueue n { q with fifo := q.fifo ++ [p], accepted := q.accepted + 1 } s2)) ∧
        (64 ≤ q.fifo.length →
          exec (.launch o) s = .next (s.waits (.launch o) .launch s2))) ∧
      (∀ c a, parsed = .error (c, a) s2 → c ≠ 0 → c ≠ 6 → s2.h.pfx = none →
        exec (.launch o) s = .next (State.trapped 0x1E x s2.h.pc s2))) ∧
    (∀ (s1 : State) (rec' : List Byte), s.h.role ≠ .computer → x.toNat % 8 = 0 →
      loadBytes (some 0) x.toNat 32 8 s = .ok rec' s1 → s1.cur = s.cur → s.keepsHart s1 → unstepped s1 = false →
      unstepped (earlyCommit 2 s1) = false →
      let cap := wbits s.h.csr.taskq 2 0
      let va := dequeSlot s.h s.h.deque
      (∀ t rest, (mail s1).mailbox = t :: rest → exec (.spawn o) s = done 1
        (answerSteal t (fun m => { m with inbox := some rec', pendSteal := none })
          (setMail s.cur (fun m => { m with mailbox := rest }) (earlyCommit 2 s1)))) ∧
      ((mail s1).mailbox = [] → (cap = 0 ∨ 2 ^ cap ≤ s.h.deque) → exec (.spawn o) s = done 2 (earlyCommit 2 s1)) ∧
      (∀ (s2 s3 : State) (id : Option Nat), (mail s1).mailbox = [] → cap ≠ 0 → s.h.deque < 2 ^ cap → va % 8 = 0 →
        dequeCheck va .write s1 = .ok () s2 → storeBytes (some 0) va 8 rec' s2 = .ok id s3 → s3.h.pfx = none → s3.h.pend = [] →
        let t := earlyCommit 2 s3
        exec (.spawn o) s = done 0 { t with h := { t.h with deque := t.h.deque + 1 } })) ∧
    ((x.toNat = s.h.ordinal ∨ s.h.peers ≤ x.toNat) → stealVictim u x.toNat = none) ∧
    (stealVictim u x.toNat = none → exec (.steal o) s = done 3 u) ∧
    (∀ v, stealVictim u x.toNat = some v →
      let n := u.dev.nextSteal
      ((mail u).pendSteal ≠ none ∨ (mail u).inbox ≠ none → exec (.steal o) s = done 2 u) ∧
      ((mail u).pendSteal = none → (mail u).inbox = none →
        (16 ≤ (slotOf u v).mail.mailbox.length → exec (.steal o) s = done 1 u) ∧
        ((slotOf u v).mail.mailbox.length < 16 → exec (.steal o) s = done 0
          (setMail v (fun m => { m with mailbox := m.mailbox ++ [⟨s.cur, n⟩] })
            (setMail s.cur (fun m => { m with pendSteal := some n }) { u with dev := { u.dev with nextSteal := n + 1 } }))))) ∧
    (s.h.role ≠ .computer → x.toNat % 8 = 0 →
      let ends := fun (v : Nat) (t : State) => Host.Outcome.next
        ((earlyCommit 2 (setMail s.cur (fun m => { m with ret := false }) (t.wrote o.d (BitVec.ofNat 64 v) 1 0))).past 4
          o.stall.toNat)
      (s.h.deque = 0 → (mail s).inbox = none → exec (.taskget o) s = ends (if (mail s).pendSteal.isSome then 2 else 1) s) ∧
      (∀ (s1 : State) (rec' : List Byte) (id : Option Nat), s.h.deque = 0 → (mail s).inbox = some rec' →
        storeBytes (some 0) x.toNat 8 rec' s = .ok id s1 → s1.cur = s.cur → s1.h.pfx = none → s1.h.pend = [] →
        exec (.taskget o) s = ends 0 (setMail s.cur (fun m => { m with inbox := none }) s1)) ∧
      ∀ (s1 s2 s3 : State) (bs : List Byte) (id : Option Nat), s.h.deque ≠ 0 →
        let va := dequeSlot s.h (s.h.deque - 1)
        dequeCheck va .read s = .ok () s1 → loadBytes (some 0) va 32 8 s1 = .ok bs s2 → va % 8 = 0 →
        storeBytes (some 0) x.toNat 8 bs s2 = .ok id s3 → s3.cur = s.cur → s3.h.pfx = none → s3.h.pend = [] →
        exec (.taskget o) s = ends 0 { s3 with h := { s3.h with deque := s3.h.deque - 1 } }) ∧
    exec (.yield o) s = .next ((u.h.groups.foldl (fun t g => passGroup s.cur g t) u).past 4 o.stall.toNat) ∧
    (s.h.strip.buf = [] → s.h.errs = [] → (∀ st ∈ (mail s).mailbox, st.slot ≠ s.cur) →
      (∀ c ∈ (coreOf s (coreIndex s.cur)).channels.toList, c.state = .idle ∨ c.owner ≠ coordSlot s.cur) →
      ∃ t, exec (.exit o) s = .next t ∧ t.h.live = false ∧ t.h.launch = 0 ∧ t.mem = s.mem ∧ t.harts = s.harts ∧
        slotOf t s.cur = { reply := (slotOf s s.cur).reply, wake := (slotOf s s.cur).wake, aside := (slotOf s s.cur).aside,
                              ufdeleg := s.h.csr.ufdeleg, cerout := s.h.csr.cerout } ∧
        (∀ st ∈ (mail s).mailbox, (slotOf s st.slot).mail.pendSteal = some st.num →
          (slotOf t st.slot).mail.pendSteal = none ∧ (slotOf t st.slot).mail.ret = true) ∧
        (∀ l, look s.h.launch s.dev.launches = some l →
          (1 < l.unfinished ∨ l.packet.done.isSome = true →
            look s.h.launch t.dev.launches = some { l with unfinished := l.unfinished - 1 }) ∧
          (l.unfinished ≤ 1 → l.packet.done = none → look s.h.launch t.dev.launches = none)))

/-- R83 to R85, R94, R392, R393. The model's choices: the TAG of a line that cannot be rebuilt is a free value (log 7); TVAL is sA
at MIGRATE's checks, and sB for a bad destination (log 29); MSQ and MIGRATE of a machine-mode hart have supervisor rights (log 43). -/
def Obligations.PrivWords : Prop :=
  (∀ e ∈ ([Instr.tlbi, .msq, .migrate, .keyld, .actbl, .preempt, .resume] : List (RArgs → Instr)), ∀ (o : RArgs) (s : State),
    s.Ready → s.h.mode = .user →
    exec (e o) s = .next (State.trapped 0x03 (BitVec.ofNat 64 (e o).word) s.h.pc s)) ∧
  (∀ e ∈ ([Instr.keyld, .actbl] : List (RArgs → Instr)), ∀ (o : RArgs) (s : State), s.Ready → s.h.mode = .supervisor →
    exec (e o) s = .next (State.trapped 0x03 (BitVec.ofNat 64 (e o).word) s.h.pc s)) ∧
  (∀ (o : RArgs) (s : State), s.Ready → s.h.mode ≠ .user → s.guarded o.guard o.neg → s.loaded → unstepped s = false →
    unstepped (earlyCommit 2 s) = false →
    let x := s.h.reg o.a.toNat
    let y := s.h.reg o.b.toNat
    let u := earlyCommit 2 s
    let ill := fun (i : Instr) => Host.Outcome.next (State.trapped 0x01 (BitVec.ofNat 64 i.word) s.h.pc s)
    let waits := fun (i : RArgs → Instr) (w : Wait) (t : State) => Host.Outcome.next (s.waits (i o) w t)
    let done := fun (v : Nat) (t : State) =>
      Host.Outcome.next (((t.wrote o.d (BitVec.ofNat 64 v) 1 0).past 4 o.stall.toNat))
    (2 ^ 10 ≤ y.toNat → exec (.tlbi o) s = ill (.tlbi o)) ∧
    (y.toNat < 2 ^ 10 →
      let hit := fun (e : Nat × Nat × Nat) => (y.getLsbD 8 || e.1 == wbits y 7 0) &&
        (y.getLsbD 9 || (decide (e.2.1 ≤ x.toNat % 2 ^ 55) && decide (x.toNat % 2 ^ 55 < e.2.1 + e.2.2)))
      let t : State := { u with
        cores := u.cores.map fun c => (c.1, { c.2 with tlb := c.2.tlb.filter fun n => !hit (n.asn, n.va, n.size) })
        clusters := u.clusters.map fun c => (c.1, { c.2 with tlb := c.2.tlb.filter fun n => !hit (n.asn, n.va, n.size) }) }
      (entriesQuiet hit t = true → exec (.tlbi o) s = .next (t.past 4 o.stall.toNat)) ∧
      (entriesQuiet hit t = false → exec (.tlbi o) s = waits .tlbi .order t)) ∧
    (∀ (v : Xlat) (s1 : State), translateAs .supervisor x.toNat .read s = .ok v s1 → s1.h.pfx = none → s1.h.pend = [] →
      s1.h.ops = [] → s1.loaded → unstepped s1 = false → unstepped (earlyCommit 2 s1) = false →
      let ok := accessAllowed s1 (if s1.h.mode = .machine then 0x3F0 else coordCluster s1.cur) v.pa true false
      (v.typ = 4 → exec (.msq o) s = .next (State.trapped 0x13 x s1.h.pc s1)) ∧
      (v.typ ≠ 4 → ¬(targetOf v.pa = .hbm ∧ ok = true) →
        exec (.msq o) s = .next (State.trapped 0x14 x s1.h.pc s1)) ∧
      (v.typ ≠ 4 → targetOf v.pa = .hbm → ok = true →
        let line := lineOf v.pa
        let t := writebackLine line (earlyCommit 2 s1)
        let value := fun (tag : Nat) => t.hbm.place line * 2 ^ 24 + (if cached t line then 2 ^ 14 else 0)
          + homeSlice line * 256 + tagSectors tag * 16 + tag % 16
        (∀ im, t.hbm.stored line = some im → exec (.msq o) s = done (value im.tag) t) ∧
        (t.hbm.stored line = none → exec (.msq o) s =
          done (value (wbits (Config.freeValue t.freeCount) 3 0)) { t with freeCount := t.freeCount + 1 }))) ∧
    (∀ (s1 : State) (e : Word) (lvl : Nat), canonical x.toNat = true → s1.h.pfx = none →
      let va := x.toNat % 2 ^ 55
      let root := wbits s.h.csr.ptroot 63 28
      walk s.h.walker root va true s = .ok (s1, e, lvl) → rightsOk e .write .supervisor = true →
      let range := leafRange e lvl va
      let old := (range.2.2 + (va - range.1)) / 65536
      let new := wbits y 51 16
      let moving := fun (t : State) (g : Nat) => t.dev.migrating.any fun m => m.1 == g || m.2.dest == g
      let t := earlyCommit 2 s1
      (moving s1 old = true → exec (.migrate o) s = waits .migrate .migration t) ∧
      (moving s1 old = false → old = new → exec (.migrate o) s = .next (t.past 4 o.stall.toNat)) ∧
      (moving s1 old = false → old ≠ new → ¬(lvl = 3 ∧ wbits e 6 4 = 0) →
        exec (.migrate o) s = .next (State.trapped 0x11 x s1.h.pc s1)) ∧
      (moving s1 old = false → old ≠ new → lvl = 3 → wbits e 6 4 = 0 → 1 < wbits e 15 13 →
        exec (.migrate o) s = .next (State.trapped 0x13 x s1.h.pc s1)) ∧
      (moving s1 old = false → old ≠ new → lvl = 3 → wbits e 6 4 = 0 → wbits e 15 13 ≤ 1 →
        ¬(y.toNat % 65536 = 0 ∧ y.toNat < 0xF000000000) → exec (.migrate o) s = .next (State.trapped 0x14 y s1.h.pc s1)) ∧
      (moving s1 old = false → old ≠ new → lvl = 3 → wbits e 6 4 = 0 → wbits e 15 13 ≤ 1 → y.toNat % 65536 = 0 →
        y.toNat < 0xF000000000 → moving t (y.toNat / 65536) = false →
        exec (.migrate o) s = waits .migrate .migration (startMigration old (y.toNat / 65536) (leafAddress t.h.walker root va t)
          (wbits t.h.csr.ptroot 7 0) va e t))) ∧
    (s.h.mode = .machine →
      let slot := y.toNat % 4096
      ((2 ^ 13 ≤ y.toNat ∨ slot = 0) → exec (.keyld o) s = ill (.keyld o)) ∧
      (y.toNat < 2 ^ 13 → slot ≠ 0 → 4096 ≤ y.toNat → exec (.keyld o) s = done 0 (changeKey slot none u)) ∧
      (∀ (s1 : State) (blob : List Byte), y.toNat < 4096 → slot ≠ 0 → x.toNat % 8 = 0 →
        loadBytes (some 0) x.toNat 72 8 u = .ok blob s1 → s1.h.pfx = none → s1.h.pend = [] →
        (unwrap Config.wrappingKey blob = none → exec (.keyld o) s = done 1 s1) ∧
        (∀ ks, unwrap Config.wrappingKey blob = some ks → exec (.keyld o) s =
          done 0 (changeKey slot (some ⟨BitVec.ofNat 256 (leAt ks 0 32), BitVec.ofNat 256 (leAt ks 32 32)⟩) s1))) ∧
      (¬(wbits x 15 10 = 0 ∧ wbits x 63 19 = 0 ∧ (wbits x 9 0 < 0x58 ∨ (0x100 ≤ wbits x 9 0 ∧ wbits x 9 0 < 0x200))) →
        exec (.actbl o) s = ill (.actbl o)) ∧
      (∀ (s1 : State) (bs : List Byte), wbits x 15 10 = 0 → wbits x 63 19 = 0 →
        (wbits x 9 0 < 0x58 ∨ (0x100 ≤ wbits x 9 0 ∧ wbits x 9 0 < 0x200)) → y.toNat % 16 = 0 →
        loadBytes (some 0) y.toNat 16 16 u = .ok bs s1 → s1.h.pfx = none →
        let n := leAt bs 0 16
        exec (.actbl o) s = .next (State.past 4 o.stall.toNat { s1 with dev := { s1.dev with
          access := put (8 * wbits x 9 0 + wbits x 18 16)
            (BitVec.ofNat 128 (bits n 99 64 * 2 ^ 64 + bits n 63 61 * 2 ^ 61 + bits n 35 0)) s1.dev.access } })))) ∧
  ∀ (o : GranuleArgs) (s : State),
    let old := o.granule / 65536
    (look old s.dev.migrating = none → exec (.migrationComplete o) s = .next s) ∧
    ∀ m, look old s.dev.migrating = some m →
      let uses := entryMatches (some m.asn) (some m.va)
      (migrationQuiet old uses s = false → exec (.migrationComplete o) s = .next s) ∧
      (migrationQuiet old uses s = true → (∀ w ∈ s.dev.heldWrites, w.pa / 65536 ≠ old) →
        (∀ r ∈ s.dev.heldReads, r.waits / 65536 ≠ old) →
        ∃ t, exec (.migrationComplete o) s = .next t ∧ t.dev.migrating = cut old s.dev.migrating ∧
          t.dev.heldWrites = s.dev.heldWrites ∧ t.mem = s.mem ∧ t.hbm = s.hbm ∧ t.h.s = s.h.s ∧
          (∀ c ∈ t.cores, ∀ n ∈ c.2.tlb, uses (n.asn, n.va, n.size) = false) ∧
          (∀ c ∈ t.clusters, ∀ n ∈ c.2.tlb, uses (n.asn, n.va, n.size) = false) ∧
          ∀ q ∈ t.h.ops, q.value = none → ∀ parts natural cls, q.kind = .load parts natural cls →
            ∀ p ∈ parts, m.dest ≠ old → p.1.pa / 65536 ≠ old) ∧
      ∀ (w : HeldWrite) (i n : Nat), migrationQuiet old uses s = true → s.dev.heldWrites = [w] →
        (∀ r ∈ s.dev.heldReads, r.waits / 65536 ≠ old) → w.pa / 65536 = old → w.mask = [] →
        w.coord = none → w.ack = some (i, n) → w.bytes ≠ [] → w.pa % 32 + w.bytes.length ≤ 32 → m.dest < 0xF00000 →
        look m.dest s.dev.migrating = none → (keyOf s w.key).isSome = true → Memory.wf s.mem = true →
        ∃ t, exec (.migrationComplete o) s = .next t ∧ t.dev.heldWrites = [] ∧
          t.replies = s.replies ++ [{ initiator := i, tag := n, bytes := some [] }] ∧
          ∀ j < w.bytes.length, Memory.read t.mem (m.dest * 65536 + w.pa % 65536 + j) = w.bytes.getD j 0

/-- R378, R381, R382, R384. The model's choices: the mail of a pre-empted hart is set aside from its slot (log 16); PREEMPT waits
where another one's request stands at the slot, and RESUME answers 3 for a crew's later member (log 42). -/
def Obligations.ContextWords : Prop :=
  (∀ (o : RArgs) (s : State), s.Ready → s.h.mode ≠ .user → s.guarded o.guard o.neg →
    let x := s.h.reg o.a.toNat
    let y := s.h.reg o.b.toNat
    let core := wbits x 14 8
    let tgt := if core = 127 then matrixCoord (wbits x 19 16) else coordOf (wbits x 19 16) core (wbits x 2 0)
    let legal := wbits x 63 32 = 0 ∧ wbits x 23 20 = 0 ∧ x.getLsbD 15 = false ∧ wbits x 7 3 = 0 ∧ (core < 96 ∨ core = 127) ∧
      tgt ≠ s.cur
    let u := earlyCommit 2 s
    let done := fun (v : Nat) (t : State) =>
      Host.Outcome.next (((t.wrote o.d (BitVec.ofNat 64 v) 1 0).past 4 o.stall.toNat))
    let waits := fun (w : Wait) (t : State) => Host.Outcome.next (s.waits (.preempt o) w t)
    (¬legal → exec (.preempt o) s = .next (State.trapped 0x27 x s.h.pc s) ∧
      exec (.resume o) s = .next (State.trapped 0x27 x s.h.pc s)) ∧
    (legal →
      (y = 0 → exec (.preempt o) s =
        done (if occupied s tgt then 0 else 1) (setSlot tgt { slotOf u tgt with wake := true } u)) ∧
      (∀ v, y ≠ 0 → (slotOf s s.cur).answer = some v → exec (.preempt o) s =
        done v.toNat (setSlot s.cur { slotOf s s.cur with answer := none } s)) ∧
      (y ≠ 0 → (slotOf s s.cur).answer = none →
        (requestOpen s = true → exec (.preempt o) s = waits .stop s) ∧
        (requestOpen s = false → y.toNat % 4096 ≠ 0 → exec (.preempt o) s = .next (State.trapped 0x16 y s.h.pc s)) ∧
        ∀ (s1 : State) (parts : List (Nat × Nat × Xlat)), requestOpen s = false → y.toNat % 4096 = 0 →
          translateRange y.toNat (0x18000 * (crewSlots s tgt).length) .write s = .ok parts s1 → s1.h.pfx = none → s1.h.pend = [] →
          (∀ p, (parts.find? fun p => decide (2 ≤ p.2.2.typ)) = some p →
            exec (.preempt o) s = .next (State.trapped 0x13 (BitVec.ofNat 64 p.1) s1.h.pc s1)) ∧
          ((∀ p ∈ parts, p.2.2.typ < 2) →
            let t := earlyCommit 2 s1
            (occupied t tgt = false → exec (.preempt o) s = done 1 t) ∧
            (occupied t tgt = true → (∃ m ∈ crewSlots s tgt, (slotOf t m).preempt.isSome = true) →
              exec (.preempt o) s = waits .order t) ∧
            (occupied t tgt = true → crewSlots s tgt = [tgt] → (slotOf t tgt).preempt = none →
              exec (.preempt o) s = waits .stop (setSlot tgt { slotOf t tgt with
                preempt := some ⟨parts.map fun (a, n, v) => (accessOf t a v, n), s.cur⟩ } t)))) ∧
      (∀ (s1 : State) (hd : List Byte), loadBytes (some 0) y.toNat 64 1 u = .ok hd s1 → s1.h.pfx = none → s1.h.pend = [] →
        (parseHeader none hd = none → exec (.resume o) s = done 3 s1) ∧
        ∀ d, parseHeader none hd = some d →
          (d.kind = 2 ∨ d.kind = 3 → exec (.resume o) s = done 3 s1) ∧
          ∀ (s2 : State) (hd' : List Byte), d.kind = 0 → loadBytes (some 0) y.toNat 64 1 s1 = .ok hd' s2 →
            s2.h.pfx = none → s2.h.pend = [] →
            (parseHeader (some 0) hd' = none → exec (.resume o) s = done 3 s2) ∧
            ((parseHeader (some 0) hd').isSome = true →
              (d.bound = true → tgt ≠ d.coord % 2 ^ 20 → exec (.resume o) s = done 2 s2) ∧
              ((d.bound = true → tgt = d.coord % 2 ^ 20) →
                (resumeGroups s2 tgt d.cls d.width 0 = none → exec (.resume o) s = done 1 s2) ∧
                ∀ gs (im : ImageRead) (s3 : State), resumeGroups s2 tgt d.cls d.width 0 = some gs →
                  readImage y.toNat (some 0) s2 = .ok (some im) s3 → s3.cur = s.cur →
                  let t := resumeOne im tgt 0 gs s3
                  t.h.pfx = none → t.h.pend = [] → exec (.resume o) s = done 0 t ∧
                  (im.hdr.kind = 0 → im.hdr.ops = 0 → ∃ h, hartAt t tgt = some h ∧ h.live = true ∧ h.role = .solo ∧
                    h.groups = gs ∧ h.pc = im.hdr.epc ∧ h.lastd.toNat = im.hdr.lastd % 32 ∧ h.vstart = im.hdr.vstart ∧
                    ∀ j, 0 < j → j < 32 → h.s[j]? = some (BitVec.ofNat 64 (leAt im.low (0x240 + 8 * j) 8)))))))) ∧
  ∀ (s : State), s.h.live = true →
    ((slotOf s s.cur).preempt = none → exec .preemptionPoint s = .next s) ∧
    (interruptible s.h = false ∨ s.h.atStop = false → exec .preemptionPoint s = .next s) ∧
    ∀ r, (slotOf s s.cur).preempt = some r → interruptible s.h = true → s.h.atStop = true → s.h.role = .solo → s.h.strip.buf = [] → s.h.pend = [] →
      s.h.ops = [] → s.h.errs = [] → r.requester ≠ s.cur → heldBy s.cur s = false →
      ∃ t, exec .preemptionPoint s = .next t ∧ t.h.live = false ∧ t.cur = s.cur ∧ (slotOf t r.requester).answer = some 0 ∧
        (slotOf t s.cur).preempt = none ∧ (slotOf t s.cur).mail = {}

/-- R56 to R63, R67, R85, R87 to R89, R92, R387. The model's choices: an event that cannot happen in a state changes nothing
(log 11); a line that comes in may evict another, and which lines a prefetch may bring in (log 45); a device in reset denies every
request (log 17); a second lost stack raises vector 2 alone where no hart runs at MGTGT, and LOST keeps the first stack first
(log 18); and the numbers of the arrays (`arrayOf`). -/
def Obligations.MemoryEvents : Prop :=
  (∀ (o : ReadArgs) (s : State),
    let c := requestCtx o.initiator s
    let reply := fun (bs : Option (List Byte)) (bad : Bool) (t : State) =>
      Host.Outcome.next (answer o.initiator o.tag bs bad t)
    (o.bar = true → exec (.memoryReadRequest o) s = .next (answer 0x50 o.tag (barRead o.pa o.len s) false s)) ∧
    (o.bar = false → requestReaches o.initiator o.pa o.len s = false → exec (.memoryReadRequest o) s = reply none false s) ∧
    (o.bar = false → requestReaches o.initiator o.pa o.len s = true →
      (∀ s1 bs bad, physRead c o.pa o.len s = .ok (s1, bs, bad) →
        exec (.memoryReadRequest o) s = reply (some bs) bad.isSome s1) ∧
      (∀ w ∈ s.dev.heldWrites, w.pa / 128 = o.pa / 128 → o.len ≠ 0 → o.pa % 32 + o.len ≤ 32 → o.pa < 0xF000000000 →
        accessAllowed s o.initiator o.pa true false = true → (keyOf s c.key).isSome = true →
        exec (.memoryReadRequest o) s = .next { s with dev := { s.dev with heldReads := s.dev.heldReads ++
          [{ initiator := o.initiator, tag := o.tag, pa := o.pa, n := o.len, waits := o.pa }] } }) ∧
      ∀ e a, physRead c o.pa o.len s = .error (e, a) → e ≠ 0 → exec (.memoryReadRequest o) s = reply none false s)) ∧
  (∀ (s : State) (off n : Nat), off % n = 0 → (n = 1 ∨ n = 2 ∨ n = 4 ∨ n = 8) →
    (0x20008 ≤ off → off < 0x20010 → barRead off n s = some (bytesOf n (clovest s.hbm / 2 ^ (8 * (off % 8))))) ∧
    (0x12000 ≤ off → off < 0x12008 → barRead off n s = some (bytesOf n (s.dev.mgmt.mbdb.toNat / 2 ^ (8 * (off % 8))))) ∧
    (0x20000 ≤ off → off < 0x20008 → barRead off n s = some (bytesOf n (s.dev.hwkey.toNat / 2 ^ (8 * (off % 8))))) ∧
    (0x12008 ≤ off → off < 0x20000 → barRead off n s = none)) ∧
  (∀ (initiator tag : Nat) (bs : Option (List Byte)) (bad : Bool) (s : State), initiator < 0x100 →
    answer initiator tag bs bad s =
      { s with replies := s.replies ++ [{ initiator := initiator, tag := tag, bytes := bs, poison := bad }] }) ∧
  (∀ (o : WriteArgs) (s : State),
    let c := requestCtx o.initiator s
    let reply := fun (bs : Option (List Byte)) (t : State) => Host.Outcome.next (answer o.initiator o.tag bs false t)
    (requestReaches o.initiator o.pa o.bytes.length s = false → exec (.memoryWriteRequest o) s = reply none s) ∧
    (requestReaches o.initiator o.pa o.bytes.length s = true →
    (∀ s1 bad, physWrite c o.pa o.bytes s = .ok (s1, bad) → s1.dev.heldWrites = s.dev.heldWrites →
      exec (.memoryWriteRequest o) s = reply (some []) s1) ∧
    (∀ m, look (o.pa / 65536) s.dev.migrating = some m → o.bytes ≠ [] → o.pa % 32 + o.bytes.length ≤ 32 →
      o.pa < 0xF000000000 → accessAllowed s o.initiator o.pa false true = true → (keyOf s c.key).isSome = true →
      exec (.memoryWriteRequest o) s = .next { s with dev := { s.dev with heldWrites := s.dev.heldWrites ++
        [{ pa := o.pa, bytes := o.bytes, key := c.key, ack := some (o.initiator, o.tag) }] } }) ∧
    ∀ e a, physWrite c o.pa o.bytes s = .error (e, a) → e ≠ 0 → exec (.memoryWriteRequest o) s = reply none s)) ∧
  (∀ (s : State) (pa : Nat),
    let sec := pa / 32 * 32
    let t := reportFailed pa 1 s
    (look sec s.flaws = some .failed → look sec t.flaws = some .poison ∧
      t.dev.mgmt.uncorrectable = put (arrayOf sec) (lookD 0 (arrayOf sec) s.dev.mgmt.uncorrectable + 1) s.dev.mgmt.uncorrectable ∧
      t.mem = s.mem) ∧
    (look sec s.flaws ≠ some .failed → t = s)) ∧
  (∀ (o : FillArgs) (s : State),
    let line := o.line / 128 * 128
    let u := makeRoom line s
    let s1 : State := { u with hbm := { u.hbm with cache := put line { key := o.key } u.hbm.cache } }
    (mayFill line s = false ↔ lineWanted line s = false ∧ ((∃ x ∈ lineTypes line s, x = 2 ∨ x = 3) ∨
      ((∀ x ∈ lineTypes line s, 1 < x) ∧ ¬(s.h.live = true ∧ s.h.mode = .machine)))) ∧
    (cached s line = true ∨ mayFill line s = false ∨ keyOf s o.key = none → exec (.lineFill o) s = .next s) ∧
    (line < 0xF000000000 → cached s line = false → mayFill line s = true → ∀ k, keyOf s o.key = some k →
      (o.error = false → s.hbm.place line = 3 →
        exec (.lineFill o) s = .next (installLine line (List.replicate 4 (poisonBytes, some .poison)) s1)) ∧
      (o.error = false → s.hbm.place line = 1 →
        (s.hbm.stripePending (stripeOf line) = true → exec (.lineFill o) s = .next s) ∧
        (s.hbm.stripePending (stripeOf line) = false → (u.hbm.rebuilt line).tag < 9 →
          exec (.lineFill o) s = .next (installLine line (decodeImage k line (u.hbm.rebuilt line)) s1))) ∧
      (s.hbm.lost = [] →
        (o.error = false → look line u.hbm.images = none → exec (.lineFill o) s = .next s1) ∧
        (∀ im, o.error = false → look line u.hbm.images = some im → im.tag < 9 →
          exec (.lineFill o) s = .next (installLine line (decodeImage k line im) s1)) ∧
        (o.error = true → s.hbm.stripePending (stripeOf line) = true → exec (.lineFill o) s = .next s) ∧
        (o.error = true → s.hbm.stripePending (stripeOf line) = false → o.second = false →
          ∃ t, exec (.lineFill o) s = .next t ∧ cached t line = true ∧
            look line t.hbm.images = some (s.hbm.rebuilt line) ∧ 
            look (dataStack line) t.dev.mgmt.counts = some (lookD 0 (dataStack line) s.dev.mgmt.counts + 1)) ∧
        (o.error = true → s.hbm.stripePending (stripeOf line) = false → o.second = true →
          ∃ t, exec (.lineFill o) s = .next t ∧ cached t line = true ∧
            (s.hbm.cache.length < 16 → look (dataStack line) t.dev.mgmt.uncorrectable =
              some (lookD 0 (dataStack line) s.dev.mgmt.uncorrectable + 1)) ∧
            ∀ n < 4, look (line + 32 * n) t.flaws = some .poison)))) ∧
  (∀ (o : WritebackArgs) (s : State), s.hbm.lost = [] → s.hbm.cloveState = 0 →
    let line := o.line / 128 * 128
    (cached s line = false → exec (.lineWriteback o) s = .next s) ∧
    ∀ r, look line s.hbm.cache = some r →
      (r.dirty = false → exec (.lineWriteback o) s = .next (if o.evict then dropLine line s else s)) ∧
      (r.dirty = true → keyOf s r.key = none → exec (.lineWriteback o) s = .next s) ∧
      ∀ k, r.dirty = true → keyOf s r.key = some k →
        let u := reportFailed line 128 s
        let im := imageOf k line r.z (Memory.readBytes s.mem line 128) fun a => look a u.flaws
        let t : State := { u with hbm := { s.hbm with
          cache := put line { r with dirty := false } s.hbm.cache, images := put line im s.hbm.images
          deltas := s.hbm.deltas ++ [(line, xorImage (s.hbm.image line) im)]
          pending := if s.hbm.pending.contains line then s.hbm.pending else s.hbm.pending ++ [line] } }
        exec (.lineWriteback o) s = .next (if o.evict then dropLine line t else t)) ∧
  (∀ (o : LineArgs) (s : State),
    let line := o.line / 128 * 128
    let st := stripeOf line
    (look line s.hbm.deltas = none →
      exec (.parityDelta o) s = .next s ∧
      exec (.writebackComplete o) s = .next { s with hbm := { s.hbm with pending := s.hbm.pending.filter (· != line) } }) ∧
    ∀ d, look line s.hbm.deltas = some d →
      exec (.parityDelta o) s = .next { s with hbm := { s.hbm with
        deltas := s.hbm.deltas.eraseP fun e => e.1 == line
        parity := put st (xorImage (s.hbm.parityOf st) d) s.hbm.parity } } ∧
      exec (.writebackComplete o) s = .next s) ∧
  (∀ (o : HoldArgs) (s : State) (k : KeyPair),
    let line := o.line / 128 * 128
    (s.hbm.place line ≠ 1 → exec (.reconstructionHold o) s = .next s) ∧
    (s.hbm.place line = 1 → s.hbm.stripePending (stripeOf line) = true → exec (.reconstructionHold o) s = .next s) ∧
    (s.hbm.place line = 1 → s.hbm.stripePending (stripeOf line) = false → cached s line = false → keyOf s o.key = some k →
      let t := makeRoom line (breakLinks line none s)
      ((t.hbm.rebuilt line).tag < 9 →
        exec (.reconstructionHold o) s = .next (installLine line (decodeImage k line (t.hbm.rebuilt line))
          { t with hbm := { t.hbm with cache := put line { key := o.key } t.hbm.cache } })) ∧
      t.h.link ≠ some line ∧ line ∉ t.h.vlink) ∧
    ∀ r kr, s.hbm.place line = 1 → s.hbm.stripePending (stripeOf line) = false → look line s.hbm.cache = some r →
      r.dirty = true → keyOf s r.key = some kr →
      let u := reportFailed line 128 s
      let im := imageOf kr line r.z (Memory.readBytes u.mem line 128) fun a => look a u.flaws
      exec (.reconstructionHold o) s = .next { u with hbm := { s.hbm with
        cache := put line { r with dirty := false } s.hbm.cache
        parity := put (stripeOf line) (((stripeLines (stripeOf line)).filter (· != line)).foldl
          (fun a l => xorImage a (s.hbm.image l)) im) s.hbm.parity } }) ∧
  (∀ (o : StackArgs) (s : State), o.stack < 16 →
    (¬(1 ≤ o.cause ∧ o.cause ≤ 4) → exec (.stackLost o) s = .next s) ∧ (1 ≤ o.cause → o.cause ≤ 4 →
    (o.stack ∈ s.hbm.lost → exec (.stackLost o) s = .next s) ∧
    (s.hbm.lost = [] → exec (.stackLost o) s = .next { s with
      hbm := { s.hbm with lost := [o.stack], prog := 0, cause := o.cause, cloveState := 1, evt := true }
      dev := { s.dev with msix := s.dev.msix ++ [1] } }) ∧
    (∀ y, s.hbm.lost = [y] → y ≠ o.stack → s.hbm.cloveState ≠ 3 → hartAt s s.dev.mgmt.mgtgt.toNat = none →
      exec (.stackLost o) s = .next { s with
        hbm := { s.hbm with lost := [y, o.stack], cloveState := 3, evt := true }
        dev := { s.dev with msix := s.dev.msix ++ [1] ++ [2] } }))) ∧
  ∀ (s : State),
    (s.hbm.cloveState ≠ 1 → exec .rebuildStripe s = .next s) ∧
    ∀ x, s.hbm.cloveState = 1 → s.hbm.lost = [x] →
      let st := s.hbm.prog
      (s.hbm.stripePending st = true → exec .rebuildStripe s = .next s) ∧
      (s.hbm.stripePending st = false → st + 1 ≠ 2 ^ 29 →
        ((stripeLines st).find? (fun l => dataStack l == x) = none →
          exec .rebuildStripe s = .next { s with hbm := { s.hbm with prog := st + 1 } }) ∧
        ∀ l, (stripeLines st).find? (fun l => dataStack l == x) = some l →
          ∃ t, exec .rebuildStripe s = .next t ∧ t.hbm.prog = st + 1 ∧ look l t.hbm.images = some (s.hbm.rebuilt l) ∧
            t.hbm.cloveState = 1 ∧ t.h.link ≠ some l ∧ t.mem = s.mem ∧ t.h.s = s.h.s) ∧
      (s.hbm.stripePending st = false → st + 1 = 2 ^ 29 → ∃ t, exec .rebuildStripe s = .next t ∧
        t.hbm.cloveState = 2 ∧ t.hbm.evt = true ∧ t.dev.msix = s.dev.msix ++ [1] ∧ t.mem = s.mem)

/-- R321, R366, R370, R375, R376, R381, R391, R126, R247, R40, R81, R112. The model's choices: an event which cannot be taken
changes nothing (log 11); the control core's trap entry may wait (log 51); where EARLY and NR or RETRY both hold, the data error is a
machine check (log 24); and a load is read again when it completes (log 35). -/
def Obligations.HartEvents : Prop :=
  ((∀ (o : RArgs) (s : State) (t0 : Nat), s.Ready → s.guarded o.guard o.neg → s.dev.mgmt.pending = false →
    s.h.strip.buf = [] → s.h.idleFrom = some t0 → t0 + 4096 ≤ s.h.clock →
    exec (.idle o) s = .next ((earlyCommit 3 s).past 4 o.stall.toNat)) ∧
  (∀ (o : RArgs) (s : State), s.Ready → s.guarded o.guard o.neg → s.dev.mgmt.pending = false → s.h.strip.buf = [] →
    s.h.idleFrom = none → preemptReady s = false → wakeReady s = false → userInterruptReady s = false →
    let t := earlyCommit 3 s
    exec (.idle o) s = .next (s.waits (.idle o) .order
      { t with h := { t.h with idleFrom := some s.h.clock, idleStall := o.stall.toNat } })) ∧
  (∀ (o : RArgs) (s : State), s.Ready → s.guarded o.guard o.neg → s.dev.mgmt.pending = true → s.cur = s.dev.mgmt.mgtgt.toNat →
    s.h.mode = .machine → s.h.strip.buf = [] →
    let t := earlyCommit 3 s
    entryWaits t = false →
    let u := takeTrap 2 true false 0 (s.h.pc + 4) none { t with dev := { t.dev with mgmt := { t.dev.mgmt with pending := false } } }
    exec (.idle o) s = .next { u with h := u.h.ended }) ∧
  ∀ (s : State), s.h.live = true → s.h.pfx = none →
    (s.h.idleFrom = none → exec .idleTimeout s = .next s) ∧
    ∀ t0, s.h.idleFrom = some t0 →
      (s.h.clock < t0 + 4096 → exec .idleTimeout s = .next s) ∧
      (t0 + 4096 ≤ s.h.clock → exec .idleTimeout s = .next (s.past 4 s.h.idleStall))) ∧
  (∀ (s : State), s.h.live = false → ∀ e ∈ ([.userInterruptEntry, .wakeInterrupt, .mgmtInterrupt, .pendingErrorTrap,
      .stripAgeExpiry, .idleTimeout, .preemptionPoint] : List Instr), exec e s = .next s) ∧
  (∀ (s : State) (o : TrapArgs), s.h.live = true → s.h.pfx = none →
    let known := (1 ≤ o.cause ∧ o.cause ≤ 8) ∨ (0x10 ≤ o.cause ∧ o.cause ≤ 0x27) ∨ (0x29 ≤ o.cause ∧ o.cause ≤ 0x31)
    let stops := s.h.vq = [] ∧ ∀ l, s.h.latch = some l → l.stops = true
    (known → stops → exec (.trapEntry o) s = .next (State.trapped o.cause o.tval s.h.pc s)) ∧
    (¬known ∨ ¬stops → exec (.trapEntry o) s = .next s)) ∧
  (∀ (s : State), s.h.live = true → s.h.pfx = none →
    let resume := if s.h.idleFrom.isSome then s.h.pc + 4 else s.h.pc
    let open' := s.h.mode = .user ∨ (s.h.mode = .supervisor ∧ wbit s.h.sup.status 2 = true)
    let slot := slotOf s s.cur
    let stops := (∀ l, s.h.latch = some l → l.stops = true) ∧ entryWaits s = false
    (s.h.errs = [] ∨ s.h.latch ≠ none → exec .pendingErrorTrap s = .next s) ∧
    (∀ e rest, s.h.errs = e :: rest → s.h.latch = none → entryWaits s = false → exec .pendingErrorTrap s =
      .next (takeTrap e.cause false true e.tval s.h.pc none { s with h := { s.h with errs := rest } })) ∧
    (¬(slot.wake = true ∧ open' ∧ stops) → exec .wakeInterrupt s = .next s) ∧
    (slot.wake = true → open' → stops → exec .wakeInterrupt s =
      .next (takeTrap 1 true false 0 resume none (setSlot s.cur { slot with wake := false } s))) ∧
    (let m := s.dev.mgmt
     let ready := m.pending = true ∧ s.cur = m.mgtgt.toNat ∧ s.h.mode = .machine ∧
       (wbit s.h.mach.status 2 = true ∨ s.h.idleFrom.isSome = true) ∧ stops
     (¬ready → exec .mgmtInterrupt s = .next s) ∧
     (ready → exec .mgmtInterrupt s =
       .next (takeTrap 2 true false 0 resume none { s with dev := { s.dev with mgmt := { m with pending := false } } }))) ∧
    (let core := coreIndex s.cur
     let mine := fun (c : Channel) => c.uip = true ∧ c.held = false ∧ c.owner = coordSlot s.cur
     let ready := s.h.mode = .user ∧ s.h.inHandler = false ∧ wbit s.h.csr.uivec 0 = true ∧
       (s.h.latch = none ∨ s.h.idleFrom.isSome = true) ∧ s.h.vq = []
     ((¬ready ∨ ∀ c ∈ (coreOf s core).channels.toList, ¬mine c) → exec .userInterruptEntry s = .next s) ∧
     ∀ ch < 16, ready → mine (channelOf s core ch) → (∀ j < ch, ¬mine (channelOf s core j)) → s.h.strip.buf = [] →
       s.h.pend = [] →
       ∃ t, exec .userInterruptEntry s = .next t ∧ t.h.pc = s.h.csr.uivec &&& ~~~3 ∧ t.h.csr.uepc = resume ∧
         t.h.csr.uicause = BitVec.ofNat 64 (ch + (if (channelOf s core ch).state = .failed then 16 else 0)) ∧
         t.h.inHandler = true ∧ t.h.uiLastd = s.h.lastd ∧ (channelOf t core ch).uip = false ∧ t.h.s = s.h.s ∧
         t.h.shadow = s.h.shadow ∧ t.h.mode = .user ∧ t.h.sup = s.h.sup ∧ t.mem = s.mem) ∧
    (∀ (o : FrameFaultArgs),
      let takes := 1 ≤ o.cause ∧ o.cause ≤ 5 ∧ wbit s.h.csr.ufdeleg o.cause = true ∧ wbit s.h.csr.ufvec 0 = true ∧
        s.h.mode = .user ∧ s.h.inHandler = false
      (¬takes → exec (.userFrameFaultEntry o) s = .next s) ∧
      (takes → s.h.strip.buf = [] → s.h.pend = [] → o.tag < 2 ^ 32 → o.element < 2 ^ 17 →
        ∃ t, exec (.userFrameFaultEntry o) s = .next t ∧ t.h.pc = s.h.csr.ufvec &&& ~~~3 ∧ t.h.csr.uepc = s.h.pc ∧
          t.h.csr.ufcause = BitVec.ofNat 64 (o.tag * 2 ^ 32 + o.element * 256 + o.cause) ∧ t.h.inHandler = true ∧
          t.h.uiLastd = s.h.lastd ∧ t.h.vstart = 0 ∧ t.h.s = s.h.s ∧ t.h.mode = .user ∧ t.h.sup = s.h.sup ∧ t.mem = s.mem)) ∧
    (let old := s.h.strip.aged = false ∧ ∃ t0, s.h.strip.firstStore = some t0 ∧ t0 + 65536 ≤ s.h.clock
     let t := earlyCommit 4 s
     (¬old → exec .stripAgeExpiry s = .next s) ∧
     (old → exec .stripAgeExpiry s = .next { t with h := { t.h with strip := { t.h.strip with aged := true } } })) ∧
    (∀ (o : RewindArgs),
      let t := s.h.strip
      (t.early = false → wbit s.h.csr.indmask 0 = false → t.retry = false → t.check.isSome = true →
        exec (.stripRewind o) s = .next (rewind s)) ∧
      ((t.early = true ∨ t.check = none ∨ (o.poison = false ∧ (wbit s.h.csr.indmask 0 = true ∨ t.retry = true))) →
        exec (.stripRewind o) s = .next (whenEntered (takeTrap 0x31 false true
          (BitVec.ofNat 64 (if o.poison then o.addr else 0)) s.h.pc none) s)) ∧
      (t.early = false → t.check.isSome = true → o.poison = true → (wbit s.h.csr.indmask 0 = true ∨ t.retry = true) →
        exec (.stripRewind o) s = .next (State.trapped 0x30 (BitVec.ofNat 64 o.addr) s.h.pc s))) ∧
    (∀ (o : OpArgs), s.h.ops.length ≤ o.index → exec (.countedOpComplete o) s = .next s) ∧
    (∀ (k : CountedOp) (va n d : Nat) (natural : Bool) (cls : Nat) (s1 : State) (bs : List Byte), s.Plain va n →
      s.h.ops = [k] → k.kind = .load [(State.access va, n)] natural cls → k.value = none → k.flit = none → k.dest = some d → k.copy = none →
      k.shadow = s.h.inHandler → k.counter < 6 → physRead { s.ctx with moved := s.h.moved } va n s = .ok (s1, bs, none) → s.keepsHart s1 →
      let h1 : Hart := { s1.h with ops := [], deps := s.h.deps.setIfInBounds k.counter (s.h.deps[k.counter]?.getD 0 - 1) }
      let v := if natural then BitVec.ofNat 64 (natOfBytes bs) else BitVec.ofInt 64 (signed (8 * bs.length) (natOfBytes bs))
      exec (.countedOpComplete ⟨0⟩) s = .next { s1 with h := h1.setReg d v })) ∧
  (∀ (s : State) (o : CoreArgs),
    (nextPin s (coreOf s o.core) = none → exec (.pinAdmit o) s = .next s) ∧
    ∀ w, nextPin s (coreOf s o.core) = some w →
      (1024 < pinsHeld (coreOf s o.core) + w.pages.length → exec (.pinAdmit o) s = .next s) ∧
      (pinsHeld (coreOf s o.core) + w.pages.length ≤ 1024 →
        exec (.pinAdmit o) s = .next (setCore o.core { coreOf s o.core with
          pins := (coreOf s o.core).pins.map fun p => if p = w then { w with admitted := true } else p } s))) ∧
  ∀ (s : State),
    ((∀ va n, s.h.waiting ≠ some (.channel va n)) → exec .watermarkRelease s = .next s) ∧
    ∀ va n, s.h.waiting = some (.channel va n) →
      (blockingChannels s va n ≠ [] → exec .watermarkRelease s = .next s) ∧
      (blockingChannels s va n = [] → exec .watermarkRelease s = .next { s with h := { s.h with waiting := none } })

/-- R326 to R334, R337, R108, R110 to R115. The model's choices: an event with nothing to do
changes nothing (log 11); the dispatcher translates a packet's words when it needs them, keeps no translation, and a completion word
that it cannot reach gets no count (log 14); and UFDELEG stays with the slot (log 15). -/
def Obligations.AgentEvents : Prop :=
  (∀ (s : State),
    let found := readyPackets s
    (choosePacket found.2.dev.robin found.1 = none → exec .dispatchPacket s = .next found.2) ∧
    ((∀ n < 64, queueOpen n s = false) → exec .dispatchPacket s = .next s) ∧
    ∀ n p, choosePacket found.2.dev.robin found.1 = some (n, p) →
      (∀ e ∈ found.1, e.2.cls < 4 → p.cls ≤ e.2.cls) ∧ (n, p) ∈ found.1 ∧
      ∃ t, exec .dispatchPacket s = .next t ∧
        look found.2.dev.nextLaunch t.dev.launches = some
          { packet := p, queue := n, waiting := List.range (if p.shape = 1 then p.harts / 3 else p.harts)
            unfinished := p.harts } ∧
        t.dev.nextLaunch = found.2.dev.nextLaunch + 1 ∧
        (n < 48 → (queueOf t n).head = (queueOf found.2 n).head + 1) ∧
        (48 ≤ n → (queueOf t n).fifo = (queueOf found.2 n).fifo.drop 1) ∧ (queueOf t n).depMet = none ∧
        t.mem = found.2.mem ∧ t.h = found.2.h ∧ t.harts = found.2.harts) ∧
  (∀ (o : QueueArgs) (s : State), o.queue < 64 →
    (queueOpen o.queue s = false → exec (.dependenceRead o) s = .next s) ∧
    ∀ p s1, queueOpen o.queue s = true → headPacket o.queue s = (some p, s1) →
      (p.dep = none → exec (.dependenceRead o) s = .next s1) ∧
      ∀ va thr s2, p.dep = some (va, thr) →
        (∀ e, dispatcherReads (packetWord p va .read) s1 = (.error e, s2) → exec (.dependenceRead o) s = .next s2) ∧
        ∀ c pa, dispatcherReads (packetWord p va .read) s1 = (.ok (c, pa), s2) →
          (∀ e, physRead c pa 8 s2 = .error e → exec (.dependenceRead o) s = .next s2) ∧
          ∀ s3 bs, physRead c pa 8 s2 = .ok (s3, bs, none) →
            (natOfBytes bs < thr.toNat → exec (.dependenceRead o) s = .next s3) ∧
            (thr.toNat ≤ natOfBytes bs →
              exec (.dependenceRead o) s = .next (setQueue o.queue { queueOf s3 o.queue with depMet := some p } s3))) ∧
  (∀ (o : PlaceArgs) (s : State),
    (nextUnit s = none → exec (.placeUnit o) s = .next s) ∧
    ∀ n l u at' gs, nextUnit s = some (n, l, u, at', gs) →
      (n ≠ o.launch ∨ at' ≠ o.coord → exec (.placeUnit o) s = .next s) ∧
      (n = o.launch → at' = o.coord →
        let p := l.packet
        let per := if p.shape = 0 then p.harts / (p.stages + 1) else if p.shape = 1 then p.harts / 3 else p.harts
        ∃ t, exec (.placeUnit o) s = .next t ∧
          look n t.dev.launches = some { l with waiting := l.waiting.erase u } ∧ t.mem = s.mem ∧
          ∀ m < (if p.shape = 1 then 3 else 1), ∃ h, hartAt t (at' + m) = some h ∧ h.live = true ∧
          h.role = (if p.shape = 2 then .control else if p.shape = 0 then .solo else
            if m = 0 then .loader else if m = 1 then .computer else .storer) ∧
          h.mode = p.mode ∧ h.pc = p.entries.getD m 0 ∧ h.cls = p.cls ∧ h.groups = gs ∧
          h.csr.ptroot = p.root ∧ h.sup.tvec = p.tvec &&& ~~~3 ∧ h.mach.tvec = p.mtvec &&& ~~~3 ∧
          h.s[2] = p.n ∧ h.s[3] = BitVec.ofNat 64 (if p.shape = 0 then u % per else u) ∧ h.s[4] = BitVec.ofNat 64 per ∧
          (∀ i < 12, h.s[5 + i]? = some (p.args.getD i 0)) ∧ h.s[0] = 0 ∧ h.s[1] = 0 ∧ (∀ i < 15, h.s[17 + i]? = some 0) ∧
          h.vl = 0 ∧ h.vstart = 0 ∧ h.lastd = 0 ∧ h.inHandler = false ∧ h.deps = Vector.replicate 8 0 ∧
          h.csr.ufdeleg = (slotOf s (at' + m)).ufdeleg ∧
          (slotOf t (at' + m)).mail = {} ∧ (slotOf t (at' + m)).reply = (slotOf s (at' + m)).reply)) ∧
  (∀ (o : LaunchArgs) (s : State),
    (look o.launch s.dev.launches = none → exec (.launchDoneAdd o) s = .next s) ∧
    ∀ l, look o.launch s.dev.launches = some l →
      let ended := fun (t : State) => ({ t with dev := { t.dev with launches := cut o.launch t.dev.launches } } : State)
      (l.unfinished ≠ 0 → exec (.launchDoneAdd o) s = .next s) ∧
      (l.unfinished = 0 → l.packet.done = none → exec (.launchDoneAdd o) s = .next (ended s)) ∧
      ∀ va s1, l.unfinished = 0 → l.packet.done = some va →
        (∀ e a, dispatcherReads (packetWord l.packet va .rmw) s = (.error (e, a), s1) →
          (e = 0 → exec (.launchDoneAdd o) s = .next s1) ∧
          (e = 6 → exec (.launchDoneAdd o) s = .next (ended (countUncorrectable (arrayOf a) (poisonSector a s1)))) ∧
          (e ≠ 0 → e ≠ 6 → exec (.launchDoneAdd o) s = .next (ended s1))) ∧
        ∀ c pa, dispatcherReads (packetWord l.packet va .rmw) s = (.ok (c, pa), s1) →
          (∀ e a, physRead c pa 8 s1 = .error (e, a) → exec (.launchDoneAdd o) s = .next (if e = 0 then s1 else ended s1)) ∧
          ∀ s2 s3 bs bad bad', physRead c pa 8 s1 = .ok (s2, bs, bad) →
            physWrite c pa (bytesOf 8 ((natOfBytes bs + 1) % 2 ^ 64)) s2 = .ok (s3, bad') →
            exec (.launchDoneAdd o) s = .next (ended s3)) ∧
  (∀ (o : ArbiterArgs) (s : State), o.group < 4 →
    let a := arbiterOf s o.core o.group
    let names := (sharers s o.core o.group).map (·.1)
    let ready := fun (j : Nat) => j ∈ o.ready ∧ ∃ e ∈ sharers s o.core o.group, e.1 = j ∧ e.2.live = true
    let weight := fun (h : Hart) =>
      let w := wbits h.csr.share 3 0
      if w = 0 then (if h.cls = 0 then 15 else if h.cls = 1 then 8 else if h.cls = 2 then 4 else 1)
        else min w (if h.cls = 0 then 15 else if h.cls = 1 then 12 else if h.cls = 2 then 8 else 4)
    ((∀ j ∈ names, ¬ready j) →
      exec (.laneGroupArbitration o) s = .next (setArbiter o.core o.group { a with bound := none } s)) ∧
    (∀ j h, sharers s o.core o.group = [(j, h)] → h.live = true → j ∈ o.ready → a.fresh = false →
      let d := min (lookD 0 j a.deficits + weight h) 15
      exec (.laneGroupArbitration o) s = .next (setArbiter o.core o.group
        { pointer := j, fresh := d != 1, deficits := put j (d - 1) a.deficits, bound := some j } s)) ∧
    (let visited := fun (b : Arbiter) => slotFrom names b.pointer
     let after := fun (b : Arbiter) => slotFrom names (visited b + 1)
     let credit := fun (b : Arbiter) =>
       let d := lookD 0 (visited b) b.deficits
       if b.fresh then d
       else min (d + lookD 0 (visited b) ((sharers s o.core o.group).map fun e => (e.1, weight e.2))) 15
     ∀ path : List Arbiter, path.length ≤ 16 → path.head? = some { a with bound := none } →
       (∀ i b, path[i]? = some b → i + 1 < path.length → ¬(ready (visited b) ∧ 1 ≤ credit b) ∧
         (ready (visited b) → path[i + 1]? =
           some { b with pointer := after b, fresh := false, deficits := put (visited b) (credit b) b.deficits }) ∧
         (¬ready (visited b) → path[i + 1]? =
           some { b with pointer := after b, fresh := false, deficits := put (visited b) 0 b.deficits })) →
       ∀ b, path.getLast? = some b → ready (visited b) → 1 ≤ credit b →
         exec (.laneGroupArbitration o) s = .next (setArbiter o.core o.group
           { pointer := if credit b = 1 then after b else visited b, fresh := credit b != 1
             deficits := put (visited b) (credit b - 1) b.deficits, bound := some (visited b) } s))) ∧
  (∀ (o : StreamArgs) (s : State), o.channel < 16 →
    let c := channelOf s o.core o.channel
    let e := engineOf o.core
    let me := o.core * 16 + o.channel
    (c.state ≠ .running → exec (.engineStreamStart o) s = .next s ∧ exec (.streamFail o) s = .next s) ∧
    (nextChannel e s ≠ some me → exec (.engineStreamStart o) s = .next s) ∧
    (engineChannels e false s = [] → nextChannel e s = none) ∧
    (∀ k, nextChannel e s = some k → k ∈ engineChannels e false s ∧
      ∀ j ∈ engineChannels e false s, (promptChannel s j = true → promptChannel s k = true) ∧
        (promptChannel s j = promptChannel s k →
          let last := lookD 0 e s.dev.served
          (last < j + 1 → last < k + 1 ∧ k ≤ j) ∧ (k + 1 ≤ last → k ≤ j))) ∧
    (∀ st rest out f s1, c.state = .running → nextChannel e s = some me → c.streams = st :: rest → st.output = none →
      st ∉ rest →
      runRoutine ⟨o.core, c.owner, st.root, st.mode⟩ st c.base (2 ^ c.esize)
        { s with dev := { s.dev with served := put e (me + 1) s.dev.served } } = ((out, f), s1) →
      (f = some 0 → exec (.engineStreamStart o) s =
        .next { s with dev := { s.dev with served := put e (me + 1) s.dev.served } }) ∧
      (f ≠ some 0 → channelOf s1 o.core o.channel = c →
        exec (.engineStreamStart o) s = .next (setChannel o.core o.channel
          { c with streams := { st with output := some out, failAfter := f } :: rest } s1))) ∧
    ∀ st rest f, c.state = .running → c.streams = st :: rest → st.output = some [] → st.failAfter = some f → f ≠ 4 →
      landingHeld o.core o.channel s = false →
      ∃ t, exec (.streamFail o) s = .next t ∧ t.mem = s.mem ∧
        channelOf t o.core o.channel =
          { c with state := .failed, fcause := f, streams := [], ahead := [], uip := c.uip || c.uie } ∧
        ∀ va n, s.h.waiting = some (.channel va n) → coreIndex s.cur = o.core → va < c.base + c.expected * 2 ^ c.esize →
          c.base + c.landed * 2 ^ c.esize < va + n →
          t.h.waiting = some (.failed (max va (c.base + c.landed * 2 ^ c.esize)))) ∧
  ∀ (o : LandingArgs) (s : State), o.channel < 16 →
    let c := channelOf s o.core o.channel
    let left := c.streams.flatMap fun st => (st.output.getD []).map fun e => (st, e.1, e.2)
    (c.state ≠ .running → exec (.landing o) s = .next s) ∧
    (left.length ≤ o.element → exec (.landing o) s = .next s) ∧
    ∀ st i bs, c.state = .running → left[o.element]? = some (st, i, bs) →
      let write := engWrite ⟨o.core, c.owner, st.root, st.mode⟩ o.channel i (c.base + i * 2 ^ c.esize) bs s
      (∀ s1, write = .ok () s1 → channelOf s1 o.core o.channel = c → c.ahead = [] →
        s1.dev.heldWrites.length ≤ s.dev.heldWrites.length →
        ∃ t, exec (.landing o) s = .next t ∧ t.mem = s1.mem ∧
          let c1 := channelOf t o.core o.channel
          (i = c.landed → i + 1 ≠ c.expected → c1.landed = i + 1 ∧ c1.ahead = [] ∧ c1.state = .running) ∧
          (i = c.landed → i + 1 = c.expected →
            c1.landed = i + 1 ∧ c1.state = .done ∧ c1.uip = (c.uip || c.uie) ∧ c1.streams = []) ∧
          (i ≠ c.landed → c.landed ≠ c.expected → c1.landed = c.landed ∧ c1.ahead = [i] ∧ c1.state = .running)) ∧
      (∀ s1, write = .ok () s1 → channelOf s1 o.core o.channel = c →
        s.dev.heldWrites.length < s1.dev.heldWrites.length →
        ∃ t, exec (.landing o) s = .next t ∧ t.mem = s1.mem ∧ t.dev = s1.dev ∧
          let c1 := channelOf t o.core o.channel
          c1.landed = c.landed ∧ c1.state = .running ∧ c1.ahead = c.ahead ∧ c1.streams = c.streams.map fun st =>
            { st with output := st.output.map fun out => out.filter fun e => e.1 != i }) ∧
      (∀ s1, write = .error 0 s1 → exec (.landing o) s = .next s) ∧
      ∀ f s1, write = .error f s1 → f ≠ 0 → ∃ t, exec (.landing o) s = .next t ∧
        (channelOf t o.core o.channel).state = .failed ∧ (channelOf t o.core o.channel).fcause = f

/-- R394, R424, R423, R325, R326, R132, R235, R167, R390, R391, R395, R398. Which signatures are good, the versions, the serial
number, the signature, the certificates and the layout of command 4's reply are constants without a value (log 8). That a device
in reset answers no command and denies register writes (log 17), and that an event which cannot happen changes nothing (log 11),
are the model's choices. -/
def Obligations.OutsideEvents : Prop :=
  (∀ (o : ResetArgs) (s : State),
    let good := fun (im : List Byte) =>
      Config.signatureGood im && decide (Config.minimumVersion.toNat ≤ (Config.securityVersion im).toNat)
    let fw := if good o.image then some o.image else s.dev.mgmt.staged.filter good
    let runs := fw ≠ none ∧ good o.machineImage = true
    let ring := wbits o.ring 51 8 * 256
    ∃ t, exec (.reset o) s = .next t ∧ t.h.live = false ∧ t.h.stopped = false ∧ t.harts = [] ∧ t.slots = [] ∧ t.crews = [] ∧
      t.cores = [] ∧ t.clusters = [] ∧ t.tuples = {} ∧ t.dev.launches = [] ∧ t.dev.keys = [] ∧
      t.dev.access = [] ∧ t.dev.frctl = 0 ∧ t.dev.mgmt.boots = s.dev.mgmt.boots + 1 ∧ t.dev.mgmt.staged = s.dev.mgmt.staged ∧
      t.dev.number = s.dev.number ∧ t.dev.mgmt.inReset = fw.isNone ∧ t.dev.mgmt.firmware = fw.getD [] ∧
      (¬runs ∨ (o.load = [] ∧ o.packets = []) →
        t.flaws = [] ∧ t.hbm.images = [] ∧ t.hbm.parity = [] ∧ t.hbm.cache = [] ∧ (∀ a < 0xF000000000, Memory.read t.mem a = 0)) ∧
      (fw = none → t.dev.mgmt.mbdb = 0x300000000 ∧ t.dev.queues = []) ∧
      (fw ≠ none → good o.machineImage = false → t.dev.mgmt.mbdb = 0 ∧ t.dev.queues = []) ∧
      ((∀ e ∈ o.load, e.1 + e.2.2 ≤ 0xF000000000) → ring + 256 * o.packets.length ≤ 0xF000000000 →
        (∀ a, 0x8000000000000 ≤ a → a < 0x10000000000000 → Memory.wf s.mem = true →
          Memory.read t.mem a = Memory.read s.mem a) ∧
        (fw ≠ none → o.failedStack = none → t.hbm.lost = [] ∧ t.hbm.cloveState = 0) ∧
        (∀ x < 16, fw ≠ none → o.failedStack = some x →
          t.hbm.lost = [x] ∧ t.hbm.cloveState = 1 ∧ t.hbm.cause = 1 ∧ t.hbm.evt = true) ∧
        (runs → t.dev.mgmt.mbdb = 0 ∧ t.dev.mgmt.machineFirmware = o.machineImage ∧
          wbits (queueOf t 47).qctl 11 10 = 2 ∧ wbit (queueOf t 47).qctl 0 = true ∧
          (queueOf t 47).qmtvec = o.handler &&& ~~~3 ∧ (queueOf t 47).tail = o.packets.length % 2 ^ 64 ∧
          (queueOf t 47).head = 0 ∧ wbits (queueOf t 47).qbase 51 8 * 256 = ring ∧
          (∀ a off n, o.load = [(a, off, n)] → o.packets = [] →
            Memory.readBytes t.mem a ((o.machineImage.drop off).take n).length = (o.machineImage.drop off).take n) ∧
          ∀ bs, o.load = [] → o.packets = [bs] → bs.length = 256 → Memory.readBytes t.mem ring 256 = bs))) ∧
  (∀ (o : QueueWriteArgs) (s : State), o.queue < 64 →
    let q := queueOf s o.queue
    let v := o.value
    let bad := v.toNat < q.head ∨ 2 ^ wbits q.qbase 4 0 < v.toNat - q.head
    let t := setQueue o.queue { q with tail := v.toNat, depMet := if v.toNat ≤ q.head then none else q.depMet } s
    let priv := if wbits v 11 10 = 3 ∨ (wbits v 11 10 = 2 ∧ o.machine = false) then wbits q.qctl 11 10 else wbits v 11 10
    let ctl := fun (stop : Nat) =>
      BitVec.ofNat 64 (wbits v 63 20 * 2 ^ 20 + priv * 1024 + wbits v 9 8 * 256 + 2 * stop + wbits v 0 0)
    (s.dev.mgmt.inReset = true → exec (.qtail o) s = .next s ∧ exec (.qctl o) s = .next s) ∧
    (s.dev.mgmt.inReset = false →
    (48 ≤ o.queue → exec (.qtail o) s = .next s) ∧
    (o.queue < 48 → ¬bad → exec (.qtail o) s = .next t) ∧
    (o.queue < 48 → bad → ∃ u, exec (.qtail o) s = .next u ∧ (queueOf u o.queue).tail = v.toNat ∧
      wbit (queueOf u o.queue).qctl 1 = true ∧ (queueOf u o.queue).code = 5 ∧ u.dev.msix = s.dev.msix ++ [4] ∧ u.mem = s.mem) ∧
    (wbit v 1 = false ∨ wbit q.qctl 1 = false →
      exec (.qctl o) s = .next (setQueue o.queue { q with qctl := ctl (wbits q.qctl 1 1) } s)) ∧
    (wbit v 1 = true → wbit q.qctl 1 = true → q.code ≠ 5 → ∃ u, exec (.qctl o) s = .next u ∧
      (queueOf u o.queue).qctl = ctl 0 ∧ (queueOf u o.queue).head = q.head + 1 ∧ (queueOf u o.queue).code = 0 ∧
      (queueOf u o.queue).tail = q.tail ∧ (queueOf u o.queue).depMet = none ∧ u.mem = s.mem ∧ u.h = s.h))) ∧
  (∀ (o : OwnwinArgs) (s : State), o.window < 16 →
    let old := (clusterOf s o.cluster).ownwin[o.window]?.getD 0
    let v := o.value
    (s.dev.mgmt.inReset = true → exec (.ownwin o) s = .next s) ∧
    (s.dev.mgmt.inReset = false → ∃ t, exec (.ownwin o) s = .next t ∧ t.mem = s.mem ∧ t.h = s.h ∧
      let d := (clusterOf t o.cluster).ownwin[o.window]?.getD 0
      wbits d 62 62 = 0 ∧ wbits d 51 42 = wbits old 51 42 ∧ wbits d 19 12 = wbits v 19 12 ∧ wbits d 11 4 = wbits v 11 4 ∧
      wbits d 41 32 = (if wbits v 41 32 < 768 then wbits v 41 32 else wbits old 41 32) ∧
      wbits d 26 20 = (if wbits v 26 20 < 96 then wbits v 26 20 else wbits old 26 20) ∧
      (wbit d 63 = true ↔ wbit v 63 = true ∧ wbits d 19 12 + wbits d 11 4 ≤ 255 ∧
        ∀ i < 16, i ≠ o.window →
          let e := (clusterOf s o.cluster).ownwin[i]?.getD 0
          wbit e 63 = true → wbits e 26 20 = wbits d 26 20 →
          wbits e 19 12 + wbits e 11 4 < wbits d 19 12 ∨ wbits d 19 12 + wbits d 11 4 < wbits e 19 12))) ∧
  (∀ (o : MbdoneArgs) (s : State),
    (s.dev.mgmt.inReset = true → exec (.mbdone o) s = .next s) ∧
    (s.dev.mgmt.inReset = false → exec (.mbdone o) s = .next { s with dev := { s.dev with
      msix := s.dev.msix ++ [0]
      mgmt := { s.dev.mgmt with mbdb := BitVec.ofNat 64 (2 ^ 62 + wbits o.value 15 0 * 2 ^ 32), running := none } } })) ∧
  (∀ (o : WriteArgs) (s : State),
    let reply := fun (ok : Bool) (t : State) =>
      Host.Outcome.next (answer o.initiator o.tag (if ok then some [] else none) false t)
    (s.dev.mgmt.inReset = true → exec (.registerWrite o) s = reply false s) ∧
    (s.dev.mgmt.inReset = false →
    (∀ r, o.initiator = 0x50 → barTarget o.pa = .reg r →
      (regAligned o.pa o.bytes.length = true →
        exec (.registerWrite o) s = reply true (writeReg false r (o.pa % 8) o.bytes s)) ∧
      (regAligned o.pa o.bytes.length = false → exec (.registerWrite o) s = reply false s)) ∧
    (o.initiator = 0x50 → 0x10000 ≤ o.pa → o.pa < 0x12000 → 0x12000 < o.pa + o.bytes.length →
      exec (.registerWrite o) s = reply false s) ∧
    (o.initiator = 0x50 → 0x10000 ≤ o.pa → o.bytes ≠ [] → o.pa + o.bytes.length ≤ 0x12000 → ∃ t, exec (.registerWrite o) s = .next t ∧
      t.mem = Memory.writeBytes (0x190000020000 + (o.pa - 0x10000)) o.bytes s.mem ∧
      t.replies = s.replies ++ [{ initiator := 0x50, tag := o.tag, bytes := some [] }]) ∧
    (o.initiator = 0x50 → barTarget o.pa = .reserved → exec (.registerWrite o) s = reply false s) ∧
    (∀ r, o.initiator ≠ 0x50 → targetOf o.pa = .reg r →
      (∀ s1 bad, physWrite (requestCtx o.initiator s) o.pa o.bytes s = .ok (s1, bad) →
        exec (.registerWrite o) s = reply true s1) ∧
      (∀ e, physWrite (requestCtx o.initiator s) o.pa o.bytes s = .error e → exec (.registerWrite o) s = reply false s)) ∧
    (o.initiator ≠ 0x50 → (∀ r, targetOf o.pa ≠ .reg r) → exec (.registerWrite o) s = reply false s) ∧
    (o.initiator = 0x50 → o.pa = 0x20000 → o.bytes.length = 8 → ∃ t, exec (.registerWrite o) s = .next t ∧
      t.dev.hwkey = BitVec.ofNat 64 (natOfBytes o.bytes % 4096) ∧ t.mem = s.mem) ∧
    (o.initiator = 0x50 → o.pa = 0x20008 → o.bytes.length = 8 → ∃ t, exec (.registerWrite o) s = .next t ∧
      t.hbm.evt = (s.hbm.evt && decide (natOfBytes o.bytes < 2 ^ 63)) ∧ t.hbm.cloveState = s.hbm.cloveState ∧ t.mem = s.mem))) ∧
  (∀ (o : ValueArgs) (s : State), s.hbm.lost = [] → s.hbm.images = [] → (∀ e ∈ s.hbm.cache, e.1 % 128 = 0) →
    s.dev.heldWrites = [] →
    let old := s.dev.frctl
    let v := o.value
    let on := wbit old 0
    let new := BitVec.ofNat 64 ((if on then wbits old 63 28 else wbits v 63 28) * 2 ^ 28
      + (if on ∨ 10 < wbits v 11 8 then wbits old 11 8 else wbits v 11 8) * 256 + wbits v 1 0)
    let inside := fun (l : Nat) => wbits new 63 28 * 65536 ≤ l ∧
      l < wbits new 63 28 * 65536 + 64 * 2 ^ (wbits new 11 8 + 11) ∧ l < 0xF000000000
    ∃ t, exec (.frctl o) s = .next t ∧ t.dev.frctl = new ∧ t.dev.badNodes = (if on = wbit v 0 then s.dev.badNodes else []) ∧
      (s.hbm.cache = [] ∨ on = wbit v 0 →
        t = { s with dev := { s.dev with frctl := new, badNodes := if on = wbit v 0 then s.dev.badNodes else [] } }) ∧
      ∀ e ∈ s.hbm.cache, inside e.1 →
        (on = false → wbit v 0 = true → ∀ i < 128, Memory.read t.mem (e.1 + i) = 0) ∧
        (on = true → wbit v 0 = false →
          (Memory.read t.mem (e.1 + 2)).getLsbD 7 = false ∧ (Memory.read t.mem (e.1 + 66)).getLsbD 7 = false)) ∧
  (∀ s : State, exec .efcclr s = .next { s with h := { s.h with efc := Vector.replicate 8 0 } }) ∧
  (∀ (o : MailboxArgs) (s : State),
    let m := s.dev.mgmt
    let free := m.running = none ∧ wbit m.mbdb 63 = false ∧ m.inReset = false
    let runs := fun (code : Nat) => (m.running = some code ∧ m.inReset = false) ∨ free
    let request := fun (n : Nat) => Memory.readBytes s.mem 0x190000020000 n
    let ends := fun (result : Nat) (reply : List Byte) (t : State) => Host.Outcome.next ({ t with
      mem := Memory.writeBytes 0x190000021000 (reply.take 4096) t.mem
      dev := { t.dev with
        msix := t.dev.msix ++ [0]
        mgmt := { t.dev.mgmt with mbdb := BitVec.ofNat 64 (2 ^ 62 + result * 2 ^ 32), running := none } } } : State)
    (runs 1 →
      let body := bytesOf 4 0x51584154 ++ request 32 ++ sha384 m.firmware ++ sha384 m.machineFirmware
        ++ bytesOf 4 (Config.securityVersion m.firmware).toNat ++ bytesOf 8 Config.deviceSerial.toNat ++ List.replicate 16 0
      exec (.mbAttest o) s = ends 0 (body ++ bytesOf 48 (Config.attestationSign body).1.toNat
        ++ bytesOf 48 (Config.attestationSign body).2.toNat) s) ∧
    (runs 4 → exec (.mbErrorCounts o) s = ends 0 (Config.errorReport (reportedState m) o.readings) s) ∧
    let good := Config.signatureGood (request 4096) = true ∧
      Config.minimumVersion.toNat ≤ (Config.securityVersion (request 4096)).toNat
    (runs 5 → good → exec (.mbFirmwareStage o) s =
      ends 0 [] { s with dev := { s.dev with mgmt := { m with staged := some (request 4096) } } }) ∧
    (runs 5 → ¬good → exec (.mbFirmwareStage o) s = ends 3 [] s) ∧
    (runs 6 →
      let cap := natOfBytes (request 4)
      (1000 ≤ cap ∧ cap ≤ 4200 → exec (.mbPowerCap o) s =
        ends 0 (bytesOf 4 0 ++ bytesOf 4 cap) { s with dev := { s.dev with mgmt := { m with cap := cap } } }) ∧
      (¬(1000 ≤ cap ∧ cap ≤ 4200) → exec (.mbPowerCap o) s = ends 2 (bytesOf 4 2 ++ bytesOf 4 m.cap) s)) ∧
    (runs 7 → ∃ k,
      let cs := (Config.certificates.drop (natOfBytes (request 4))).take k
      let reply := bytesOf 4 cs.length ++ cs.flatMap fun c => bytesOf 4 c.length ++ c
      reply.length ≤ 4096 ∧ exec (.mbCertChain o) s = ends 0 reply s) ∧
    (∀ e ∈ ([(Instr.mbKeyLoad, 2), (.mbAccessEntry, 3)] : List ((MailboxArgs → Instr) × Nat)),
      (free → exec (e.1 o) s = .next { s with dev := { s.dev with mgmt := { m with
        mbdb := wset m.mbdb 63 63 1, running := some e.2, pending := true } } }) ∧
      (¬free → exec (e.1 o) s = .next s)) ∧
    ((o.code = 0 ∨ 7 < o.code) →
      (wbit m.mbdb 63 = true ∨ m.inReset = true → exec (.mbUnknownCommand o) s = .next s) ∧
      (wbit m.mbdb 63 = false → m.inReset = false → exec (.mbUnknownCommand o) s = .next { s with dev := { s.dev with
        msix := s.dev.msix ++ [0], mgmt := { m with mbdb := BitVec.ofNat 64 (2 ^ 62 + 2 ^ 32) } } })) ∧
    (0 < o.code → o.code ≤ 7 → exec (.mbUnknownCommand o) s = .next s) ∧
    ∀ e ∈ ([(Instr.mbAttest, 1), (.mbErrorCounts, 4), (.mbFirmwareStage, 5), (.mbPowerCap, 6), (.mbCertChain, 7)] :
      List ((MailboxArgs → Instr) × Nat)), ¬runs e.2 → exec (e.1 o) s = .next s)

/-- R396, R397, R389, R387, R53, R386, R398. The array's threshold and the inlet's limit are constants without a value (log 8).
The model's choices: an event that cannot happen changes nothing (log 11); how a flit's bytes stand for the list of its messages, the
CRC's bit order, and that a load which has left its word ends in a pending error (log 44). -/
def Obligations.LinkEvents : Prop :=
  (∀ (o : FlitArgs) (s : State), o.link < 18 →
    let l := linkOf s o.link
    let good := fun (kind : Nat) => o.crc = crc32 (bytesOf 2 (o.seq % 4096 + 4096 * kind) ++ bytesOf 2 (o.ack % 4096)
      ++ bytesOf 248 o.payload.toNat)
    let msgs := Config.flitMessages l.receiving o.payload
    let asked := setLink o.link { l with retryAsked := some l.expect } s
    let kinds : List ((FlitArgs → Instr) × Nat) :=
      [(.ulianeDataFlit, 0), (.ulianeIdleFlit, 1), (.ulianeAckFlit, 2), (.ulianeRetryFlit, 3)]
    (∃ t, exec (.ulianeDataFlit o) s = .next t ∧ (l.up = true → good 0 → o.seq % 4096 = l.expect →
      (linkOf t o.link).expect = (l.expect + 1) % 4096 ∧ (linkOf t o.link).retryAsked = none)) ∧
    (l.up = false → ∀ e ∈ kinds, exec (e.1 o) s = .next s) ∧
    (l.up = true → ∀ e ∈ kinds, ¬good e.2 → exec (e.1 o) s = .next asked) ∧
    (l.up = true →
      (good 0 → o.seq % 4096 ≠ l.expect → exec (.ulianeDataFlit o) s = .next asked) ∧
      (good 0 → o.seq % 4096 = l.expect →
        let u := setLink o.link { l with
          expect := (l.expect + 1) % 4096, receiving := (Config.headersAfter l.receiving o.payload).take 64, retryAsked := none } s
        exec (.ulianeDataFlit o) s = .next (acknowledge o.link o.ack (msgs.foldl (fun t m => applyMsg o.link m t) u))) ∧
      (∀ e ∈ ([(.ulianeIdleFlit, 1), (.ulianeAckFlit, 2)] : List ((FlitArgs → Instr) × Nat)),
        good e.2 → exec (e.1 o) s = .next (acknowledge o.link o.ack s)) ∧
      (good 3 → (∀ f ∈ l.replay, f.seq ≠ o.ack) →
        ((∀ f ∈ l.replay, f.seq ≠ o.seq % 4096) → exec (.ulianeRetryFlit o) s = .next s) ∧
        ∀ first f rest, l.replay = first ++ f :: rest → l.replay.length ≤ 1024 → f.seq = o.seq % 4096 →
          (∀ g ∈ first ++ rest, g.seq ≠ f.seq) →
          exec (.ulianeRetryFlit o) s = .next (setLink o.link { l with
            sent := l.sent ++ f :: rest, replay := first ++ { f with retries := f.retries + 1 } :: rest } s)))) ∧
  (∀ (i tag pa n : Nat) (bs : List Byte) (bad : Bool) (s : State),
    let peer := 0x100 + (linkOf s i).peer
    exec (.memoryWriteRequest ⟨peer, tag, pa, bs⟩) s = .next (applyMsg i (.write tag pa bs []) s) ∧
    exec (.memoryReadRequest ⟨peer, tag, pa, n, false⟩) s = .next (applyMsg i (.read tag pa n) s) ∧
    applyMsg i (.answer tag (some bs) bad) s = s ∧
    applyMsg i (.answer tag none bad) s = refuseLoads i (· == tag) (refuseWrites i (· == tag) s)) ∧
  (∀ (i : Nat) (seqs : Nat → Bool) (s : State),
    ((∀ w ∈ s.dev.heldWrites, ∀ q, w.link = some (i, q) → seqs q = false) → refuseWrites i seqs s = s) ∧
    (∀ w q, s.dev.heldWrites = [w] → w.link = some (i, q) → seqs q = true → w.coord = some s.cur → w.store = none →
      w.ack = none → w.landing = none → refuseWrites i seqs s = { s with
        dev := { s.dev with heldWrites := [] }
        h := s.h.addErr ⟨0x14, BitVec.ofNat 64 w.va, w.order⟩ }) ∧
    ((∀ k ∈ s.h.ops, k.value = none → ∀ q, k.flit = some (i, q) → seqs q = false) → (refuseLoads i seqs s).h = s.h) ∧
    ∀ k q a n d natural cls, s.h.ops = [k] → k.value = none → k.flit = some (i, q) → seqs q = true →
      k.kind = .load [(a, n)] natural cls → targetOf a.pa = .peer d →
      let t := refuseLoads i seqs s
      t.h.ops = [] ∧ t.h.errs = insertErr ⟨0x14, BitVec.ofNat 64 a.va, k.order⟩ s.h.errs ∧ t.h.s = s.h.s ∧ t.mem = s.mem ∧
        (k.counter < 6 → t.h.deps = s.h.deps.setIfInBounds k.counter (s.h.deps[k.counter]?.getD 0 - 1))) ∧
  (∀ (i ack : Nat) (s : State), i < 18 →
    let l := linkOf s i
    ((∀ f ∈ l.replay, f.seq ≠ ack) → acknowledge i ack s = s) ∧
    ∀ first f rest, l.replay = first ++ f :: rest → first.length < 1024 → (∀ g ∈ first, g.seq ≠ ack) → f.seq = ack →
      let freed := setLink i { l with
        replay := rest, sent := l.sent ++ ((l.replay.drop 1024).take (first.length + 1)) } s
      ((∀ w ∈ s.dev.heldWrites, ∀ q, w.link = some (i, q) → ∀ g ∈ first ++ [f], g.seq ≠ q) → acknowledge i ack s = freed) ∧
      ∀ w, s.dev.heldWrites = [w] → w.link = some (i, ack) → w.mask = [] → w.ack = none →
        (acknowledge i ack s).mem = Memory.writeBytes w.pa w.bytes s.mem ∧ (acknowledge i ack s).dev.heldWrites = [] ∧
          linkOf (acknowledge i ack s) i = linkOf freed i) ∧
  (∀ (o : LinkArgs) (s : State), o.link < 18 →
    let l := linkOf s o.link
    (l.up = false ∨ (∀ f ∈ l.replay, f.retries < 16) → exec (.linkDown o) s = .next s) ∧
    (∀ f ∈ l.replay, l.up = true → 16 ≤ f.retries →
      ((∀ w ∈ s.dev.heldWrites, ∀ q, w.link ≠ some (o.link, q)) →
        (∀ k ∈ s.h.ops, k.value = none → ∀ q, k.flit ≠ some (o.link, q)) → ∃ t, exec (.linkDown o) s = .next t ∧
        linkOf t o.link = { l with up := false, replay := [], retryAsked := none } ∧ t.dev.msix = s.dev.msix ++ [5] ∧
        (∀ i, i ≠ o.link → linkOf t i = linkOf s i) ∧ t.mem = s.mem ∧ t.h = s.h) ∧
      (∀ w q, s.dev.heldWrites = [w] → w.link = some (o.link, q) → w.coord = some s.cur → w.store = none → w.ack = none →
        w.landing = none → w.mask = [] → (∀ k ∈ s.h.ops, k.value = none → ∀ q, k.flit ≠ some (o.link, q)) →
        let seqs := ((l.replay.take 1024).take o.reached).map fun g => g.seq
        ∃ t, exec (.linkDown o) s = .next t ∧ (linkOf t o.link).up = false ∧ t.dev.heldWrites = [] ∧
          t.mem = (if q ∈ seqs then Memory.writeBytes w.pa w.bytes s.mem else s.mem) ∧
          t.h = s.h.addErr ⟨0x14, BitVec.ofNat 64 w.va, w.order⟩) ∧
      ∀ k q, s.h.ops = [k] → k.value = none → k.flit = some (o.link, q) → s.dev.heldWrites = [] →
        ∃ t, exec (.linkDown o) s = .next t ∧ (linkOf t o.link).up = false ∧ t.h = (refuseLoads o.link (fun _ => true) s).h ∧
          t.h.ops = [] ∧ t.mem = s.mem) ∧
    (l.up = true → exec (.ulianeLinkUp o) s = .next s) ∧
    (l.up = false → ∃ t, exec (.ulianeLinkUp o) s = .next t ∧ linkOf t o.link = { up := true, peer := o.peer } ∧
      t.dev.msix = s.dev.msix ++ [5] ∧ (∀ i, i ≠ o.link → linkOf t i = linkOf s i) ∧ t.mem = s.mem)) ∧
  (∀ (o : LineArgs) (s : State), exec (.cxlSnoop o) s = .next { s with
    replies := s.replies ++ [{ initiator := 0x50, tag := o.line, bytes := some [] }] }) ∧
  (∀ (o : HostArgs) (s : State),
    let quiet := fun (t : State) => ({ t with dev := { t.dev with silent := true } } : State)
    let heard := fun (t : State) => ({ t with dev := { t.dev with silent := false } } : State)
    (∀ va, o.reader = .hart va →
      (s.h.live = false → exec (.hostWindowNoAnswer o) s = .next s) ∧
      ∀ x s1, s.h.live = true → s.h.pfx = none → translate va .read s = .ok x s1 →
        (targetOf x.pa ≠ .host → exec (.hostWindowNoAnswer o) s = .next s) ∧
        (targetOf x.pa = .host → exec (.hostWindowNoAnswer o) s =
          .next (State.trapped 0x14 (BitVec.ofNat 64 va) s.h.pc s))) ∧
    (∀ core ch t, o.reader = .engine core ch → exec (.engineStreamStart ⟨core, ch⟩) (quiet s) = .next t →
      exec (.hostWindowNoAnswer o) s = .next (heard t)) ∧
    (∀ core ch i t, o.reader = .landing core ch i → exec (.landing ⟨core, ch, i⟩) (quiet s) = .next t →
      exec (.hostWindowNoAnswer o) s = .next (heard t)) ∧
    (∀ c t, o.reader = .loader c → exec (.weightLoad ⟨c, 0⟩) (quiet s) = .next t →
      exec (.hostWindowNoAnswer o) s = .next (heard t)) ∧
    (∀ t, o.reader = .dispatcher → exec .dispatchPacket (quiet s) = .next t →
      exec (.hostWindowNoAnswer o) s = .next (heard t)) ∧
    ∀ c pa n rd wr, targetOf pa = .host →
      checkRequest c pa n rd wr (quiet s) = some 0x14 ∧ checkRequest c pa n rd wr (heard s) = none) ∧
  (∀ (o : ErrorArgs) (s : State),
    let m := s.dev.mgmt
    let a := o.array
    let put' := fun (m : Mgmt) => ({ s with dev := { s.dev with mgmt := m } } : State)
    let marks := lookD 0 a m.marked + 1
    let n := lookD 0 a m.counts + 1
    (o.marked = true → a ∉ m.nominal → exec (.correctedError o) s = .next (put' { m with
      marked := put a marks m.marked
      nominal := if Config.errorThreshold a < 4 * marks then m.nominal ++ [a] else m.nominal })) ∧
    (o.marked = false ∨ a ∈ m.nominal →
      (n ≤ Config.errorThreshold a ∨ a ∈ m.failing →
        exec (.correctedError o) s = .next (put' { m with counts := put a n m.counts })) ∧
      (Config.errorThreshold a < n → a ∉ m.failing → ∃ t, exec (.correctedError o) s = .next t ∧
        t.dev.mgmt = { m with counts := put a n m.counts, failing := m.failing ++ [a] } ∧ t.dev.msix = s.dev.msix ++ [3] ∧
        t.mem = s.mem))) ∧
  ∀ (o : ThrottleArgs) (s : State), exec (.powerThrottle o) s = .next { s with dev := { s.dev with mgmt := { s.dev.mgmt with
    watts := o.watts, inlet := o.inlet, throttled := decide (s.dev.mgmt.cap < o.watts) || decide (Config.inletLimit < o.inlet) } } }

/-- R27, R32, R33 and the encodings that the rules of each family give. -/
def Obligations.DecodedWords : Prop :=
  (∀ e ∈ ([(0x01C41181, Instr.add ⟨3, 1, 2, 7, false, 0⟩), (0xD1C41181, .maxn ⟨3, 1, 2, 7, false, 0⟩),
      (0x10907381, .sub ⟨7, 7, 8, 2, false, 0⟩), (0x01C09205, .clz ⟨4, 9, 0, 7, false, 0⟩), (0x8004B687, .shli ⟨13, 11, 2⟩),
      (0x0000150B, .addpc ⟨10, 1⟩), (0x2390688D, .cmp ⟨1, 2, 3, 4, 7, false, 2⟩),
      (0xAB9CBD8D, .cmpImm ⟨3, 7, 5, 7, 7, false, 10⟩), (0x01C62091, .pand ⟨1, 2, 3, 7, false, 0⟩),
      (0x51C05211, .pnot ⟨4, 5, 0, 7, false, 0⟩), (0x00F00113, .b ⟨2, 0, 0, 15⟩), (0x00008395, .bp ⟨7, false, 8⟩),
      (0x00004595, .bp ⟨3, true, 4⟩), (0xFFFC0B95, .call ⟨7, false, 0xFFFC0⟩), (0x00001017, .callr ⟨0, 1, 0⟩),
      (0x01C002A7, .svc ⟨5, 0, 0, 7, false, 0⟩), (0x51C00027, .nop ⟨0, 0, 0, 7, false, 0⟩)] : List (Nat × Instr)),
    decode (bytesOf 4 e.1) = .ok (e.2, 4) ∧ encode e.2 = bytesOf 4 e.1) ∧
  (∀ w ∈ ([0xFFFFFFFF, 0x0000007F, 0xE1C41181, 0x71C41183, 0x01C29205] : List Nat),
    ∀ i, decode (bytesOf 4 w) ≠ .ok i) ∧
  decode [0x3E, 0x00] = .ok (.cNop ⟨0, 0⟩, 2) ∧ decode [0x01] = .error .truncated ∧ decode [0x81, 0x11] = .error .truncated

/-- R26 to R33: both directions, over every row of the opcode map. An event has no word: its size is 0. -/
def Obligations.DecodeInvertsEncode : Prop :=
  (∀ (i : Instr) (rest : List Byte), i.wf = true → i.size ≠ 0 → decode (encode i ++ rest) = .ok (i, i.size)) ∧
  ∀ (bs : List Byte) (i : Instr) (n : Nat), decode bs = .ok (i, n) →
    i.wf = true ∧ i.size = n ∧ n ≤ bs.length ∧ encode i = bs.take n

/-- R26: the word at the pc. The agenda, the turns and the 64 cycles are the model's own scheduling (log 1), that a
machine-mode fetch is untranslated is log 3's choice, and which words pass the vector queue is log 12's. -/
def Obligations.StepRunsDecodedWord : Prop :=
  (let settles := fun (s t : State) => Host.Outcome.next
      (if t.h.waiting = none ∧ s.h.clock / 64 = t.h.clock / 64 then t else background t)
   (∀ s s1 : State, s.h.live = true → runHead s = some s1 → hartTurn s = settles s s1) ∧
   (∀ s : State, s.h.vq = [] → runHead s = none) ∧
   (∀ (s : State) q rest i n t, s.h.vq = q :: rest → decode q.latch.bytes = .ok (i, n) →
     exec i { s with h := s.h.withQueued q } = .next t →
     (t.h.waiting ≠ none → runHead s = none) ∧
     (t.h.waiting = none → t.h.words = q.order + 1 → runHead s = some { t with h := t.h.withFront s.h rest })) ∧
   (∀ t : State,
     (t.h.waiting = none ∨ t.h.latch = none ∨ (∀ l, t.h.latch = some l → l.settled = none) → enterQueue t = t) ∧
     ∀ w l stall vector, t.h.waiting = some w → t.h.latch = some l → l.settled = some (stall, vector) →
       (¬(w = .ring ∨ w = .port) ∨ 16 ≤ t.h.vq.length → enterQueue t = t) ∧
       (w = .ring ∨ w = .port → t.h.vq.length < 16 → pressing t = false →
         let u := enterQueue t
         u.h.vq = t.h.vq ++ [⟨l, t.h.pc, t.h.pfx, t.h.words⟩] ∧ u.h.waiting = none ∧ u.h.latch = none ∧ u.h.pc = t.h.pc + 4 ∧
           u.h.words = t.h.words + 1 ∧ u.mem = t.mem ∧ u.h.s = t.h.s ∧ u.h.rows = t.h.rows)) ∧
   ∀ s : State, s.h.live = true → runHead s = none → (s.h.vq = [] ∨ pressing s = false) → boundary s = none →
    (∀ l, s.h.latch = some l → wordBytes s = .ok l.bytes s) ∧ (s.h.latch = none → wordBytes s = fetchWord s) ∧
    (∀ bs s1 i n, wordBytes s = .ok bs s1 → decode bs = .ok (i, n) →
      (s1.h.vq = [] ∨ passesQueue (natOfBytes bs) = true → hartTurn s = (match exec i s1 with
        | .next t => settles s (enterQueue t)
        | .fault f => .fault f
        | .refused r => .refused r)) ∧
      (s1.h.vq ≠ [] → passesQueue (natOfBytes bs) = false →
        joinsQueue (natOfBytes bs) = false ∨ s1.h.latch ≠ none ∨ 16 ≤ s1.h.vq.length →
        hartTurn s = settles s { s1 with h := { s1.h with waiting := some .ring, clock := s1.h.clock + 1 } })) ∧
    (∀ bs s1 e, wordBytes s = .ok bs s1 → decode bs = .error e → s1.h.pfx = none →
      hartTurn s = .next (State.trapped 0x01 (BitVec.ofNat 64 (natOfBytes bs)) s1.h.pc s1)) ∧
    ∀ c v s1, wordBytes s = .error (.trap c v) s1 → 4 < c → s1.h.pfx = none →
      hartTurn s = settles s (State.trapped c v s1.h.pc s1)) ∧
  (∀ (s : State), s.h.mode = .machine → (∀ va, s.h.waiting ≠ some (.failed va)) → untranslatedType s.h.pc.toNat = 2 →
    fetchWord s = .error (.trap 0x13 s.h.pc) s) ∧
  (∀ (s : State) (va : Nat), s.h.waiting = some (.failed va) → fetchWord s = .error (.trap 0x23 (BitVec.ofNat 64 va)) s) ∧
  (∀ (s s1 : State) (lo : List Byte), s.h.mode = .machine → (∀ va, s.h.waiting ≠ some (.failed va)) →
    untranslatedType s.h.pc.toNat = 0 → blockingChannels s s.h.pc.toNat 2 = [] →
    physRead { s.ctx with moved := s.h.moved } s.h.pc.toNat 2 s = .ok (s1, lo, none) →
    ((lo.headD 0).getLsbD 0 = false → fetchWord s = .ok lo { s1 with h := { s1.h with given := [] } }) ∧
    ∀ s2 hi, (lo.headD 0).getLsbD 0 = true → untranslatedType (s.h.pc + 2).toNat = 0 → s.keepsHart s1 →
      blockingChannels s1 (s.h.pc + 2).toNat 2 = [] → 
      physRead { s.ctx with moved := s.h.moved } (s.h.pc + 2).toNat 2 s1 = .ok (s2, hi, none) →
      fetchWord s = .ok (lo ++ hi) { s2 with h := { s2.h with given := [] } }) ∧
  ∀ (s : State) (rest : List Turn),
    (s.agenda = [] → step s = hartTurn s) ∧
    (∀ c, s.agenda = .hart c :: rest → step s = hartTurn (focus c { s with agenda := rest })) ∧
    (∀ i, s.agenda = .event i :: rest → step s = exec i { s with agenda := rest }) ∧
    ∀ n, s.agenda = .tick n :: rest →
      step s = .next { s with agenda := rest, h := { s.h with clock := s.h.clock + n } }

/-- R424 and the reset columns of the registers; the canonical form is the model's own (log 2), and links that are down
and MGTGT 0 are its choices (log 6). -/
def Obligations.ResetValues : Prop :=
  let r := State.reset
  r.Inv ∧ r.h.live = false ∧ r.h.stopped = false ∧ r.harts = [] ∧ (∀ a < 0xF000000000, Memory.read r.mem a = 0) ∧
  (∀ q, (queueOf r q).qctl = 0x300 ∧ (queueOf r q).head = 0 ∧ (queueOf r q).tail = 0 ∧ (queueOf r q).code = 0 ∧
    (queueOf r q).qtvec = 0 ∧ (queueOf r q).qmtvec = 0 ∧ (queueOf r q).fifo = []) ∧
  r.dev.launches = [] ∧ clovest r.hbm = 0 ∧ r.hbm.lost = [] ∧ r.dev.mgmt.mbdb = 0 ∧ r.dev.mgmt.mgtgt = 0 ∧
  (keyOf r 0).isSome = true ∧ (∀ k, 0 < k → keyOf r k = none) ∧
  (∀ i pa rd wr, accessAllowed r i pa rd wr = (i == 0x3F0)) ∧
  (∀ c w, w < 16 → (clusterOf r c).ownwin[w]? = some 0) ∧ r.dev.frctl = 0 ∧ r.dev.hwkey = 0 ∧
  (∀ i, (linkOf r i).up = false) ∧ r.dev.mgmt.cap = 4200 ∧ r.dev.migrating = [] ∧ r.tuples.regions = []

/-- R4, R53: memory is a function of the address; the canonical form is the model's own (log 2). -/
def Obligations.StepKeepsMemoryCanonical : Prop :=
  ∀ s t : State, s.Inv → step s = .next t → t.Inv
end

