-- ==== Sys2Proof/Laws/State.lean ====
section
/-! SUPPORT. What each update of the state leaves alone, field by field, and what a keyed list answers after a change. -/

namespace Sys2Proof.Machine

/-! Keyed lists. -/

@[simp] theorem look_put_self {β : Type} (k : Nat) (v : β) (l : List (Nat × β)) : look k (put k v l) = some v := by
  induction l <;> simp only [put]
  · simp [look]
  · repeat' split
    all_goals simp_all [look]
theorem look_put_ne {β : Type} (k j : Nat) (v : β) (l : List (Nat × β)) (hk : k ≠ j) : look j (put k v l) = look j l := by
  induction l <;> simp only [put]
  · simp [look, hk]
  · repeat' split
    all_goals simp_all [look]
theorem look_cut {β : Type} (k j : Nat) (l : List (Nat × β)) : look j (cut k l) = if k = j then none else look j l := by
  unfold cut
  induction l <;> simp only [List.filter]
  · simp [look]
  · split <;> grind [look]
@[simp] theorem look_cut_self {β : Type} (k : Nat) (l : List (Nat × β)) : look k (cut k l) = none := by simp [look_cut]
theorem look_cut_ne {β : Type} (k j : Nat) (l : List (Nat × β)) (hk : k ≠ j) : look j (cut k l) = look j l := by
  simp [look_cut, hk]
@[simp] theorem put_put {β : Type} (k : Nat) (v w : β) (l : List (Nat × β)) : put k v (put k w l) = put k v l := by
  induction l <;> simp only [put]
  · simp
  · repeat' split
    all_goals simp_all [put]

/-! What an update answers for its own key, and for another. -/

@[simp] theorem clusterOf_setCluster (n : Nat) (v : Cluster) (s : State) : clusterOf (setCluster n v s) n = v := by simp [clusterOf, setCluster, lookD]
theorem clusterOf_setCluster_ne (n m : Nat) (v : Cluster) (s : State) (h : n ≠ m) : clusterOf (setCluster n v s) m = clusterOf s m := by
  simp [clusterOf, setCluster, lookD, look_put_ne _ _ _ _ h]
@[simp] theorem coreOf_setCore (n : Nat) (v : CoreState) (s : State) : coreOf (setCore n v s) n = v := by simp [coreOf, setCore, lookD]
theorem coreOf_setCore_ne (n m : Nat) (v : CoreState) (s : State) (h : n ≠ m) : coreOf (setCore n v s) m = coreOf s m := by
  simp [coreOf, setCore, lookD, look_put_ne _ _ _ _ h]
@[simp] theorem slotOf_setSlot (n : Nat) (v : Slot) (s : State) : slotOf (setSlot n v s) n = v := by simp [slotOf, setSlot, lookD]
theorem slotOf_setSlot_ne (n m : Nat) (v : Slot) (s : State) (h : n ≠ m) : slotOf (setSlot n v s) m = slotOf s m := by
  simp [slotOf, setSlot, lookD, look_put_ne _ _ _ _ h]
@[simp] theorem queueOf_setQueue (n : Nat) (v : Queue) (s : State) : queueOf (setQueue n v s) n = v := by simp [queueOf, setQueue, lookD]
theorem queueOf_setQueue_ne (n m : Nat) (v : Queue) (s : State) (h : n ≠ m) : queueOf (setQueue n v s) m = queueOf s m := by
  simp [queueOf, setQueue, lookD, look_put_ne _ _ _ _ h]
@[simp] theorem hartAt_setHart (n : Nat) (v : Hart) (s : State) : hartAt (setHart n v s) n = some v := by
  unfold hartAt setHart
  by_cases h : n = s.cur <;> simp [h]
theorem hartAt_setHart_ne (n m : Nat) (v : Hart) (s : State) (h : n ≠ m) : hartAt (setHart n v s) m = hartAt s m := by
  unfold hartAt setHart
  by_cases h1 : n = s.cur
  · have : m ≠ s.cur := fun e => h (h1.trans e.symm)
    simp [h1, this]
  · by_cases h2 : m = s.cur
    · simp [h1, h2]
    · simp [h1, h2, look_put_ne _ _ _ _ h]
theorem setHart_cur (v : Hart) (s : State) : setHart s.cur v s = { s with h := v } := by simp [setHart]

/-! Updates of the state. -/

@[simp] theorem setCluster_cur (n : Nat) (v : Cluster) (s : State) : (setCluster n v s).cur = s.cur := rfl
@[simp] theorem setCluster_h (n : Nat) (v : Cluster) (s : State) : (setCluster n v s).h = s.h := rfl
@[simp] theorem setCluster_harts (n : Nat) (v : Cluster) (s : State) : (setCluster n v s).harts = s.harts := rfl
@[simp] theorem setCluster_slots (n : Nat) (v : Cluster) (s : State) : (setCluster n v s).slots = s.slots := rfl
@[simp] theorem setCluster_crews (n : Nat) (v : Cluster) (s : State) : (setCluster n v s).crews = s.crews := rfl
@[simp] theorem setCluster_cores (n : Nat) (v : Cluster) (s : State) : (setCluster n v s).cores = s.cores := rfl
@[simp] theorem setCluster_mem (n : Nat) (v : Cluster) (s : State) : (setCluster n v s).mem = s.mem := rfl
@[simp] theorem setCluster_flaws (n : Nat) (v : Cluster) (s : State) : (setCluster n v s).flaws = s.flaws := rfl
@[simp] theorem setCluster_hbm (n : Nat) (v : Cluster) (s : State) : (setCluster n v s).hbm = s.hbm := rfl
@[simp] theorem setCluster_tuples (n : Nat) (v : Cluster) (s : State) : (setCluster n v s).tuples = s.tuples := rfl
@[simp] theorem setCluster_dev (n : Nat) (v : Cluster) (s : State) : (setCluster n v s).dev = s.dev := rfl
@[simp] theorem setCluster_agenda (n : Nat) (v : Cluster) (s : State) : (setCluster n v s).agenda = s.agenda := rfl
@[simp] theorem setCluster_replies (n : Nat) (v : Cluster) (s : State) : (setCluster n v s).replies = s.replies := rfl
@[simp] theorem setCluster_freeCount (n : Nat) (v : Cluster) (s : State) : (setCluster n v s).freeCount = s.freeCount := rfl
@[simp] theorem setCore_cur (n : Nat) (v : CoreState) (s : State) : (setCore n v s).cur = s.cur := rfl
@[simp] theorem setCore_h (n : Nat) (v : CoreState) (s : State) : (setCore n v s).h = s.h := rfl
@[simp] theorem setCore_harts (n : Nat) (v : CoreState) (s : State) : (setCore n v s).harts = s.harts := rfl
@[simp] theorem setCore_slots (n : Nat) (v : CoreState) (s : State) : (setCore n v s).slots = s.slots := rfl
@[simp] theorem setCore_crews (n : Nat) (v : CoreState) (s : State) : (setCore n v s).crews = s.crews := rfl
@[simp] theorem setCore_clusters (n : Nat) (v : CoreState) (s : State) : (setCore n v s).clusters = s.clusters := rfl
@[simp] theorem setCore_mem (n : Nat) (v : CoreState) (s : State) : (setCore n v s).mem = s.mem := rfl
@[simp] theorem setCore_flaws (n : Nat) (v : CoreState) (s : State) : (setCore n v s).flaws = s.flaws := rfl
@[simp] theorem setCore_hbm (n : Nat) (v : CoreState) (s : State) : (setCore n v s).hbm = s.hbm := rfl
@[simp] theorem setCore_tuples (n : Nat) (v : CoreState) (s : State) : (setCore n v s).tuples = s.tuples := rfl
@[simp] theorem setCore_dev (n : Nat) (v : CoreState) (s : State) : (setCore n v s).dev = s.dev := rfl
@[simp] theorem setCore_agenda (n : Nat) (v : CoreState) (s : State) : (setCore n v s).agenda = s.agenda := rfl
@[simp] theorem setCore_replies (n : Nat) (v : CoreState) (s : State) : (setCore n v s).replies = s.replies := rfl
@[simp] theorem setCore_freeCount (n : Nat) (v : CoreState) (s : State) : (setCore n v s).freeCount = s.freeCount := rfl
@[simp] theorem setSlot_cur (n : Nat) (v : Slot) (s : State) : (setSlot n v s).cur = s.cur := rfl
@[simp] theorem setSlot_h (n : Nat) (v : Slot) (s : State) : (setSlot n v s).h = s.h := rfl
@[simp] theorem setSlot_harts (n : Nat) (v : Slot) (s : State) : (setSlot n v s).harts = s.harts := rfl
@[simp] theorem setSlot_crews (n : Nat) (v : Slot) (s : State) : (setSlot n v s).crews = s.crews := rfl
@[simp] theorem setSlot_cores (n : Nat) (v : Slot) (s : State) : (setSlot n v s).cores = s.cores := rfl
@[simp] theorem setSlot_clusters (n : Nat) (v : Slot) (s : State) : (setSlot n v s).clusters = s.clusters := rfl
@[simp] theorem setSlot_mem (n : Nat) (v : Slot) (s : State) : (setSlot n v s).mem = s.mem := rfl
@[simp] theorem setSlot_flaws (n : Nat) (v : Slot) (s : State) : (setSlot n v s).flaws = s.flaws := rfl
@[simp] theorem setSlot_hbm (n : Nat) (v : Slot) (s : State) : (setSlot n v s).hbm = s.hbm := rfl
@[simp] theorem setSlot_tuples (n : Nat) (v : Slot) (s : State) : (setSlot n v s).tuples = s.tuples := rfl
@[simp] theorem setSlot_dev (n : Nat) (v : Slot) (s : State) : (setSlot n v s).dev = s.dev := rfl
@[simp] theorem setSlot_agenda (n : Nat) (v : Slot) (s : State) : (setSlot n v s).agenda = s.agenda := rfl
@[simp] theorem setSlot_replies (n : Nat) (v : Slot) (s : State) : (setSlot n v s).replies = s.replies := rfl
@[simp] theorem setSlot_freeCount (n : Nat) (v : Slot) (s : State) : (setSlot n v s).freeCount = s.freeCount := rfl
@[simp] theorem setQueue_cur (n : Nat) (v : Queue) (s : State) : (setQueue n v s).cur = s.cur := rfl
@[simp] theorem setQueue_h (n : Nat) (v : Queue) (s : State) : (setQueue n v s).h = s.h := rfl
@[simp] theorem setQueue_harts (n : Nat) (v : Queue) (s : State) : (setQueue n v s).harts = s.harts := rfl
@[simp] theorem setQueue_slots (n : Nat) (v : Queue) (s : State) : (setQueue n v s).slots = s.slots := rfl
@[simp] theorem setQueue_crews (n : Nat) (v : Queue) (s : State) : (setQueue n v s).crews = s.crews := rfl
@[simp] theorem setQueue_cores (n : Nat) (v : Queue) (s : State) : (setQueue n v s).cores = s.cores := rfl
@[simp] theorem setQueue_clusters (n : Nat) (v : Queue) (s : State) : (setQueue n v s).clusters = s.clusters := rfl
@[simp] theorem setQueue_mem (n : Nat) (v : Queue) (s : State) : (setQueue n v s).mem = s.mem := rfl
@[simp] theorem setQueue_flaws (n : Nat) (v : Queue) (s : State) : (setQueue n v s).flaws = s.flaws := rfl
@[simp] theorem setQueue_hbm (n : Nat) (v : Queue) (s : State) : (setQueue n v s).hbm = s.hbm := rfl
@[simp] theorem setQueue_tuples (n : Nat) (v : Queue) (s : State) : (setQueue n v s).tuples = s.tuples := rfl
@[simp] theorem setQueue_agenda (n : Nat) (v : Queue) (s : State) : (setQueue n v s).agenda = s.agenda := rfl
@[simp] theorem setQueue_replies (n : Nat) (v : Queue) (s : State) : (setQueue n v s).replies = s.replies := rfl
@[simp] theorem setQueue_freeCount (n : Nat) (v : Queue) (s : State) : (setQueue n v s).freeCount = s.freeCount := rfl
@[simp] theorem raiseMsix_cur (n : Nat) (s : State) : (raiseMsix n s).cur = s.cur := rfl
@[simp] theorem raiseMsix_h (n : Nat) (s : State) : (raiseMsix n s).h = s.h := rfl
@[simp] theorem raiseMsix_harts (n : Nat) (s : State) : (raiseMsix n s).harts = s.harts := rfl
@[simp] theorem raiseMsix_slots (n : Nat) (s : State) : (raiseMsix n s).slots = s.slots := rfl
@[simp] theorem raiseMsix_crews (n : Nat) (s : State) : (raiseMsix n s).crews = s.crews := rfl
@[simp] theorem raiseMsix_cores (n : Nat) (s : State) : (raiseMsix n s).cores = s.cores := rfl
@[simp] theorem raiseMsix_clusters (n : Nat) (s : State) : (raiseMsix n s).clusters = s.clusters := rfl
@[simp] theorem raiseMsix_mem (n : Nat) (s : State) : (raiseMsix n s).mem = s.mem := rfl
@[simp] theorem raiseMsix_flaws (n : Nat) (s : State) : (raiseMsix n s).flaws = s.flaws := rfl
@[simp] theorem raiseMsix_hbm (n : Nat) (s : State) : (raiseMsix n s).hbm = s.hbm := rfl
@[simp] theorem raiseMsix_tuples (n : Nat) (s : State) : (raiseMsix n s).tuples = s.tuples := rfl
@[simp] theorem raiseMsix_agenda (n : Nat) (s : State) : (raiseMsix n s).agenda = s.agenda := rfl
@[simp] theorem raiseMsix_replies (n : Nat) (s : State) : (raiseMsix n s).replies = s.replies := rfl
@[simp] theorem raiseMsix_freeCount (n : Nat) (s : State) : (raiseMsix n s).freeCount = s.freeCount := rfl
@[simp] theorem setChannel_cur (n i : Nat) (v : Channel) (s : State) : (setChannel n i v s).cur = s.cur := rfl
@[simp] theorem setChannel_h (n i : Nat) (v : Channel) (s : State) : (setChannel n i v s).h = s.h := rfl
@[simp] theorem setChannel_harts (n i : Nat) (v : Channel) (s : State) : (setChannel n i v s).harts = s.harts := rfl
@[simp] theorem setChannel_slots (n i : Nat) (v : Channel) (s : State) : (setChannel n i v s).slots = s.slots := rfl
@[simp] theorem setChannel_crews (n i : Nat) (v : Channel) (s : State) : (setChannel n i v s).crews = s.crews := rfl
@[simp] theorem setChannel_clusters (n i : Nat) (v : Channel) (s : State) : (setChannel n i v s).clusters = s.clusters := rfl
@[simp] theorem setChannel_mem (n i : Nat) (v : Channel) (s : State) : (setChannel n i v s).mem = s.mem := rfl
@[simp] theorem setChannel_flaws (n i : Nat) (v : Channel) (s : State) : (setChannel n i v s).flaws = s.flaws := rfl
@[simp] theorem setChannel_hbm (n i : Nat) (v : Channel) (s : State) : (setChannel n i v s).hbm = s.hbm := rfl
@[simp] theorem setChannel_tuples (n i : Nat) (v : Channel) (s : State) : (setChannel n i v s).tuples = s.tuples := rfl
@[simp] theorem setChannel_dev (n i : Nat) (v : Channel) (s : State) : (setChannel n i v s).dev = s.dev := rfl
@[simp] theorem setChannel_agenda (n i : Nat) (v : Channel) (s : State) : (setChannel n i v s).agenda = s.agenda := rfl
@[simp] theorem setChannel_replies (n i : Nat) (v : Channel) (s : State) : (setChannel n i v s).replies = s.replies := rfl
@[simp] theorem setChannel_freeCount (n i : Nat) (v : Channel) (s : State) : (setChannel n i v s).freeCount = s.freeCount := rfl
@[simp] theorem setArbiter_cur (n i : Nat) (v : Arbiter) (s : State) : (setArbiter n i v s).cur = s.cur := rfl
@[simp] theorem setArbiter_h (n i : Nat) (v : Arbiter) (s : State) : (setArbiter n i v s).h = s.h := rfl
@[simp] theorem setArbiter_harts (n i : Nat) (v : Arbiter) (s : State) : (setArbiter n i v s).harts = s.harts := rfl
@[simp] theorem setArbiter_slots (n i : Nat) (v : Arbiter) (s : State) : (setArbiter n i v s).slots = s.slots := rfl
@[simp] theorem setArbiter_crews (n i : Nat) (v : Arbiter) (s : State) : (setArbiter n i v s).crews = s.crews := rfl
@[simp] theorem setArbiter_clusters (n i : Nat) (v : Arbiter) (s : State) : (setArbiter n i v s).clusters = s.clusters := rfl
@[simp] theorem setArbiter_mem (n i : Nat) (v : Arbiter) (s : State) : (setArbiter n i v s).mem = s.mem := rfl
@[simp] theorem setArbiter_flaws (n i : Nat) (v : Arbiter) (s : State) : (setArbiter n i v s).flaws = s.flaws := rfl
@[simp] theorem setArbiter_hbm (n i : Nat) (v : Arbiter) (s : State) : (setArbiter n i v s).hbm = s.hbm := rfl
@[simp] theorem setArbiter_tuples (n i : Nat) (v : Arbiter) (s : State) : (setArbiter n i v s).tuples = s.tuples := rfl
@[simp] theorem setArbiter_dev (n i : Nat) (v : Arbiter) (s : State) : (setArbiter n i v s).dev = s.dev := rfl
@[simp] theorem setArbiter_agenda (n i : Nat) (v : Arbiter) (s : State) : (setArbiter n i v s).agenda = s.agenda := rfl
@[simp] theorem setArbiter_replies (n i : Nat) (v : Arbiter) (s : State) : (setArbiter n i v s).replies = s.replies := rfl
@[simp] theorem setArbiter_freeCount (n i : Nat) (v : Arbiter) (s : State) : (setArbiter n i v s).freeCount = s.freeCount := rfl
@[simp] theorem setLink_cur (n : Nat) (v : Link) (s : State) : (setLink n v s).cur = s.cur := rfl
@[simp] theorem setLink_h (n : Nat) (v : Link) (s : State) : (setLink n v s).h = s.h := rfl
@[simp] theorem setLink_harts (n : Nat) (v : Link) (s : State) : (setLink n v s).harts = s.harts := rfl
@[simp] theorem setLink_slots (n : Nat) (v : Link) (s : State) : (setLink n v s).slots = s.slots := rfl
@[simp] theorem setLink_crews (n : Nat) (v : Link) (s : State) : (setLink n v s).crews = s.crews := rfl
@[simp] theorem setLink_cores (n : Nat) (v : Link) (s : State) : (setLink n v s).cores = s.cores := rfl
@[simp] theorem setLink_clusters (n : Nat) (v : Link) (s : State) : (setLink n v s).clusters = s.clusters := rfl
@[simp] theorem setLink_mem (n : Nat) (v : Link) (s : State) : (setLink n v s).mem = s.mem := rfl
@[simp] theorem setLink_flaws (n : Nat) (v : Link) (s : State) : (setLink n v s).flaws = s.flaws := rfl
@[simp] theorem setLink_hbm (n : Nat) (v : Link) (s : State) : (setLink n v s).hbm = s.hbm := rfl
@[simp] theorem setLink_tuples (n : Nat) (v : Link) (s : State) : (setLink n v s).tuples = s.tuples := rfl
@[simp] theorem setLink_agenda (n : Nat) (v : Link) (s : State) : (setLink n v s).agenda = s.agenda := rfl
@[simp] theorem setLink_replies (n : Nat) (v : Link) (s : State) : (setLink n v s).replies = s.replies := rfl
@[simp] theorem setLink_freeCount (n : Nat) (v : Link) (s : State) : (setLink n v s).freeCount = s.freeCount := rfl
@[simp] theorem State.past_cur (n m : Nat) (s : State) : (State.past n m s).cur = s.cur := rfl
@[simp] theorem State.past_harts (n m : Nat) (s : State) : (State.past n m s).harts = s.harts := rfl
@[simp] theorem State.past_slots (n m : Nat) (s : State) : (State.past n m s).slots = s.slots := rfl
@[simp] theorem State.past_crews (n m : Nat) (s : State) : (State.past n m s).crews = s.crews := rfl
@[simp] theorem State.past_cores (n m : Nat) (s : State) : (State.past n m s).cores = s.cores := rfl
@[simp] theorem State.past_clusters (n m : Nat) (s : State) : (State.past n m s).clusters = s.clusters := rfl
@[simp] theorem State.past_mem (n m : Nat) (s : State) : (State.past n m s).mem = s.mem := rfl
@[simp] theorem State.past_flaws (n m : Nat) (s : State) : (State.past n m s).flaws = s.flaws := rfl
@[simp] theorem State.past_hbm (n m : Nat) (s : State) : (State.past n m s).hbm = s.hbm := rfl
@[simp] theorem State.past_tuples (n m : Nat) (s : State) : (State.past n m s).tuples = s.tuples := rfl
@[simp] theorem State.past_dev (n m : Nat) (s : State) : (State.past n m s).dev = s.dev := rfl
@[simp] theorem State.past_agenda (n m : Nat) (s : State) : (State.past n m s).agenda = s.agenda := rfl
@[simp] theorem State.past_replies (n m : Nat) (s : State) : (State.past n m s).replies = s.replies := rfl
@[simp] theorem State.past_freeCount (n m : Nat) (s : State) : (State.past n m s).freeCount = s.freeCount := rfl
@[simp] theorem State.jumped_cur (v : Word) (s : State) : (State.jumped v s).cur = s.cur := rfl
@[simp] theorem State.jumped_harts (v : Word) (s : State) : (State.jumped v s).harts = s.harts := rfl
@[simp] theorem State.jumped_slots (v : Word) (s : State) : (State.jumped v s).slots = s.slots := rfl
@[simp] theorem State.jumped_crews (v : Word) (s : State) : (State.jumped v s).crews = s.crews := rfl
@[simp] theorem State.jumped_cores (v : Word) (s : State) : (State.jumped v s).cores = s.cores := rfl
@[simp] theorem State.jumped_clusters (v : Word) (s : State) : (State.jumped v s).clusters = s.clusters := rfl
@[simp] theorem State.jumped_mem (v : Word) (s : State) : (State.jumped v s).mem = s.mem := rfl
@[simp] theorem State.jumped_flaws (v : Word) (s : State) : (State.jumped v s).flaws = s.flaws := rfl
@[simp] theorem State.jumped_hbm (v : Word) (s : State) : (State.jumped v s).hbm = s.hbm := rfl
@[simp] theorem State.jumped_tuples (v : Word) (s : State) : (State.jumped v s).tuples = s.tuples := rfl
@[simp] theorem State.jumped_dev (v : Word) (s : State) : (State.jumped v s).dev = s.dev := rfl
@[simp] theorem State.jumped_agenda (v : Word) (s : State) : (State.jumped v s).agenda = s.agenda := rfl
@[simp] theorem State.jumped_replies (v : Word) (s : State) : (State.jumped v s).replies = s.replies := rfl
@[simp] theorem State.jumped_freeCount (v : Word) (s : State) : (State.jumped v s).freeCount = s.freeCount := rfl
@[simp] theorem State.wrote_cur (d : BitVec 5) (v : Word) (n m : Nat) (s : State) (l : Bool) : (State.wrote d v n m s l).cur = s.cur := rfl
@[simp] theorem State.wrote_harts (d : BitVec 5) (v : Word) (n m : Nat) (s : State) (l : Bool) : (State.wrote d v n m s l).harts = s.harts := rfl
@[simp] theorem State.wrote_slots (d : BitVec 5) (v : Word) (n m : Nat) (s : State) (l : Bool) : (State.wrote d v n m s l).slots = s.slots := rfl
@[simp] theorem State.wrote_crews (d : BitVec 5) (v : Word) (n m : Nat) (s : State) (l : Bool) : (State.wrote d v n m s l).crews = s.crews := rfl
@[simp] theorem State.wrote_cores (d : BitVec 5) (v : Word) (n m : Nat) (s : State) (l : Bool) : (State.wrote d v n m s l).cores = s.cores := rfl
@[simp] theorem State.wrote_clusters (d : BitVec 5) (v : Word) (n m : Nat) (s : State) (l : Bool) : (State.wrote d v n m s l).clusters = s.clusters := rfl
@[simp] theorem State.wrote_mem (d : BitVec 5) (v : Word) (n m : Nat) (s : State) (l : Bool) : (State.wrote d v n m s l).mem = s.mem := rfl
@[simp] theorem State.wrote_flaws (d : BitVec 5) (v : Word) (n m : Nat) (s : State) (l : Bool) : (State.wrote d v n m s l).flaws = s.flaws := rfl
@[simp] theorem State.wrote_hbm (d : BitVec 5) (v : Word) (n m : Nat) (s : State) (l : Bool) : (State.wrote d v n m s l).hbm = s.hbm := rfl
@[simp] theorem State.wrote_tuples (d : BitVec 5) (v : Word) (n m : Nat) (s : State) (l : Bool) : (State.wrote d v n m s l).tuples = s.tuples := rfl
@[simp] theorem State.wrote_dev (d : BitVec 5) (v : Word) (n m : Nat) (s : State) (l : Bool) : (State.wrote d v n m s l).dev = s.dev := rfl
@[simp] theorem State.wrote_agenda (d : BitVec 5) (v : Word) (n m : Nat) (s : State) (l : Bool) : (State.wrote d v n m s l).agenda = s.agenda := rfl
@[simp] theorem State.wrote_replies (d : BitVec 5) (v : Word) (n m : Nat) (s : State) (l : Bool) : (State.wrote d v n m s l).replies = s.replies := rfl
@[simp] theorem State.wrote_freeCount (d : BitVec 5) (v : Word) (n m : Nat) (s : State) (l : Bool) : (State.wrote d v n m s l).freeCount = s.freeCount := rfl
@[simp] theorem State.wrotePreds_cur (l : List (BitVec 3 × Bool)) (n m : Nat) (s : State) : (State.wrotePreds l n m s).cur = s.cur := rfl
@[simp] theorem State.wrotePreds_harts (l : List (BitVec 3 × Bool)) (n m : Nat) (s : State) : (State.wrotePreds l n m s).harts = s.harts := rfl
@[simp] theorem State.wrotePreds_slots (l : List (BitVec 3 × Bool)) (n m : Nat) (s : State) : (State.wrotePreds l n m s).slots = s.slots := rfl
@[simp] theorem State.wrotePreds_crews (l : List (BitVec 3 × Bool)) (n m : Nat) (s : State) : (State.wrotePreds l n m s).crews = s.crews := rfl
@[simp] theorem State.wrotePreds_cores (l : List (BitVec 3 × Bool)) (n m : Nat) (s : State) : (State.wrotePreds l n m s).cores = s.cores := rfl
@[simp] theorem State.wrotePreds_clusters (l : List (BitVec 3 × Bool)) (n m : Nat) (s : State) : (State.wrotePreds l n m s).clusters = s.clusters := rfl
@[simp] theorem State.wrotePreds_mem (l : List (BitVec 3 × Bool)) (n m : Nat) (s : State) : (State.wrotePreds l n m s).mem = s.mem := rfl
@[simp] theorem State.wrotePreds_flaws (l : List (BitVec 3 × Bool)) (n m : Nat) (s : State) : (State.wrotePreds l n m s).flaws = s.flaws := rfl
@[simp] theorem State.wrotePreds_hbm (l : List (BitVec 3 × Bool)) (n m : Nat) (s : State) : (State.wrotePreds l n m s).hbm = s.hbm := rfl
@[simp] theorem State.wrotePreds_tuples (l : List (BitVec 3 × Bool)) (n m : Nat) (s : State) : (State.wrotePreds l n m s).tuples = s.tuples := rfl
@[simp] theorem State.wrotePreds_dev (l : List (BitVec 3 × Bool)) (n m : Nat) (s : State) : (State.wrotePreds l n m s).dev = s.dev := rfl
@[simp] theorem State.wrotePreds_agenda (l : List (BitVec 3 × Bool)) (n m : Nat) (s : State) : (State.wrotePreds l n m s).agenda = s.agenda := rfl
@[simp] theorem State.wrotePreds_replies (l : List (BitVec 3 × Bool)) (n m : Nat) (s : State) : (State.wrotePreds l n m s).replies = s.replies := rfl
@[simp] theorem State.wrotePreds_freeCount (l : List (BitVec 3 × Bool)) (n m : Nat) (s : State) : (State.wrotePreds l n m s).freeCount = s.freeCount := rfl

/-! Updates of a hart. -/

@[simp] theorem Hart.raiseFlags_live (h : Hart) (n : Nat) : (h.raiseFlags n).live = h.live := rfl
@[simp] theorem Hart.raiseFlags_stopped (h : Hart) (n : Nat) : (h.raiseFlags n).stopped = h.stopped := rfl
@[simp] theorem Hart.raiseFlags_role (h : Hart) (n : Nat) : (h.raiseFlags n).role = h.role := rfl
@[simp] theorem Hart.raiseFlags_stage (h : Hart) (n : Nat) : (h.raiseFlags n).stage = h.stage := rfl
@[simp] theorem Hart.raiseFlags_cls (h : Hart) (n : Nat) : (h.raiseFlags n).cls = h.cls := rfl
@[simp] theorem Hart.raiseFlags_width (h : Hart) (n : Nat) : (h.raiseFlags n).width = h.width := rfl
@[simp] theorem Hart.raiseFlags_groups (h : Hart) (n : Nat) : (h.raiseFlags n).groups = h.groups := rfl
@[simp] theorem Hart.raiseFlags_launch (h : Hart) (n : Nat) : (h.raiseFlags n).launch = h.launch := rfl
@[simp] theorem Hart.raiseFlags_ordinal (h : Hart) (n : Nat) : (h.raiseFlags n).ordinal = h.ordinal := rfl
@[simp] theorem Hart.raiseFlags_peers (h : Hart) (n : Nat) : (h.raiseFlags n).peers = h.peers := rfl
@[simp] theorem Hart.raiseFlags_pc (h : Hart) (n : Nat) : (h.raiseFlags n).pc = h.pc := rfl
@[simp] theorem Hart.raiseFlags_mode (h : Hart) (n : Nat) : (h.raiseFlags n).mode = h.mode := rfl
@[simp] theorem Hart.raiseFlags_s (h : Hart) (n : Nat) : (h.raiseFlags n).s = h.s := rfl
@[simp] theorem Hart.raiseFlags_shadow (h : Hart) (n : Nat) : (h.raiseFlags n).shadow = h.shadow := rfl
@[simp] theorem Hart.raiseFlags_p (h : Hart) (n : Nat) : (h.raiseFlags n).p = h.p := rfl
@[simp] theorem Hart.raiseFlags_k (h : Hart) (n : Nat) : (h.raiseFlags n).k = h.k := rfl
@[simp] theorem Hart.raiseFlags_rows (h : Hart) (n : Nat) : (h.raiseFlags n).rows = h.rows := rfl
@[simp] theorem Hart.raiseFlags_span (h : Hart) (n : Nat) : (h.raiseFlags n).span = h.span := rfl
@[simp] theorem Hart.raiseFlags_vl (h : Hart) (n : Nat) : (h.raiseFlags n).vl = h.vl := rfl
@[simp] theorem Hart.raiseFlags_vt (h : Hart) (n : Nat) : (h.raiseFlags n).vt = h.vt := rfl
@[simp] theorem Hart.raiseFlags_vstart (h : Hart) (n : Nat) : (h.raiseFlags n).vstart = h.vstart := rfl
@[simp] theorem Hart.raiseFlags_cbs (h : Hart) (n : Nat) : (h.raiseFlags n).cbs = h.cbs := rfl
@[simp] theorem Hart.raiseFlags_wth (h : Hart) (n : Nat) : (h.raiseFlags n).wth = h.wth := rfl
@[simp] theorem Hart.raiseFlags_efc (h : Hart) (n : Nat) : (h.raiseFlags n).efc = h.efc := rfl
@[simp] theorem Hart.raiseFlags_deps (h : Hart) (n : Nat) : (h.raiseFlags n).deps = h.deps := rfl
@[simp] theorem Hart.raiseFlags_lastd (h : Hart) (n : Nat) : (h.raiseFlags n).lastd = h.lastd := rfl
@[simp] theorem Hart.raiseFlags_mx (h : Hart) (n : Nat) : (h.raiseFlags n).mx = h.mx := rfl
@[simp] theorem Hart.raiseFlags_sup (h : Hart) (n : Nat) : (h.raiseFlags n).sup = h.sup := rfl
@[simp] theorem Hart.raiseFlags_mach (h : Hart) (n : Nat) : (h.raiseFlags n).mach = h.mach := rfl
@[simp] theorem Hart.raiseFlags_inHandler (h : Hart) (n : Nat) : (h.raiseFlags n).inHandler = h.inHandler := rfl
@[simp] theorem Hart.raiseFlags_uiLastd (h : Hart) (n : Nat) : (h.raiseFlags n).uiLastd = h.uiLastd := rfl
@[simp] theorem Hart.raiseFlags_pfx (h : Hart) (n : Nat) : (h.raiseFlags n).pfx = h.pfx := rfl
@[simp] theorem Hart.raiseFlags_link (h : Hart) (n : Nat) : (h.raiseFlags n).link = h.link := rfl
@[simp] theorem Hart.raiseFlags_vlink (h : Hart) (n : Nat) : (h.raiseFlags n).vlink = h.vlink := rfl
@[simp] theorem Hart.raiseFlags_pend (h : Hart) (n : Nat) : (h.raiseFlags n).pend = h.pend := rfl
@[simp] theorem Hart.raiseFlags_clock (h : Hart) (n : Nat) : (h.raiseFlags n).clock = h.clock := rfl
@[simp] theorem Hart.raiseFlags_ops (h : Hart) (n : Nat) : (h.raiseFlags n).ops = h.ops := rfl
@[simp] theorem Hart.raiseFlags_errs (h : Hart) (n : Nat) : (h.raiseFlags n).errs = h.errs := rfl
@[simp] theorem Hart.raiseFlags_waiting (h : Hart) (n : Nat) : (h.raiseFlags n).waiting = h.waiting := rfl
@[simp] theorem Hart.raiseFlags_latch (h : Hart) (n : Nat) : (h.raiseFlags n).latch = h.latch := rfl
@[simp] theorem Hart.raiseFlags_given (h : Hart) (n : Nat) : (h.raiseFlags n).given = h.given := rfl
@[simp] theorem Hart.raiseFlags_words (h : Hart) (n : Nat) : (h.raiseFlags n).words = h.words := rfl
@[simp] theorem Hart.raiseFlags_vq (h : Hart) (n : Nat) : (h.raiseFlags n).vq = h.vq := rfl
@[simp] theorem Hart.raiseFlags_queueing (h : Hart) (n : Nat) : (h.raiseFlags n).queueing = h.queueing := rfl
@[simp] theorem Hart.raiseFlags_admitted (h : Hart) (n : Nat) : (h.raiseFlags n).admitted = h.admitted := rfl
@[simp] theorem Hart.raiseFlags_staged (h : Hart) (n : Nat) : (h.raiseFlags n).staged = h.staged := rfl
@[simp] theorem Hart.raiseFlags_before (h : Hart) (n : Nat) : (h.raiseFlags n).before = h.before := rfl
@[simp] theorem Hart.raiseFlags_moved (h : Hart) (n : Nat) : (h.raiseFlags n).moved = h.moved := rfl
@[simp] theorem Hart.raiseFlags_strip (h : Hart) (n : Nat) : (h.raiseFlags n).strip = h.strip := rfl
@[simp] theorem Hart.raiseFlags_vcount (h : Hart) (n : Nat) : (h.raiseFlags n).vcount = h.vcount := rfl
@[simp] theorem Hart.raiseFlags_deque (h : Hart) (n : Nat) : (h.raiseFlags n).deque = h.deque := rfl
@[simp] theorem Hart.raiseFlags_idleFrom (h : Hart) (n : Nat) : (h.raiseFlags n).idleFrom = h.idleFrom := rfl
@[simp] theorem Hart.raiseFlags_idleStall (h : Hart) (n : Nat) : (h.raiseFlags n).idleStall = h.idleStall := rfl
@[simp] theorem Hart.past_live (h : Hart) (n m : Nat) : (h.past n m).live = h.live := rfl
@[simp] theorem Hart.past_stopped (h : Hart) (n m : Nat) : (h.past n m).stopped = h.stopped := rfl
@[simp] theorem Hart.past_role (h : Hart) (n m : Nat) : (h.past n m).role = h.role := rfl
@[simp] theorem Hart.past_stage (h : Hart) (n m : Nat) : (h.past n m).stage = h.stage := rfl
@[simp] theorem Hart.past_cls (h : Hart) (n m : Nat) : (h.past n m).cls = h.cls := rfl
@[simp] theorem Hart.past_width (h : Hart) (n m : Nat) : (h.past n m).width = h.width := rfl
@[simp] theorem Hart.past_groups (h : Hart) (n m : Nat) : (h.past n m).groups = h.groups := rfl
@[simp] theorem Hart.past_launch (h : Hart) (n m : Nat) : (h.past n m).launch = h.launch := rfl
@[simp] theorem Hart.past_ordinal (h : Hart) (n m : Nat) : (h.past n m).ordinal = h.ordinal := rfl
@[simp] theorem Hart.past_peers (h : Hart) (n m : Nat) : (h.past n m).peers = h.peers := rfl
@[simp] theorem Hart.past_mode (h : Hart) (n m : Nat) : (h.past n m).mode = h.mode := rfl
@[simp] theorem Hart.past_s (h : Hart) (n m : Nat) : (h.past n m).s = h.s := rfl
@[simp] theorem Hart.past_shadow (h : Hart) (n m : Nat) : (h.past n m).shadow = h.shadow := rfl
@[simp] theorem Hart.past_p (h : Hart) (n m : Nat) : (h.past n m).p = h.p := rfl
@[simp] theorem Hart.past_k (h : Hart) (n m : Nat) : (h.past n m).k = h.k := rfl
@[simp] theorem Hart.past_rows (h : Hart) (n m : Nat) : (h.past n m).rows = h.rows := rfl
@[simp] theorem Hart.past_span (h : Hart) (n m : Nat) : (h.past n m).span = h.span := rfl
@[simp] theorem Hart.past_vl (h : Hart) (n m : Nat) : (h.past n m).vl = h.vl := rfl
@[simp] theorem Hart.past_vt (h : Hart) (n m : Nat) : (h.past n m).vt = h.vt := rfl
@[simp] theorem Hart.past_vstart (h : Hart) (n m : Nat) : (h.past n m).vstart = h.vstart := rfl
@[simp] theorem Hart.past_cbs (h : Hart) (n m : Nat) : (h.past n m).cbs = h.cbs := rfl
@[simp] theorem Hart.past_wth (h : Hart) (n m : Nat) : (h.past n m).wth = h.wth := rfl
@[simp] theorem Hart.past_efc (h : Hart) (n m : Nat) : (h.past n m).efc = h.efc := rfl
@[simp] theorem Hart.past_deps (h : Hart) (n m : Nat) : (h.past n m).deps = h.deps := rfl
@[simp] theorem Hart.past_lastd (h : Hart) (n m : Nat) : (h.past n m).lastd = h.lastd := rfl
@[simp] theorem Hart.past_csr (h : Hart) (n m : Nat) : (h.past n m).csr = h.csr := rfl
@[simp] theorem Hart.past_mx (h : Hart) (n m : Nat) : (h.past n m).mx = h.mx := rfl
@[simp] theorem Hart.past_sup (h : Hart) (n m : Nat) : (h.past n m).sup = h.sup := rfl
@[simp] theorem Hart.past_mach (h : Hart) (n m : Nat) : (h.past n m).mach = h.mach := rfl
@[simp] theorem Hart.past_inHandler (h : Hart) (n m : Nat) : (h.past n m).inHandler = h.inHandler := rfl
@[simp] theorem Hart.past_uiLastd (h : Hart) (n m : Nat) : (h.past n m).uiLastd = h.uiLastd := rfl
@[simp] theorem Hart.past_pfx (h : Hart) (n m : Nat) : (h.past n m).pfx = h.pfx := rfl
@[simp] theorem Hart.past_link (h : Hart) (n m : Nat) : (h.past n m).link = h.link := rfl
@[simp] theorem Hart.past_vlink (h : Hart) (n m : Nat) : (h.past n m).vlink = h.vlink := rfl
@[simp] theorem Hart.past_pend (h : Hart) (n m : Nat) : (h.past n m).pend = h.pend := rfl
@[simp] theorem Hart.past_ops (h : Hart) (n m : Nat) : (h.past n m).ops = h.ops := rfl
@[simp] theorem Hart.past_errs (h : Hart) (n m : Nat) : (h.past n m).errs = h.errs := rfl
@[simp] theorem Hart.past_vq (h : Hart) (n m : Nat) : (h.past n m).vq = h.vq := rfl
@[simp] theorem Hart.past_queueing (h : Hart) (n m : Nat) : (h.past n m).queueing = h.queueing := rfl
@[simp] theorem Hart.past_staged (h : Hart) (n m : Nat) : (h.past n m).staged = h.staged := rfl
@[simp] theorem Hart.past_strip (h : Hart) (n m : Nat) : (h.past n m).strip = h.strip := rfl
@[simp] theorem Hart.past_vcount (h : Hart) (n m : Nat) : (h.past n m).vcount = h.vcount := rfl
@[simp] theorem Hart.past_deque (h : Hart) (n m : Nat) : (h.past n m).deque = h.deque := rfl
@[simp] theorem Hart.jumped_live (h : Hart) (v : Word) : (h.jumped v).live = h.live := rfl
@[simp] theorem Hart.jumped_stopped (h : Hart) (v : Word) : (h.jumped v).stopped = h.stopped := rfl
@[simp] theorem Hart.jumped_role (h : Hart) (v : Word) : (h.jumped v).role = h.role := rfl
@[simp] theorem Hart.jumped_stage (h : Hart) (v : Word) : (h.jumped v).stage = h.stage := rfl
@[simp] theorem Hart.jumped_cls (h : Hart) (v : Word) : (h.jumped v).cls = h.cls := rfl
@[simp] theorem Hart.jumped_width (h : Hart) (v : Word) : (h.jumped v).width = h.width := rfl
@[simp] theorem Hart.jumped_groups (h : Hart) (v : Word) : (h.jumped v).groups = h.groups := rfl
@[simp] theorem Hart.jumped_launch (h : Hart) (v : Word) : (h.jumped v).launch = h.launch := rfl
@[simp] theorem Hart.jumped_ordinal (h : Hart) (v : Word) : (h.jumped v).ordinal = h.ordinal := rfl
@[simp] theorem Hart.jumped_peers (h : Hart) (v : Word) : (h.jumped v).peers = h.peers := rfl
@[simp] theorem Hart.jumped_mode (h : Hart) (v : Word) : (h.jumped v).mode = h.mode := rfl
@[simp] theorem Hart.jumped_s (h : Hart) (v : Word) : (h.jumped v).s = h.s := rfl
@[simp] theorem Hart.jumped_shadow (h : Hart) (v : Word) : (h.jumped v).shadow = h.shadow := rfl
@[simp] theorem Hart.jumped_p (h : Hart) (v : Word) : (h.jumped v).p = h.p := rfl
@[simp] theorem Hart.jumped_k (h : Hart) (v : Word) : (h.jumped v).k = h.k := rfl
@[simp] theorem Hart.jumped_rows (h : Hart) (v : Word) : (h.jumped v).rows = h.rows := rfl
@[simp] theorem Hart.jumped_span (h : Hart) (v : Word) : (h.jumped v).span = h.span := rfl
@[simp] theorem Hart.jumped_vl (h : Hart) (v : Word) : (h.jumped v).vl = h.vl := rfl
@[simp] theorem Hart.jumped_vt (h : Hart) (v : Word) : (h.jumped v).vt = h.vt := rfl
@[simp] theorem Hart.jumped_vstart (h : Hart) (v : Word) : (h.jumped v).vstart = h.vstart := rfl
@[simp] theorem Hart.jumped_cbs (h : Hart) (v : Word) : (h.jumped v).cbs = h.cbs := rfl
@[simp] theorem Hart.jumped_wth (h : Hart) (v : Word) : (h.jumped v).wth = h.wth := rfl
@[simp] theorem Hart.jumped_efc (h : Hart) (v : Word) : (h.jumped v).efc = h.efc := rfl
@[simp] theorem Hart.jumped_deps (h : Hart) (v : Word) : (h.jumped v).deps = h.deps := rfl
@[simp] theorem Hart.jumped_lastd (h : Hart) (v : Word) : (h.jumped v).lastd = h.lastd := rfl
@[simp] theorem Hart.jumped_csr (h : Hart) (v : Word) : (h.jumped v).csr = h.csr := rfl
@[simp] theorem Hart.jumped_mx (h : Hart) (v : Word) : (h.jumped v).mx = h.mx := rfl
@[simp] theorem Hart.jumped_sup (h : Hart) (v : Word) : (h.jumped v).sup = h.sup := rfl
@[simp] theorem Hart.jumped_mach (h : Hart) (v : Word) : (h.jumped v).mach = h.mach := rfl
@[simp] theorem Hart.jumped_inHandler (h : Hart) (v : Word) : (h.jumped v).inHandler = h.inHandler := rfl
@[simp] theorem Hart.jumped_uiLastd (h : Hart) (v : Word) : (h.jumped v).uiLastd = h.uiLastd := rfl
@[simp] theorem Hart.jumped_pfx (h : Hart) (v : Word) : (h.jumped v).pfx = h.pfx := rfl
@[simp] theorem Hart.jumped_link (h : Hart) (v : Word) : (h.jumped v).link = h.link := rfl
@[simp] theorem Hart.jumped_vlink (h : Hart) (v : Word) : (h.jumped v).vlink = h.vlink := rfl
@[simp] theorem Hart.jumped_pend (h : Hart) (v : Word) : (h.jumped v).pend = h.pend := rfl
@[simp] theorem Hart.jumped_ops (h : Hart) (v : Word) : (h.jumped v).ops = h.ops := rfl
@[simp] theorem Hart.jumped_errs (h : Hart) (v : Word) : (h.jumped v).errs = h.errs := rfl
@[simp] theorem Hart.jumped_vq (h : Hart) (v : Word) : (h.jumped v).vq = h.vq := rfl
@[simp] theorem Hart.jumped_queueing (h : Hart) (v : Word) : (h.jumped v).queueing = h.queueing := rfl
@[simp] theorem Hart.jumped_staged (h : Hart) (v : Word) : (h.jumped v).staged = h.staged := rfl
@[simp] theorem Hart.jumped_strip (h : Hart) (v : Word) : (h.jumped v).strip = h.strip := rfl
@[simp] theorem Hart.jumped_vcount (h : Hart) (v : Word) : (h.jumped v).vcount = h.vcount := rfl
@[simp] theorem Hart.jumped_deque (h : Hart) (v : Word) : (h.jumped v).deque = h.deque := rfl
/-- A register write changes the register file alone, or its shadow bank (R30, R126). -/
theorem Hart.setReg_eq (h : Hart) (n : Nat) (v : Word) :
    h.setReg n v = { h with s := (h.setReg n v).s, shadow := (h.setReg n v).shadow } := by
  unfold Hart.setReg Hart.setRegIn
  split
  · rfl
  · split <;> rfl
/-- A predicate write changes the predicates alone (R30). -/
theorem Hart.setPred_eq (h : Hart) (n : Nat) (v : Bool) : h.setPred n v = { h with p := (h.setPred n v).p } := by
  unfold Hart.setPred
  split <;> rfl
@[simp] theorem Hart.setReg_live (h : Hart) (n : Nat) (v : Word) : (h.setReg n v).live = h.live := by rw [Hart.setReg_eq]
@[simp] theorem Hart.setReg_stopped (h : Hart) (n : Nat) (v : Word) : (h.setReg n v).stopped = h.stopped := by rw [Hart.setReg_eq]
@[simp] theorem Hart.setReg_role (h : Hart) (n : Nat) (v : Word) : (h.setReg n v).role = h.role := by rw [Hart.setReg_eq]
@[simp] theorem Hart.setReg_stage (h : Hart) (n : Nat) (v : Word) : (h.setReg n v).stage = h.stage := by rw [Hart.setReg_eq]
@[simp] theorem Hart.setReg_cls (h : Hart) (n : Nat) (v : Word) : (h.setReg n v).cls = h.cls := by rw [Hart.setReg_eq]
@[simp] theorem Hart.setReg_width (h : Hart) (n : Nat) (v : Word) : (h.setReg n v).width = h.width := by rw [Hart.setReg_eq]
@[simp] theorem Hart.setReg_groups (h : Hart) (n : Nat) (v : Word) : (h.setReg n v).groups = h.groups := by rw [Hart.setReg_eq]
@[simp] theorem Hart.setReg_launch (h : Hart) (n : Nat) (v : Word) : (h.setReg n v).launch = h.launch := by rw [Hart.setReg_eq]
@[simp] theorem Hart.setReg_ordinal (h : Hart) (n : Nat) (v : Word) : (h.setReg n v).ordinal = h.ordinal := by rw [Hart.setReg_eq]
@[simp] theorem Hart.setReg_peers (h : Hart) (n : Nat) (v : Word) : (h.setReg n v).peers = h.peers := by rw [Hart.setReg_eq]
@[simp] theorem Hart.setReg_pc (h : Hart) (n : Nat) (v : Word) : (h.setReg n v).pc = h.pc := by rw [Hart.setReg_eq]
@[simp] theorem Hart.setReg_mode (h : Hart) (n : Nat) (v : Word) : (h.setReg n v).mode = h.mode := by rw [Hart.setReg_eq]
@[simp] theorem Hart.setReg_p (h : Hart) (n : Nat) (v : Word) : (h.setReg n v).p = h.p := by rw [Hart.setReg_eq]
@[simp] theorem Hart.setReg_k (h : Hart) (n : Nat) (v : Word) : (h.setReg n v).k = h.k := by rw [Hart.setReg_eq]
@[simp] theorem Hart.setReg_rows (h : Hart) (n : Nat) (v : Word) : (h.setReg n v).rows = h.rows := by rw [Hart.setReg_eq]
@[simp] theorem Hart.setReg_span (h : Hart) (n : Nat) (v : Word) : (h.setReg n v).span = h.span := by rw [Hart.setReg_eq]
@[simp] theorem Hart.setReg_vl (h : Hart) (n : Nat) (v : Word) : (h.setReg n v).vl = h.vl := by rw [Hart.setReg_eq]
@[simp] theorem Hart.setReg_vt (h : Hart) (n : Nat) (v : Word) : (h.setReg n v).vt = h.vt := by rw [Hart.setReg_eq]
@[simp] theorem Hart.setReg_vstart (h : Hart) (n : Nat) (v : Word) : (h.setReg n v).vstart = h.vstart := by rw [Hart.setReg_eq]
@[simp] theorem Hart.setReg_cbs (h : Hart) (n : Nat) (v : Word) : (h.setReg n v).cbs = h.cbs := by rw [Hart.setReg_eq]
@[simp] theorem Hart.setReg_wth (h : Hart) (n : Nat) (v : Word) : (h.setReg n v).wth = h.wth := by rw [Hart.setReg_eq]
@[simp] theorem Hart.setReg_efc (h : Hart) (n : Nat) (v : Word) : (h.setReg n v).efc = h.efc := by rw [Hart.setReg_eq]
@[simp] theorem Hart.setReg_deps (h : Hart) (n : Nat) (v : Word) : (h.setReg n v).deps = h.deps := by rw [Hart.setReg_eq]
@[simp] theorem Hart.setReg_lastd (h : Hart) (n : Nat) (v : Word) : (h.setReg n v).lastd = h.lastd := by rw [Hart.setReg_eq]
@[simp] theorem Hart.setReg_csr (h : Hart) (n : Nat) (v : Word) : (h.setReg n v).csr = h.csr := by rw [Hart.setReg_eq]
@[simp] theorem Hart.setReg_mx (h : Hart) (n : Nat) (v : Word) : (h.setReg n v).mx = h.mx := by rw [Hart.setReg_eq]
@[simp] theorem Hart.setReg_sup (h : Hart) (n : Nat) (v : Word) : (h.setReg n v).sup = h.sup := by rw [Hart.setReg_eq]
@[simp] theorem Hart.setReg_mach (h : Hart) (n : Nat) (v : Word) : (h.setReg n v).mach = h.mach := by rw [Hart.setReg_eq]
@[simp] theorem Hart.setReg_inHandler (h : Hart) (n : Nat) (v : Word) : (h.setReg n v).inHandler = h.inHandler := by rw [Hart.setReg_eq]
@[simp] theorem Hart.setReg_uiLastd (h : Hart) (n : Nat) (v : Word) : (h.setReg n v).uiLastd = h.uiLastd := by rw [Hart.setReg_eq]
@[simp] theorem Hart.setReg_pfx (h : Hart) (n : Nat) (v : Word) : (h.setReg n v).pfx = h.pfx := by rw [Hart.setReg_eq]
@[simp] theorem Hart.setReg_link (h : Hart) (n : Nat) (v : Word) : (h.setReg n v).link = h.link := by rw [Hart.setReg_eq]
@[simp] theorem Hart.setReg_vlink (h : Hart) (n : Nat) (v : Word) : (h.setReg n v).vlink = h.vlink := by rw [Hart.setReg_eq]
@[simp] theorem Hart.setReg_pend (h : Hart) (n : Nat) (v : Word) : (h.setReg n v).pend = h.pend := by rw [Hart.setReg_eq]
@[simp] theorem Hart.setReg_clock (h : Hart) (n : Nat) (v : Word) : (h.setReg n v).clock = h.clock := by rw [Hart.setReg_eq]
@[simp] theorem Hart.setReg_ops (h : Hart) (n : Nat) (v : Word) : (h.setReg n v).ops = h.ops := by rw [Hart.setReg_eq]
@[simp] theorem Hart.setReg_errs (h : Hart) (n : Nat) (v : Word) : (h.setReg n v).errs = h.errs := by rw [Hart.setReg_eq]
@[simp] theorem Hart.setReg_waiting (h : Hart) (n : Nat) (v : Word) : (h.setReg n v).waiting = h.waiting := by rw [Hart.setReg_eq]
@[simp] theorem Hart.setReg_latch (h : Hart) (n : Nat) (v : Word) : (h.setReg n v).latch = h.latch := by rw [Hart.setReg_eq]
@[simp] theorem Hart.setReg_given (h : Hart) (n : Nat) (v : Word) : (h.setReg n v).given = h.given := by rw [Hart.setReg_eq]
@[simp] theorem Hart.setReg_words (h : Hart) (n : Nat) (v : Word) : (h.setReg n v).words = h.words := by rw [Hart.setReg_eq]
@[simp] theorem Hart.setReg_vq (h : Hart) (n : Nat) (v : Word) : (h.setReg n v).vq = h.vq := by rw [Hart.setReg_eq]
@[simp] theorem Hart.setReg_queueing (h : Hart) (n : Nat) (v : Word) : (h.setReg n v).queueing = h.queueing := by rw [Hart.setReg_eq]
@[simp] theorem Hart.setReg_admitted (h : Hart) (n : Nat) (v : Word) : (h.setReg n v).admitted = h.admitted := by rw [Hart.setReg_eq]
@[simp] theorem Hart.setReg_staged (h : Hart) (n : Nat) (v : Word) : (h.setReg n v).staged = h.staged := by rw [Hart.setReg_eq]
@[simp] theorem Hart.setReg_before (h : Hart) (n : Nat) (v : Word) : (h.setReg n v).before = h.before := by rw [Hart.setReg_eq]
@[simp] theorem Hart.setReg_moved (h : Hart) (n : Nat) (v : Word) : (h.setReg n v).moved = h.moved := by rw [Hart.setReg_eq]
@[simp] theorem Hart.setReg_strip (h : Hart) (n : Nat) (v : Word) : (h.setReg n v).strip = h.strip := by rw [Hart.setReg_eq]
@[simp] theorem Hart.setReg_vcount (h : Hart) (n : Nat) (v : Word) : (h.setReg n v).vcount = h.vcount := by rw [Hart.setReg_eq]
@[simp] theorem Hart.setReg_deque (h : Hart) (n : Nat) (v : Word) : (h.setReg n v).deque = h.deque := by rw [Hart.setReg_eq]
@[simp] theorem Hart.setReg_idleFrom (h : Hart) (n : Nat) (v : Word) : (h.setReg n v).idleFrom = h.idleFrom := by rw [Hart.setReg_eq]
@[simp] theorem Hart.setReg_idleStall (h : Hart) (n : Nat) (v : Word) : (h.setReg n v).idleStall = h.idleStall := by rw [Hart.setReg_eq]
@[simp] theorem Hart.setPred_live (h : Hart) (n : Nat) (v : Bool) : (h.setPred n v).live = h.live := by rw [Hart.setPred_eq]
@[simp] theorem Hart.setPred_stopped (h : Hart) (n : Nat) (v : Bool) : (h.setPred n v).stopped = h.stopped := by rw [Hart.setPred_eq]
@[simp] theorem Hart.setPred_role (h : Hart) (n : Nat) (v : Bool) : (h.setPred n v).role = h.role := by rw [Hart.setPred_eq]
@[simp] theorem Hart.setPred_stage (h : Hart) (n : Nat) (v : Bool) : (h.setPred n v).stage = h.stage := by rw [Hart.setPred_eq]
@[simp] theorem Hart.setPred_cls (h : Hart) (n : Nat) (v : Bool) : (h.setPred n v).cls = h.cls := by rw [Hart.setPred_eq]
@[simp] theorem Hart.setPred_width (h : Hart) (n : Nat) (v : Bool) : (h.setPred n v).width = h.width := by rw [Hart.setPred_eq]
@[simp] theorem Hart.setPred_groups (h : Hart) (n : Nat) (v : Bool) : (h.setPred n v).groups = h.groups := by rw [Hart.setPred_eq]
@[simp] theorem Hart.setPred_launch (h : Hart) (n : Nat) (v : Bool) : (h.setPred n v).launch = h.launch := by rw [Hart.setPred_eq]
@[simp] theorem Hart.setPred_ordinal (h : Hart) (n : Nat) (v : Bool) : (h.setPred n v).ordinal = h.ordinal := by rw [Hart.setPred_eq]
@[simp] theorem Hart.setPred_peers (h : Hart) (n : Nat) (v : Bool) : (h.setPred n v).peers = h.peers := by rw [Hart.setPred_eq]
@[simp] theorem Hart.setPred_pc (h : Hart) (n : Nat) (v : Bool) : (h.setPred n v).pc = h.pc := by rw [Hart.setPred_eq]
@[simp] theorem Hart.setPred_mode (h : Hart) (n : Nat) (v : Bool) : (h.setPred n v).mode = h.mode := by rw [Hart.setPred_eq]
@[simp] theorem Hart.setPred_s (h : Hart) (n : Nat) (v : Bool) : (h.setPred n v).s = h.s := by rw [Hart.setPred_eq]
@[simp] theorem Hart.setPred_shadow (h : Hart) (n : Nat) (v : Bool) : (h.setPred n v).shadow = h.shadow := by rw [Hart.setPred_eq]
@[simp] theorem Hart.setPred_k (h : Hart) (n : Nat) (v : Bool) : (h.setPred n v).k = h.k := by rw [Hart.setPred_eq]
@[simp] theorem Hart.setPred_rows (h : Hart) (n : Nat) (v : Bool) : (h.setPred n v).rows = h.rows := by rw [Hart.setPred_eq]
@[simp] theorem Hart.setPred_span (h : Hart) (n : Nat) (v : Bool) : (h.setPred n v).span = h.span := by rw [Hart.setPred_eq]
@[simp] theorem Hart.setPred_vl (h : Hart) (n : Nat) (v : Bool) : (h.setPred n v).vl = h.vl := by rw [Hart.setPred_eq]
@[simp] theorem Hart.setPred_vt (h : Hart) (n : Nat) (v : Bool) : (h.setPred n v).vt = h.vt := by rw [Hart.setPred_eq]
@[simp] theorem Hart.setPred_vstart (h : Hart) (n : Nat) (v : Bool) : (h.setPred n v).vstart = h.vstart := by rw [Hart.setPred_eq]
@[simp] theorem Hart.setPred_cbs (h : Hart) (n : Nat) (v : Bool) : (h.setPred n v).cbs = h.cbs := by rw [Hart.setPred_eq]
@[simp] theorem Hart.setPred_wth (h : Hart) (n : Nat) (v : Bool) : (h.setPred n v).wth = h.wth := by rw [Hart.setPred_eq]
@[simp] theorem Hart.setPred_efc (h : Hart) (n : Nat) (v : Bool) : (h.setPred n v).efc = h.efc := by rw [Hart.setPred_eq]
@[simp] theorem Hart.setPred_deps (h : Hart) (n : Nat) (v : Bool) : (h.setPred n v).deps = h.deps := by rw [Hart.setPred_eq]
@[simp] theorem Hart.setPred_lastd (h : Hart) (n : Nat) (v : Bool) : (h.setPred n v).lastd = h.lastd := by rw [Hart.setPred_eq]
@[simp] theorem Hart.setPred_csr (h : Hart) (n : Nat) (v : Bool) : (h.setPred n v).csr = h.csr := by rw [Hart.setPred_eq]
@[simp] theorem Hart.setPred_mx (h : Hart) (n : Nat) (v : Bool) : (h.setPred n v).mx = h.mx := by rw [Hart.setPred_eq]
@[simp] theorem Hart.setPred_sup (h : Hart) (n : Nat) (v : Bool) : (h.setPred n v).sup = h.sup := by rw [Hart.setPred_eq]
@[simp] theorem Hart.setPred_mach (h : Hart) (n : Nat) (v : Bool) : (h.setPred n v).mach = h.mach := by rw [Hart.setPred_eq]
@[simp] theorem Hart.setPred_inHandler (h : Hart) (n : Nat) (v : Bool) : (h.setPred n v).inHandler = h.inHandler := by rw [Hart.setPred_eq]
@[simp] theorem Hart.setPred_uiLastd (h : Hart) (n : Nat) (v : Bool) : (h.setPred n v).uiLastd = h.uiLastd := by rw [Hart.setPred_eq]
@[simp] theorem Hart.setPred_pfx (h : Hart) (n : Nat) (v : Bool) : (h.setPred n v).pfx = h.pfx := by rw [Hart.setPred_eq]
@[simp] theorem Hart.setPred_link (h : Hart) (n : Nat) (v : Bool) : (h.setPred n v).link = h.link := by rw [Hart.setPred_eq]
@[simp] theorem Hart.setPred_vlink (h : Hart) (n : Nat) (v : Bool) : (h.setPred n v).vlink = h.vlink := by rw [Hart.setPred_eq]
@[simp] theorem Hart.setPred_pend (h : Hart) (n : Nat) (v : Bool) : (h.setPred n v).pend = h.pend := by rw [Hart.setPred_eq]
@[simp] theorem Hart.setPred_clock (h : Hart) (n : Nat) (v : Bool) : (h.setPred n v).clock = h.clock := by rw [Hart.setPred_eq]
@[simp] theorem Hart.setPred_ops (h : Hart) (n : Nat) (v : Bool) : (h.setPred n v).ops = h.ops := by rw [Hart.setPred_eq]
@[simp] theorem Hart.setPred_errs (h : Hart) (n : Nat) (v : Bool) : (h.setPred n v).errs = h.errs := by rw [Hart.setPred_eq]
@[simp] theorem Hart.setPred_waiting (h : Hart) (n : Nat) (v : Bool) : (h.setPred n v).waiting = h.waiting := by rw [Hart.setPred_eq]
@[simp] theorem Hart.setPred_latch (h : Hart) (n : Nat) (v : Bool) : (h.setPred n v).latch = h.latch := by rw [Hart.setPred_eq]
@[simp] theorem Hart.setPred_given (h : Hart) (n : Nat) (v : Bool) : (h.setPred n v).given = h.given := by rw [Hart.setPred_eq]
@[simp] theorem Hart.setPred_words (h : Hart) (n : Nat) (v : Bool) : (h.setPred n v).words = h.words := by rw [Hart.setPred_eq]
@[simp] theorem Hart.setPred_vq (h : Hart) (n : Nat) (v : Bool) : (h.setPred n v).vq = h.vq := by rw [Hart.setPred_eq]
@[simp] theorem Hart.setPred_queueing (h : Hart) (n : Nat) (v : Bool) : (h.setPred n v).queueing = h.queueing := by rw [Hart.setPred_eq]
@[simp] theorem Hart.setPred_admitted (h : Hart) (n : Nat) (v : Bool) : (h.setPred n v).admitted = h.admitted := by rw [Hart.setPred_eq]
@[simp] theorem Hart.setPred_staged (h : Hart) (n : Nat) (v : Bool) : (h.setPred n v).staged = h.staged := by rw [Hart.setPred_eq]
@[simp] theorem Hart.setPred_before (h : Hart) (n : Nat) (v : Bool) : (h.setPred n v).before = h.before := by rw [Hart.setPred_eq]
@[simp] theorem Hart.setPred_moved (h : Hart) (n : Nat) (v : Bool) : (h.setPred n v).moved = h.moved := by rw [Hart.setPred_eq]
@[simp] theorem Hart.setPred_strip (h : Hart) (n : Nat) (v : Bool) : (h.setPred n v).strip = h.strip := by rw [Hart.setPred_eq]
@[simp] theorem Hart.setPred_vcount (h : Hart) (n : Nat) (v : Bool) : (h.setPred n v).vcount = h.vcount := by rw [Hart.setPred_eq]
@[simp] theorem Hart.setPred_deque (h : Hart) (n : Nat) (v : Bool) : (h.setPred n v).deque = h.deque := by rw [Hart.setPred_eq]
@[simp] theorem Hart.setPred_idleFrom (h : Hart) (n : Nat) (v : Bool) : (h.setPred n v).idleFrom = h.idleFrom := by rw [Hart.setPred_eq]
@[simp] theorem Hart.setPred_idleStall (h : Hart) (n : Nat) (v : Bool) : (h.setPred n v).idleStall = h.idleStall := by rw [Hart.setPred_eq]
/-- R153, R30: a register written reads back, s0 apart. -/
theorem Hart.reg_setReg (h : Hart) (n : Nat) (v : Word) (hn : n < 32) : (h.setReg n v).reg n = if n = 0 then 0 else v := by
  unfold Hart.reg
  by_cases h0 : n = 0
  · simp [h0]
  · rw [if_neg h0, if_neg h0, Hart.setReg_inHandler]
    unfold Hart.setReg Hart.setRegIn
    rw [if_neg h0]
    by_cases hs : (h.inHandler && decide (24 ≤ n)) = true
    · have : n - 24 < 8 := by omega
      simp [hs, this]
    · simp only [Bool.not_eq_true] at hs
      simp [hs, hn]
theorem Hart.reg_setReg_ne (h : Hart) (n m : Nat) (v : Word) (hn : n ≠ m) : (h.setReg n v).reg m = h.reg m := by
  unfold Hart.reg
  by_cases h0 : m = 0
  · simp [h0]
  · rw [if_neg h0, if_neg h0, Hart.setReg_inHandler]
    unfold Hart.setReg Hart.setRegIn
    by_cases h1 : n = 0
    · rw [if_pos h1]
    · rw [if_neg h1]
      by_cases hs : (h.inHandler && decide (24 ≤ n)) = true
      · rw [if_pos hs]
        simp only [Bool.and_eq_true, decide_eq_true_eq] at hs
        by_cases h2 : 24 ≤ m
        · have : n - 24 ≠ m - 24 := by omega
          simp [h2, this]
        · simp [h2]
      · rw [if_neg hs]
        simp [hn]

end Sys2Proof.Machine
end

