-- ==== Sys2Proof/Laws/Issue.lean ====
section
/-! SUPPORT. What `issue` does to a ready hart: the word's effect, its suppression by a guard, and its traps. -/

namespace Sys2Proof.Machine

@[simp] theorem Hart.land_of_empty (h : Hart) (hp : h.pend = []) : h.land = h := by
  simp [Hart.land, hp]
  rw [← hp]
theorem Hart.landAll_of_empty (h : Hart) (hp : h.pend = []) : h.landAll = h := by
  simp [Hart.landAll, hp]
  rw [← hp]
@[simp] theorem Hart.copyReg_of_none (h : Hart) (hp : h.pfx = none) : h.copyReg = none := by simp [Hart.copyReg, hp]
theorem Hart.countedOn_of_empty (h : Hart) (n : Nat) (ho : h.ops = []) : h.countedOn n = false := by
  simp [Hart.countedOn, ho]
theorem destReady_of_ready (h : Hart) (i : Info) (hp : h.pend = []) (ho : h.ops = []) : destReady h i = some h.clock := by
  unfold destReady
  cases i.dest <;> simp [hp, Hart.countedOn, ho]

/-- The checks of R35 that come before a word's own guard. -/
structure Checks (i : Info) (legal later : Act Unit) (s : State) : Prop where
  major : majorAllowed s.h.role i.major = true
  legal : legal s = .ok () s
  level : modeNum i.level ≤ modeNum s.h.mode
  role : (i.address && s.h.role == .computer) = false
  later : later s = .ok () s

/-! How the parts of a word's work compose. -/

theorem act_bind {α β : Type} (x : Act α) (f : α → Act β) (s : State) :
    (x >>= f) s = (match x s with
      | .ok a s1 => f a s1
      | .error e s1 => .error e s1) := by
  show EStateM.bind x f s = _
  unfold EStateM.bind
  cases x s <;> rfl
theorem act_pure {α : Type} (a : α) (s : State) : (pure a : Act α) s = .ok a s := rfl
theorem getH_apply (s : State) : getH s = .ok s.h s := rfl
theorem modH_apply (f : Hart → Hart) (s : State) : modH f s = .ok () { s with h := f s.h } := rfl
theorem require_true (c : Nat) (v : Word) (s : State) : require true c v s = .ok () s := rfl
theorem require_false (c : Nat) (v : Word) (s : State) : require false c v s = .error (.trap c v) s := rfl

theorem pairAllowed_of_none (h : Hart) (i : Info) (hx : h.pfx = none) : pairAllowed h i = true := by simp [pairAllowed, hx]

/-- R25: a word that waits keeps what it read; of that the hart's registers show nothing. -/
def latched (i : Info) (s : State) : EStateM.Result Exc State Flow → EStateM.Result Exc State Flow
  | .error (.wait w) s1 =>
    .error (.wait w) (latchWait i ⟨bytesOf i.size i.word, s.h.s, s.h.shadow, s.h.p, [], true, s.h.vstart, if i.settles then some (i.stall, i.vector) else none⟩ w s1)
  | r => r
theorem latched_ok (i : Info) (s s1 : State) (f : Flow) : latched i s (.ok f s1) = .ok f s1 := rfl
theorem latched_error (i : Info) (s s1 : State) (e : Exc) (he : ∀ w, e ≠ .wait w) :
    latched i s (.error e s1) = .error e s1 := by
  cases e <;> first | rfl | exact absurd rfl (he _)
theorem runFirst_eq (i : Info) (body : Act Flow) (s : State) : runFirst i body s = latched i s (body s) := by
  unfold runFirst latched
  rfl

/-- Past its checks, a word of a ready hart has its guard's verdict. -/
theorem issueChecks_ready (i : Info) (legal pairLegal later : Act Unit) (s : State) (hr : s.Ready)
    (hc : Checks i legal later s) : issueChecks i legal pairLegal later s = .ok (s.h.guardHolds i.guard) s := by
  have he := Hart.land_of_empty _ hr.pend
  have hs : ({ s with h := s.h.land } : State) = s := by rw [he]
  have hk : s.h.lockedReady i.reads = s.h.clock := by simp [Hart.lockedReady, hr.pend]
  have ha : s.h.ops.any (fun o => o.counter == 7) = false := by simp [hr.ops]
  unfold issueChecks
  simp only [act_bind, modH_apply, getH_apply, ha, Bool.false_eq_true, if_false, hc.major, require_true, hc.legal, hc.level,
    hc.role, hc.later, pairAllowed_of_none _ i hr.pfx, Hart.copyReg_of_none _ hr.pfx, Option.isSome_none, Bool.false_and,
    Bool.not_false, decide_true, destReady_of_ready _ i hr.pend hr.ops, he, hr.schk]
  have hl : modH (fun h => ({ h with clock := h.lockedReady i.reads } : Hart).land) s = .ok () s := by
    simp only [modH_apply, hk, he]
  cases hg : s.h.guardHolds i.guard
  · rfl
  · simp only [Bool.not_true, Bool.false_eq_true, if_false, act_bind, hl, getH_apply]
    rfl
/-- A ready hart's word is checked, then runs, or does nothing when its guard does not hold. -/
theorem issueAct_ready (i : Info) (legal pairLegal later : Act Unit) (body : Act Flow) (s : State) (hr : s.Ready)
    (hc : Checks i legal later s) :
    issueAct i legal pairLegal later body s =
      if s.h.guardHolds i.guard then latched i s (body s) else .ok .seq s := by
  have rest : (match s.h.latch with
      | some l => (do modH Hart.land; runLatched i l body : Act Flow)
      | none => (do if ← issueChecks i legal pairLegal later then runFirst i body else return .seq : Act Flow)) s =
      if s.h.guardHolds i.guard then latched i s (body s) else .ok .seq s := by
    rw [hr.latch]
    simp only [act_bind, issueChecks_ready _ _ _ _ _ hr hc]
    cases s.h.guardHolds i.guard
    · rfl
    · exact runFirst_eq i body s
  unfold issueAct
  simp only [act_bind, getH_apply]
  rcases hw : s.h.waiting with _ | w
  · exact rest
  · cases w <;> first | exact absurd hw (hr.waits _) | exact rest

theorem issue_ready (i : Info) (legal pairLegal later : Act Unit) (body : Act Flow) (s : State) (hr : s.Ready)
    (hc : Checks i legal later s) :
    issue i body s legal pairLegal later =
      match (if s.h.guardHolds i.guard then latched i s (body s) else .ok .seq s) with
      | .ok f s1 => .next { s1 with h := finish i f s1.h }
      | .error e s1 => .next (deliver i.word e s1) := by
  simp only [issue, hr.live, issueAct_ready i legal pairLegal later body s hr hc]
  rfl

theorem finish_past (i : Info) (h : Hart) (hp : h.pfx = none) (hv : i.vector = false) :
    finish i .seq h = h.past i.size i.stall := by
  simp [finish, Hart.past, Hart.leave, hv, ← hp]
theorem finish_jumped (i : Info) (t : Word) (h : Hart) (hp : h.pfx = none) (hv : i.vector = false) :
    finish i (.jump t) h = h.jumped t := by
  simp [finish, Hart.jumped, Hart.leave, hv, ← hp]

/-- A word of a ready hart that completes. -/
theorem issue_seq (i : Info) (legal pairLegal later : Act Unit) (body : Act Flow) (s s1 : State) (hr : s.Ready)
    (hc : Checks i legal later s) (hg : s.h.guardHolds i.guard = true) (hb : body s = .ok .seq s1) (hp : s1.h.pfx = none)
    (hv : i.vector = false) : issue i body s legal pairLegal later = .next (s1.past i.size i.stall) := by
  rw [issue_ready _ _ _ _ _ _ hr hc, if_pos hg, hb, latched_ok]
  simp [State.past, finish_past _ _ hp hv]
/-- A word of a ready hart that branches. -/
theorem issue_jump (i : Info) (legal pairLegal later : Act Unit) (body : Act Flow) (s s1 : State) (t : Word) (hr : s.Ready)
    (hc : Checks i legal later s) (hg : s.h.guardHolds i.guard = true) (hb : body s = .ok (.jump t) s1) (hp : s1.h.pfx = none)
    (hv : i.vector = false) : issue i body s legal pairLegal later = .next (s1.jumped t) := by
  rw [issue_ready _ _ _ _ _ _ hr hc, if_pos hg, hb, latched_ok]
  simp [State.jumped, finish_jumped _ _ _ hp hv]
/-- A word of a ready hart whose guard does not hold only advances. -/
theorem issue_skip (i : Info) (legal pairLegal later : Act Unit) (body : Act Flow) (s : State) (hr : s.Ready)
    (hc : Checks i legal later s) (hg : s.h.guardHolds i.guard = false) (hv : i.vector = false) :
    issue i body s legal pairLegal later = .next (s.past i.size i.stall) := by
  rw [issue_ready _ _ _ _ _ _ hr hc, if_neg (by simp [hg])]
  simp [State.past, finish_past _ _ hr.pfx hv]
/-- A word of a ready hart that traps. -/
theorem issue_error (i : Info) (legal pairLegal later : Act Unit) (body : Act Flow) (s s1 : State) (e : Exc) (hr : s.Ready)
    (hc : Checks i legal later s) (hg : s.h.guardHolds i.guard = true) (hb : body s = .error e s1) (he : ∀ w, e ≠ .wait w) :
    issue i body s legal pairLegal later = .next (deliver i.word e s1) := by
  rw [issue_ready _ _ _ _ _ _ hr hc, if_pos hg, hb, latched_error _ _ _ _ he]
/-- A word of a ready hart that issues and waits. -/
theorem issue_wait (i : Info) (legal pairLegal later : Act Unit) (body : Act Flow) (s s1 : State) (w : Wait) (hr : s.Ready)
    (hc : Checks i legal later s) (hg : s.h.guardHolds i.guard = true) (hb : body s = .error (.wait w) s1) :
    issue i body s legal pairLegal later = .next (deliver i.word (.wait w)
      (latchWait i ⟨bytesOf i.size i.word, s.h.s, s.h.shadow, s.h.p, [], true, s.h.vstart, if i.settles then some (i.stall, i.vector) else none⟩ w s1)) := by
  rw [issue_ready _ _ _ _ _ _ hr hc, if_pos hg, hb]
  rfl

/-- A word that any hart but a wrong role's may issue in any mode. -/
theorem checks_plain (i : Info) (s : State) (hm : majorAllowed s.h.role i.major = true) (hl : i.level = .user)
    (ha : i.address = false) : Checks i (pure ()) (pure ()) s :=
  ⟨hm, rfl, by simp [hl, modeNum], by simp [ha], rfl⟩

theorem guardHolds_none (h : Hart) (hp : h.pfx = none) : h.guardHolds .none = true := by simp [Hart.guardHolds, hp]
theorem guardHolds_pred (s : State) (g : BitVec 3) (neg : Bool) (hr : s.Ready) (hg : s.guarded g neg) :
    s.h.guardHolds (.pred neg g.toNat) = true := by
  simp only [State.guarded] at hg
  simp [Hart.guardHolds, hr.pfx, hg]
theorem guardHolds_pred_not (s : State) (g : BitVec 3) (neg : Bool) (hr : s.Ready) (hg : ¬s.guarded g neg) :
    s.h.guardHolds (.pred neg g.toNat) = false := by
  simp only [State.guarded] at hg
  simp [Hart.guardHolds, hr.pfx]
  revert hg
  cases s.h.pred g.toNat <;> cases neg <;> simp

theorem andNext_ok (a : Act Unit) (s s1 : State) (h : a s = .ok () s1) : andNext a s = .ok .seq s1 := by
  simp only [andNext, act_bind, h]
  rfl
theorem andNext_error (a : Act Unit) (s s1 : State) (e : Exc) (h : a s = .error e s1) : andNext a s = .error e s1 := by
  simp only [andNext, act_bind, h]

theorem result_wrote (h : Hart) (d : BitVec 5) (v : Word) (lat flags : Nat) (locked : Bool) (hp : h.pfx = none)
    (he : h.pend = []) : h.result d.toNat v lat flags locked = h.wrote d v lat flags locked := by
  unfold Hart.result Hart.wrote
  have hd : BitVec.ofNat 5 d.toNat = d := by simp
  have hz : (d.toNat = 0) = (d = 0) := by simp [BitVec.toNat_eq]
  simp only [Hart.copyReg, hp, Option.bind_none, Option.toList_none, hd]
  split
  · simp
  · simp [he, hz]

end Sys2Proof.Machine
end

