-- ==== Sys2Proof/Laws/Scalar.lean ====
section
/-! SUPPORT. What the shared operations of the scalar words do to a ready hart: one lemma each. -/

namespace Sys2Proof.Machine

theorem majorAllowed_scalar (r : Role) (m : Nat) (h : m < 0x14) : majorAllowed r m = true := by
  unfold majorAllowed
  have h1 : (0x14 ≤ m) = False := by simp; omega
  have h2 : (0x2B ≤ m) = False := by simp; omega
  have h3 : (m == 0x31) = false := by simp; omega
  have h4 : (m != 0x30) = true := by simp; omega
  cases r <;> simp [h1, h2, h3, h4]
theorem majorAllowed_vector (r : Role) (m : Nat) (h : r ≠ .control) (hm : m ≠ 0x30) : majorAllowed r m = true := by
  unfold majorAllowed
  cases r <;> simp_all

theorem Hart.foldl_setPred_pfx (ps : List (BitVec 3 × Bool)) (h : Hart) :
    (ps.foldl (fun h e => h.setPred e.1.toNat e.2) h).pfx = h.pfx := by
  induction ps generalizing h with
  | nil => rfl
  | cons e ps ih => simp [ih]
@[simp] theorem State.wrote_pfx (d : BitVec 5) (v : Word) (lat flags : Nat) (s : State) (locked : Bool) :
    (s.wrote d v lat flags locked).h.pfx = s.h.pfx := by
  simp only [State.wrote, Hart.wrote]
  split <;> simp [Hart.raiseFlags]
@[simp] theorem State.wrotePreds_pfx (ps : List (BitVec 3 × Bool)) (lat flags : Nat) (s : State) :
    (s.wrotePreds ps lat flags).h.pfx = s.h.pfx := by
  simp only [State.wrotePreds, Hart.wrotePreds]
  split <;> simp [Hart.raiseFlags, Hart.foldl_setPred_pfx]

/-- R51: writing sD on a ready hart. -/
theorem writeD_ready (d : BitVec 5) (v : Word) (lat flags : Nat) (s : State) (hr : s.Ready) (locked : Bool := false) :
    writeD d v lat flags locked s = .ok () (s.wrote d v lat flags locked) := by
  simp only [writeD, modH_apply, result_wrote _ _ _ _ _ _ hr.pfx hr.pend, State.wrote]

/-- A guarded word whose body writes sD. -/
theorem issue_wrote (i : Info) (body : Act Unit) (s : State) (g : BitVec 3) (neg : Bool) (d : BitVec 5) (v : Word)
    (lat flags : Nat) {locked : Bool} (hr : s.Ready) (hm : i.major < 0x14) (hl : i.level = .user) (ha : i.address = false)
    (hv : i.vector = false) (hi : i.guard = .pred neg g.toNat) (hg : s.guarded g neg)
    (hb : body s = .ok () (s.wrote d v lat flags locked)) :
    issue i (andNext body) s = .next ((s.wrote d v lat flags locked).past i.size i.stall) :=
  issue_seq i _ _ _ _ s _ hr (checks_plain _ _ (majorAllowed_scalar _ _ hm) hl ha)
    (by rw [hi]; exact guardHolds_pred s g neg hr hg) (andNext_ok _ _ _ hb) (by simp [hr.pfx]) hv
/-- A word without a guard whose body writes sD. -/
theorem issue_wrote_free (i : Info) (body : Act Unit) (s : State) (d : BitVec 5) (v : Word)
    (lat flags : Nat) (hr : s.Ready) (hm : majorAllowed s.h.role i.major = true) (hl : i.level = .user)
    (ha : i.address = false) (hv : i.vector = false) (hi : i.guard = .none) (hb : body s = .ok () (s.wrote d v lat flags)) :
    issue i (andNext body) s = .next ((s.wrote d v lat flags).past i.size i.stall) :=
  issue_seq i _ _ _ _ s _ hr (checks_plain _ _ hm hl ha)
    (by rw [hi]; exact guardHolds_none _ hr.pfx) (andNext_ok _ _ _ hb) (by simp [hr.pfx]) hv
/-- A guarded word whose guard does not hold. -/
theorem issue_guardless (i : Info) (body : Act Flow) (s : State) (g : BitVec 3) (neg : Bool) (hr : s.Ready)
    (hm : majorAllowed s.h.role i.major = true) (hl : i.level = .user) (ha : i.address = false)
    (hv : i.vector = false) (hi : i.guard = .pred neg g.toNat) (hg : ¬s.guarded g neg) :
    issue i body s = .next (s.past i.size i.stall) :=
  issue_skip i _ _ _ _ s hr (checks_plain _ _ hm hl ha) (by rw [hi]; exact guardHolds_pred_not s g neg hr hg) hv

theorem binaryWord_done (major func lat : Nat) (f : Word → Word → Word) (o : RArgs) (s : State) (hr : s.Ready)
    (hm : major < 0x14) (hg : s.guarded o.guard o.neg) :
    binaryWord major func f lat o s =
      .next ((s.wrote o.d (f (s.h.reg o.a.toNat) (s.h.reg o.b.toNat)) lat 0).past 4 o.stall.toNat) :=
  issue_wrote _ _ s o.guard o.neg _ _ _ _ hr hm rfl rfl rfl rfl hg (writeD_ready _ _ _ _ _ hr)
theorem divideWord_done (func : Nat) (f : Word → Word → Word) (size : Word → Nat) (o : RArgs) (s : State) (hr : s.Ready)
    (hg : s.guarded o.guard o.neg) :
    divideWord func f size o s = .next ((s.wrote o.d (f (s.h.reg o.a.toNat) (s.h.reg o.b.toNat))
      (divCycles (size (s.h.reg o.a.toNat))) 0 true).past 4 o.stall.toNat) :=
  issue_wrote _ _ s o.guard o.neg _ _ _ _ hr (by decide : 1 < 0x14) rfl rfl rfl rfl hg (writeD_ready _ _ _ _ _ hr true)
theorem unaryWord_done (major func : Nat) (f : Word → Word) (o : RArgs) (s : State) (hr : s.Ready)
    (hm : major < 0x14) (hg : s.guarded o.guard o.neg) :
    unaryWord major func f o s = .next ((s.wrote o.d (f (s.h.reg o.a.toNat)) 1 0).past 4 o.stall.toNat) :=
  issue_wrote _ _ s o.guard o.neg _ _ _ _ hr hm rfl rfl rfl rfl hg (writeD_ready _ _ _ _ _ hr)
theorem immWord_done (func : Nat) (f : Word → BitVec 12 → Word) (o : IArgs) (s : State) (hr : s.Ready) :
    immWord func f o s = .next ((s.wrote o.d (f (s.h.reg o.a.toNat) o.imm) 1 0).past 4 0) :=
  issue_wrote_free _ _ s _ _ _ _ hr (majorAllowed_scalar _ _ (by exact (by decide : (3:Nat) < 20))) rfl rfl rfl rfl (writeD_ready _ _ _ _ _ hr)
theorem compactWord_done (op : Nat) (f : Word → Word → Word) (o : KArgs) (s : State) (hr : s.Ready) :
    compactWord op f o s = .next ((s.wrote o.a (f (s.h.reg s.h.lastd.toNat) (s.h.reg o.b.toNat)) 1 0).past 2 0) :=
  issue_wrote_free _ _ s _ _ _ _ hr (by cases s.h.role <;> rfl) rfl rfl rfl rfl (writeD_ready _ _ _ _ _ hr)
theorem arithWord_done (major func : Nat) (F : Fmt) (lat : Nat) (op : Rnd → Val → Val → Val → Val × Nat) (acc : Bool)
    (o : RArgs) (s : State) (locked : Bool) (hr : s.Ready) (hm : major < 0x14) (hg : s.guarded o.guard o.neg) :
    arithWord major func F lat op acc o s locked =
      (let v := fun (r : BitVec 5) => val F (s.h.reg r.toNat).toNat
       let y := roundWith F s.h.rm (op s.h.rm (v o.a) (v o.b) (v o.d))
       .next ((s.wrote o.d (word y.1) lat y.2 locked).past 4 o.stall.toNat)) :=
  issue_wrote _ _ s o.guard o.neg _ _ _ _ hr hm rfl rfl rfl rfl hg (writeD_ready _ _ _ _ _ hr locked)
theorem minMaxWord_done (major func : Nat) (F : Fmt) (isMax : Bool) (o : RArgs) (s : State) (hr : s.Ready)
    (hm : major < 0x14) (hg : s.guarded o.guard o.neg) :
    minMaxWord major func F isMax o s =
      (let v := fun (r : BitVec 5) => (s.h.reg r.toNat).toNat % 2 ^ F.width
       let y := minMax F isMax (v o.a) (v o.b)
       .next ((s.wrote o.d (word y.1) 4 y.2).past 4 o.stall.toNat)) :=
  issue_wrote _ _ s o.guard o.neg _ _ _ _ hr hm rfl rfl rfl rfl hg (writeD_ready _ _ _ _ _ hr)
theorem convertWord_done (major func lat : Nat) (op : Rnd → Nat → Nat × Nat) (o : RArgs) (s : State) (locked : Bool)
    (hr : s.Ready) (hm : major < 0x14) (hg : s.guarded o.guard o.neg) :
    convertWord major func lat op o s locked =
      (let y := op s.h.rm (s.h.reg o.a.toNat).toNat
       .next ((s.wrote o.d (word y.1) lat y.2 locked).past 4 o.stall.toNat)) :=
  issue_wrote _ _ s o.guard o.neg _ _ _ _ hr hm rfl rfl rfl rfl hg (writeD_ready _ _ _ _ _ hr locked)

/-! Predicates. -/

theorem predResult_ready (ps : List (BitVec 3 × Bool)) (lat flags : Nat) (h : Hart) (hp : h.pend = []) :
    h.predResult (ps.map fun e => (e.1.toNat, e.2)) lat flags = h.wrotePreds ps lat flags := by
  unfold Hart.predResult Hart.wrotePreds
  have hz (x : BitVec 3) : (x.toNat = 7) = (x = 7) := by simp [BitVec.toNat_eq]
  split
  · simp [List.foldl_map]
  · simp [hp, hz]
theorem writeCompare_ready (o : CArgs) (c : Bool) (lat flags : Nat) (s : State) (hr : s.Ready) :
    writeCompare o c lat flags s = .ok () (s.wrotePreds [(o.d1, c), (o.d2, !c)] lat flags) := by
  have := predResult_ready [(o.d1, c), (o.d2, !c)] lat flags s.h hr.pend
  simp only [List.map_cons, List.map_nil] at this
  simp only [writeCompare, modH_apply, this, State.wrotePreds]
/-- A guarded word whose body writes predicates. -/
theorem issue_preds (i : Info) (body : Act Unit) (s : State) (g : BitVec 3) (neg : Bool) (ps : List (BitVec 3 × Bool))
    (lat flags : Nat) (hr : s.Ready) (hm : i.major < 0x14) (hl : i.level = .user) (ha : i.address = false)
    (hv : i.vector = false) (hi : i.guard = .pred neg g.toNat) (hg : s.guarded g neg)
    (hb : body s = .ok () (s.wrotePreds ps lat flags)) :
    issue i (andNext body) s = .next ((s.wrotePreds ps lat flags).past i.size i.stall) :=
  issue_seq i _ _ _ _ s _ hr (checks_plain _ _ (majorAllowed_scalar _ _ hm) hl ha)
    (by rw [hi]; exact guardHolds_pred s g neg hr hg) (andNext_ok _ _ _ hb) (by simp [hr.pfx]) hv
theorem execCmp_done (o : CArgs) (s : State) (hr : s.Ready) (hg : s.guarded o.guard o.neg) :
    execCmp o s =
      (let c := compare o.cond.toNat (s.h.reg o.a.toNat) (s.h.reg o.b.toNat)
       .next ((s.wrotePreds [(o.d1, c), (o.d2, !c)] 1 0).past 4 0)) :=
  issue_preds _ _ s o.guard o.neg _ _ _ hr (Nat.lt_of_sub_pos (by exact Nat.zero_lt_succ _)) rfl rfl rfl rfl hg (writeCompare_ready _ _ _ _ _ hr)
theorem execCmpImm_done (o : CArgs) (s : State) (hr : s.Ready) (hg : s.guarded o.guard o.neg) :
    execCmpImm o s =
      (let c := compare o.cond.toNat (s.h.reg o.a.toNat) (compareImm o.cond.toNat o.b)
       .next ((s.wrotePreds [(o.d1, c), (o.d2, !c)] 1 0).past 4 0)) :=
  issue_preds _ _ s o.guard o.neg _ _ _ hr (Nat.lt_of_sub_pos (by exact Nat.zero_lt_succ _)) rfl rfl rfl rfl hg (writeCompare_ready _ _ _ _ _ hr)
theorem floatCompareWord_done (form : Nat) (F : Fmt) (o : CArgs) (s : State) (hr : s.Ready) (hg : s.guarded o.guard o.neg) :
    floatCompareWord form F o s =
      (let y := floatCompare o.cond.toNat (val F (s.h.reg o.a.toNat).toNat) (val F (s.h.reg o.b.toNat).toNat)
       .next ((s.wrotePreds [(o.d1, y.1), (o.d2, !y.1)] 4 y.2).past 4 0)) :=
  issue_preds _ _ s o.guard o.neg _ _ _ hr (Nat.lt_of_sub_pos (by exact Nat.zero_lt_succ _)) rfl rfl rfl rfl hg (writeCompare_ready _ _ _ _ _ hr)
theorem plogWord_done (func : Nat) (f : Bool → Bool → Bool) (o : RArgs) (s : State) (hr : s.Ready)
    (hg : s.guarded o.guard o.neg) (hd : o.d.toNat < 8) :
    plogWord func f o s =
      .next ((s.wrotePreds [(o.d.setWidth 3, f (s.h.pred o.a.toNat) (s.h.pred o.b.toNat))] 1 0).past 4 o.stall.toNat) := by
  refine issue_preds _ _ s o.guard o.neg _ _ _ hr (Nat.lt_of_sub_pos (by exact Nat.zero_lt_succ _)) rfl rfl rfl rfl hg ?_
  have := predResult_ready [(o.d.setWidth 3, f (s.h.pred o.a.toNat) (s.h.pred o.b.toNat))] 1 0 s.h hr.pend
  have hn : (o.d.setWidth 3).toNat = o.d.toNat := by simp; omega
  simp only [List.map_cons, List.map_nil, hn] at this
  simp only [act_bind, getH_apply, modH_apply, this, State.wrotePreds]

end Sys2Proof.Machine
end

