-- ==== Sys2Proof/Laws/Access.lean ====
section
/-! SUPPORT. What a hart's access functions do to an ordinary access of a ready machine-mode hart (`State.Plain`). -/

namespace Sys2Proof.Machine

theorem get_apply (s : State) : (get : Act State) s = .ok s s := rfl
theorem set_apply (s s1 : State) : (set s1 : Act PUnit) s = .ok () s1 := rfl
theorem modify_apply (f : State → State) (s : State) : (modify f : Act PUnit) s = .ok () (f s) := rfl
theorem commit_apply (why : Nat) (s : State) : commit why s = .ok () (earlyCommit why s) := rfl

theorem acquiresDone_ready (s : State) (hr : s.Ready) : acquiresDone s = .ok () s := by
  simp [acquiresDone, act_bind, get_apply, hr.ops, hr.strong, act_pure]
theorem weightsRead_loaded (cls : Option Nat) (parts : List (Nat × Nat)) (s : State) (h : s.loaded) :
    weightsRead cls parts s = .ok () s := by
  simp only [weightsRead, act_bind, get_apply]
  by_cases hc : s.h.role = .control
  · simp only [hc, h hc, beq_self_eq_true, if_true, Bool.false_and, Bool.false_eq_true, if_false, act_pure]
  · rw [if_neg (by simpa using hc)]
    rfl
theorem translate_machine (va : Nat) (k : AccKind) (s : State) (hr : s.Ready) (hm : s.h.mode = .machine) (hk : k ≠ .fetch) :
    translate va k s = .ok ⟨va, 0, false, untranslatedType va, (0, 0, 0)⟩ s := by
  simp [translate, translateAs, translateNow, act_bind, getH_apply, acquiresDone_ready s hr, translateKept, hm, act_pure,
    untranslated, hk, Except.map]
theorem cutAt_one (unit fuel va n : Nat) (hn : 0 < n) (hf : va % unit + n ≤ unit) : cutAt unit (fuel + 1) va n = [(va, n)] := by
  have h0 : n ≠ 0 := by omega
  have hk : min n (unit - va % unit) = n := by omega
  simp only [cutAt, h0, if_false, hk, Nat.sub_self]
  cases fuel <;> simp [cutAt]
theorem translateRange_plain (va n : Nat) (k : AccKind) (s : State) (hr : s.Ready) (hp : s.Plain va n) (hv : va < 2 ^ 64)
    (hk : k ≠ .fetch) :
    translateRange va n k s = .ok [(va, n, ⟨va, 0, false, untranslatedType va, (0, 0, 0)⟩)] s := by
  have hc : cutAt 65536 (n / 65536 + 2) va n = [(va, n)] := cutAt_one 65536 _ va n hp.some hp.page
  simp only [translateRange, hc, List.map_cons, List.map_nil, Nat.mod_eq_of_lt hv, translateParts, act_bind,
    translate_machine va k s hr hp.machine hk, act_pure]
theorem plainChecks_plain (va n al : Nat) (s : State) (hp : s.Plain va n) :
    plainChecks va al [(va, n, ⟨va, 0, false, untranslatedType va, (0, 0, 0)⟩)] s = .ok () s := by
  simp [plainChecks, hp.kind, act_pure]
theorem watermark_plain (va n : Nat) (s : State) (hp : s.Plain va n) : watermark va n s = .ok () s := by
  simp [watermark, act_bind, get_apply, hp.free, act_pure]
theorem bindLoads_ready (f : CountedOp → Bool) (s : State) (ho : s.h.ops = []) : bindLoads f s = .ok () s := by
  simp [bindLoads, act_bind, getH_apply, ho, act_pure]
theorem loadCommits_plain (cls : Option Nat) (va n : Nat) (s : State) (hr : s.Ready) (hp : s.Plain va n) :
    loadCommits cls [(va, n, ⟨va, 0, false, untranslatedType va, (0, 0, 0)⟩)] s = .ok () s := by
  simp [loadCommits, weightsRead_loaded _ _ s hp.loaded, act_bind, getH_apply, hp.kind, hp.empty, bindLoads_ready _ s hr.ops, act_pure]
theorem accessOf_machine (s : State) (va : Nat) (t : Nat) (e : Nat × Nat × Nat) (hm : s.h.mode = .machine) :
    accessOf s va ⟨va, 0, false, t, e⟩ = State.access va := by simp [accessOf, hm, State.access]
theorem overlay_nil (bs : List Byte) (pa : Nat) : (bs.zipIdx.map fun (b, i) => overlay [] (pa + i) b) = bs := by
  simp only [overlay, List.foldl_nil]
  exact List.zipIdx_map_fst 0 bs
theorem readParts_plain (va n : Nat) (s s1 : State) (bs : List Byte) (hr : s.Ready) (hp : s.Plain va n)
    (hb : physRead s.ctx va n s = .ok (s1, bs, none)) :
    readParts [(State.access va, n)] s = .ok (bs, none) s1 := by
  have hn : ¬(List.map (fun _ => (none : Option Byte)) (List.range n)).all Option.isSome = true := by
    have := hp.some
    simp; omega
  have he : (List.range n).map (fun i => buffered s.h.strip.buf ((State.access va).pa + i)) =
      (List.range n).map fun _ => (none : Option Byte) := by simp [hp.empty, buffered]
  simp only [readParts, act_bind, get_apply, he]
  rw [if_neg hn]
  have hm (c : Ctx) (hc : c.moved = []) : ({ c with moved := s.h.moved } : Ctx) = c := by
    rw [hr.moved, ← hc]
  rw [hm _ rfl]
  have hb' : physRead (ctxOf s.cur (if (State.access va).user = true then Mode.user else if (State.access va).entry = none
      then .machine else .supervisor) (State.access va).key (State.access va).z) (State.access va).pa n s =
      .ok (s1, bs, none) := hb
  simp only [hb', act_bind, set_apply, act_pure, hp.empty, overlay_nil]
  simp
/-- An ordinary load's bytes are what the read request is answered. -/
theorem loadBytes_plain (cls : Option Nat) (va n al : Nat) (s s1 : State) (bs : List Byte) (hr : s.Ready)
    (hp : s.Plain va n) (hv : va < 2 ^ 64) (hb : physRead s.ctx va n s = .ok (s1, bs, none)) :
    loadBytes cls va n al s = .ok bs s1 := by
  simp only [loadBytes, act_bind, translateRange_plain va n .read s hr hp hv (by decide), plainChecks_plain va n al s hp,
    watermark_plain va n s hp, loadCommits_plain cls va n s hr hp, get_apply, List.map_cons, List.map_nil,
    accessOf_machine s va _ _ hp.machine, readParts_plain va n s s1 bs hr hp hb, act_pure]

theorem bytesOf_length (n k : Nat) : (bytesOf n k).length = n := by
  induction n generalizing k with
  | zero => rfl
  | succ n ih => simp [bytesOf, ih]
/-- R374: the strip with one more store, the first. -/
def Hart.buffers (h : Hart) (a : Access) (bs : List Byte) (cls : Option Nat) : Hart :=
  { h with strip := { h.strip with
    buf := [⟨h.strip.nextSeq, a, bs, cls, [], h.words⟩], nextSeq := h.strip.nextSeq + 1
    firstStore := some (h.strip.firstStore.getD h.clock) } }
theorem bufferStore_empty (cls : Option Nat) (a : Access) (bs : List Byte) (s : State) (he : s.h.strip.buf = [])
    (hs : (sectors a.pa bs.length).length ≤ 1024) :
    bufferStore cls a bs [] s = .ok s.h.strip.nextSeq { s with h := s.h.buffers a bs cls } := by
  have hl (l : List Nat) (f : Nat → Bool) (hk : l.length ≤ 1024) : ¬1024 < ([] : List Nat).length + (l.filter f).length := by
    have := List.length_filter_le f l
    simp; omega
  simp only [bufferStore, act_bind, getH_apply, he, List.flatMap_nil, List.dedup_nil]
  rw [if_neg (hl _ _ (by simpa using hs))]
  simp only [act_pure, act_bind, getH_apply, modH_apply, he, List.nil_append, Hart.buffers]
theorem sectors_one (va n : Nat) (hn : 0 < n) (hf : va % 32 + n ≤ 32) : sectors va n = [(va, n)] :=
  cutAt_one 32 _ va n hn hf
theorem cutAt_length (unit fuel a n : Nat) : (cutAt unit fuel a n).length ≤ fuel := by
  induction fuel generalizing a n with
  | zero => simp [cutAt]
  | succ k ih =>
    simp only [cutAt]
    split
    · simp
    · simpa using ih _ _
/-- An ordinary store enters the strip buffer. -/
theorem storeBytes_plain (cls : Option Nat) (va al : Nat) (bs : List Byte) (s : State) (hr : s.Ready)
    (hp : s.Plain va bs.length) (hv : va < 2 ^ 64) (hn : bs.length ≤ 4096) :
    storeBytes cls va al bs s = .ok (some s.h.strip.nextSeq) { s with h := s.h.buffers (State.access va) bs cls } := by
  have hs : (sectors va bs.length).length ≤ 1024 := Nat.le_trans (cutAt_length _ _ _ _) (by omega)
  have hb := bufferStore_empty cls (State.access va) bs s hp.empty hs
  have hk : (untranslatedType va == 2 || untranslatedType va == 3) = false := by simp [hp.kind]
  simp only [storeBytes, act_bind, translateRange_plain va _ .write s hr hp hv (by decide), plainChecks_plain va _ al s hp,
    watermark_plain va _ s hp, storeParts, get_apply, accessOf_machine s va _ _ hp.machine, hk,
    weightsRead_loaded _ _ s hp.loaded, bindLoads_ready _ s hr.ops, List.take_length, List.take_nil,
    hb, act_pure, Option.none_or, Bool.false_eq_true, if_false]

end Sys2Proof.Machine
end

