-- ==== Sys2Proof/Laws/Dispatch.lean ====
section
/-! SUPPORT. Which meaning each arm of `exec` calls. -/

namespace Sys2Proof.Machine

theorem exec_reset (o : ResetArgs) (s : State) : exec (.reset o) s = execReset o s := rfl
theorem exec_memoryReadRequest (o : ReadArgs) (s : State) : exec (.memoryReadRequest o) s = execMemoryReadRequest o s := rfl
theorem exec_memoryWriteRequest (o : WriteArgs) (s : State) : exec (.memoryWriteRequest o) s = execMemoryWriteRequest o s := rfl
theorem exec_lineFill (o : FillArgs) (s : State) : exec (.lineFill o) s = execLineFill o s := rfl
theorem exec_lineWriteback (o : WritebackArgs) (s : State) : exec (.lineWriteback o) s = execLineWriteback o s := rfl
theorem exec_parityDelta (o : LineArgs) (s : State) : exec (.parityDelta o) s = execParityDelta o s := rfl
theorem exec_writebackComplete (o : LineArgs) (s : State) : exec (.writebackComplete o) s = execWritebackComplete o s := rfl
theorem exec_reconstructionHold (o : HoldArgs) (s : State) : exec (.reconstructionHold o) s = execReconstructionHold o s := rfl
theorem exec_stackLost (o : StackArgs) (s : State) : exec (.stackLost o) s = execStackLost o s := rfl
theorem exec_rebuildStripe (s : State) : exec .rebuildStripe s = execRebuildStripe s := rfl
theorem exec_tupleRequestStep (o : SliceArgs) (s : State) : exec (.tupleRequestStep o) s = execTupleRequestStep o s := rfl
theorem exec_tupleWithdraw (o : WithdrawArgs) (s : State) : exec (.tupleWithdraw o) s = execTupleWithdraw o s := rfl
theorem exec_tupleReply (o : OpArgs) (s : State) : exec (.tupleReply o) s = execTupleReply o s := rfl
theorem exec_countedOpComplete (o : OpArgs) (s : State) : exec (.countedOpComplete o) s = execCountedOpComplete o s := rfl
theorem exec_pinAdmit (o : CoreArgs) (s : State) : exec (.pinAdmit o) s = execPinAdmit o s := rfl
theorem exec_watermarkRelease (s : State) : exec .watermarkRelease s = execWatermarkRelease s := rfl
theorem exec_engineStreamStart (o : StreamArgs) (s : State) : exec (.engineStreamStart o) s = execEngineStreamStart o s := rfl
theorem exec_landing (o : LandingArgs) (s : State) : exec (.landing o) s = execLanding o s := rfl
theorem exec_streamFail (o : StreamArgs) (s : State) : exec (.streamFail o) s = execStreamFail o s := rfl
theorem exec_userInterruptEntry (s : State) : exec .userInterruptEntry s = execUserInterruptEntry s := rfl
theorem exec_userFrameFaultEntry (o : FrameFaultArgs) (s : State) : exec (.userFrameFaultEntry o) s = execUserFrameFaultEntry o s := rfl
theorem exec_trapEntry (o : TrapArgs) (s : State) : exec (.trapEntry o) s = execTrapEntry o s := rfl
theorem exec_pendingErrorTrap (s : State) : exec .pendingErrorTrap s = execPendingErrorTrap s := rfl
theorem exec_wakeInterrupt (s : State) : exec .wakeInterrupt s = execWakeInterrupt s := rfl
theorem exec_mgmtInterrupt (s : State) : exec .mgmtInterrupt s = execMgmtInterrupt s := rfl
theorem exec_preemptionPoint (s : State) : exec .preemptionPoint s = execPreemptionPoint s := rfl
theorem exec_stripAgeExpiry (s : State) : exec .stripAgeExpiry s = execStripAgeExpiry s := rfl
theorem exec_stripRewind (o : RewindArgs) (s : State) : exec (.stripRewind o) s = execStripRewind o s := rfl
theorem exec_idleTimeout (s : State) : exec .idleTimeout s = execIdleTimeout s := rfl
theorem exec_dispatchPacket (s : State) : exec .dispatchPacket s = execDispatchPacket s := rfl
theorem exec_dependenceRead (o : QueueArgs) (s : State) : exec (.dependenceRead o) s = execDependenceRead o s := rfl
theorem exec_placeUnit (o : PlaceArgs) (s : State) : exec (.placeUnit o) s = execPlaceUnit o s := rfl
theorem exec_launchDoneAdd (o : LaunchArgs) (s : State) : exec (.launchDoneAdd o) s = execLaunchDoneAdd o s := rfl
theorem exec_qtail (o : QueueWriteArgs) (s : State) : exec (.qtail o) s = execQtail o s := rfl
theorem exec_qctl (o : QueueWriteArgs) (s : State) : exec (.qctl o) s = execQctl o s := rfl
theorem exec_ownwin (o : OwnwinArgs) (s : State) : exec (.ownwin o) s = execOwnwin o s := rfl
theorem exec_mbdone (o : MbdoneArgs) (s : State) : exec (.mbdone o) s = execMbdone o s := rfl
theorem exec_mbAttest (o : MailboxArgs) (s : State) : exec (.mbAttest o) s = execMbAttest o s := rfl
theorem exec_mbKeyLoad (o : MailboxArgs) (s : State) : exec (.mbKeyLoad o) s = execMbKeyLoad o s := rfl
theorem exec_mbAccessEntry (o : MailboxArgs) (s : State) : exec (.mbAccessEntry o) s = execMbAccessEntry o s := rfl
theorem exec_mbErrorCounts (o : MailboxArgs) (s : State) : exec (.mbErrorCounts o) s = execMbErrorCounts o s := rfl
theorem exec_mbFirmwareStage (o : MailboxArgs) (s : State) : exec (.mbFirmwareStage o) s = execMbFirmwareStage o s := rfl
theorem exec_mbPowerCap (o : MailboxArgs) (s : State) : exec (.mbPowerCap o) s = execMbPowerCap o s := rfl
theorem exec_mbCertChain (o : MailboxArgs) (s : State) : exec (.mbCertChain o) s = execMbCertChain o s := rfl
theorem exec_mbUnknownCommand (o : MailboxArgs) (s : State) : exec (.mbUnknownCommand o) s = execMbUnknownCommand o s := rfl
theorem exec_registerWrite (o : WriteArgs) (s : State) : exec (.registerWrite o) s = execRegisterWrite o s := rfl
theorem exec_frctl (o : ValueArgs) (s : State) : exec (.frctl o) s = execFrctl o s := rfl
theorem exec_bqpush (o : BqpushArgs) (s : State) : exec (.bqpush o) s = execBqpush o s := rfl
theorem exec_efcclr (s : State) : exec .efcclr s = execEfcclr s := rfl
theorem exec_mseqRestart (o : ClusterArgs) (s : State) : exec (.mseqRestart o) s = execMseqRestart o s := rfl
theorem exec_mseqAbandon (o : ClusterArgs) (s : State) : exec (.mseqAbandon o) s = execMseqAbandon o s := rfl
theorem exec_weightLoad (o : ClusterArgs) (s : State) : exec (.weightLoad o) s = execWeightLoad o s := rfl
theorem exec_seqBLoad (o : ClusterArgs) (s : State) : exec (.seqBLoad o) s = execSeqBLoad o s := rfl
theorem exec_seqARow (o : ClusterArgs) (s : State) : exec (.seqARow o) s = execSeqARow o s := rfl
theorem exec_drainGroup (o : ClusterArgs) (s : State) : exec (.drainGroup o) s = execDrainGroup o s := rfl
theorem exec_seqZeroRows (o : ClusterArgs) (s : State) : exec (.seqZeroRows o) s = execSeqZeroRows o s := rfl
theorem exec_seqStop (o : ClusterArgs) (s : State) : exec (.seqStop o) s = execSeqStop o s := rfl
theorem exec_ulianeDataFlit (o : FlitArgs) (s : State) : exec (.ulianeDataFlit o) s = execUlianeDataFlit o s := rfl
theorem exec_ulianeIdleFlit (o : FlitArgs) (s : State) : exec (.ulianeIdleFlit o) s = execUlianeIdleFlit o s := rfl
theorem exec_ulianeAckFlit (o : FlitArgs) (s : State) : exec (.ulianeAckFlit o) s = execUlianeAckFlit o s := rfl
theorem exec_ulianeRetryFlit (o : FlitArgs) (s : State) : exec (.ulianeRetryFlit o) s = execUlianeRetryFlit o s := rfl
theorem exec_linkDown (o : LinkArgs) (s : State) : exec (.linkDown o) s = execLinkDown o s := rfl
theorem exec_cxlSnoop (o : LineArgs) (s : State) : exec (.cxlSnoop o) s = execCxlSnoop o s := rfl
theorem exec_correctedError (o : ErrorArgs) (s : State) : exec (.correctedError o) s = execCorrectedError o s := rfl
theorem exec_powerThrottle (o : ThrottleArgs) (s : State) : exec (.powerThrottle o) s = execPowerThrottle o s := rfl
theorem exec_waitgeRecheck (s : State) : exec .waitgeRecheck s = execWaitgeRecheck s := rfl
theorem exec_add (o : RArgs) (s : State) : exec (.add o) s = execAdd o s := rfl
theorem exec_sub (o : RArgs) (s : State) : exec (.sub o) s = execSub o s := rfl
theorem exec_and (o : RArgs) (s : State) : exec (.and o) s = execAnd o s := rfl
theorem exec_or (o : RArgs) (s : State) : exec (.or o) s = execOr o s := rfl
theorem exec_xor (o : RArgs) (s : State) : exec (.xor o) s = execXor o s := rfl
theorem exec_andn (o : RArgs) (s : State) : exec (.andn o) s = execAndn o s := rfl
theorem exec_shl (o : RArgs) (s : State) : exec (.shl o) s = execShl o s := rfl
theorem exec_shr (o : RArgs) (s : State) : exec (.shr o) s = execShr o s := rfl
theorem exec_sra (o : RArgs) (s : State) : exec (.sra o) s = execSra o s := rfl
theorem exec_rotl (o : RArgs) (s : State) : exec (.rotl o) s = execRotl o s := rfl
theorem exec_min (o : RArgs) (s : State) : exec (.min o) s = execMin o s := rfl
theorem exec_max (o : RArgs) (s : State) : exec (.max o) s = execMax o s := rfl
theorem exec_minn (o : RArgs) (s : State) : exec (.minn o) s = execMinn o s := rfl
theorem exec_maxn (o : RArgs) (s : State) : exec (.maxn o) s = execMaxn o s := rfl
theorem exec_mul (o : RArgs) (s : State) : exec (.mul o) s = execMul o s := rfl
theorem exec_mulh (o : RArgs) (s : State) : exec (.mulh o) s = execMulh o s := rfl
theorem exec_mulhn (o : RArgs) (s : State) : exec (.mulhn o) s = execMulhn o s := rfl
theorem exec_div (o : RArgs) (s : State) : exec (.div o) s = execDiv o s := rfl
theorem exec_divn (o : RArgs) (s : State) : exec (.divn o) s = execDivn o s := rfl
theorem exec_rem (o : RArgs) (s : State) : exec (.rem o) s = execRem o s := rfl
theorem exec_remn (o : RArgs) (s : State) : exec (.remn o) s = execRemn o s := rfl
theorem exec_clz (o : RArgs) (s : State) : exec (.clz o) s = execClz o s := rfl
theorem exec_ctz (o : RArgs) (s : State) : exec (.ctz o) s = execCtz o s := rfl
theorem exec_popc (o : RArgs) (s : State) : exec (.popc o) s = execPopc o s := rfl
theorem exec_sextb (o : RArgs) (s : State) : exec (.sextb o) s = execSextb o s := rfl
theorem exec_sexth (o : RArgs) (s : State) : exec (.sexth o) s = execSexth o s := rfl
theorem exec_sextw (o : RArgs) (s : State) : exec (.sextw o) s = execSextw o s := rfl
theorem exec_zextb (o : RArgs) (s : State) : exec (.zextb o) s = execZextb o s := rfl
theorem exec_zexth (o : RArgs) (s : State) : exec (.zexth o) s = execZexth o s := rfl
theorem exec_zextw (o : RArgs) (s : State) : exec (.zextw o) s = execZextw o s := rfl
theorem exec_addi (o : IArgs) (s : State) : exec (.addi o) s = execAddi o s := rfl
theorem exec_andi (o : IArgs) (s : State) : exec (.andi o) s = execAndi o s := rfl
theorem exec_ori (o : IArgs) (s : State) : exec (.ori o) s = execOri o s := rfl
theorem exec_xori (o : IArgs) (s : State) : exec (.xori o) s = execXori o s := rfl
theorem exec_shli (o : IArgs) (s : State) : exec (.shli o) s = execShli o s := rfl
theorem exec_shri (o : IArgs) (s : State) : exec (.shri o) s = execShri o s := rfl
theorem exec_srai (o : IArgs) (s : State) : exec (.srai o) s = execSrai o s := rfl
theorem exec_lih (o : UArgs) (s : State) : exec (.lih o) s = execLih o s := rfl
theorem exec_addpc (o : UArgs) (s : State) : exec (.addpc o) s = execAddpc o s := rfl
theorem exec_cmp (o : CArgs) (s : State) : exec (.cmp o) s = execCmp o s := rfl
theorem exec_cmpImm (o : CArgs) (s : State) : exec (.cmpImm o) s = execCmpImm o s := rfl
theorem exec_fcmp (o : CArgs) (s : State) : exec (.fcmp o) s = execFcmp o s := rfl
theorem exec_fcmpD (o : CArgs) (s : State) : exec (.fcmpD o) s = execFcmpD o s := rfl
theorem exec_pand (o : RArgs) (s : State) : exec (.pand o) s = execPand o s := rfl
theorem exec_por (o : RArgs) (s : State) : exec (.por o) s = execPor o s := rfl
theorem exec_pxor (o : RArgs) (s : State) : exec (.pxor o) s = execPxor o s := rfl
theorem exec_pandn (o : RArgs) (s : State) : exec (.pandn o) s = execPandn o s := rfl
theorem exec_pmov (o : RArgs) (s : State) : exec (.pmov o) s = execPmov o s := rfl
theorem exec_pnot (o : RArgs) (s : State) : exec (.pnot o) s = execPnot o s := rfl
theorem exec_b (o : BArgs) (s : State) : exec (.b o) s = execB o s := rfl
theorem exec_bp (o : JArgs) (s : State) : exec (.bp o) s = execBp o s := rfl
theorem exec_call (o : JArgs) (s : State) : exec (.call o) s = execCall o s := rfl
theorem exec_callr (o : IArgs) (s : State) : exec (.callr o) s = execCallr o s := rfl
theorem exec_bqNz (o : BqArgs) (s : State) : exec (.bqNz o) s = execBqNz o s := rfl
theorem exec_bqZ (o : BqArgs) (s : State) : exec (.bqZ o) s = execBqZ o s := rfl
theorem exec_ldb (o : LArgs) (s : State) : exec (.ldb o) s = execLdb o s := rfl
theorem exec_ldh (o : LArgs) (s : State) : exec (.ldh o) s = execLdh o s := rfl
theorem exec_ldw (o : LArgs) (s : State) : exec (.ldw o) s = execLdw o s := rfl
theorem exec_ldd (o : LArgs) (s : State) : exec (.ldd o) s = execLdd o s := rfl
theorem exec_ldbn (o : LArgs) (s : State) : exec (.ldbn o) s = execLdbn o s := rfl
theorem exec_ldhn (o : LArgs) (s : State) : exec (.ldhn o) s = execLdhn o s := rfl
theorem exec_ldwn (o : LArgs) (s : State) : exec (.ldwn o) s = execLdwn o s := rfl
theorem exec_stb (o : LArgs) (s : State) : exec (.stb o) s = execStb o s := rfl
theorem exec_sth (o : LArgs) (s : State) : exec (.sth o) s = execSth o s := rfl
theorem exec_stw (o : LArgs) (s : State) : exec (.stw o) s = execStw o s := rfl
theorem exec_std (o : LArgs) (s : State) : exec (.std o) s = execStd o s := rfl
theorem exec_ldacq (o : AArgs) (s : State) : exec (.ldacq o) s = execLdacq o s := rfl
theorem exec_strel (o : AArgs) (s : State) : exec (.strel o) s = execStrel o s := rfl
theorem exec_ldl (o : AArgs) (s : State) : exec (.ldl o) s = execLdl o s := rfl
theorem exec_stc (o : AArgs) (s : State) : exec (.stc o) s = execStc o s := rfl
theorem exec_fadd (o : RArgs) (s : State) : exec (.fadd o) s = execFadd o s := rfl
theorem exec_fsub (o : RArgs) (s : State) : exec (.fsub o) s = execFsub o s := rfl
theorem exec_fmul (o : RArgs) (s : State) : exec (.fmul o) s = execFmul o s := rfl
theorem exec_fdiv (o : RArgs) (s : State) : exec (.fdiv o) s = execFdiv o s := rfl
theorem exec_fsqrt (o : RArgs) (s : State) : exec (.fsqrt o) s = execFsqrt o s := rfl
theorem exec_fmin (o : RArgs) (s : State) : exec (.fmin o) s = execFmin o s := rfl
theorem exec_fmax (o : RArgs) (s : State) : exec (.fmax o) s = execFmax o s := rfl
theorem exec_fma (o : RArgs) (s : State) : exec (.fma o) s = execFma o s := rfl
theorem exec_fnma (o : RArgs) (s : State) : exec (.fnma o) s = execFnma o s := rfl
theorem exec_fcvti (o : RArgs) (s : State) : exec (.fcvti o) s = execFcvti o s := rfl
theorem exec_fcvtf (o : RArgs) (s : State) : exec (.fcvtf o) s = execFcvtf o s := rfl
theorem exec_fcvtp (o : RArgs) (s : State) : exec (.fcvtp o) s = execFcvtp o s := rfl
theorem exec_faddD (o : RArgs) (s : State) : exec (.faddD o) s = execFaddD o s := rfl
theorem exec_fsubD (o : RArgs) (s : State) : exec (.fsubD o) s = execFsubD o s := rfl
theorem exec_fmulD (o : RArgs) (s : State) : exec (.fmulD o) s = execFmulD o s := rfl
theorem exec_fdivD (o : RArgs) (s : State) : exec (.fdivD o) s = execFdivD o s := rfl
theorem exec_fsqrtD (o : RArgs) (s : State) : exec (.fsqrtD o) s = execFsqrtD o s := rfl
theorem exec_fminD (o : RArgs) (s : State) : exec (.fminD o) s = execFminD o s := rfl
theorem exec_fmaxD (o : RArgs) (s : State) : exec (.fmaxD o) s = execFmaxD o s := rfl
theorem exec_fmaD (o : RArgs) (s : State) : exec (.fmaD o) s = execFmaD o s := rfl
theorem exec_fnmaD (o : RArgs) (s : State) : exec (.fnmaD o) s = execFnmaD o s := rfl
theorem exec_fcvtiD (o : RArgs) (s : State) : exec (.fcvtiD o) s = execFcvtiD o s := rfl
theorem exec_fcvtfD (o : RArgs) (s : State) : exec (.fcvtfD o) s = execFcvtfD o s := rfl
theorem exec_fcvtpD (o : RArgs) (s : State) : exec (.fcvtpD o) s = execFcvtpD o s := rfl
theorem exec_csrr (o : IArgs) (s : State) : exec (.csrr o) s = execCsrr o s := rfl
theorem exec_csrw (o : IArgs) (s : State) : exec (.csrw o) s = execCsrw o s := rfl
theorem exec_csrx (o : IArgs) (s : State) : exec (.csrx o) s = execCsrx o s := rfl
theorem exec_svc (o : RArgs) (s : State) : exec (.svc o) s = execSvc o s := rfl
theorem exec_trap (o : RArgs) (s : State) : exec (.trap o) s = execTrap o s := rfl
theorem exec_tret (o : RArgs) (s : State) : exec (.tret o) s = execTret o s := rfl
theorem exec_uiret (o : RArgs) (s : State) : exec (.uiret o) s = execUiret o s := rfl
theorem exec_idle (o : RArgs) (s : State) : exec (.idle o) s = execIdle o s := rfl
theorem exec_nop (o : RArgs) (s : State) : exec (.nop o) s = execNop o s := rfl
theorem exec_brk (o : RArgs) (s : State) : exec (.brk o) s = execBrk o s := rfl
theorem exec_exit (o : RArgs) (s : State) : exec (.exit o) s = execExit o s := rfl
theorem exec_vadd (o : VArgs) (s : State) : exec (.vadd o) s = execVadd o s := rfl
theorem exec_vsub (o : VArgs) (s : State) : exec (.vsub o) s = execVsub o s := rfl
theorem exec_vmul (o : VArgs) (s : State) : exec (.vmul o) s = execVmul o s := rfl
theorem exec_vmulh (o : VArgs) (s : State) : exec (.vmulh o) s = execVmulh o s := rfl
theorem exec_vmulhn (o : VArgs) (s : State) : exec (.vmulhn o) s = execVmulhn o s := rfl
theorem exec_vmin (o : VArgs) (s : State) : exec (.vmin o) s = execVmin o s := rfl
theorem exec_vmax (o : VArgs) (s : State) : exec (.vmax o) s = execVmax o s := rfl
theorem exec_vminn (o : VArgs) (s : State) : exec (.vminn o) s = execVminn o s := rfl
theorem exec_vmaxn (o : VArgs) (s : State) : exec (.vmaxn o) s = execVmaxn o s := rfl
theorem exec_vand (o : VArgs) (s : State) : exec (.vand o) s = execVand o s := rfl
theorem exec_vor (o : VArgs) (s : State) : exec (.vor o) s = execVor o s := rfl
theorem exec_vxor (o : VArgs) (s : State) : exec (.vxor o) s = execVxor o s := rfl
theorem exec_vandn (o : VArgs) (s : State) : exec (.vandn o) s = execVandn o s := rfl
theorem exec_vshl (o : VArgs) (s : State) : exec (.vshl o) s = execVshl o s := rfl
theorem exec_vshr (o : VArgs) (s : State) : exec (.vshr o) s = execVshr o s := rfl
theorem exec_vsra (o : VArgs) (s : State) : exec (.vsra o) s = execVsra o s := rfl
theorem exec_vsadd (o : VArgs) (s : State) : exec (.vsadd o) s = execVsadd o s := rfl
theorem exec_vssub (o : VArgs) (s : State) : exec (.vssub o) s = execVssub o s := rfl
theorem exec_vsaddn (o : VArgs) (s : State) : exec (.vsaddn o) s = execVsaddn o s := rfl
theorem exec_vssubn (o : VArgs) (s : State) : exec (.vssubn o) s = execVssubn o s := rfl
theorem exec_vabsd (o : VArgs) (s : State) : exec (.vabsd o) s = execVabsd o s := rfl
theorem exec_vclz (o : VArgs) (s : State) : exec (.vclz o) s = execVclz o s := rfl
theorem exec_vpopc (o : VArgs) (s : State) : exec (.vpopc o) s = execVpopc o s := rfl
theorem exec_vneg (o : VArgs) (s : State) : exec (.vneg o) s = execVneg o s := rfl
theorem exec_vfadd (o : VArgs) (s : State) : exec (.vfadd o) s = execVfadd o s := rfl
theorem exec_vfsub (o : VArgs) (s : State) : exec (.vfsub o) s = execVfsub o s := rfl
theorem exec_vfmul (o : VArgs) (s : State) : exec (.vfmul o) s = execVfmul o s := rfl
theorem exec_vfma (o : VArgs) (s : State) : exec (.vfma o) s = execVfma o s := rfl
theorem exec_vfms (o : VArgs) (s : State) : exec (.vfms o) s = execVfms o s := rfl
theorem exec_vfnma (o : VArgs) (s : State) : exec (.vfnma o) s = execVfnma o s := rfl
theorem exec_vfdiv (o : VArgs) (s : State) : exec (.vfdiv o) s = execVfdiv o s := rfl
theorem exec_vfsqrt (o : VArgs) (s : State) : exec (.vfsqrt o) s = execVfsqrt o s := rfl
theorem exec_vfmin (o : VArgs) (s : State) : exec (.vfmin o) s = execVfmin o s := rfl
theorem exec_vfmax (o : VArgs) (s : State) : exec (.vfmax o) s = execVfmax o s := rfl
theorem exec_vfabs (o : VArgs) (s : State) : exec (.vfabs o) s = execVfabs o s := rfl
theorem exec_vfneg (o : VArgs) (s : State) : exec (.vfneg o) s = execVfneg o s := rfl
theorem exec_vfclass (o : VArgs) (s : State) : exec (.vfclass o) s = execVfclass o s := rfl
theorem exec_vcmp (o : VCmpArgs) (s : State) : exec (.vcmp o) s = execVcmp o s := rfl
theorem exec_vfcmp (o : VCmpArgs) (s : State) : exec (.vfcmp o) s = execVfcmp o s := rfl
theorem exec_kand (o : VArgs) (s : State) : exec (.kand o) s = execKand o s := rfl
theorem exec_kor (o : VArgs) (s : State) : exec (.kor o) s = execKor o s := rfl
theorem exec_kxor (o : VArgs) (s : State) : exec (.kxor o) s = execKxor o s := rfl
theorem exec_kandn (o : VArgs) (s : State) : exec (.kandn o) s = execKandn o s := rfl
theorem exec_knot (o : VArgs) (s : State) : exec (.knot o) s = execKnot o s := rfl
theorem exec_kmov (o : VArgs) (s : State) : exec (.kmov o) s = execKmov o s := rfl
theorem exec_kpopc (o : VArgs) (s : State) : exec (.kpopc o) s = execKpopc o s := rfl
theorem exec_kfirst (o : VArgs) (s : State) : exec (.kfirst o) s = execKfirst o s := rfl
theorem exec_vmv (o : VArgs) (s : State) : exec (.vmv o) s = execVmv o s := rfl
theorem exec_vmvX (o : VArgs) (s : State) : exec (.vmvX o) s = execVmvX o s := rfl
theorem exec_vbcast (o : VArgs) (s : State) : exec (.vbcast o) s = execVbcast o s := rfl
theorem exec_vsel (o : VArgs) (s : State) : exec (.vsel o) s = execVsel o s := rfl
theorem exec_vslideup (o : VArgs) (s : State) : exec (.vslideup o) s = execVslideup o s := rfl
theorem exec_vslidedn (o : VArgs) (s : State) : exec (.vslidedn o) s = execVslidedn o s := rfl
theorem exec_vgathr (o : VArgs) (s : State) : exec (.vgathr o) s = execVgathr o s := rfl
theorem exec_vcompr (o : VArgs) (s : State) : exec (.vcompr o) s = execVcompr o s := rfl
theorem exec_vexpnd (o : VArgs) (s : State) : exec (.vexpnd o) s = execVexpnd o s := rfl
theorem exec_viota (o : VArgs) (s : State) : exec (.viota o) s = execViota o s := rfl
theorem exec_vexts (o : VArgs) (s : State) : exec (.vexts o) s = execVexts o s := rfl
theorem exec_vinss (o : VArgs) (s : State) : exec (.vinss o) s = execVinss o s := rfl
theorem exec_vrowmv (o : VArgs) (s : State) : exec (.vrowmv o) s = execVrowmv o s := rfl
theorem exec_vtrn (o : VArgs) (s : State) : exec (.vtrn o) s = execVtrn o s := rfl
theorem exec_vcvt (o : VArgs) (s : State) : exec (.vcvt o) s = execVcvt o s := rfl
theorem exec_vcbenc (o : VArgs) (s : State) : exec (.vcbenc o) s = execVcbenc o s := rfl
theorem exec_vcbdec (o : VArgs) (s : State) : exec (.vcbdec o) s = execVcbdec o s := rfl
theorem exec_vpack (o : VArgs) (s : State) : exec (.vpack o) s = execVpack o s := rfl
theorem exec_vunpk (o : VArgs) (s : State) : exec (.vunpk o) s = execVunpk o s := rfl
theorem exec_vredo (o : VArgs) (s : State) : exec (.vredo o) s = execVredo o s := rfl
theorem exec_vredt (o : VArgs) (s : State) : exec (.vredt o) s = execVredt o s := rfl
theorem exec_vredmax (o : VArgs) (s : State) : exec (.vredmax o) s = execVredmax o s := rfl
theorem exec_vredmin (o : VArgs) (s : State) : exec (.vredmin o) s = execVredmin o s := rfl
theorem exec_vredand (o : VArgs) (s : State) : exec (.vredand o) s = execVredand o s := rfl
theorem exec_vredor (o : VArgs) (s : State) : exec (.vredor o) s = execVredor o s := rfl
theorem exec_vdoto (o : VArgs) (s : State) : exec (.vdoto o) s = execVdoto o s := rfl
theorem exec_vdott (o : VArgs) (s : State) : exec (.vdott o) s = execVdott o s := rfl
theorem exec_vexp2 (o : VArgs) (s : State) : exec (.vexp2 o) s = execVexp2 o s := rfl
theorem exec_vlog2 (o : VArgs) (s : State) : exec (.vlog2 o) s = execVlog2 o s := rfl
theorem exec_vrcp (o : VArgs) (s : State) : exec (.vrcp o) s = execVrcp o s := rfl
theorem exec_vrsq (o : VArgs) (s : State) : exec (.vrsq o) s = execVrsq o s := rfl
theorem exec_vsin (o : VArgs) (s : State) : exec (.vsin o) s = execVsin o s := rfl
theorem exec_vcos (o : VArgs) (s : State) : exec (.vcos o) s = execVcos o s := rfl
theorem exec_vtanh (o : VArgs) (s : State) : exec (.vtanh o) s = execVtanh o s := rfl
theorem exec_vsigm (o : VArgs) (s : State) : exec (.vsigm o) s = execVsigm o s := rfl
theorem exec_vmrg (o : VArgs) (s : State) : exec (.vmrg o) s = execVmrg o s := rfl
theorem exec_vmrgi (o : VArgs) (s : State) : exec (.vmrgi o) s = execVmrgi o s := rfl
theorem exec_vbsrch (o : VArgs) (s : State) : exec (.vbsrch o) s = execVbsrch o s := rfl
theorem exec_vconf (o : RArgs) (s : State) : exec (.vconf o) s = execVconf o s := rfl
theorem exec_vsetl (o : RArgs) (s : State) : exec (.vsetl o) s = execVsetl o s := rfl
theorem exec_vclaim (o : RArgs) (s : State) : exec (.vclaim o) s = execVclaim o s := rfl
theorem exec_vclaimp (o : RArgs) (s : State) : exec (.vclaimp o) s = execVclaimp o s := rfl
theorem exec_vsett (o : RArgs) (s : State) : exec (.vsett o) s = execVsett o s := rfl
theorem exec_vcbld (o : RArgs) (s : State) : exec (.vcbld o) s = execVcbld o s := rfl
theorem exec_wthset (o : RArgs) (s : State) : exec (.wthset o) s = execWthset o s := rfl
theorem exec_vld (o : MArgs) (s : State) : exec (.vld o) s = execVld o s := rfl
theorem exec_vst (o : MArgs) (s : State) : exec (.vst o) s = execVst o s := rfl
theorem exec_vstn (o : MArgs) (s : State) : exec (.vstn o) s = execVstn o s := rfl
theorem exec_vldcl (o : MArgs) (s : State) : exec (.vldcl o) s = execVldcl o s := rfl
theorem exec_vstcl (o : MArgs) (s : State) : exec (.vstcl o) s = execVstcl o s := rfl
theorem exec_vgll (o : MArgs) (s : State) : exec (.vgll o) s = execVgll o s := rfl
theorem exec_vscc (o : MArgs) (s : State) : exec (.vscc o) s = execVscc o s := rfl
theorem exec_vlda (o : MArgs) (s : State) : exec (.vlda o) s = execVlda o s := rfl
theorem exec_vstl (o : MArgs) (s : State) : exec (.vstl o) s = execVstl o s := rfl
theorem exec_qdrain (o : RArgs) (s : State) : exec (.qdrain o) s = execQdrain o s := rfl
theorem exec_fence (o : RArgs) (s : State) : exec (.fence o) s = execFence o s := rfl
theorem exec_efence (o : RArgs) (s : State) : exec (.efence o) s = execEfence o s := rfl
theorem exec_waitge (o : RArgs) (s : State) : exec (.waitge o) s = execWaitge o s := rfl
theorem exec_waitdc (o : RArgs) (s : State) : exec (.waitdc o) s = execWaitdc o s := rfl
theorem exec_bar (o : RArgs) (s : State) : exec (.bar o) s = execBar o s := rfl
theorem exec_hgive (o : RArgs) (s : State) : exec (.hgive o) s = execHgive o s := rfl
theorem exec_htake (o : RArgs) (s : State) : exec (.htake o) s = execHtake o s := rfl
theorem exec_enq (o : RArgs) (s : State) : exec (.enq o) s = execEnq o s := rfl
theorem exec_deq (o : RArgs) (s : State) : exec (.deq o) s = execDeq o s := rfl
theorem exec_venq (o : RArgs) (s : State) : exec (.venq o) s = execVenq o s := rfl
theorem exec_vdeq (o : RArgs) (s : State) : exec (.vdeq o) s = execVdeq o s := rfl
theorem exec_stream (o : RArgs) (s : State) : exec (.stream o) s = execStream o s := rfl
theorem exec_charm (o : RArgs) (s : State) : exec (.charm o) s = execCharm o s := rfl
theorem exec_chstat (o : RArgs) (s : State) : exec (.chstat o) s = execChstat o s := rfl
theorem exec_chclr (o : RArgs) (s : State) : exec (.chclr o) s = execChclr o s := rfl
theorem exec_tdep (o : RArgs) (s : State) : exec (.tdep o) s = execTdep o s := rfl
theorem exec_tcpy (o : RArgs) (s : State) : exec (.tcpy o) s = execTcpy o s := rfl
theorem exec_ttak (o : RArgs) (s : State) : exec (.ttak o) s = execTtak o s := rfl
theorem exec_tcpyn (o : RArgs) (s : State) : exec (.tcpyn o) s = execTcpyn o s := rfl
theorem exec_ttakn (o : RArgs) (s : State) : exec (.ttakn o) s = execTtakn o s := rfl
theorem exec_treg (o : RArgs) (s : State) : exec (.treg o) s = execTreg o s := rfl
theorem exec_tfree (o : RArgs) (s : State) : exec (.tfree o) s = execTfree o s := rfl
theorem exec_gsub (o : VArgs) (s : State) : exec (.gsub o) s = execGsub o s := rfl
theorem exec_gadd (o : VArgs) (s : State) : exec (.gadd o) s = execGadd o s := rfl
theorem exec_gscale (o : VArgs) (s : State) : exec (.gscale o) s = execGscale o s := rfl
theorem exec_gdot (o : VArgs) (s : State) : exec (.gdot o) s = execGdot o s := rfl
theorem exec_gcross (o : VArgs) (s : State) : exec (.gcross o) s = execGcross o s := rfl
theorem exec_glen (o : VArgs) (s : State) : exec (.glen o) s = execGlen o s := rfl
theorem exec_gcvt (o : VArgs) (s : State) : exec (.gcvt o) s = execGcvt o s := rfl
theorem exec_gxfm (o : VArgs) (s : State) : exec (.gxfm o) s = execGxfm o s := rfl
theorem exec_gtag (o : VArgs) (s : State) : exec (.gtag o) s = execGtag o s := rfl
theorem exec_gsettag (o : VArgs) (s : State) : exec (.gsettag o) s = execGsettag o s := rfl
theorem exec_gchk (o : VArgs) (s : State) : exec (.gchk o) s = execGchk o s := rfl
theorem exec_gretag (o : VArgs) (s : State) : exec (.gretag o) s = execGretag o s := rfl
theorem exec_fnew (o : RArgs) (s : State) : exec (.fnew o) s = execFnew o s := rfl
theorem exec_ffree (o : RArgs) (s : State) : exec (.ffree o) s = execFfree o s := rfl
theorem exec_fupd (o : RArgs) (s : State) : exec (.fupd o) s = execFupd o s := rfl
theorem exec_fsplit (o : RArgs) (s : State) : exec (.fsplit o) s = execFsplit o s := rfl
theorem exec_frepar (o : RArgs) (s : State) : exec (.frepar o) s = execFrepar o s := rfl
theorem exec_ffence (o : RArgs) (s : State) : exec (.ffence o) s = execFfence o s := rfl
theorem exec_gcell (o : VArgs) (s : State) : exec (.gcell o) s = execGcell o s := rfl
theorem exec_hins (o : VArgs) (s : State) : exec (.hins o) s = execHins o s := rfl
theorem exec_hlook (o : VArgs) (s : State) : exec (.hlook o) s = execHlook o s := rfl
theorem exec_hclr (o : VArgs) (s : State) : exec (.hclr o) s = execHclr o s := rfl
theorem exec_wfwd (o : VArgs) (s : State) : exec (.wfwd o) s = execWfwd o s := rfl
theorem exec_winv (o : VArgs) (s : State) : exec (.winv o) s = execWinv o s := rfl
theorem exec_wtag (o : VArgs) (s : State) : exec (.wtag o) s = execWtag o s := rfl
theorem exec_wsettag (o : VArgs) (s : State) : exec (.wsettag o) s = execWsettag o s := rfl
theorem exec_mcfg (o : RArgs) (s : State) : exec (.mcfg o) s = execMcfg o s := rfl
theorem exec_mldb (o : RArgs) (s : State) : exec (.mldb o) s = execMldb o s := rfl
theorem exec_mmac (o : RArgs) (s : State) : exec (.mmac o) s = execMmac o s := rfl
theorem exec_mdrain (o : RArgs) (s : State) : exec (.mdrain o) s = execMdrain o s := rfl
theorem exec_mzero (o : RArgs) (s : State) : exec (.mzero o) s = execMzero o s := rfl
theorem exec_mwait (o : RArgs) (s : State) : exec (.mwait o) s = execMwait o s := rfl
theorem exec_msync (o : RArgs) (s : State) : exec (.msync o) s = execMsync o s := rfl
theorem exec_mstep (o : RArgs) (s : State) : exec (.mstep o) s = execMstep o s := rfl
theorem exec_launch (o : RArgs) (s : State) : exec (.launch o) s = execLaunch o s := rfl
theorem exec_spawn (o : RArgs) (s : State) : exec (.spawn o) s = execSpawn o s := rfl
theorem exec_steal (o : RArgs) (s : State) : exec (.steal o) s = execSteal o s := rfl
theorem exec_taskget (o : RArgs) (s : State) : exec (.taskget o) s = execTaskget o s := rfl
theorem exec_yield (o : RArgs) (s : State) : exec (.yield o) s = execYield o s := rfl
theorem exec_tlbi (o : RArgs) (s : State) : exec (.tlbi o) s = execTlbi o s := rfl
theorem exec_msq (o : RArgs) (s : State) : exec (.msq o) s = execMsq o s := rfl
theorem exec_migrate (o : RArgs) (s : State) : exec (.migrate o) s = execMigrate o s := rfl
theorem exec_keyld (o : RArgs) (s : State) : exec (.keyld o) s = execKeyld o s := rfl
theorem exec_actbl (o : RArgs) (s : State) : exec (.actbl o) s = execActbl o s := rfl
theorem exec_preempt (o : RArgs) (s : State) : exec (.preempt o) s = execPreempt o s := rfl
theorem exec_resume (o : RArgs) (s : State) : exec (.resume o) s = execResume o s := rfl
theorem exec_pfx (o : PArgs) (s : State) : exec (.pfx o) s = execPfx o s := rfl
theorem exec_pfxCopy (o : PArgs) (s : State) : exec (.pfxCopy o) s = execPfxCopy o s := rfl
theorem exec_cAdd (o : KArgs) (s : State) : exec (.cAdd o) s = execCAdd o s := rfl
theorem exec_cSub (o : KArgs) (s : State) : exec (.cSub o) s = execCSub o s := rfl
theorem exec_cAnd (o : KArgs) (s : State) : exec (.cAnd o) s = execCAnd o s := rfl
theorem exec_cOr (o : KArgs) (s : State) : exec (.cOr o) s = execCOr o s := rfl
theorem exec_cXor (o : KArgs) (s : State) : exec (.cXor o) s = execCXor o s := rfl
theorem exec_cShl (o : KArgs) (s : State) : exec (.cShl o) s = execCShl o s := rfl
theorem exec_cShr (o : KArgs) (s : State) : exec (.cShr o) s = execCShr o s := rfl
theorem exec_cAddi (o : KArgs) (s : State) : exec (.cAddi o) s = execCAddi o s := rfl
theorem exec_cMov (o : KArgs) (s : State) : exec (.cMov o) s = execCMov o s := rfl
theorem exec_cLdd (o : KArgs) (s : State) : exec (.cLdd o) s = execCLdd o s := rfl
theorem exec_cStd (o : KArgs) (s : State) : exec (.cStd o) s = execCStd o s := rfl
theorem exec_cBnz (o : KArgs) (s : State) : exec (.cBnz o) s = execCBnz o s := rfl
theorem exec_cNop (o : KArgs) (s : State) : exec (.cNop o) s = execCNop o s := rfl
theorem exec_migrationComplete (o : GranuleArgs) (s : State) : exec (.migrationComplete o) s = execMigrationComplete o s := rfl
theorem exec_ulianeLinkUp (o : LinkArgs) (s : State) : exec (.ulianeLinkUp o) s = execUlianeLinkUp o s := rfl
theorem exec_hostWindowNoAnswer (o : HostArgs) (s : State) : exec (.hostWindowNoAnswer o) s = execHostWindowNoAnswer o s := rfl
theorem exec_laneGroupArbitration (o : ArbiterArgs) (s : State) : exec (.laneGroupArbitration o) s = execLaneGroupArbitration o s := rfl

end Sys2Proof.Machine
end

