-- ==== Sys2Proof/Laws/Memory.lean ====
section
/-! SUPPORT. The laws of memory: every operation keeps the canonical form, and a write is read back where it was made and
nowhere else. -/

namespace Sys2Proof.Machine

/-- The canonical form, as rising addresses and no blank byte. -/
theorem Memory.wf_iff (m : List Host.Cell) :
    Memory.wf m = true ↔ m.Pairwise (fun c d => c.1 < d.1) ∧ ∀ c ∈ m, c.2 ≠ Memory.blank := by
  induction m with
  | nil => simp [Memory.wf]
  | cons c m ih =>
    cases m with
    | nil => simp [Memory.wf]
    | cons d m =>
      simp only [Memory.wf, Bool.and_eq_true, bne_iff_ne, decide_eq_true_eq, ih, List.pairwise_cons, List.mem_cons]
      grind
/-- What a write leaves is what was there, or the byte written. -/
theorem Memory.mem_write (a : Nat) (b : Byte) (m : List Host.Cell) (c : Host.Cell) (h : c ∈ Memory.write a b m) :
    c ∈ m ∨ c = (a, b) ∧ b ≠ Memory.blank := by
  induction m with
  | nil => simp only [Memory.write] at h; grind
  | cons d m ih => simp only [Memory.write] at h; grind
/-- A write keeps the canonical form. -/
theorem Memory.wf_write (a : Nat) (b : Byte) (m : List Host.Cell) (h : Memory.wf m = true) :
    Memory.wf (Memory.write a b m) = true := by
  rw [Memory.wf_iff] at h ⊢
  refine ⟨?_, fun c hc => ?_⟩
  · induction m with
    | nil => simp only [Memory.write]; grind
    | cons d m ih =>
      have := Memory.mem_write a b m
      simp only [Memory.write, List.pairwise_cons, List.mem_cons] at *
      grind [List.pairwise_cons]
  · have := Memory.mem_write a b m c hc
    grind
theorem Memory.wf_writeBytes (a : Nat) (bs : List Byte) (m : List Host.Cell) (h : Memory.wf m = true) :
    Memory.wf (Memory.writeBytes a bs m) = true := by
  induction bs generalizing a m with
  | nil => exact h
  | cons b bs ih => exact ih _ _ (Memory.wf_write _ _ _ h)
theorem Memory.read_below (a : Nat) (m : List Host.Cell) (h : ∀ c ∈ m, a < c.1) : Memory.read m a = Memory.blank := by
  cases m <;> grind [Memory.read]
/-- A byte reads as it was written, and every other byte as before. -/
theorem Memory.read_write (a x : Nat) (b : Byte) (m : List Host.Cell) (h : Memory.wf m = true) :
    Memory.read (Memory.write a b m) x = if x = a then b else Memory.read m x := by
  rw [Memory.wf_iff] at h
  induction m with
  | nil => simp only [Memory.write]; grind [Memory.read]
  | cons d m ih =>
    have := Memory.read_below x m
    simp only [Memory.write, List.pairwise_cons, List.mem_cons] at *
    grind [Memory.read]
/-- R4: bytes written at consecutive addresses. -/
theorem Memory.read_writeBytes (a x : Nat) (bs : List Byte) (m : List Host.Cell) (h : Memory.wf m = true) :
    Memory.read (Memory.writeBytes a bs m) x =
      if a ≤ x ∧ x < a + bs.length then bs.getD (x - a) 0 else Memory.read m x := by
  induction bs generalizing a m with
  | nil => simp [Memory.writeBytes]
  | cons b bs ih =>
    rw [Memory.writeBytes, ih _ _ (Memory.wf_write _ _ _ h), Memory.read_write _ _ _ _ h]
    rcases Nat.lt_trichotomy x a with hx | rfl | hx
    · simp [show ¬a + 1 ≤ x by omega, show ¬a ≤ x by omega, show x ≠ a by omega]
    · simp
    · obtain ⟨k, rfl⟩ : ∃ k, x = a + 1 + k := ⟨x - (a + 1), by omega⟩
      simp [show a + 1 + k - a = k + 1 by omega, show a + 1 + k ≠ a by omega, show a ≤ a + 1 + k by omega,
        show (a + 1 + k < a + (bs.length + 1)) = (k < bs.length) by rw [eq_iff_iff]; omega]
end Sys2Proof.Machine
end

