-- ==== Sys2Proof/Laws/Frame.lean ====
section
/-! SUPPORT. What a request may change, and what a commit of the strip may: everything else of the state, and of the current
hart, stays. Both keep the canonical form of memory. -/

namespace Sys2Proof.Machine

/-- What a request may change (R87, R88): memory, its flaws, HBM, the device, the clusters' registers, replies; of a hart, its
links. -/
structure Request (s t : State) : Prop where
  cur : t.cur = s.cur
  slots : t.slots = s.slots
  crews : t.crews = s.crews
  cores : t.cores = s.cores
  tuples : t.tuples = s.tuples
  agenda : t.agenda = s.agenda
  strong : ∀ n, strongOut n t = strongOut n s
  hart : t.h = { s.h with link := t.h.link, vlink := t.h.vlink }
  canonical : s.Inv → t.Inv

theorem Request.refl (s : State) : Request s s := ⟨rfl, rfl, rfl, rfl, rfl, rfl, fun _ => rfl, rfl, id⟩
theorem Request.trans {s t u : State} (a : Request s t) (b : Request t u) : Request s u :=
  ⟨b.cur.trans a.cur, b.slots.trans a.slots, b.crews.trans a.crews, b.cores.trans a.cores, b.tuples.trans a.tuples,
    b.agenda.trans a.agenda, fun n => (b.strong n).trans (a.strong n), by rw [b.hart, a.hart], fun h => b.canonical (a.canonical h)⟩

/-- R80: whether a hart has a STRONG store on its way depends on the writes on their way alone. -/
theorem strongOut_congr {s t : State} (h : t.dev.heldWrites = s.dev.heldWrites) (n : Nat) : strongOut n t = strongOut n s := by
  simp only [strongOut, h]
/-- A change of the device, of HBM or of the clusters' registers alone. -/
theorem Request.device {s t : State} (h : ∃ d b c, t = { s with dev := d, hbm := b, clusters := c })
    (hw : t.dev.heldWrites = s.dev.heldWrites := by rfl) : Request s t := by
  have ho := strongOut_congr hw
  obtain ⟨d, b, c, rfl⟩ := h
  exact ⟨rfl, rfl, rfl, rfl, rfl, rfl, ho, rfl, id⟩
/-- What each step of a fold may change, the fold may. -/
theorem Request.fold {α : Type} (f : State → α → State) (h : ∀ s x, Request s (f s x)) (l : List α) (s : State) :
    Request s (l.foldl f s) := by
  induction l generalizing s with
  | nil => exact .refl s
  | cons x l ih => exact (h s x).trans (ih _)
/-- A ready hart is ready after a request. -/
theorem Request.ready {s t : State} (a : Request s t) (hr : s.Ready) : t.Ready := by
  have e := a.hart
  have ho := (a.strong s.cur).trans hr.strong
  rw [← a.cur] at ho
  obtain ⟨h1, h2, h3, h4, h5, h6, h7, h8, h9, h10, -, h11⟩ := hr
  constructor <;> first | exact ho | (rw [e]; assumption)

/-! Lines. -/

theorem breakLinks_request (line : Nat) (by' : Option Nat) (s : State) : Request s (breakLinks line by' s) := by
  refine ⟨rfl, rfl, rfl, rfl, rfl, rfl, fun _ => rfl, ?_, id⟩
  unfold breakLinks
  simp only
  split <;> rfl
theorem installLine_request (line : Nat) (secs : List (List Byte × Option Flaw)) (s : State) :
    Request s (installLine line secs s) := by
  unfold installLine
  apply Request.fold
  rintro u ⟨sec, n⟩
  exact ⟨rfl, rfl, rfl, rfl, rfl, rfl, fun _ => rfl, rfl, fun h => Memory.wf_writeBytes (line + 32 * n) sec.1 u.mem h⟩
theorem countUncorrectable_request (array : Nat) (s : State) : Request s (countUncorrectable array s) := .device ⟨_, _, _, rfl⟩
theorem reportTag_request (line : Nat) (im : Image) (s : State) : Request s (reportTag line im s) := by
  unfold reportTag
  split
  · exact countUncorrectable_request _ s
  · exact .refl s
theorem reportFailed_request (pa n : Nat) (s : State) : Request s (reportFailed pa n s) := by
  refine .fold _ (fun s p => ?_) _ s
  simp only
  split
  · exact ⟨rfl, rfl, rfl, rfl, rfl, rfl, fun _ => rfl, rfl, id⟩
  · exact .refl s
theorem startWriteback_request (line : Nat) (s : State) : Request s (startWriteback line s) := by
  unfold startWriteback
  repeat' split
  all_goals first
    | exact .refl s
    | exact (reportFailed_request _ _ _).trans (.device ⟨_, _, _, rfl⟩)
theorem applyDelta_request (line : Nat) (s : State) : Request s (applyDelta line s) := by
  unfold applyDelta
  split
  · exact .refl s
  · exact .device ⟨_, _, _, rfl⟩
theorem endWriteback_request (line : Nat) (s : State) : Request s (endWriteback line s) := by
  unfold endWriteback
  split
  · exact .refl s
  · exact .device ⟨_, _, _, rfl⟩
theorem settleStripe_request (st : Nat) (s : State) : Request s (settleStripe st s) :=
  (Request.fold _ (fun s l => applyDelta_request l s) _ s).trans (.device ⟨_, _, _, rfl⟩)
theorem settleFor_request (line : Nat) (s : State) : Request s (settleFor line s) := by
  unfold settleFor
  split
  · exact settleStripe_request _ _
  · exact .refl s
theorem writebackLine_request (line : Nat) (s : State) : Request s (writebackLine line s) := by
  unfold writebackLine
  refine Request.trans (t := if s.hbm.place line = 1 then settleStripe (stripeOf line) s else s) ?_
    ((startWriteback_request _ _).trans (settleStripe_request _ _))
  split
  · exact settleStripe_request _ _
  · exact .refl s
theorem dropLine_request (line : Nat) (s : State) : Request s (dropLine line s) :=
  (Request.device ⟨_, _, _, rfl⟩).trans (breakLinks_request _ _ _)
theorem makeRoom_request (line : Nat) (s : State) : Request s (makeRoom line s) := by
  unfold makeRoom
  simp only
  repeat' split
  all_goals first
    | exact .refl s
    | exact ((Request.device ⟨_, _, _, rfl⟩).trans (writebackLine_request _ _)).trans (dropLine_request _ _)
theorem fillLine_request (key line : Nat) (s : State) : Request s (fillLine key line s) := by
  unfold fillLine
  split
  · exact .refl s
  · have room := makeRoom_request line s
    generalize makeRoom line s = u at room ⊢
    have base : Request s { u with hbm := { u.hbm with cache := put line { key := key } u.hbm.cache } } :=
      room.trans (.device ⟨_, _, _, rfl⟩)
    simp only
    split
    · exact base.trans (installLine_request line _ _)
    · split
      · exact base
      · exact (base.trans (installLine_request line _ _)).trans (reportTag_request _ _ _)
    · exact base

/-! Reads. -/

theorem checked_request (pa n : Nat) (bs : List Byte) (s : State) : Request s (checked pa n bs s).1 := by
  unfold checked
  split
  · exact reportFailed_request _ _ _
  · simp only
    split
    · exact countUncorrectable_request _ s
    · exact .refl s
  · exact .refl s
theorem sendOn_request (i : Nat) (msg : Nat → PeerMsg) (s : State) : Request s (sendOn i msg s) := .device ⟨_, _, _, rfl⟩
theorem readPiece_request (c : Ctx) (pa n : Nat) (s t : State) (bs : List Byte) (bad : Bool)
    (h : readPiece c pa n s = .ok (t, bs, bad)) : Request s t := by
  have look' (u : State) (l : List Byte) (hu : Request s u) (e : checked pa n l u = (t, bs, bad)) : Request s t := by
    have r := hu.trans (checked_request pa n l u)
    rwa [e] at r
  have free (u : State) : Request u { u with freeCount := u.freeCount + 1 } :=
    ⟨rfl, rfl, rfl, rfl, rfl, rfl, fun _ => rfl, rfl, id⟩
  unfold readPiece at h
  repeat' split at h
  all_goals simp only [Except.ok.injEq, reduceCtorEq] at h
  · obtain rfl : s = t := congrArg Prod.fst h
    exact .refl s
  · exact look' _ _ ((settleFor_request _ _).trans (fillLine_request _ _ _)) h
  · exact look' _ _ ((sendOn_request _ _ _).trans (free _)) h
  · exact look' _ _ (free s) h
  · exact look' _ _ (.refl s) h
/-- A read answered is its first share's and the rest's. -/
theorem readPieces_cons (c : Ctx) (p : Nat × Nat) (ps : List (Nat × Nat)) (s t : State) (bs : List Byte) (bad : Option Nat)
    (h : readPieces c (p :: ps) s = .ok (t, bs, bad)) :
    ∃ u b f b' f', readPiece c p.1 p.2 s = .ok (u, b, f) ∧ readPieces c ps u = .ok (t, b', f') := by
  unfold readPieces at h
  grind
theorem readPieces_request (c : Ctx) (ps : List (Nat × Nat)) (s t : State) (bs : List Byte) (bad : Option Nat)
    (h : readPieces c ps s = .ok (t, bs, bad)) : Request s t := by
  induction ps generalizing s bs bad with
  | nil =>
    obtain rfl : s = t := congrArg Prod.fst (Except.ok.inj h)
    exact .refl s
  | cons p ps ih =>
    obtain ⟨u, b, f, b', f', first, rest⟩ := readPieces_cons c p ps s t bs bad h
    exact (readPiece_request c p.1 p.2 s u b f first).trans (ih u b' f' rest)
/-- What a read request may change. -/
theorem physRead_request (c : Ctx) (pa n : Nat) (s t : State) (bs : List Byte) (bad : Option Nat)
    (h : physRead c pa n s = .ok (t, bs, bad)) : Request s t := by
  unfold physRead at h
  split at h
  · split at h <;> simp at h
  · exact readPieces_request _ _ _ _ _ _ h
/-- A read request leaves a ready hart ready. -/
theorem ready_of_physRead (c : Ctx) (pa n : Nat) (s s1 : State) (bs : List Byte) (bad : Option Nat)
    (h : physRead c pa n s = .ok (s1, bs, bad)) (hr : s.Ready) : s1.Ready := (physRead_request _ _ _ _ _ _ _ h).ready hr

/-! Writes. -/

theorem mergeBytes_request (c : Ctx) (pa : Nat) (bs : List Byte) (s : State) : Request s (mergeBytes c pa bs s).1 := by
  have put' (u : State) (f : List (Nat × Flaw)) : Request u { u with mem := Memory.writeBytes pa bs u.mem, flaws := f } :=
    ⟨rfl, rfl, rfl, rfl, rfl, rfl, fun _ => rfl, rfl, fun h => show Memory.wf _ = true from Memory.wf_writeBytes _ _ _ h⟩
  unfold mergeBytes
  split
  · exact ((reportFailed_request _ _ _).trans (put' _ _)).trans (breakLinks_request _ _ _)
  · exact (put' _ _).trans (breakLinks_request _ _ _)
theorem holdWrite_request (c : Ctx) (pa : Nat) (bs mask : List Byte) (flit : Option (Nat × Nat)) (s : State) :
    Request s (holdWrite c pa bs mask flit s) :=
  ⟨rfl, rfl, rfl, rfl, rfl, rfl, fun n => by simp [strongOut, holdWrite], rfl, id⟩
theorem stampHeld_request (n : Nat) (f : Bool → HeldWrite → HeldWrite) (s : State)
    (hf : ∀ l w, (f l w).strong = w.strong ∧ (f l w).coord = w.coord) : Request s (stampHeld n f s) := by
  refine ⟨rfl, rfl, rfl, rfl, rfl, rfl, fun m => ?_, rfl, id⟩
  simp only [strongOut, stampHeld]
  rw [Bool.eq_iff_iff]
  simp only [List.any_eq_true, List.mem_mapIdx]
  constructor
  · rintro ⟨w, ⟨i, hi, rfl⟩, hw⟩
    refine ⟨_, List.getElem_mem hi, ?_⟩
    split at hw
    · rwa [(hf _ _).1, (hf _ _).2] at hw
    · exact hw
  · rintro ⟨w, hm, hw⟩
    obtain ⟨i, hi, rfl⟩ := List.getElem_of_mem hm
    refine ⟨_, ⟨i, hi, rfl⟩, ?_⟩
    split
    · rwa [(hf _ _).1, (hf _ _).2]
    · exact hw
theorem stampAccess_request (n : Nat) (a : Access) (order : Nat) (store : Option Nat) (s : State) :
    Request s (stampAccess n a order store s) := stampHeld_request _ _ _ fun _ _ => ⟨rfl, rfl⟩
theorem divert_request (c : Ctx) (pa : Nat) (bs mask : List Byte) (s t : State) (h : divert c pa bs mask s = some t) :
    Request s t := by
  unfold divert at h
  split at h
  · obtain ⟨a, -, rfl⟩ := Option.map_eq_some_iff.1 h
    exact holdWrite_request _ _ _ _ _ _
  · split at h <;> obtain rfl := Option.some.inj h
    · exact .refl s
    · exact (sendOn_request _ _ _).trans (holdWrite_request _ _ _ _ _ _)
  · simp at h

theorem writeQctl_request (machine : Bool) (n : Nat) (v : Word) (stop : Bool) (s : State) :
    Request s (writeQctl machine n v stop s) := by
  unfold writeQctl
  simp only
  repeat' split
  all_goals exact .device ⟨_, _, _, rfl⟩
theorem writeQtail_request (n : Nat) (v : Word) (s : State) : Request s (writeQtail n v s) := by
  unfold writeQtail
  split
  · exact Request.refl s
  · simp only
    repeat' split
    all_goals exact .device ⟨_, _, _, rfl⟩
theorem mgmt_request (m : Mgmt) (s : State) : Request s { s with dev := { s.dev with mgmt := m } } := .device ⟨_, _, _, rfl⟩
theorem raiseMsix_request (n : Nat) (s : State) : Request s (raiseMsix n s) := .device ⟨_, _, _, rfl⟩
theorem startCommand_request (code : Nat) (s : State) : Request s (startCommand code s) := by
  unfold startCommand
  simp only
  split
  · exact Request.refl s
  · split
    · exact (mgmt_request _ s).trans (raiseMsix_request 0 _)
    · exact mgmt_request _ s
theorem writeReg_request (machine : Bool) (r : DevReg) (off : Nat) (bs : List Byte) (s : State) :
    Request s (writeReg machine r off bs s) := by
  unfold writeReg
  cases r with
  | ownwin c w => exact .device ⟨_, _, _, rfl⟩
  | queue q o =>
    simp only
    split
    · exact writeQctl_request _ _ _ _ _
    · split
      · exact Request.refl s
      · exact .device ⟨_, _, _, rfl⟩
    · exact writeQtail_request _ _ _
    · split
      · exact Request.refl s
      · exact .device ⟨_, _, _, rfl⟩
    · split
      · exact Request.refl s
      · exact .device ⟨_, _, _, rfl⟩
    · exact Request.refl s
  | clovest =>
    simp only
    split
    · exact .device ⟨_, _, _, rfl⟩
    · exact Request.refl s
  | mbdone =>
    simp only
    split
    · exact (mgmt_request _ s).trans (raiseMsix_request 0 _)
    · exact Request.refl s
  | mgtgt => exact .device ⟨_, _, _, rfl⟩
  | mbdb =>
    simp only
    split
    · split
      · exact Request.trans (.device ⟨_, _, _, rfl⟩) (startCommand_request _ _)
      · exact startCommand_request _ _
    · split
      · exact .device ⟨_, _, _, rfl⟩
      · exact Request.refl s
  | hwkey => exact .device ⟨_, _, _, rfl⟩
theorem writePiece_request (c : Ctx) (pa : Nat) (bs : List Byte) (s t : State) (bad : Bool)
    (h : writePiece c pa bs s = .ok (t, bad)) : Request s t := by
  have merged (u : State) (hu : Request s u) (e : mergeBytes c pa bs u = (t, bad)) : Request s t := by
    have m := hu.trans (mergeBytes_request c pa bs u)
    rwa [e] at m
  unfold writePiece at h
  repeat' split at h
  all_goals simp only [Except.ok.injEq, reduceCtorEq] at h
  · obtain rfl := congrArg Prod.fst h
    exact divert_request _ _ _ _ _ _ ‹_›
  · obtain rfl := congrArg Prod.fst h
    exact writeReg_request _ _ _ _ _
  · exact merged _ (((settleFor_request _ _).trans (fillLine_request _ _ _)).trans (.device ⟨_, _, _, rfl⟩)) h
  · exact merged _ (.refl s) h
/-- A write made is its first share's and the rest's. -/
theorem writePieces_cons (c : Ctx) (p : Nat × Nat) (ps : List (Nat × Nat)) (bs : List Byte) (s t : State) (bad : Option Nat)
    (h : writePieces c (p :: ps) bs s = .ok (t, bad)) :
    ∃ u f f', writePiece c p.1 (bs.take p.2) s = .ok (u, f) ∧ writePieces c ps (bs.drop p.2) u = .ok (t, f') := by
  unfold writePieces at h
  grind
theorem writePieces_request (c : Ctx) (ps : List (Nat × Nat)) (bs : List Byte) (s t : State) (bad : Option Nat)
    (h : writePieces c ps bs s = .ok (t, bad)) : Request s t := by
  induction ps generalizing s bs bad with
  | nil =>
    obtain rfl : s = t := congrArg Prod.fst (Except.ok.inj h)
    exact .refl s
  | cons p ps ih =>
    obtain ⟨u, f, f', first, rest⟩ := writePieces_cons c p ps bs s t bad h
    exact (writePiece_request c p.1 _ s u f first).trans (ih _ u f' rest)
/-- What a write request may change. -/
theorem physWrite_request (c : Ctx) (pa : Nat) (bs : List Byte) (s t : State) (bad : Option Nat)
    (h : physWrite c pa bs s = .ok (t, bad)) : Request s t := by
  unfold physWrite at h
  simp only at h
  split at h
  · simp at h
  · exact writePieces_request _ _ _ _ _ _ h
/-- What a write of masked bits may change. -/
theorem writeMasked_request (c : Ctx) (pa : Nat) (bs mask : List Byte) (s t : State) (bad : Option Nat)
    (h : writeMasked c pa bs mask s = .ok (t, bad)) : Request s t := by
  have away (u : State) (p : Nat × Nat) (l m : List Byte) : Request u ((divert c p.1 l m u).getD u) := by
    cases e : divert c p.1 l m u
    · exact .refl u
    · exact divert_request _ _ _ _ _ _ e
  unfold writeMasked at h
  repeat' split at h
  all_goals try simp only [Except.ok.injEq, reduceCtorEq] at h
  · exact physWrite_request _ _ _ _ _ _ h
  · obtain rfl := congrArg Prod.fst h
    exact .fold _ (fun u p => away u p _ _) _ s
  · obtain rfl := congrArg Prod.fst h
    rename_i read _ _ _ wrote
    exact ((physRead_request _ _ _ _ _ _ _ read).trans (physWrite_request _ _ _ _ _ _ wrote)).trans
      ⟨rfl, rfl, rfl, rfl, rfl, rfl, fun _ => rfl, rfl, id⟩

/-! The strip's commit (R374, R375). -/

/-- What a commit may change: what a request may, and of the hart its pending errors, the stores among its counted operations
with their counters, and its strip. -/
structure Committed (s t : State) : Prop where
  cur : t.cur = s.cur
  slots : t.slots = s.slots
  crews : t.crews = s.crews
  cores : t.cores = s.cores
  tuples : t.tuples = s.tuples
  agenda : t.agenda = s.agenda
  strong : ∀ n, strongOut n t = strongOut n s
  hart : t.h = { s.h with
    link := t.h.link, vlink := t.h.vlink, errs := t.h.errs, ops := t.h.ops, deps := t.h.deps, strip := t.h.strip }
  canonical : s.Inv → t.Inv
  idle : s.h.ops = [] → t.h.ops = []

theorem Committed.refl (s : State) : Committed s s := ⟨rfl, rfl, rfl, rfl, rfl, rfl, fun _ => rfl, rfl, id, id⟩
theorem Committed.trans {s t u : State} (a : Committed s t) (b : Committed t u) : Committed s u :=
  ⟨b.cur.trans a.cur, b.slots.trans a.slots, b.crews.trans a.crews, b.cores.trans a.cores, b.tuples.trans a.tuples,
    b.agenda.trans a.agenda, fun n => (b.strong n).trans (a.strong n), by rw [b.hart, a.hart], fun h => b.canonical (a.canonical h),
    fun h => b.idle (a.idle h)⟩
theorem Request.committed {s t : State} (a : Request s t) : Committed s t :=
  ⟨a.cur, a.slots, a.crews, a.cores, a.tuples, a.agenda, a.strong, by rw [a.hart], a.canonical,
    fun h => by rw [a.hart]; exact h⟩
/-- A change of the current hart in what a commit may change. -/
theorem Committed.ofHart {s : State} {h : Hart}
    (e : h = { s.h with link := h.link, vlink := h.vlink, errs := h.errs, ops := h.ops, deps := h.deps, strip := h.strip })
    (o : s.h.ops = [] → h.ops = []) : Committed s { s with h := h } :=
  ⟨rfl, rfl, rfl, rfl, rfl, rfl, fun _ => rfl, e, id, o⟩
theorem lowerCounter_eq (h : Hart) (c : Nat) : lowerCounter h c = { h with deps := (lowerCounter h c).deps } := by
  unfold lowerCounter
  split <;> rfl
theorem writeBuffered_committed (b : Buffered) (s : State) : Committed s (writeBuffered b s) := by
  unfold writeBuffered
  simp only
  split
  · exact .ofHart rfl id
  · exact (writeMasked_request _ _ _ _ _ _ _ ‹_›).committed
  · exact (writeMasked_request _ _ _ _ _ _ _ ‹_›).committed.trans (.ofHart rfl id)
theorem endStore_committed (seq : Nat) (s : State) : Committed s { s with h := endStore seq s.h } := by
  unfold endStore
  simp only
  cases hf : s.h.ops.find? (fun o => o.kind == .store seq) with
  | none => exact .ofHart rfl id
  | some o =>
    refine .ofHart ?_ fun h => ?_
    · simp only
      rw [lowerCounter_eq]
    · simp [h] at hf
theorem performBuffered_committed (b : Buffered) (s : State) : Committed s (performBuffered b s) := by
  unfold performBuffered
  simp only
  split
  · exact (writeBuffered_committed b s).trans (stampAccess_request _ _ _ _ _).committed
  · exact (writeBuffered_committed b s).trans (endStore_committed _ _)
theorem Committed.fold {α : Type} (f : State → α → State) (h : ∀ s x, Committed s (f s x)) (l : List α) (s : State) :
    Committed s (l.foldl f s) := by
  induction l generalizing s with
  | nil => exact .refl s
  | cons x l ih => exact (h s x).trans (ih _)
theorem performStrip_committed (s : State) : Committed s (performStrip s) :=
  (Committed.ofHart (h := { s.h with strip := { s.h.strip with buf := [] } }) rfl id).trans
    (.fold _ (fun s b => performBuffered_committed b s) _ _)
/-- What an early commit may change. -/
theorem earlyCommit_committed (why : Nat) (s : State) : Committed s (earlyCommit why s) :=
  (performStrip_committed s).trans (.ofHart rfl id)
/-- A ready hart is ready after a commit. -/
theorem Committed.ready {s t : State} (c : Committed s t) (hr : s.Ready) : t.Ready := by
  have ho := c.idle hr.ops
  have e := c.hart
  have hs := (c.strong s.cur).trans hr.strong
  rw [← c.cur] at hs
  obtain ⟨h1, h2, h3, h4, h5, -, h7, h8, h9, h10, -, h11⟩ := hr
  constructor <;> first | exact ho | exact hs | (rw [e]; assumption)
/-- With nothing buffered, a commit marks the strip and changes nothing else. -/
theorem earlyCommit_empty (why : Nat) (s : State) (h : s.h.strip.buf = []) :
    earlyCommit why s = { s with h := { s.h with strip := { s.h.strip with buf := [], early := true, why := why } } } := by
  unfold earlyCommit performStrip
  rw [h]
  rfl

end Sys2Proof.Machine
end

