-- ==== Sys2Proof/Laws/PerInstr.lean ====
section
/-! SUPPORT. The per-instruction family Width: an instruction's word fits in the bytes it occupies. -/

namespace Sys2Proof.Laws

/-- The word of an instruction is a number of its size in bytes (R26). -/
def Width.Statement (i : Instr) : Prop := i.word < 2 ^ (8 * i.size)

theorem bitNat_le (b : Bool) : bitNat b ≤ 1 := by cases b <;> decide

/-! One bound per format (R27, R28). -/

theorem rWord_lt (major func : Nat) (o : RArgs) (hm : major < 64) (hf : func < 16) : rWord major func o < 2 ^ 32 := by
  unfold rWord
  have := o.d.isLt
  have := o.a.isLt
  have := o.b.isLt
  have := o.guard.isLt
  have := o.stall.isLt
  have := bitNat_le o.neg
  omega
theorem iWord_lt (major func : Nat) (o : IArgs) (hm : major < 64) (hf : func < 8) : iWord major func o < 2 ^ 32 := by
  unfold iWord
  have := o.d.isLt
  have := o.a.isLt
  have := o.imm.isLt
  omega
theorem uWord_lt (major : Nat) (o : UArgs) (hm : major < 64) : uWord major o < 2 ^ 32 := by
  unfold uWord
  have := o.d.isLt
  have := o.imm.isLt
  omega
theorem cWord_lt (major form : Nat) (o : CArgs) (hm : major < 64) (hf : form < 2) : cWord major form o < 2 ^ 32 := by
  unfold cWord
  have := o.d1.isLt
  have := o.d2.isLt
  have := o.a.isLt
  have := o.b.isLt
  have := o.guard.isLt
  have := o.cond.isLt
  have := bitNat_le o.neg
  omega
theorem bWord_lt (major : Nat) (o : BArgs) (hm : major < 64) : bWord major o < 2 ^ 32 := by
  unfold bWord
  have := o.a.isLt
  have := o.b.isLt
  have := o.cond.isLt
  have := o.off.isLt
  omega
theorem bqWord_lt (major cond : Nat) (o : BqArgs) (hm : major < 64) (hf : cond < 8) : bqWord major cond o < 2 ^ 32 := by
  unfold bqWord
  have := o.a.isLt
  have := o.b.isLt
  have := o.off.isLt
  omega
theorem jWord_lt (major link : Nat) (o : JArgs) (hm : major < 64) (hf : link < 2) : jWord major link o < 2 ^ 32 := by
  unfold jWord
  have := o.pred.isLt
  have := o.off.isLt
  have := bitNat_le o.neg
  omega
theorem lWord_lt (major size : Nat) (o : LArgs) (hm : major < 64) (hf : size < 8) : lWord major size o < 2 ^ 32 := by
  unfold lWord
  have := o.d.isLt
  have := o.a.isLt
  have := o.imm.isLt
  have := o.cls.isLt
  have := o.ctr.isLt
  omega
theorem aWord_lt (major func : Nat) (o : AArgs) (hm : major < 64) (hf : func < 16) : aWord major func o < 2 ^ 32 := by
  unfold aWord
  have := o.d.isLt
  have := o.a.isLt
  have := o.data.isLt
  have := o.scope.isLt
  have := o.size.isLt
  omega
theorem vWord_lt (major func : Nat) (o : VArgs) (hm : major < 64) (hf : func < 16) : vWord major func o < 2 ^ 32 := by
  unfold vWord
  have := o.d.isLt
  have := o.a.isLt
  have := o.b.isLt
  have := o.mask.isLt
  have := bitNat_le o.neg
  have := bitNat_le o.t
  have := bitNat_le o.x
  omega
theorem vCmpWord_lt (major : Nat) (o : VCmpArgs) (hm : major < 64) : vCmpWord major o < 2 ^ 32 := by
  unfold vCmpWord
  have := o.d.isLt
  have := o.a.isLt
  have := o.b.isLt
  have := o.mask.isLt
  have := o.cond.isLt
  have := bitNat_le o.neg
  have := bitNat_le o.t
  have := bitNat_le o.x
  omega
theorem mWord_lt (major : Nat) (o : MArgs) (hm : major < 64) : mWord major o < 2 ^ 32 := by
  unfold mWord
  have := o.d.isLt
  have := o.a.isLt
  have := o.b.isLt
  have := o.mask.isLt
  have := o.cls.isLt
  have := o.mode.isLt
  have := bitNat_le o.neg
  omega
theorem pWord_lt (major copy : Nat) (o : PArgs) (hm : major < 64) (hf : copy < 2) : pWord major copy o < 2 ^ 32 := by
  unfold pWord
  have := o.copy.isLt
  have := o.guard.isLt
  have := bitNat_le o.neg
  have := bitNat_le o.isK
  omega
theorem kWord_lt (op : Nat) (o : KArgs) (hm : op < 32) : kWord op o < 2 ^ 16 := by
  unfold kWord
  have := o.a.isLt
  have := o.b.isLt
  omega

/-! One lemma per instruction. -/

theorem Width.reset (o : ResetArgs) : Width.Statement (.reset o) := Nat.zero_lt_one
theorem Width.memoryReadRequest (o : ReadArgs) : Width.Statement (.memoryReadRequest o) := Nat.zero_lt_one
theorem Width.memoryWriteRequest (o : WriteArgs) : Width.Statement (.memoryWriteRequest o) := Nat.zero_lt_one
theorem Width.lineFill (o : FillArgs) : Width.Statement (.lineFill o) := Nat.zero_lt_one
theorem Width.lineWriteback (o : WritebackArgs) : Width.Statement (.lineWriteback o) := Nat.zero_lt_one
theorem Width.parityDelta (o : LineArgs) : Width.Statement (.parityDelta o) := Nat.zero_lt_one
theorem Width.writebackComplete (o : LineArgs) : Width.Statement (.writebackComplete o) := Nat.zero_lt_one
theorem Width.reconstructionHold (o : HoldArgs) : Width.Statement (.reconstructionHold o) := Nat.zero_lt_one
theorem Width.stackLost (o : StackArgs) : Width.Statement (.stackLost o) := Nat.zero_lt_one
theorem Width.rebuildStripe : Width.Statement (.rebuildStripe) := Nat.zero_lt_one
theorem Width.tupleRequestStep (o : SliceArgs) : Width.Statement (.tupleRequestStep o) := Nat.zero_lt_one
theorem Width.tupleWithdraw (o : WithdrawArgs) : Width.Statement (.tupleWithdraw o) := Nat.zero_lt_one
theorem Width.tupleReply (o : OpArgs) : Width.Statement (.tupleReply o) := Nat.zero_lt_one
theorem Width.countedOpComplete (o : OpArgs) : Width.Statement (.countedOpComplete o) := Nat.zero_lt_one
theorem Width.pinAdmit (o : CoreArgs) : Width.Statement (.pinAdmit o) := Nat.zero_lt_one
theorem Width.watermarkRelease : Width.Statement (.watermarkRelease) := Nat.zero_lt_one
theorem Width.engineStreamStart (o : StreamArgs) : Width.Statement (.engineStreamStart o) := Nat.zero_lt_one
theorem Width.landing (o : LandingArgs) : Width.Statement (.landing o) := Nat.zero_lt_one
theorem Width.streamFail (o : StreamArgs) : Width.Statement (.streamFail o) := Nat.zero_lt_one
theorem Width.userInterruptEntry : Width.Statement (.userInterruptEntry) := Nat.zero_lt_one
theorem Width.userFrameFaultEntry (o : FrameFaultArgs) : Width.Statement (.userFrameFaultEntry o) := Nat.zero_lt_one
theorem Width.trapEntry (o : TrapArgs) : Width.Statement (.trapEntry o) := Nat.zero_lt_one
theorem Width.pendingErrorTrap : Width.Statement (.pendingErrorTrap) := Nat.zero_lt_one
theorem Width.wakeInterrupt : Width.Statement (.wakeInterrupt) := Nat.zero_lt_one
theorem Width.mgmtInterrupt : Width.Statement (.mgmtInterrupt) := Nat.zero_lt_one
theorem Width.preemptionPoint : Width.Statement (.preemptionPoint) := Nat.zero_lt_one
theorem Width.stripAgeExpiry : Width.Statement (.stripAgeExpiry) := Nat.zero_lt_one
theorem Width.stripRewind (o : RewindArgs) : Width.Statement (.stripRewind o) := Nat.zero_lt_one
theorem Width.idleTimeout : Width.Statement (.idleTimeout) := Nat.zero_lt_one
theorem Width.dispatchPacket : Width.Statement (.dispatchPacket) := Nat.zero_lt_one
theorem Width.dependenceRead (o : QueueArgs) : Width.Statement (.dependenceRead o) := Nat.zero_lt_one
theorem Width.placeUnit (o : PlaceArgs) : Width.Statement (.placeUnit o) := Nat.zero_lt_one
theorem Width.launchDoneAdd (o : LaunchArgs) : Width.Statement (.launchDoneAdd o) := Nat.zero_lt_one
theorem Width.qtail (o : QueueWriteArgs) : Width.Statement (.qtail o) := Nat.zero_lt_one
theorem Width.qctl (o : QueueWriteArgs) : Width.Statement (.qctl o) := Nat.zero_lt_one
theorem Width.ownwin (o : OwnwinArgs) : Width.Statement (.ownwin o) := Nat.zero_lt_one
theorem Width.mbdone (o : MbdoneArgs) : Width.Statement (.mbdone o) := Nat.zero_lt_one
theorem Width.mbAttest (o : MailboxArgs) : Width.Statement (.mbAttest o) := Nat.zero_lt_one
theorem Width.mbKeyLoad (o : MailboxArgs) : Width.Statement (.mbKeyLoad o) := Nat.zero_lt_one
theorem Width.mbAccessEntry (o : MailboxArgs) : Width.Statement (.mbAccessEntry o) := Nat.zero_lt_one
theorem Width.mbErrorCounts (o : MailboxArgs) : Width.Statement (.mbErrorCounts o) := Nat.zero_lt_one
theorem Width.mbFirmwareStage (o : MailboxArgs) : Width.Statement (.mbFirmwareStage o) := Nat.zero_lt_one
theorem Width.mbPowerCap (o : MailboxArgs) : Width.Statement (.mbPowerCap o) := Nat.zero_lt_one
theorem Width.mbCertChain (o : MailboxArgs) : Width.Statement (.mbCertChain o) := Nat.zero_lt_one
theorem Width.mbUnknownCommand (o : MailboxArgs) : Width.Statement (.mbUnknownCommand o) := Nat.zero_lt_one
theorem Width.registerWrite (o : WriteArgs) : Width.Statement (.registerWrite o) := Nat.zero_lt_one
theorem Width.frctl (o : ValueArgs) : Width.Statement (.frctl o) := Nat.zero_lt_one
theorem Width.bqpush (o : BqpushArgs) : Width.Statement (.bqpush o) := Nat.zero_lt_one
theorem Width.efcclr : Width.Statement (.efcclr) := Nat.zero_lt_one
theorem Width.mseqRestart (o : ClusterArgs) : Width.Statement (.mseqRestart o) := Nat.zero_lt_one
theorem Width.mseqAbandon (o : ClusterArgs) : Width.Statement (.mseqAbandon o) := Nat.zero_lt_one
theorem Width.weightLoad (o : ClusterArgs) : Width.Statement (.weightLoad o) := Nat.zero_lt_one
theorem Width.seqBLoad (o : ClusterArgs) : Width.Statement (.seqBLoad o) := Nat.zero_lt_one
theorem Width.seqARow (o : ClusterArgs) : Width.Statement (.seqARow o) := Nat.zero_lt_one
theorem Width.drainGroup (o : ClusterArgs) : Width.Statement (.drainGroup o) := Nat.zero_lt_one
theorem Width.seqZeroRows (o : ClusterArgs) : Width.Statement (.seqZeroRows o) := Nat.zero_lt_one
theorem Width.seqStop (o : ClusterArgs) : Width.Statement (.seqStop o) := Nat.zero_lt_one
theorem Width.ulianeDataFlit (o : FlitArgs) : Width.Statement (.ulianeDataFlit o) := Nat.zero_lt_one
theorem Width.ulianeIdleFlit (o : FlitArgs) : Width.Statement (.ulianeIdleFlit o) := Nat.zero_lt_one
theorem Width.ulianeAckFlit (o : FlitArgs) : Width.Statement (.ulianeAckFlit o) := Nat.zero_lt_one
theorem Width.ulianeRetryFlit (o : FlitArgs) : Width.Statement (.ulianeRetryFlit o) := Nat.zero_lt_one
theorem Width.linkDown (o : LinkArgs) : Width.Statement (.linkDown o) := Nat.zero_lt_one
theorem Width.cxlSnoop (o : LineArgs) : Width.Statement (.cxlSnoop o) := Nat.zero_lt_one
theorem Width.correctedError (o : ErrorArgs) : Width.Statement (.correctedError o) := Nat.zero_lt_one
theorem Width.powerThrottle (o : ThrottleArgs) : Width.Statement (.powerThrottle o) := Nat.zero_lt_one
theorem Width.waitgeRecheck : Width.Statement (.waitgeRecheck) := Nat.zero_lt_one
theorem Width.add (o : RArgs) : Width.Statement (.add o) := rWord_lt 0 0 o (by decide) (by decide)
theorem Width.sub (o : RArgs) : Width.Statement (.sub o) := rWord_lt 0 1 o (by decide) (by decide)
theorem Width.and (o : RArgs) : Width.Statement (.and o) := rWord_lt 0 2 o (by decide) (by decide)
theorem Width.or (o : RArgs) : Width.Statement (.or o) := rWord_lt 0 3 o (by decide) (by decide)
theorem Width.xor (o : RArgs) : Width.Statement (.xor o) := rWord_lt 0 4 o (by decide) (by decide)
theorem Width.andn (o : RArgs) : Width.Statement (.andn o) := rWord_lt 0 5 o (by decide) (by decide)
theorem Width.shl (o : RArgs) : Width.Statement (.shl o) := rWord_lt 0 6 o (by decide) (by decide)
theorem Width.shr (o : RArgs) : Width.Statement (.shr o) := rWord_lt 0 7 o (by decide) (by decide)
theorem Width.sra (o : RArgs) : Width.Statement (.sra o) := rWord_lt 0 8 o (by decide) (by decide)
theorem Width.rotl (o : RArgs) : Width.Statement (.rotl o) := rWord_lt 0 9 o (by decide) (by decide)
theorem Width.min (o : RArgs) : Width.Statement (.min o) := rWord_lt 0 10 o (by decide) (by decide)
theorem Width.max (o : RArgs) : Width.Statement (.max o) := rWord_lt 0 11 o (by decide) (by decide)
theorem Width.minn (o : RArgs) : Width.Statement (.minn o) := rWord_lt 0 12 o (by decide) (by decide)
theorem Width.maxn (o : RArgs) : Width.Statement (.maxn o) := rWord_lt 0 13 o (by decide) (by decide)
theorem Width.mul (o : RArgs) : Width.Statement (.mul o) := rWord_lt 1 0 o (by decide) (by decide)
theorem Width.mulh (o : RArgs) : Width.Statement (.mulh o) := rWord_lt 1 1 o (by decide) (by decide)
theorem Width.mulhn (o : RArgs) : Width.Statement (.mulhn o) := rWord_lt 1 2 o (by decide) (by decide)
theorem Width.div (o : RArgs) : Width.Statement (.div o) := rWord_lt 1 3 o (by decide) (by decide)
theorem Width.divn (o : RArgs) : Width.Statement (.divn o) := rWord_lt 1 4 o (by decide) (by decide)
theorem Width.rem (o : RArgs) : Width.Statement (.rem o) := rWord_lt 1 5 o (by decide) (by decide)
theorem Width.remn (o : RArgs) : Width.Statement (.remn o) := rWord_lt 1 6 o (by decide) (by decide)
theorem Width.clz (o : RArgs) : Width.Statement (.clz o) := rWord_lt 2 0 o (by decide) (by decide)
theorem Width.ctz (o : RArgs) : Width.Statement (.ctz o) := rWord_lt 2 1 o (by decide) (by decide)
theorem Width.popc (o : RArgs) : Width.Statement (.popc o) := rWord_lt 2 2 o (by decide) (by decide)
theorem Width.sextb (o : RArgs) : Width.Statement (.sextb o) := rWord_lt 2 3 o (by decide) (by decide)
theorem Width.sexth (o : RArgs) : Width.Statement (.sexth o) := rWord_lt 2 4 o (by decide) (by decide)
theorem Width.sextw (o : RArgs) : Width.Statement (.sextw o) := rWord_lt 2 5 o (by decide) (by decide)
theorem Width.zextb (o : RArgs) : Width.Statement (.zextb o) := rWord_lt 2 6 o (by decide) (by decide)
theorem Width.zexth (o : RArgs) : Width.Statement (.zexth o) := rWord_lt 2 7 o (by decide) (by decide)
theorem Width.zextw (o : RArgs) : Width.Statement (.zextw o) := rWord_lt 2 8 o (by decide) (by decide)
theorem Width.addi (o : IArgs) : Width.Statement (.addi o) := iWord_lt 3 0 o (by decide) (by decide)
theorem Width.andi (o : IArgs) : Width.Statement (.andi o) := iWord_lt 3 1 o (by decide) (by decide)
theorem Width.ori (o : IArgs) : Width.Statement (.ori o) := iWord_lt 3 2 o (by decide) (by decide)
theorem Width.xori (o : IArgs) : Width.Statement (.xori o) := iWord_lt 3 3 o (by decide) (by decide)
theorem Width.shli (o : IArgs) : Width.Statement (.shli o) := iWord_lt 3 4 o (by decide) (by decide)
theorem Width.shri (o : IArgs) : Width.Statement (.shri o) := iWord_lt 3 5 o (by decide) (by decide)
theorem Width.srai (o : IArgs) : Width.Statement (.srai o) := iWord_lt 3 6 o (by decide) (by decide)
theorem Width.lih (o : UArgs) : Width.Statement (.lih o) := uWord_lt 4 o (by decide)
theorem Width.addpc (o : UArgs) : Width.Statement (.addpc o) := uWord_lt 5 o (by decide)
theorem Width.cmp (o : CArgs) : Width.Statement (.cmp o) := cWord_lt 6 0 o (by decide) (by decide)
theorem Width.cmpImm (o : CArgs) : Width.Statement (.cmpImm o) := cWord_lt 6 1 o (by decide) (by decide)
theorem Width.fcmp (o : CArgs) : Width.Statement (.fcmp o) := cWord_lt 7 0 o (by decide) (by decide)
theorem Width.fcmpD (o : CArgs) : Width.Statement (.fcmpD o) := cWord_lt 7 1 o (by decide) (by decide)
theorem Width.pand (o : RArgs) : Width.Statement (.pand o) := rWord_lt 8 0 o (by decide) (by decide)
theorem Width.por (o : RArgs) : Width.Statement (.por o) := rWord_lt 8 1 o (by decide) (by decide)
theorem Width.pxor (o : RArgs) : Width.Statement (.pxor o) := rWord_lt 8 2 o (by decide) (by decide)
theorem Width.pandn (o : RArgs) : Width.Statement (.pandn o) := rWord_lt 8 3 o (by decide) (by decide)
theorem Width.pmov (o : RArgs) : Width.Statement (.pmov o) := rWord_lt 8 4 o (by decide) (by decide)
theorem Width.pnot (o : RArgs) : Width.Statement (.pnot o) := rWord_lt 8 5 o (by decide) (by decide)
theorem Width.b (o : BArgs) : Width.Statement (.b o) := bWord_lt 9 o (by decide)
theorem Width.bp (o : JArgs) : Width.Statement (.bp o) := jWord_lt 10 0 o (by decide) (by decide)
theorem Width.call (o : JArgs) : Width.Statement (.call o) := jWord_lt 10 1 o (by decide) (by decide)
theorem Width.callr (o : IArgs) : Width.Statement (.callr o) := iWord_lt 11 0 o (by decide) (by decide)
theorem Width.bqNz (o : BqArgs) : Width.Statement (.bqNz o) := bqWord_lt 12 0 o (by decide) (by decide)
theorem Width.bqZ (o : BqArgs) : Width.Statement (.bqZ o) := bqWord_lt 12 1 o (by decide) (by decide)
theorem Width.ldb (o : LArgs) : Width.Statement (.ldb o) := lWord_lt 13 0 o (by decide) (by decide)
theorem Width.ldh (o : LArgs) : Width.Statement (.ldh o) := lWord_lt 13 1 o (by decide) (by decide)
theorem Width.ldw (o : LArgs) : Width.Statement (.ldw o) := lWord_lt 13 2 o (by decide) (by decide)
theorem Width.ldd (o : LArgs) : Width.Statement (.ldd o) := lWord_lt 13 3 o (by decide) (by decide)
theorem Width.ldbn (o : LArgs) : Width.Statement (.ldbn o) := lWord_lt 13 4 o (by decide) (by decide)
theorem Width.ldhn (o : LArgs) : Width.Statement (.ldhn o) := lWord_lt 13 5 o (by decide) (by decide)
theorem Width.ldwn (o : LArgs) : Width.Statement (.ldwn o) := lWord_lt 13 6 o (by decide) (by decide)
theorem Width.stb (o : LArgs) : Width.Statement (.stb o) := lWord_lt 14 0 o (by decide) (by decide)
theorem Width.sth (o : LArgs) : Width.Statement (.sth o) := lWord_lt 14 1 o (by decide) (by decide)
theorem Width.stw (o : LArgs) : Width.Statement (.stw o) := lWord_lt 14 2 o (by decide) (by decide)
theorem Width.std (o : LArgs) : Width.Statement (.std o) := lWord_lt 14 3 o (by decide) (by decide)
theorem Width.ldacq (o : AArgs) : Width.Statement (.ldacq o) := aWord_lt 15 0 o (by decide) (by decide)
theorem Width.strel (o : AArgs) : Width.Statement (.strel o) := aWord_lt 15 1 o (by decide) (by decide)
theorem Width.ldl (o : AArgs) : Width.Statement (.ldl o) := aWord_lt 15 2 o (by decide) (by decide)
theorem Width.stc (o : AArgs) : Width.Statement (.stc o) := aWord_lt 15 3 o (by decide) (by decide)
theorem Width.fadd (o : RArgs) : Width.Statement (.fadd o) := rWord_lt 16 0 o (by decide) (by decide)
theorem Width.fsub (o : RArgs) : Width.Statement (.fsub o) := rWord_lt 16 1 o (by decide) (by decide)
theorem Width.fmul (o : RArgs) : Width.Statement (.fmul o) := rWord_lt 16 2 o (by decide) (by decide)
theorem Width.fdiv (o : RArgs) : Width.Statement (.fdiv o) := rWord_lt 16 3 o (by decide) (by decide)
theorem Width.fsqrt (o : RArgs) : Width.Statement (.fsqrt o) := rWord_lt 16 4 o (by decide) (by decide)
theorem Width.fmin (o : RArgs) : Width.Statement (.fmin o) := rWord_lt 16 5 o (by decide) (by decide)
theorem Width.fmax (o : RArgs) : Width.Statement (.fmax o) := rWord_lt 16 6 o (by decide) (by decide)
theorem Width.fma (o : RArgs) : Width.Statement (.fma o) := rWord_lt 16 7 o (by decide) (by decide)
theorem Width.fnma (o : RArgs) : Width.Statement (.fnma o) := rWord_lt 16 8 o (by decide) (by decide)
theorem Width.fcvti (o : RArgs) : Width.Statement (.fcvti o) := rWord_lt 16 9 o (by decide) (by decide)
theorem Width.fcvtf (o : RArgs) : Width.Statement (.fcvtf o) := rWord_lt 16 10 o (by decide) (by decide)
theorem Width.fcvtp (o : RArgs) : Width.Statement (.fcvtp o) := rWord_lt 16 11 o (by decide) (by decide)
theorem Width.faddD (o : RArgs) : Width.Statement (.faddD o) := rWord_lt 17 0 o (by decide) (by decide)
theorem Width.fsubD (o : RArgs) : Width.Statement (.fsubD o) := rWord_lt 17 1 o (by decide) (by decide)
theorem Width.fmulD (o : RArgs) : Width.Statement (.fmulD o) := rWord_lt 17 2 o (by decide) (by decide)
theorem Width.fdivD (o : RArgs) : Width.Statement (.fdivD o) := rWord_lt 17 3 o (by decide) (by decide)
theorem Width.fsqrtD (o : RArgs) : Width.Statement (.fsqrtD o) := rWord_lt 17 4 o (by decide) (by decide)
theorem Width.fminD (o : RArgs) : Width.Statement (.fminD o) := rWord_lt 17 5 o (by decide) (by decide)
theorem Width.fmaxD (o : RArgs) : Width.Statement (.fmaxD o) := rWord_lt 17 6 o (by decide) (by decide)
theorem Width.fmaD (o : RArgs) : Width.Statement (.fmaD o) := rWord_lt 17 7 o (by decide) (by decide)
theorem Width.fnmaD (o : RArgs) : Width.Statement (.fnmaD o) := rWord_lt 17 8 o (by decide) (by decide)
theorem Width.fcvtiD (o : RArgs) : Width.Statement (.fcvtiD o) := rWord_lt 17 9 o (by decide) (by decide)
theorem Width.fcvtfD (o : RArgs) : Width.Statement (.fcvtfD o) := rWord_lt 17 10 o (by decide) (by decide)
theorem Width.fcvtpD (o : RArgs) : Width.Statement (.fcvtpD o) := rWord_lt 17 11 o (by decide) (by decide)
theorem Width.csrr (o : IArgs) : Width.Statement (.csrr o) := iWord_lt 18 0 o (by decide) (by decide)
theorem Width.csrw (o : IArgs) : Width.Statement (.csrw o) := iWord_lt 18 1 o (by decide) (by decide)
theorem Width.csrx (o : IArgs) : Width.Statement (.csrx o) := iWord_lt 18 2 o (by decide) (by decide)
theorem Width.svc (o : RArgs) : Width.Statement (.svc o) := rWord_lt 19 0 o (by decide) (by decide)
theorem Width.trap (o : RArgs) : Width.Statement (.trap o) := rWord_lt 19 1 o (by decide) (by decide)
theorem Width.tret (o : RArgs) : Width.Statement (.tret o) := rWord_lt 19 2 o (by decide) (by decide)
theorem Width.uiret (o : RArgs) : Width.Statement (.uiret o) := rWord_lt 19 3 o (by decide) (by decide)
theorem Width.idle (o : RArgs) : Width.Statement (.idle o) := rWord_lt 19 4 o (by decide) (by decide)
theorem Width.nop (o : RArgs) : Width.Statement (.nop o) := rWord_lt 19 5 o (by decide) (by decide)
theorem Width.brk (o : RArgs) : Width.Statement (.brk o) := rWord_lt 19 6 o (by decide) (by decide)
theorem Width.exit (o : RArgs) : Width.Statement (.exit o) := rWord_lt 19 7 o (by decide) (by decide)
theorem Width.vadd (o : VArgs) : Width.Statement (.vadd o) := vWord_lt 20 0 o (by decide) (by decide)
theorem Width.vsub (o : VArgs) : Width.Statement (.vsub o) := vWord_lt 20 1 o (by decide) (by decide)
theorem Width.vmul (o : VArgs) : Width.Statement (.vmul o) := vWord_lt 20 2 o (by decide) (by decide)
theorem Width.vmulh (o : VArgs) : Width.Statement (.vmulh o) := vWord_lt 20 3 o (by decide) (by decide)
theorem Width.vmulhn (o : VArgs) : Width.Statement (.vmulhn o) := vWord_lt 20 4 o (by decide) (by decide)
theorem Width.vmin (o : VArgs) : Width.Statement (.vmin o) := vWord_lt 20 5 o (by decide) (by decide)
theorem Width.vmax (o : VArgs) : Width.Statement (.vmax o) := vWord_lt 20 6 o (by decide) (by decide)
theorem Width.vminn (o : VArgs) : Width.Statement (.vminn o) := vWord_lt 20 7 o (by decide) (by decide)
theorem Width.vmaxn (o : VArgs) : Width.Statement (.vmaxn o) := vWord_lt 20 8 o (by decide) (by decide)
theorem Width.vand (o : VArgs) : Width.Statement (.vand o) := vWord_lt 20 9 o (by decide) (by decide)
theorem Width.vor (o : VArgs) : Width.Statement (.vor o) := vWord_lt 20 10 o (by decide) (by decide)
theorem Width.vxor (o : VArgs) : Width.Statement (.vxor o) := vWord_lt 20 11 o (by decide) (by decide)
theorem Width.vandn (o : VArgs) : Width.Statement (.vandn o) := vWord_lt 20 12 o (by decide) (by decide)
theorem Width.vshl (o : VArgs) : Width.Statement (.vshl o) := vWord_lt 20 13 o (by decide) (by decide)
theorem Width.vshr (o : VArgs) : Width.Statement (.vshr o) := vWord_lt 20 14 o (by decide) (by decide)
theorem Width.vsra (o : VArgs) : Width.Statement (.vsra o) := vWord_lt 20 15 o (by decide) (by decide)
theorem Width.vsadd (o : VArgs) : Width.Statement (.vsadd o) := vWord_lt 21 0 o (by decide) (by decide)
theorem Width.vssub (o : VArgs) : Width.Statement (.vssub o) := vWord_lt 21 1 o (by decide) (by decide)
theorem Width.vsaddn (o : VArgs) : Width.Statement (.vsaddn o) := vWord_lt 21 2 o (by decide) (by decide)
theorem Width.vssubn (o : VArgs) : Width.Statement (.vssubn o) := vWord_lt 21 3 o (by decide) (by decide)
theorem Width.vabsd (o : VArgs) : Width.Statement (.vabsd o) := vWord_lt 21 4 o (by decide) (by decide)
theorem Width.vclz (o : VArgs) : Width.Statement (.vclz o) := vWord_lt 21 5 o (by decide) (by decide)
theorem Width.vpopc (o : VArgs) : Width.Statement (.vpopc o) := vWord_lt 21 6 o (by decide) (by decide)
theorem Width.vneg (o : VArgs) : Width.Statement (.vneg o) := vWord_lt 21 7 o (by decide) (by decide)
theorem Width.vfadd (o : VArgs) : Width.Statement (.vfadd o) := vWord_lt 22 0 o (by decide) (by decide)
theorem Width.vfsub (o : VArgs) : Width.Statement (.vfsub o) := vWord_lt 22 1 o (by decide) (by decide)
theorem Width.vfmul (o : VArgs) : Width.Statement (.vfmul o) := vWord_lt 22 2 o (by decide) (by decide)
theorem Width.vfma (o : VArgs) : Width.Statement (.vfma o) := vWord_lt 22 3 o (by decide) (by decide)
theorem Width.vfms (o : VArgs) : Width.Statement (.vfms o) := vWord_lt 22 4 o (by decide) (by decide)
theorem Width.vfnma (o : VArgs) : Width.Statement (.vfnma o) := vWord_lt 22 5 o (by decide) (by decide)
theorem Width.vfdiv (o : VArgs) : Width.Statement (.vfdiv o) := vWord_lt 22 6 o (by decide) (by decide)
theorem Width.vfsqrt (o : VArgs) : Width.Statement (.vfsqrt o) := vWord_lt 22 7 o (by decide) (by decide)
theorem Width.vfmin (o : VArgs) : Width.Statement (.vfmin o) := vWord_lt 22 8 o (by decide) (by decide)
theorem Width.vfmax (o : VArgs) : Width.Statement (.vfmax o) := vWord_lt 22 9 o (by decide) (by decide)
theorem Width.vfabs (o : VArgs) : Width.Statement (.vfabs o) := vWord_lt 22 10 o (by decide) (by decide)
theorem Width.vfneg (o : VArgs) : Width.Statement (.vfneg o) := vWord_lt 22 11 o (by decide) (by decide)
theorem Width.vfclass (o : VArgs) : Width.Statement (.vfclass o) := vWord_lt 22 12 o (by decide) (by decide)
theorem Width.vcmp (o : VCmpArgs) : Width.Statement (.vcmp o) := vCmpWord_lt 23 o (by decide)
theorem Width.vfcmp (o : VCmpArgs) : Width.Statement (.vfcmp o) := vCmpWord_lt 24 o (by decide)
theorem Width.kand (o : VArgs) : Width.Statement (.kand o) := vWord_lt 25 0 o (by decide) (by decide)
theorem Width.kor (o : VArgs) : Width.Statement (.kor o) := vWord_lt 25 1 o (by decide) (by decide)
theorem Width.kxor (o : VArgs) : Width.Statement (.kxor o) := vWord_lt 25 2 o (by decide) (by decide)
theorem Width.kandn (o : VArgs) : Width.Statement (.kandn o) := vWord_lt 25 3 o (by decide) (by decide)
theorem Width.knot (o : VArgs) : Width.Statement (.knot o) := vWord_lt 25 4 o (by decide) (by decide)
theorem Width.kmov (o : VArgs) : Width.Statement (.kmov o) := vWord_lt 25 5 o (by decide) (by decide)
theorem Width.kpopc (o : VArgs) : Width.Statement (.kpopc o) := vWord_lt 25 6 o (by decide) (by decide)
theorem Width.kfirst (o : VArgs) : Width.Statement (.kfirst o) := vWord_lt 25 7 o (by decide) (by decide)
theorem Width.vmv (o : VArgs) : Width.Statement (.vmv o) := vWord_lt 26 0 o (by decide) (by decide)
theorem Width.vmvX (o : VArgs) : Width.Statement (.vmvX o) := vWord_lt 26 0 o (by decide) (by decide)
theorem Width.vbcast (o : VArgs) : Width.Statement (.vbcast o) := vWord_lt 26 1 o (by decide) (by decide)
theorem Width.vsel (o : VArgs) : Width.Statement (.vsel o) := vWord_lt 26 2 o (by decide) (by decide)
theorem Width.vslideup (o : VArgs) : Width.Statement (.vslideup o) := vWord_lt 26 3 o (by decide) (by decide)
theorem Width.vslidedn (o : VArgs) : Width.Statement (.vslidedn o) := vWord_lt 26 4 o (by decide) (by decide)
theorem Width.vgathr (o : VArgs) : Width.Statement (.vgathr o) := vWord_lt 26 5 o (by decide) (by decide)
theorem Width.vcompr (o : VArgs) : Width.Statement (.vcompr o) := vWord_lt 26 6 o (by decide) (by decide)
theorem Width.vexpnd (o : VArgs) : Width.Statement (.vexpnd o) := vWord_lt 26 7 o (by decide) (by decide)
theorem Width.viota (o : VArgs) : Width.Statement (.viota o) := vWord_lt 26 8 o (by decide) (by decide)
theorem Width.vexts (o : VArgs) : Width.Statement (.vexts o) := vWord_lt 26 9 o (by decide) (by decide)
theorem Width.vinss (o : VArgs) : Width.Statement (.vinss o) := vWord_lt 26 10 o (by decide) (by decide)
theorem Width.vrowmv (o : VArgs) : Width.Statement (.vrowmv o) := vWord_lt 26 11 o (by decide) (by decide)
theorem Width.vtrn (o : VArgs) : Width.Statement (.vtrn o) := vWord_lt 26 12 o (by decide) (by decide)
theorem Width.vcvt (o : VArgs) : Width.Statement (.vcvt o) := vWord_lt 27 0 o (by decide) (by decide)
theorem Width.vcbenc (o : VArgs) : Width.Statement (.vcbenc o) := vWord_lt 27 1 o (by decide) (by decide)
theorem Width.vcbdec (o : VArgs) : Width.Statement (.vcbdec o) := vWord_lt 27 2 o (by decide) (by decide)
theorem Width.vpack (o : VArgs) : Width.Statement (.vpack o) := vWord_lt 27 3 o (by decide) (by decide)
theorem Width.vunpk (o : VArgs) : Width.Statement (.vunpk o) := vWord_lt 27 4 o (by decide) (by decide)
theorem Width.vredo (o : VArgs) : Width.Statement (.vredo o) := vWord_lt 28 0 o (by decide) (by decide)
theorem Width.vredt (o : VArgs) : Width.Statement (.vredt o) := vWord_lt 28 1 o (by decide) (by decide)
theorem Width.vredmax (o : VArgs) : Width.Statement (.vredmax o) := vWord_lt 28 2 o (by decide) (by decide)
theorem Width.vredmin (o : VArgs) : Width.Statement (.vredmin o) := vWord_lt 28 3 o (by decide) (by decide)
theorem Width.vredand (o : VArgs) : Width.Statement (.vredand o) := vWord_lt 28 4 o (by decide) (by decide)
theorem Width.vredor (o : VArgs) : Width.Statement (.vredor o) := vWord_lt 28 5 o (by decide) (by decide)
theorem Width.vdoto (o : VArgs) : Width.Statement (.vdoto o) := vWord_lt 28 6 o (by decide) (by decide)
theorem Width.vdott (o : VArgs) : Width.Statement (.vdott o) := vWord_lt 28 7 o (by decide) (by decide)
theorem Width.vexp2 (o : VArgs) : Width.Statement (.vexp2 o) := vWord_lt 29 0 o (by decide) (by decide)
theorem Width.vlog2 (o : VArgs) : Width.Statement (.vlog2 o) := vWord_lt 29 1 o (by decide) (by decide)
theorem Width.vrcp (o : VArgs) : Width.Statement (.vrcp o) := vWord_lt 29 2 o (by decide) (by decide)
theorem Width.vrsq (o : VArgs) : Width.Statement (.vrsq o) := vWord_lt 29 3 o (by decide) (by decide)
theorem Width.vsin (o : VArgs) : Width.Statement (.vsin o) := vWord_lt 29 4 o (by decide) (by decide)
theorem Width.vcos (o : VArgs) : Width.Statement (.vcos o) := vWord_lt 29 5 o (by decide) (by decide)
theorem Width.vtanh (o : VArgs) : Width.Statement (.vtanh o) := vWord_lt 29 6 o (by decide) (by decide)
theorem Width.vsigm (o : VArgs) : Width.Statement (.vsigm o) := vWord_lt 29 7 o (by decide) (by decide)
theorem Width.vmrg (o : VArgs) : Width.Statement (.vmrg o) := vWord_lt 30 0 o (by decide) (by decide)
theorem Width.vmrgi (o : VArgs) : Width.Statement (.vmrgi o) := vWord_lt 30 1 o (by decide) (by decide)
theorem Width.vbsrch (o : VArgs) : Width.Statement (.vbsrch o) := vWord_lt 30 2 o (by decide) (by decide)
theorem Width.vconf (o : RArgs) : Width.Statement (.vconf o) := rWord_lt 31 0 o (by decide) (by decide)
theorem Width.vsetl (o : RArgs) : Width.Statement (.vsetl o) := rWord_lt 31 1 o (by decide) (by decide)
theorem Width.vclaim (o : RArgs) : Width.Statement (.vclaim o) := rWord_lt 31 2 o (by decide) (by decide)
theorem Width.vclaimp (o : RArgs) : Width.Statement (.vclaimp o) := rWord_lt 31 3 o (by decide) (by decide)
theorem Width.vsett (o : RArgs) : Width.Statement (.vsett o) := rWord_lt 31 4 o (by decide) (by decide)
theorem Width.vcbld (o : RArgs) : Width.Statement (.vcbld o) := rWord_lt 31 5 o (by decide) (by decide)
theorem Width.wthset (o : RArgs) : Width.Statement (.wthset o) := rWord_lt 31 6 o (by decide) (by decide)
theorem Width.vld (o : MArgs) : Width.Statement (.vld o) := mWord_lt 32 o (by decide)
theorem Width.vst (o : MArgs) : Width.Statement (.vst o) := mWord_lt 33 o (by decide)
theorem Width.vstn (o : MArgs) : Width.Statement (.vstn o) := mWord_lt 34 o (by decide)
theorem Width.vldcl (o : MArgs) : Width.Statement (.vldcl o) := mWord_lt 35 o (by decide)
theorem Width.vstcl (o : MArgs) : Width.Statement (.vstcl o) := mWord_lt 36 o (by decide)
theorem Width.vgll (o : MArgs) : Width.Statement (.vgll o) := mWord_lt 37 o (by decide)
theorem Width.vscc (o : MArgs) : Width.Statement (.vscc o) := mWord_lt 38 o (by decide)
theorem Width.vlda (o : MArgs) : Width.Statement (.vlda o) := mWord_lt 39 o (by decide)
theorem Width.vstl (o : MArgs) : Width.Statement (.vstl o) := mWord_lt 40 o (by decide)
theorem Width.qdrain (o : RArgs) : Width.Statement (.qdrain o) := rWord_lt 41 0 o (by decide) (by decide)
theorem Width.fence (o : RArgs) : Width.Statement (.fence o) := rWord_lt 41 1 o (by decide) (by decide)
theorem Width.efence (o : RArgs) : Width.Statement (.efence o) := rWord_lt 41 2 o (by decide) (by decide)
theorem Width.waitge (o : RArgs) : Width.Statement (.waitge o) := rWord_lt 41 3 o (by decide) (by decide)
theorem Width.waitdc (o : RArgs) : Width.Statement (.waitdc o) := rWord_lt 41 4 o (by decide) (by decide)
theorem Width.bar (o : RArgs) : Width.Statement (.bar o) := rWord_lt 41 5 o (by decide) (by decide)
theorem Width.hgive (o : RArgs) : Width.Statement (.hgive o) := rWord_lt 41 6 o (by decide) (by decide)
theorem Width.htake (o : RArgs) : Width.Statement (.htake o) := rWord_lt 41 7 o (by decide) (by decide)
theorem Width.enq (o : RArgs) : Width.Statement (.enq o) := rWord_lt 42 0 o (by decide) (by decide)
theorem Width.deq (o : RArgs) : Width.Statement (.deq o) := rWord_lt 42 1 o (by decide) (by decide)
theorem Width.venq (o : RArgs) : Width.Statement (.venq o) := rWord_lt 42 2 o (by decide) (by decide)
theorem Width.vdeq (o : RArgs) : Width.Statement (.vdeq o) := rWord_lt 42 3 o (by decide) (by decide)
theorem Width.stream (o : RArgs) : Width.Statement (.stream o) := rWord_lt 42 4 o (by decide) (by decide)
theorem Width.charm (o : RArgs) : Width.Statement (.charm o) := rWord_lt 42 5 o (by decide) (by decide)
theorem Width.chstat (o : RArgs) : Width.Statement (.chstat o) := rWord_lt 42 6 o (by decide) (by decide)
theorem Width.chclr (o : RArgs) : Width.Statement (.chclr o) := rWord_lt 42 7 o (by decide) (by decide)
theorem Width.tdep (o : RArgs) : Width.Statement (.tdep o) := rWord_lt 43 0 o (by decide) (by decide)
theorem Width.tcpy (o : RArgs) : Width.Statement (.tcpy o) := rWord_lt 43 1 o (by decide) (by decide)
theorem Width.ttak (o : RArgs) : Width.Statement (.ttak o) := rWord_lt 43 2 o (by decide) (by decide)
theorem Width.tcpyn (o : RArgs) : Width.Statement (.tcpyn o) := rWord_lt 43 3 o (by decide) (by decide)
theorem Width.ttakn (o : RArgs) : Width.Statement (.ttakn o) := rWord_lt 43 4 o (by decide) (by decide)
theorem Width.treg (o : RArgs) : Width.Statement (.treg o) := rWord_lt 43 5 o (by decide) (by decide)
theorem Width.tfree (o : RArgs) : Width.Statement (.tfree o) := rWord_lt 43 6 o (by decide) (by decide)
theorem Width.gsub (o : VArgs) : Width.Statement (.gsub o) := vWord_lt 44 0 o (by decide) (by decide)
theorem Width.gadd (o : VArgs) : Width.Statement (.gadd o) := vWord_lt 44 1 o (by decide) (by decide)
theorem Width.gscale (o : VArgs) : Width.Statement (.gscale o) := vWord_lt 44 2 o (by decide) (by decide)
theorem Width.gdot (o : VArgs) : Width.Statement (.gdot o) := vWord_lt 44 3 o (by decide) (by decide)
theorem Width.gcross (o : VArgs) : Width.Statement (.gcross o) := vWord_lt 44 4 o (by decide) (by decide)
theorem Width.glen (o : VArgs) : Width.Statement (.glen o) := vWord_lt 44 5 o (by decide) (by decide)
theorem Width.gcvt (o : VArgs) : Width.Statement (.gcvt o) := vWord_lt 44 6 o (by decide) (by decide)
theorem Width.gxfm (o : VArgs) : Width.Statement (.gxfm o) := vWord_lt 44 7 o (by decide) (by decide)
theorem Width.gtag (o : VArgs) : Width.Statement (.gtag o) := vWord_lt 44 8 o (by decide) (by decide)
theorem Width.gsettag (o : VArgs) : Width.Statement (.gsettag o) := vWord_lt 44 9 o (by decide) (by decide)
theorem Width.gchk (o : VArgs) : Width.Statement (.gchk o) := vWord_lt 44 10 o (by decide) (by decide)
theorem Width.gretag (o : VArgs) : Width.Statement (.gretag o) := vWord_lt 44 11 o (by decide) (by decide)
theorem Width.fnew (o : RArgs) : Width.Statement (.fnew o) := rWord_lt 45 0 o (by decide) (by decide)
theorem Width.ffree (o : RArgs) : Width.Statement (.ffree o) := rWord_lt 45 1 o (by decide) (by decide)
theorem Width.fupd (o : RArgs) : Width.Statement (.fupd o) := rWord_lt 45 2 o (by decide) (by decide)
theorem Width.fsplit (o : RArgs) : Width.Statement (.fsplit o) := rWord_lt 45 3 o (by decide) (by decide)
theorem Width.frepar (o : RArgs) : Width.Statement (.frepar o) := rWord_lt 45 4 o (by decide) (by decide)
theorem Width.ffence (o : RArgs) : Width.Statement (.ffence o) := rWord_lt 45 5 o (by decide) (by decide)
theorem Width.gcell (o : VArgs) : Width.Statement (.gcell o) := vWord_lt 46 0 o (by decide) (by decide)
theorem Width.hins (o : VArgs) : Width.Statement (.hins o) := vWord_lt 46 1 o (by decide) (by decide)
theorem Width.hlook (o : VArgs) : Width.Statement (.hlook o) := vWord_lt 46 2 o (by decide) (by decide)
theorem Width.hclr (o : VArgs) : Width.Statement (.hclr o) := vWord_lt 46 3 o (by decide) (by decide)
theorem Width.wfwd (o : VArgs) : Width.Statement (.wfwd o) := vWord_lt 47 0 o (by decide) (by decide)
theorem Width.winv (o : VArgs) : Width.Statement (.winv o) := vWord_lt 47 1 o (by decide) (by decide)
theorem Width.wtag (o : VArgs) : Width.Statement (.wtag o) := vWord_lt 47 2 o (by decide) (by decide)
theorem Width.wsettag (o : VArgs) : Width.Statement (.wsettag o) := vWord_lt 47 3 o (by decide) (by decide)
theorem Width.mcfg (o : RArgs) : Width.Statement (.mcfg o) := rWord_lt 48 0 o (by decide) (by decide)
theorem Width.mldb (o : RArgs) : Width.Statement (.mldb o) := rWord_lt 48 1 o (by decide) (by decide)
theorem Width.mmac (o : RArgs) : Width.Statement (.mmac o) := rWord_lt 48 2 o (by decide) (by decide)
theorem Width.mdrain (o : RArgs) : Width.Statement (.mdrain o) := rWord_lt 48 3 o (by decide) (by decide)
theorem Width.mzero (o : RArgs) : Width.Statement (.mzero o) := rWord_lt 48 4 o (by decide) (by decide)
theorem Width.mwait (o : RArgs) : Width.Statement (.mwait o) := rWord_lt 48 5 o (by decide) (by decide)
theorem Width.msync (o : RArgs) : Width.Statement (.msync o) := rWord_lt 48 6 o (by decide) (by decide)
theorem Width.mstep (o : RArgs) : Width.Statement (.mstep o) := rWord_lt 48 7 o (by decide) (by decide)
theorem Width.launch (o : RArgs) : Width.Statement (.launch o) := rWord_lt 49 0 o (by decide) (by decide)
theorem Width.spawn (o : RArgs) : Width.Statement (.spawn o) := rWord_lt 49 1 o (by decide) (by decide)
theorem Width.steal (o : RArgs) : Width.Statement (.steal o) := rWord_lt 49 2 o (by decide) (by decide)
theorem Width.taskget (o : RArgs) : Width.Statement (.taskget o) := rWord_lt 49 3 o (by decide) (by decide)
theorem Width.yield (o : RArgs) : Width.Statement (.yield o) := rWord_lt 49 4 o (by decide) (by decide)
theorem Width.tlbi (o : RArgs) : Width.Statement (.tlbi o) := rWord_lt 50 0 o (by decide) (by decide)
theorem Width.msq (o : RArgs) : Width.Statement (.msq o) := rWord_lt 50 1 o (by decide) (by decide)
theorem Width.migrate (o : RArgs) : Width.Statement (.migrate o) := rWord_lt 50 2 o (by decide) (by decide)
theorem Width.keyld (o : RArgs) : Width.Statement (.keyld o) := rWord_lt 50 3 o (by decide) (by decide)
theorem Width.actbl (o : RArgs) : Width.Statement (.actbl o) := rWord_lt 50 4 o (by decide) (by decide)
theorem Width.preempt (o : RArgs) : Width.Statement (.preempt o) := rWord_lt 50 5 o (by decide) (by decide)
theorem Width.resume (o : RArgs) : Width.Statement (.resume o) := rWord_lt 50 6 o (by decide) (by decide)
theorem Width.pfx (o : PArgs) : Width.Statement (.pfx o) := pWord_lt 51 0 o (by decide) (by decide)
theorem Width.pfxCopy (o : PArgs) : Width.Statement (.pfxCopy o) := pWord_lt 51 1 o (by decide) (by decide)
theorem Width.cAdd (o : KArgs) : Width.Statement (.cAdd o) := kWord_lt 0 o (by decide)
theorem Width.cSub (o : KArgs) : Width.Statement (.cSub o) := kWord_lt 1 o (by decide)
theorem Width.cAnd (o : KArgs) : Width.Statement (.cAnd o) := kWord_lt 2 o (by decide)
theorem Width.cOr (o : KArgs) : Width.Statement (.cOr o) := kWord_lt 3 o (by decide)
theorem Width.cXor (o : KArgs) : Width.Statement (.cXor o) := kWord_lt 4 o (by decide)
theorem Width.cShl (o : KArgs) : Width.Statement (.cShl o) := kWord_lt 5 o (by decide)
theorem Width.cShr (o : KArgs) : Width.Statement (.cShr o) := kWord_lt 6 o (by decide)
theorem Width.cAddi (o : KArgs) : Width.Statement (.cAddi o) := kWord_lt 7 o (by decide)
theorem Width.cMov (o : KArgs) : Width.Statement (.cMov o) := kWord_lt 8 o (by decide)
theorem Width.cLdd (o : KArgs) : Width.Statement (.cLdd o) := kWord_lt 9 o (by decide)
theorem Width.cStd (o : KArgs) : Width.Statement (.cStd o) := kWord_lt 10 o (by decide)
theorem Width.cBnz (o : KArgs) : Width.Statement (.cBnz o) := kWord_lt 11 o (by decide)
theorem Width.cNop (o : KArgs) : Width.Statement (.cNop o) := kWord_lt 31 o (by decide)
theorem Width.migrationComplete (o : GranuleArgs) : Width.Statement (.migrationComplete o) := Nat.zero_lt_one
theorem Width.ulianeLinkUp (o : LinkArgs) : Width.Statement (.ulianeLinkUp o) := Nat.zero_lt_one
theorem Width.hostWindowNoAnswer (o : HostArgs) : Width.Statement (.hostWindowNoAnswer o) := Nat.zero_lt_one
theorem Width.laneGroupArbitration (o : ArbiterArgs) : Width.Statement (.laneGroupArbitration o) := Nat.zero_lt_one

end Sys2Proof.Laws
end

