-- ==== Sys2Proof/Laws/Vector.lean ====
section
/-! SUPPORT. What the shared operations of the vector words do to a ready solo hart. -/

namespace Sys2Proof.Machine

theorem homeOf_solo (h : Hart) (n : Nat) (hs : h.role = .solo) :
    homeOf h n = none ∨ ∃ r, homeOf h n = some (.own r) := by
  unfold homeOf
  rw [hs]
  by_cases hn : n * 2 ^ h.span < 32
  · exact Or.inr ⟨_, if_pos hn⟩
  · exact Or.inl (if_neg hn)
theorem isRing_solo (h : Hart) (g : Group) (hs : h.role = .solo) : g.isRing h = false := by
  unfold Group.isRing
  rcases homeOf_solo h g.first hs with e | ⟨r, e⟩ <;> rw [e]
theorem queueHere_ready (s : State) (hq : s.h.queueing = false) : queueHere s = .ok () s := by
  simp [queueHere, act_bind, getH_apply, hq, act_pure]
theorem ringsReady_solo (reads writes : List Group) (s : State) (hs : s.h.role = .solo) (ho : s.h.ops = [])
    (hq : s.h.queueing = false) :
    ringsReady reads writes s = .ok () s := by
  have h1 : (reads.all fun g => match homeOf s.h g.first with
      | some (.head r) => decide (g.n ≤ (ringOf s r).length)
      | _ => true) = true := by
    rw [List.all_eq_true]
    intro g _
    rcases homeOf_solo s.h g.first hs with e | ⟨r, e⟩ <;> simp [e]
  have h2 : (writes.all fun g => match homeOf s.h g.first with
      | some (.tail r) => decide ((ringOf s r).length + g.n ≤ 4)
      | _ => true) = true := by
    rw [List.all_eq_true]
    intro g _
    rcases homeOf_solo s.h g.first hs with e | ⟨r, e⟩ <;> simp [e]
  have h3 : ((reads ++ writes).any fun g => g.isRing s.h) = false := by
    rw [List.any_eq_false]
    intro g _
    simp [isRing_solo s.h g hs]
  unfold ringsReady
  simp only [act_bind, queueHere_ready s hq, get_apply, ho, List.any_nil, Bool.false_eq_true, if_false, h3]
  rw [if_neg (by
    simp only [Bool.not_eq_true', Bool.not_eq_false, Bool.and_eq_true]
    exact ⟨h1, h2⟩)]
  rfl
theorem headsOf_solo (h : Hart) (gs : List Group) (hs : h.role = .solo) : headsOf h gs = [] := by
  have : (gs.filterMap fun g => match homeOf h g.first with
      | some (.head r) => some (r, g.n)
      | _ => none) = [] := by
    rw [List.filterMap_eq_nil_iff]
    intro g _
    rcases homeOf_solo h g.first hs with e | ⟨r, e⟩ <;> simp [e]
  exact (congrArg List.dedup this).trans List.dedup_nil
theorem popHeads_solo (gs : List Group) (s : State) (hs : s.h.role = .solo) : popHeads gs s = s := by
  simp [popHeads, headsOf_solo _ _ hs]

/-! Writing rows touches rows only. -/

theorem setOwnRow_rows (h : Hart) (row : Nat) (w : Wide) : h.setOwnRow row w = { h with rows := (h.setOwnRow row w).rows } := by
  unfold Hart.setOwnRow
  generalize List.range (2 ^ h.span) = l
  induction l generalizing h with
  | nil => rfl
  | cons i l ih => simp only [List.foldl_cons]; rw [ih]
theorem setName_rows (h : Hart) (name : Nat) (w : Wide) : h.setName name w = { h with rows := (h.setName name w).rows } := by
  unfold Hart.setName
  split
  · exact setOwnRow_rows _ _ _
  · rfl
theorem foldl_setName_rows (first : Nat) (l : List (Wide × Nat)) (h : Hart) :
    l.foldl (fun h (w, j) => h.setName (first + j) w) h =
      { h with rows := (l.foldl (fun h (w, j) => h.setName (first + j) w) h).rows } := by
  induction l generalizing h with
  | nil => rfl
  | cons e l ih =>
    simp only [List.foldl_cons]
    rw [ih]
    have := setName_rows h (first + e.2) e.1
    generalize h.setName (first + e.2) e.1 = h' at *
    rw [this]
/-- A solo hart's group write changes its rows and nothing else. -/
theorem writeGroup_solo (mx : Nat) (g : Group) (rows : List Wide) (s : State) (hs : s.h.role = .solo) :
    writeGroup mx g rows s = { s with h := { s.h with rows := (writeGroup mx g rows s).h.rows } } := by
  unfold writeGroup
  rcases homeOf_solo s.h g.first hs with e | ⟨r, e⟩
  · rw [e]
  · rw [e]
    simp only
    rw [foldl_setName_rows]

theorem rowsPut_pfx (v : VType) (d : BitVec 5) (out : List (Wide × Nat × Nat)) (s : State) (hs : s.Solo) :
    (s.rowsPut v d out).h.pfx = none := by
  have e := writeGroup_solo (s.h.maxIn v) ⟨d.toNat, v.rows⟩ (out.map (·.1)) { s with h := { s.h with
    efc := out.zipIdx.foldl (fun e (x, r) => e.setIfInBounds r (BitVec.ofNat 32 x.2.2)) s.h.efc } } hs.solo
  simp only [State.rowsPut, Hart.raiseFlags]
  rw [e]
  exact hs.pfx
/-- The end of a row word of a solo hart. -/
theorem putRows_solo (v : VType) (d : BitVec 5) (srcs : List Group) (out : List (Wide × Nat × Nat)) (rows : List Wide → List Wide)
    (s : State) (hs : s.Solo) (ho : rows (groupRows s ⟨d.toNat, v.rows⟩) = out.map (·.1)) :
    ((modH fun h => { h with efc := out.zipIdx.foldl (fun e (x, r) => e.setIfInBounds r (BitVec.ofNat 32 x.2.2)) h.efc }) >>=
      fun _ => putRows (s.h.maxIn v) ⟨d.toNat, v.rows⟩ srcs rows (orFlags (out.map (·.2.1))) : Act Unit) s =
      .ok () (s.rowsPut v d out) := by
  have e := writeGroup_solo (s.h.maxIn v) ⟨d.toNat, v.rows⟩ (out.map (·.1)) { s with h := { s.h with
    efc := out.zipIdx.foldl (fun e (x, r) => e.setIfInBounds r (BitVec.ofNat 32 x.2.2)) s.h.efc } } hs.solo
  have e'' : (writeGroup (s.h.maxIn v) ⟨d.toNat, v.rows⟩ (out.map (·.1)) { s with h := { s.h with
    efc := out.zipIdx.foldl (fun e (x, r) => e.setIfInBounds r (BitVec.ofNat 32 x.2.2)) s.h.efc } }).h.role = .solo := by
    rw [e]; exact hs.solo
  have hg : rows (groupRows { s with h := { s.h with
      efc := out.zipIdx.foldl (fun e (x, r) => e.setIfInBounds r (BitVec.ofNat 32 x.2.2)) s.h.efc } } ⟨d.toNat, v.rows⟩) =
      out.map (·.1) := ho
  have hc := Hart.copyReg_of_none _ hs.pfx
  simp only [act_bind, modH_apply, putRows, get_apply, modify_apply, hg]
  rw [show Hart.copyReg { s.h with
    efc := out.zipIdx.foldl (fun e (x, r) => e.setIfInBounds r (BitVec.ofNat 32 x.2.2)) s.h.efc } = none from hc]
  simp only [act_bind, modify_apply, modH_apply, popHeads_solo _ _ e'']
  rfl
/-- R201: a row word of a solo hart: its rows are computed from the sources and put in place. -/
theorem rowWord_solo (v rv : VType) (o : VArgs) (kept : Option Nat) (srcs : List Group)
    (f : List (Nat → Nat → Nat × Nat) → (Nat → BitVec 6) → List Wide → (Nat → Nat) → List (Wide × Nat × Nat)) (s : State)
    (hs : s.Solo) :
    rowWord v rv o kept srcs f s = .ok () (s.rowsPut v o.d
      (f (srcs.map fun g => fun (r i : Nat) => srcElem rv kept.isSome (rowAt (sourceRows s g) r) i)
        (fun r => match kept with
          | some l => haarTag l (tagThr (rowAt ((srcs.map (sourceRows s)).headD []) r).tag)
          | none => 0)
        (groupRows s ⟨o.d.toNat, v.rows⟩) fun r => (s.h.efc[r]?.getD 0).toNat)) := by
  have hr := ringsReady_solo srcs [⟨o.d.toNat, v.rows⟩] s hs.solo hs.ops hs.queueing
  have hc := Hart.copyReg_of_none _ hs.pfx
  unfold rowWord
  rw [act_bind, getH_apply]
  simp only [hc, Option.toList_none, List.map_nil]
  rw [act_bind, hr]
  dsimp only
  rw [act_bind, get_apply]
  dsimp only
  have hm : (srcs.map (sourceRows s)).map (fun rs => fun (r i : Nat) => srcElem rv kept.isSome (rowAt rs r) i) =
      srcs.map fun g => fun (r i : Nat) => srcElem rv kept.isSome (rowAt (sourceRows s g) r) i := by rw [List.map_map]; rfl
  simp only [hm]
  generalize (srcs.map fun g => fun (r i : Nat) => srcElem rv kept.isSome (rowAt (sourceRows s g) r) i) = reads
  generalize (fun (r : Nat) => match kept with
    | some l => haarTag l (tagThr (rowAt ((srcs.map (sourceRows s)).headD []) r).tag)
    | none => (0 : BitVec 6)) = tags
  generalize ho : (fun olds : List Wide => (f reads tags olds fun r => (s.h.efc[r]?.getD 0).toNat).map (·.1)) = rows
  have hg := congrFun ho (groupRows s ⟨o.d.toNat, v.rows⟩)
  generalize (f reads tags (groupRows s ⟨o.d.toNat, v.rows⟩) fun r => (s.h.efc[r]?.getD 0).toNat) = out at hg ⊢
  exact putRows_solo v o.d srcs out rows s hs hg.symm

/-- R201: an element-wise word of a solo hart. -/
theorem elementwiseIf_solo (act : Nat → Nat → Bool) (v rv : VType) (n : Nat) (o : VArgs) (kept : Option Nat) (whole : Bool)
    (srcs : List Group) (op : List (Nat → Nat → Nat × Nat) → Nat → Nat → Nat → Option Elem) (s : State) (hs : s.Solo) :
    elementwiseIf act v rv n o kept whole srcs op s = .ok () (s.rowsPut v o.d (s.rowsOf v o n
      (if whole || wholeBlock s kept ⟨o.d.toNat, v.rows⟩ srcs then 0 else s.h.vstart) act
      (fun r => match kept with
        | some l => haarTag l (tagThr (rowAt ((srcs.map (sourceRows s)).headD []) r).tag)
        | none => 0)
      (op (srcs.map fun g => fun (r i : Nat) => srcElem rv kept.isSome (rowAt (sourceRows s g) r) i)))) := by
  unfold elementwiseIf
  rw [act_bind, get_apply]
  exact rowWord_solo v rv o kept srcs _ s hs
theorem elementwise_solo (v : VType) (n : Nat) (o : VArgs) (kept : Option Nat) (whole : Bool) (srcs : List Group)
    (op : List (Nat → Nat → Nat × Nat) → Nat → Nat → Nat → Option Elem) (s : State) (hs : s.Solo) :
    elementwise v n o kept whole srcs op s = .ok () (s.rowsPut v o.d (s.rowsOf v o n
      (if whole || wholeBlock s kept ⟨o.d.toNat, v.rows⟩ srcs then 0 else s.h.vstart) (s.h.act o.mask o.neg)
      (fun r => match kept with
        | some l => haarTag l (tagThr (rowAt ((srcs.map (sourceRows s)).headD []) r).tag)
        | none => 0)
      (op (srcs.map fun g => fun (r i : Nat) => srcElem v kept.isSome (rowAt (sourceRows s g) r) i)))) := by
  unfold elementwise
  rw [act_bind, getH_apply]
  exact elementwiseIf_solo _ v v n o kept whole srcs op s hs

/-! Issue. -/

theorem finish_vector (i : Info) (h : Hart) (hp : h.pfx = none) (hv : i.vector = true) (h4 : i.size = 4) (hst : i.stall = 0) :
    finish i .seq h = { h.past 4 0 with vcount := h.vcount + 1 } := by
  simp [finish, Hart.past, Hart.leave, hv, h4, hst, ← hp]
theorem guardHolds_mask (h : Hart) (never : Bool) (hp : h.pfx = none) : h.guardHolds (.mask never) = !never := by
  simp [Hart.guardHolds, hp]
/-- A vector word of a ready solo hart that completes. -/
theorem issue_vector (i : Info) (legal pairLegal later : Act Unit) (body : Act Flow) (s s1 : State) (hs : s.Ready)
    (hc : Checks i legal later s) (hg : s.h.guardHolds i.guard = true) (hb : body s = .ok .seq s1) (hp : s1.h.pfx = none)
    (hv : i.vector = true) (h4 : i.size = 4) (hst : i.stall = 0) :
    issue i body s legal pairLegal later = .next s1.pastVector := by
  rw [issue_ready _ _ _ _ _ _ hs hc, if_pos hg, hb, latched_ok]
  simp [State.pastVector, finish_vector _ _ hp hv h4 hst]
/-- A word with a v destination. -/
theorem vWordOf_done (i : Info) (o : VArgs) (dstRead : Bool) (srcs : Hart → VType → List Source) (body : VType → Act Unit)
    (s s1 : State) (hs : s.Solo) (hm : i.major ≠ 0x30) (hl : i.level = .user) (ha : i.address = false)
    (hv : i.vector = true) (h4 : i.size = 4) (hst : i.stall = 0) (hi : i.guard = .mask (o.mask == 7 && o.neg))
    (hg : (o.mask == 7 && o.neg) = false)
    (hlegal : groupsLegal s.h (some (⟨o.d.toNat, (s.h.slot o.t).rows⟩, dstRead)) (srcs s.h (s.h.slot o.t)) = true)
    (hb : body (s.h.slot o.t) s = .ok () s1) (hp : s1.h.pfx = none) :
    vWordOf i o dstRead srcs body s = .next s1.pastVector := by
  refine issue_vector i _ _ _ _ s s1 hs.toReady ⟨?_, ?_, by simp [hl, modeNum], by simp [ha], rfl⟩ ?_ (andNext_ok _ _ _ hb) hp
    hv h4 hst
  · exact majorAllowed_vector _ _ (by rw [hs.solo]; decide) hm
  · simp only [act_bind, getH_apply, hlegal, require_true]
  · rw [hi, guardHolds_mask _ _ hs.pfx, hg]; rfl

end Sys2Proof.Machine
end

