-- ==== Sys2Proof/Tests/Slice0.lean ====
section
/-! SUPPORT. Tests. `test_ill_formed` gives an ill-formed term for each check of WellFormed; `test_decode` gives words laid
out bit by bit from the encodings of spec/02_words_and_encodings.md and spec/opcode_table.json; `witness` theorems show states
and operands that meet the hypotheses of each statement; the rest are results worked out by hand from the spec's rules. -/

open Sys2Proof Sys2Proof.Machine

namespace Sys2Proof.Tests

set_option Elab.async false

/-- A solo hart in machine mode, running in slot 0 of core 0 of cluster 0. -/
def base : State := { h := { live := true } }
/-- The state with these scalar registers. -/
def withRegs (l : List (Nat × Word)) (s : State) : State :=
  { s with h := l.foldl (fun h e => h.setReg e.1 e.2) s.h }
/-- The state with its hart's role and mode, as a change of its hart. -/
def onHart (s : State) (f : Hart → Hart) : State := { s with h := f s.h }
/-- The first byte of the scratchpad of core 0 of cluster 0 (R53, R128). -/
def pad : Nat := 0x100000000000
/-- A hart with s5 at the scratchpad, s6 and s7 small numbers. -/
def padded : State := withRegs [(5, 0x100000000000), (6, 3), (7, 8)] base
theorem ready_of {s : State} (live : s.h.live = true) (pfx : s.h.pfx = none) (latch : s.h.latch = none) (waits : s.h.waiting = none)
    (pend : s.h.pend = []) (ops : s.h.ops = []) (schk : wbit s.h.csr.schk 0 = false) (vq : s.h.vq = [] := by rfl)
    (queueing : s.h.queueing = false := by rfl) (moved : s.h.moved = [] := by rfl) (admitted : s.h.admitted = false := by rfl)
    (strong : strongOut s.cur s = false := by rfl) : s.Ready :=
  ⟨live, pfx, latch, fun _ h => (nomatch waits.symm.trans h), pend, ops, vq, queueing, moved, admitted, strong, schk⟩
theorem loaded_of {s : State} (h : s.h.role = .solo) : s.loaded := fun e => by rw [h] at e; cases e
theorem base_ready : base.Ready := ready_of rfl rfl rfl rfl rfl rfl rfl
theorem padded_ready : padded.Ready := ready_of rfl rfl rfl rfl rfl rfl rfl
theorem padded_solo : padded.Solo := ⟨padded_ready, rfl⟩
theorem padded_plain (n : Nat) (h : 0 < n) (h' : n ≤ 64) : padded.Plain pad n :=
  ⟨rfl, h, by simp only [pad]; omega, rfl, rfl, rfl, loaded_of rfl⟩
/-- Whether an operation completes with a value that p holds of. -/
def okWhere {ε α : Type} (r : Except ε α) (p : α → Bool) : Bool :=
  match r with
  | .ok a => p a
  | .error _ => false
/-- Whether an action completes, with a value and a state that p holds of. -/
def doneWhere {ε σ α : Type} (r : EStateM.Result ε σ α) (p : α → σ → Bool) : Bool :=
  match r with
  | .ok a s => p a s
  | .error _ _ => false
/-- Whether an action fails, with an error and a state that p holds of. -/
def failsWhere {ε σ α : Type} (r : EStateM.Result ε σ α) (p : ε → σ → Bool) : Bool :=
  match r with
  | .ok _ _ => false
  | .error e s => p e s
/-- A solo hart with these two slots of VTYPE and this VL. -/
def typed (v u : Word) (n : Nat) : State := onHart padded fun h => { h with vt := #v[v, u], vl := n }
theorem typed_solo (v u : Word) (n : Nat) : (typed v u n).Solo :=
  ⟨ready_of rfl rfl rfl rfl rfl rfl (show wbit 0 0 = false by decide), rfl⟩
/-- A launch of 64 elements with one hart. -/
def oneLaunch : Launch :=
  { packet := { n := 64, cls := 2, width := 0, shape := 0, stages := 0, harts := 1, clmask := 1, args := [], entries := [0]
                span := 0, root := 0, mode := .machine, tvec := 0, mtvec := 0, dep := none, done := none }
    queue := 47, waiting := [], unfinished := 1 }
def unmapped : State := onHart (withRegs [(5, 0x10008), (6, 3)] base) fun h => { h with mode := .user }
def computer : State := onHart padded fun h => { h with role := .computer }
/-- A group of one row. -/
def one (n : Nat) : Group := ⟨n, 1⟩
/-- Its first counter holds 62. -/
def counted : State := onHart padded fun h => { h with deps := h.deps.setIfInBounds 0 62 }
theorem test_ill_formed_1 : ∀ i ∈ ([.clz ⟨21, 10, 1, 5, true, 2⟩, .ctz ⟨21, 10, 1, 5, true, 2⟩, .popc ⟨21, 10, 1, 5, true, 2⟩,
    .sextb ⟨21, 10, 1, 5, true, 2⟩, .sexth ⟨21, 10, 1, 5, true, 2⟩, .sextw ⟨21, 10, 1, 5, true, 2⟩,
    .zextb ⟨21, 10, 1, 5, true, 2⟩, .zexth ⟨21, 10, 1, 5, true, 2⟩, .zextw ⟨21, 10, 1, 5, true, 2⟩, .shli ⟨21, 10, 64⟩,
    .shri ⟨21, 10, 64⟩, .srai ⟨21, 10, 64⟩, .cmp ⟨6, 4, 10, 19, 5, true, 12⟩, .cmp ⟨4, 4, 10, 19, 5, true, 9⟩,
    .cmpImm ⟨6, 4, 10, 19, 5, true, 12⟩, .cmpImm ⟨4, 4, 10, 19, 5, true, 9⟩, .fcmp ⟨6, 4, 10, 19, 5, true, 8⟩,
    .fcmp ⟨4, 4, 10, 19, 5, true, 5⟩, .fcmpD ⟨6, 4, 10, 19, 5, true, 8⟩, .fcmpD ⟨4, 4, 10, 19, 5, true, 5⟩,
    .pand ⟨5, 2, 8, 5, true, 2⟩, .pand ⟨5, 8, 3, 5, true, 2⟩, .pand ⟨8, 2, 3, 5, true, 2⟩, .por ⟨5, 2, 8, 5, true, 2⟩,
    .por ⟨5, 8, 3, 5, true, 2⟩, .por ⟨8, 2, 3, 5, true, 2⟩, .pxor ⟨5, 2, 8, 5, true, 2⟩, .pxor ⟨5, 8, 3, 5, true, 2⟩,
    .pxor ⟨8, 2, 3, 5, true, 2⟩, .pandn ⟨5, 2, 8, 5, true, 2⟩, .pandn ⟨5, 8, 3, 5, true, 2⟩,
    .pandn ⟨8, 2, 3, 5, true, 2⟩, .pmov ⟨5, 2, 1, 5, true, 2⟩, .pmov ⟨5, 8, 0, 5, true, 2⟩,
    .pmov ⟨8, 2, 0, 5, true, 2⟩, .pnot ⟨5, 2, 1, 5, true, 2⟩, .pnot ⟨5, 8, 0, 5, true, 2⟩, .pnot ⟨8, 2, 0, 5, true, 2⟩,
    .b ⟨10, 19, 6, 969⟩, .bqNz ⟨1, 1, 969⟩, .bqNz ⟨2, 0, 969⟩, .bqZ ⟨1, 1, 969⟩, .bqZ ⟨2, 0, 969⟩,
    .ldb ⟨21, 10, 19, 6, 6⟩, .ldh ⟨21, 10, 19, 6, 6⟩, .ldw ⟨21, 10, 19, 6, 6⟩, .ldd ⟨21, 10, 19, 6, 6⟩,
    .ldbn ⟨21, 10, 19, 6, 6⟩, .ldhn ⟨21, 10, 19, 6, 6⟩, .ldwn ⟨21, 10, 19, 6, 6⟩, .stb ⟨21, 10, 19, 6, 6⟩,
    .sth ⟨21, 10, 19, 6, 6⟩, .stw ⟨21, 10, 19, 6, 6⟩, .std ⟨21, 10, 19, 6, 6⟩, .ldacq ⟨21, 10, 1, 6, 2⟩,
    .ldacq ⟨21, 10, 0, 9, 2⟩, .strel ⟨1, 10, 23, 6, 2⟩, .strel ⟨0, 10, 23, 9, 2⟩, .ldl ⟨21, 10, 1, 6, 2⟩,
    .ldl ⟨21, 10, 0, 9, 2⟩] : List Instr),
    i.wf = false := by decide
theorem test_ill_formed_2 : ∀ i ∈ ([.stc ⟨21, 10, 23, 9, 2⟩, .fsqrt ⟨21, 10, 1, 5, true, 2⟩, .fcvti ⟨21, 10, 4, 5, true, 2⟩,
    .fcvtf ⟨21, 10, 4, 5, true, 2⟩, .fcvtp ⟨21, 10, 7, 5, true, 2⟩, .fcvtp ⟨21, 10, 3, 5, true, 2⟩,
    .fsqrtD ⟨21, 10, 1, 5, true, 2⟩, .fcvtiD ⟨21, 10, 4, 5, true, 2⟩, .fcvtfD ⟨21, 10, 4, 5, true, 2⟩,
    .fcvtpD ⟨21, 10, 7, 5, true, 2⟩, .fcvtpD ⟨21, 10, 3, 5, true, 2⟩, .csrr ⟨21, 1, 2771⟩, .csrw ⟨1, 10, 2771⟩,
    .svc ⟨21, 0, 1, 5, true, 2⟩, .svc ⟨21, 1, 0, 5, true, 2⟩, .trap ⟨21, 0, 1, 5, true, 2⟩,
    .trap ⟨21, 1, 0, 5, true, 2⟩, .tret ⟨0, 0, 1, 5, true, 2⟩, .tret ⟨0, 1, 0, 5, true, 2⟩,
    .tret ⟨1, 0, 0, 5, true, 2⟩, .uiret ⟨0, 0, 0, 5, true, 1⟩, .uiret ⟨0, 0, 1, 5, true, 0⟩,
    .uiret ⟨0, 1, 0, 5, true, 0⟩, .uiret ⟨1, 0, 0, 5, true, 0⟩, .idle ⟨0, 0, 1, 5, true, 2⟩,
    .idle ⟨0, 1, 0, 5, true, 2⟩, .idle ⟨1, 0, 0, 5, true, 2⟩, .nop ⟨0, 0, 1, 5, true, 2⟩, .nop ⟨0, 1, 0, 5, true, 2⟩,
    .nop ⟨1, 0, 0, 5, true, 2⟩, .brk ⟨0, 0, 1, 5, true, 2⟩, .brk ⟨0, 1, 0, 5, true, 2⟩, .brk ⟨1, 0, 0, 5, true, 2⟩,
    .exit ⟨0, 0, 1, 5, true, 2⟩, .exit ⟨0, 1, 0, 5, true, 2⟩, .exit ⟨1, 0, 0, 5, true, 2⟩,
    .vclz ⟨21, 10, 0, 6, true, true, true⟩, .vclz ⟨21, 10, 1, 6, true, true, false⟩,
    .vpopc ⟨21, 10, 0, 6, true, true, true⟩, .vpopc ⟨21, 10, 1, 6, true, true, false⟩,
    .vneg ⟨21, 10, 0, 6, true, true, true⟩, .vneg ⟨21, 10, 1, 6, true, true, false⟩,
    .vfsqrt ⟨21, 10, 0, 6, true, true, true⟩, .vfsqrt ⟨21, 10, 1, 6, true, true, false⟩,
    .vfabs ⟨21, 10, 0, 6, true, true, true⟩, .vfabs ⟨21, 10, 1, 6, true, true, false⟩,
    .vfneg ⟨21, 10, 0, 6, true, true, true⟩, .vfneg ⟨21, 10, 1, 6, true, true, false⟩,
    .vfclass ⟨21, 10, 0, 6, true, true, true⟩, .vfclass ⟨21, 10, 1, 6, true, true, false⟩,
    .vcmp ⟨8, 10, 19, 6, true, true, true, 9⟩, .vcmp ⟨5, 10, 19, 6, true, true, true, 12⟩,
    .vfcmp ⟨8, 10, 19, 6, true, true, true, 5⟩, .vfcmp ⟨5, 10, 19, 6, true, true, true, 8⟩,
    .kand ⟨5, 2, 3, 6, true, true, true⟩, .kand ⟨5, 2, 8, 6, true, true, false⟩, .kand ⟨5, 8, 3, 6, true, true, false⟩,
    .kand ⟨8, 2, 3, 6, true, true, false⟩, .kor ⟨5, 2, 3, 6, true, true, true⟩, .kor ⟨5, 2, 8, 6, true, true, false⟩] : List Instr),
    i.wf = false := by decide
theorem test_ill_formed_3 : ∀ i ∈ ([.kor ⟨5, 8, 3, 6, true, true, false⟩, .kor ⟨8, 2, 3, 6, true, true, false⟩, .kxor ⟨5, 2, 3, 6, true, true, true⟩,
    .kxor ⟨5, 2, 8, 6, true, true, false⟩, .kxor ⟨5, 8, 3, 6, true, true, false⟩,
    .kxor ⟨8, 2, 3, 6, true, true, false⟩, .kandn ⟨5, 2, 3, 6, true, true, true⟩,
    .kandn ⟨5, 2, 8, 6, true, true, false⟩, .kandn ⟨5, 8, 3, 6, true, true, false⟩,
    .kandn ⟨8, 2, 3, 6, true, true, false⟩, .knot ⟨5, 2, 0, 6, true, true, true⟩,
    .knot ⟨5, 2, 1, 6, true, true, false⟩, .knot ⟨5, 8, 0, 6, true, true, false⟩,
    .knot ⟨8, 2, 0, 6, true, true, false⟩, .kmov ⟨5, 2, 0, 6, true, true, true⟩, .kmov ⟨5, 2, 1, 6, true, true, false⟩,
    .kmov ⟨5, 8, 0, 6, true, true, false⟩, .kmov ⟨8, 2, 0, 6, true, true, false⟩,
    .kpopc ⟨21, 2, 0, 6, true, true, true⟩, .kpopc ⟨21, 2, 1, 6, true, true, false⟩,
    .kpopc ⟨21, 8, 0, 6, true, true, false⟩, .kfirst ⟨21, 2, 0, 6, true, true, true⟩,
    .kfirst ⟨21, 2, 1, 6, true, true, false⟩, .kfirst ⟨21, 8, 0, 6, true, true, false⟩,
    .vmv ⟨21, 10, 0, 6, true, true, true⟩, .vmv ⟨21, 10, 1, 6, true, true, false⟩,
    .vmvX ⟨21, 0, 19, 6, true, true, false⟩, .vmvX ⟨21, 1, 19, 6, true, true, true⟩,
    .vbcast ⟨21, 10, 19, 6, true, true, false⟩, .vsel ⟨21, 10, 19, 6, true, true, true⟩,
    .vslideup ⟨21, 10, 19, 6, true, true, false⟩, .vslidedn ⟨21, 10, 19, 6, true, true, false⟩,
    .vgathr ⟨21, 10, 19, 6, true, true, true⟩, .vcompr ⟨21, 10, 0, 6, true, true, true⟩,
    .vcompr ⟨21, 10, 1, 6, true, true, false⟩, .vexpnd ⟨21, 10, 0, 6, true, true, true⟩,
    .vexpnd ⟨21, 10, 1, 6, true, true, false⟩, .viota ⟨21, 0, 0, 6, true, true, true⟩,
    .viota ⟨21, 0, 1, 6, true, true, false⟩, .viota ⟨21, 1, 0, 6, true, true, false⟩,
    .vexts ⟨21, 10, 19, 7, false, true, false⟩, .vexts ⟨21, 10, 19, 7, true, true, true⟩,
    .vexts ⟨21, 10, 19, 6, false, true, true⟩, .vinss ⟨21, 10, 19, 7, false, true, false⟩,
    .vinss ⟨21, 10, 19, 7, true, true, true⟩, .vinss ⟨21, 10, 19, 6, false, true, true⟩,
    .vrowmv ⟨21, 10, 19, 6, true, true, false⟩, .vtrn ⟨21, 10, 0, 6, true, true, true⟩,
    .vtrn ⟨21, 10, 1, 6, true, true, false⟩, .vcvt ⟨21, 10, 2, 6, true, true, true⟩,
    .vcvt ⟨21, 10, 8, 6, true, true, false⟩, .vcbenc ⟨21, 10, 0, 6, true, true, true⟩,
    .vcbenc ⟨21, 10, 1, 6, true, true, false⟩, .vcbdec ⟨21, 10, 0, 6, true, true, true⟩,
    .vcbdec ⟨21, 10, 1, 6, true, true, false⟩, .vpack ⟨21, 10, 19, 6, true, true, true⟩,
    .vunpk ⟨21, 10, 19, 6, true, true, false⟩, .vdoto ⟨21, 10, 19, 6, true, true, true⟩,
    .vdott ⟨21, 10, 19, 6, true, true, true⟩, .vexp2 ⟨21, 10, 0, 6, true, true, true⟩] : List Instr),
    i.wf = false := by decide
theorem test_ill_formed_4 : ∀ i ∈ ([.vexp2 ⟨21, 10, 1, 6, true, true, false⟩, .vlog2 ⟨21, 10, 0, 6, true, true, true⟩,
    .vlog2 ⟨21, 10, 1, 6, true, true, false⟩, .vrcp ⟨21, 10, 0, 6, true, true, true⟩,
    .vrcp ⟨21, 10, 1, 6, true, true, false⟩, .vrsq ⟨21, 10, 0, 6, true, true, true⟩,
    .vrsq ⟨21, 10, 1, 6, true, true, false⟩, .vsin ⟨21, 10, 0, 6, true, true, true⟩,
    .vsin ⟨21, 10, 1, 6, true, true, false⟩, .vcos ⟨21, 10, 0, 6, true, true, true⟩,
    .vcos ⟨21, 10, 1, 6, true, true, false⟩, .vtanh ⟨21, 10, 0, 6, true, true, true⟩,
    .vtanh ⟨21, 10, 1, 6, true, true, false⟩, .vsigm ⟨21, 10, 0, 6, true, true, true⟩,
    .vsigm ⟨21, 10, 1, 6, true, true, false⟩, .vmrg ⟨21, 10, 19, 7, false, true, true⟩,
    .vmrg ⟨21, 10, 19, 7, true, true, false⟩, .vmrg ⟨21, 10, 19, 6, false, true, false⟩,
    .vmrgi ⟨21, 10, 19, 7, false, true, true⟩, .vmrgi ⟨21, 10, 19, 7, true, true, false⟩,
    .vmrgi ⟨21, 10, 19, 6, false, true, false⟩, .vbsrch ⟨21, 10, 19, 6, true, true, true⟩,
    .vconf ⟨0, 3, 1, 5, true, 2⟩, .vconf ⟨1, 3, 0, 5, true, 2⟩, .vconf ⟨0, 4, 0, 5, true, 2⟩,
    .vsetl ⟨21, 10, 2, 5, true, 2⟩, .vclaim ⟨21, 10, 2, 5, true, 2⟩, .vclaimp ⟨21, 10, 2, 5, true, 2⟩,
    .vsett ⟨1, 10, 1, 5, true, 2⟩, .vsett ⟨2, 10, 0, 5, true, 2⟩, .vcbld ⟨4, 10, 19, 5, true, 2⟩,
    .wthset ⟨6, 10, 1, 5, true, 2⟩, .wthset ⟨8, 10, 0, 5, true, 2⟩, .vld ⟨21, 10, 1, 6, true, 9, 0⟩,
    .vld ⟨21, 10, 8, 6, true, 9, 3⟩, .vst ⟨21, 10, 1, 6, true, 9, 0⟩, .vst ⟨21, 10, 8, 6, true, 9, 3⟩,
    .vstn ⟨21, 10, 1, 6, true, 9, 0⟩, .vstn ⟨21, 10, 8, 6, true, 9, 3⟩, .vldcl ⟨21, 10, 19, 6, true, 9, 1⟩,
    .vstcl ⟨21, 10, 19, 6, true, 9, 1⟩, .vgll ⟨21, 10, 19, 6, true, 1, 2⟩, .vgll ⟨21, 10, 1, 6, true, 8, 3⟩,
    .vgll ⟨21, 10, 1, 6, true, 8, 0⟩, .vgll ⟨21, 10, 0, 6, true, 8, 0⟩, .vscc ⟨21, 10, 1, 6, true, 13, 3⟩,
    .vscc ⟨21, 10, 1, 6, true, 13, 0⟩, .vscc ⟨21, 10, 0, 6, true, 8, 0⟩, .vlda ⟨21, 10, 1, 6, true, 9, 0⟩,
    .vlda ⟨21, 10, 8, 6, true, 9, 3⟩, .vstl ⟨21, 10, 1, 6, true, 9, 0⟩, .vstl ⟨21, 10, 8, 6, true, 9, 3⟩,
    .qdrain ⟨0, 10, 1, 5, true, 2⟩, .qdrain ⟨1, 10, 0, 5, true, 2⟩, .fence ⟨7, 10, 1, 5, true, 2⟩,
    .fence ⟨9, 10, 0, 5, true, 2⟩, .efence ⟨0, 0, 1, 5, true, 2⟩, .efence ⟨0, 1, 0, 5, true, 2⟩,
    .efence ⟨1, 0, 0, 5, true, 2⟩, .waitge ⟨9, 10, 19, 5, true, 2⟩] : List Instr),
    i.wf = false := by decide
theorem test_ill_formed_5 : ∀ i ∈ ([.waitdc ⟨0, 8, 19, 5, true, 2⟩, .waitdc ⟨1, 4, 19, 5, true, 2⟩, .waitdc ⟨0, 6, 19, 5, true, 2⟩,
    .bar ⟨5, 10, 1, 5, true, 2⟩, .bar ⟨8, 10, 0, 5, true, 2⟩, .hgive ⟨1, 10, 19, 5, true, 2⟩,
    .htake ⟨0, 10, 1, 5, true, 2⟩, .htake ⟨1, 10, 0, 5, true, 2⟩, .enq ⟨16, 10, 19, 5, true, 2⟩,
    .deq ⟨21, 16, 4, 5, true, 2⟩, .deq ⟨21, 10, 6, 5, true, 2⟩, .venq ⟨5, 10, 1, 5, true, 2⟩,
    .venq ⟨16, 10, 0, 5, true, 2⟩, .vdeq ⟨21, 10, 1, 5, true, 2⟩, .vdeq ⟨21, 16, 0, 5, true, 2⟩,
    .stream ⟨16, 10, 19, 5, true, 2⟩, .charm ⟨16, 10, 19, 5, true, 2⟩, .chstat ⟨21, 16, 7, 5, true, 2⟩,
    .chstat ⟨21, 10, 6, 5, true, 2⟩, .chclr ⟨5, 0, 1, 5, true, 2⟩, .chclr ⟨5, 1, 0, 5, true, 2⟩,
    .chclr ⟨16, 0, 0, 5, true, 2⟩, .tfree ⟨0, 10, 1, 5, true, 2⟩, .tfree ⟨1, 10, 0, 5, true, 2⟩,
    .gsub ⟨21, 10, 19, 6, true, true, true⟩, .gadd ⟨21, 10, 19, 6, true, true, true⟩,
    .gdot ⟨21, 10, 19, 6, true, true, true⟩, .gcross ⟨21, 10, 19, 6, true, true, true⟩,
    .glen ⟨21, 10, 0, 6, true, true, true⟩, .glen ⟨21, 10, 1, 6, true, true, false⟩,
    .gxfm ⟨21, 10, 19, 6, true, true, true⟩, .gtag ⟨21, 10, 0, 6, true, true, true⟩,
    .gtag ⟨21, 10, 1, 6, true, true, false⟩, .gchk ⟨5, 10, 0, 6, true, true, true⟩,
    .gchk ⟨5, 10, 1, 6, true, true, false⟩, .gchk ⟨8, 10, 0, 6, true, true, false⟩,
    .gretag ⟨21, 10, 0, 6, true, true, true⟩, .gretag ⟨21, 10, 1, 6, true, true, false⟩, .fnew ⟨21, 10, 1, 5, true, 2⟩,
    .ffree ⟨0, 10, 1, 5, true, 2⟩, .ffree ⟨1, 10, 0, 5, true, 2⟩, .fupd ⟨1, 10, 19, 5, true, 2⟩,
    .fsplit ⟨21, 10, 1, 5, true, 2⟩, .ffence ⟨0, 0, 1, 5, true, 2⟩, .ffence ⟨0, 1, 0, 5, true, 2⟩,
    .ffence ⟨1, 0, 0, 5, true, 2⟩, .gcell ⟨21, 10, 19, 6, true, true, false⟩, .hins ⟨21, 10, 19, 6, true, true, true⟩,
    .hlook ⟨21, 10, 19, 6, true, true, false⟩, .hclr ⟨0, 0, 0, 7, false, true, true⟩,
    .hclr ⟨0, 0, 0, 7, true, true, false⟩, .hclr ⟨0, 0, 0, 6, false, true, false⟩,
    .hclr ⟨0, 0, 1, 7, false, true, false⟩, .hclr ⟨0, 1, 0, 7, false, true, false⟩,
    .hclr ⟨1, 0, 0, 7, false, true, false⟩, .wfwd ⟨21, 10, 19, 7, false, true, false⟩,
    .wfwd ⟨21, 10, 19, 7, true, true, true⟩, .wfwd ⟨21, 10, 19, 6, false, true, true⟩,
    .winv ⟨21, 10, 0, 7, false, true, true⟩, .winv ⟨21, 10, 0, 7, true, true, false⟩] : List Instr),
    i.wf = false := by decide
theorem test_ill_formed_6 : ∀ i ∈ ([.winv ⟨21, 10, 0, 6, false, true, false⟩, .winv ⟨21, 10, 1, 7, false, true, false⟩,
    .wtag ⟨21, 10, 0, 7, false, true, true⟩, .wtag ⟨21, 10, 0, 7, true, true, false⟩,
    .wtag ⟨21, 10, 0, 6, false, true, false⟩, .wtag ⟨21, 10, 1, 7, false, true, false⟩,
    .wsettag ⟨21, 0, 19, 7, false, true, false⟩, .wsettag ⟨21, 0, 19, 7, true, true, true⟩,
    .wsettag ⟨21, 0, 19, 6, false, true, true⟩, .wsettag ⟨21, 1, 19, 7, false, true, true⟩,
    .mcfg ⟨1, 10, 1, 5, true, 2⟩, .mcfg ⟨4, 10, 0, 5, true, 2⟩, .mldb ⟨1, 10, 19, 5, true, 2⟩,
    .mmac ⟨4, 10, 19, 5, true, 2⟩, .mdrain ⟨1, 10, 1, 5, true, 2⟩, .mdrain ⟨4, 10, 0, 5, true, 2⟩,
    .mzero ⟨1, 10, 1, 5, true, 2⟩, .mzero ⟨4, 10, 0, 5, true, 2⟩, .mwait ⟨0, 10, 1, 5, true, 2⟩,
    .mwait ⟨1, 10, 0, 5, true, 2⟩, .msync ⟨0, 0, 1, 5, true, 2⟩, .msync ⟨0, 1, 0, 5, true, 2⟩,
    .msync ⟨1, 0, 0, 5, true, 2⟩, .mstep ⟨21, 1, 1, 5, true, 2⟩, .mstep ⟨21, 4, 0, 5, true, 2⟩,
    .launch ⟨21, 10, 1, 5, true, 2⟩, .spawn ⟨21, 10, 1, 5, true, 2⟩, .steal ⟨21, 10, 1, 5, true, 2⟩,
    .taskget ⟨21, 10, 1, 5, true, 2⟩, .yield ⟨0, 0, 1, 5, true, 2⟩, .yield ⟨0, 1, 0, 5, true, 2⟩,
    .yield ⟨1, 0, 0, 5, true, 2⟩, .tlbi ⟨1, 10, 19, 5, true, 2⟩, .msq ⟨21, 10, 0, 5, true, 2⟩,
    .msq ⟨21, 10, 1, 5, false, 2⟩, .migrate ⟨1, 10, 19, 5, true, 2⟩, .actbl ⟨1, 10, 19, 5, true, 2⟩,
    .pfx ⟨1, 5, true, false⟩, .cAdd ⟨0, 19⟩, .cSub ⟨0, 19⟩, .cAnd ⟨0, 19⟩, .cOr ⟨0, 19⟩, .cXor ⟨0, 19⟩, .cShl ⟨0, 19⟩,
    .cShr ⟨0, 19⟩, .cAddi ⟨0, 19⟩, .cMov ⟨0, 19⟩, .cLdd ⟨0, 19⟩, .cNop ⟨0, 1⟩, .cNop ⟨1, 0⟩] : List Instr),
    i.wf = false := by decide
theorem test_decode_word_1 : ∀ e ∈ ([(0x0B66AA81, .add ⟨21, 10, 19, 5, true, 2⟩), (0x1B66AA81, .sub ⟨21, 10, 19, 5, true, 2⟩),
    (0x2B66AA81, .and ⟨21, 10, 19, 5, true, 2⟩), (0x3B66AA81, .or ⟨21, 10, 19, 5, true, 2⟩),
    (0x4B66AA81, .xor ⟨21, 10, 19, 5, true, 2⟩), (0x5B66AA81, .andn ⟨21, 10, 19, 5, true, 2⟩),
    (0x6B66AA81, .shl ⟨21, 10, 19, 5, true, 2⟩), (0x7B66AA81, .shr ⟨21, 10, 19, 5, true, 2⟩),
    (0x8B66AA81, .sra ⟨21, 10, 19, 5, true, 2⟩), (0x9B66AA81, .rotl ⟨21, 10, 19, 5, true, 2⟩),
    (0xAB66AA81, .min ⟨21, 10, 19, 5, true, 2⟩), (0xBB66AA81, .max ⟨21, 10, 19, 5, true, 2⟩),
    (0xCB66AA81, .minn ⟨21, 10, 19, 5, true, 2⟩), (0xDB66AA81, .maxn ⟨21, 10, 19, 5, true, 2⟩),
    (0x0B66AA83, .mul ⟨21, 10, 19, 5, true, 2⟩), (0x1B66AA83, .mulh ⟨21, 10, 19, 5, true, 2⟩),
    (0x2B66AA83, .mulhn ⟨21, 10, 19, 5, true, 2⟩), (0x3B66AA83, .div ⟨21, 10, 19, 5, true, 2⟩),
    (0x4B66AA83, .divn ⟨21, 10, 19, 5, true, 2⟩), (0x5B66AA83, .rem ⟨21, 10, 19, 5, true, 2⟩),
    (0x6B66AA83, .remn ⟨21, 10, 19, 5, true, 2⟩), (0x0B40AA85, .clz ⟨21, 10, 0, 5, true, 2⟩),
    (0x1B40AA85, .ctz ⟨21, 10, 0, 5, true, 2⟩), (0x2B40AA85, .popc ⟨21, 10, 0, 5, true, 2⟩)] : List (Nat × Instr)),
    decode (bytesOf 4 e.1) = .ok (e.2, 4) := by decide
theorem test_decode_word_2 : ∀ e ∈ ([(0x3B40AA85, .sextb ⟨21, 10, 0, 5, true, 2⟩), (0x4B40AA85, .sexth ⟨21, 10, 0, 5, true, 2⟩),
    (0x5B40AA85, .sextw ⟨21, 10, 0, 5, true, 2⟩), (0x6B40AA85, .zextb ⟨21, 10, 0, 5, true, 2⟩),
    (0x7B40AA85, .zexth ⟨21, 10, 0, 5, true, 2⟩), (0x8B40AA85, .zextw ⟨21, 10, 0, 5, true, 2⟩),
    (0x15A6AA87, .addi ⟨21, 10, 2771⟩), (0x35A6AA87, .andi ⟨21, 10, 2771⟩), (0x55A6AA87, .ori ⟨21, 10, 2771⟩),
    (0x75A6AA87, .xori ⟨21, 10, 2771⟩), (0x8026AA87, .shli ⟨21, 10, 19⟩), (0xA026AA87, .shri ⟨21, 10, 19⟩),
    (0xC026AA87, .srai ⟨21, 10, 19⟩), (0x00AD3A89, .lih ⟨21, 2771⟩), (0x00AD3A8B, .addpc ⟨21, 2771⟩),
    (0x96CD530D, .cmp ⟨6, 4, 10, 19, 5, true, 9⟩), (0x9ECD530D, .cmpImm ⟨6, 4, 10, 19, 5, true, 9⟩),
    (0x56CD530F, .fcmp ⟨6, 4, 10, 19, 5, true, 5⟩), (0x5ECD530F, .fcmpD ⟨6, 4, 10, 19, 5, true, 5⟩),
    (0x0B462291, .pand ⟨5, 2, 3, 5, true, 2⟩), (0x1B462291, .por ⟨5, 2, 3, 5, true, 2⟩),
    (0x2B462291, .pxor ⟨5, 2, 3, 5, true, 2⟩), (0x3B462291, .pandn ⟨5, 2, 3, 5, true, 2⟩),
    (0x4B402291, .pmov ⟨5, 2, 0, 5, true, 2⟩)] : List (Nat × Instr)),
    decode (bytesOf 4 e.1) = .ok (e.2, 4) := by decide
theorem test_decode_word_3 : ∀ e ∈ ([(0x5B402291, .pnot ⟨5, 2, 0, 5, true, 2⟩), (0x3C993513, .b ⟨10, 19, 4, 969⟩), (0xA53C9715, .bp ⟨6, true, 676809⟩),
    (0xA53C9F15, .call ⟨6, true, 676809⟩), (0x15A6AA97, .callr ⟨21, 10, 2771⟩), (0x3C900099, .bqNz ⟨1, 0, 969⟩),
    (0x3C920099, .bqZ ⟨1, 0, 969⟩), (0x2D30AA9B, .ldb ⟨21, 10, 19, 6, 1⟩), (0x2D32AA9B, .ldh ⟨21, 10, 19, 6, 1⟩),
    (0x2D34AA9B, .ldw ⟨21, 10, 19, 6, 1⟩), (0x2D36AA9B, .ldd ⟨21, 10, 19, 6, 1⟩),
    (0x2D38AA9B, .ldbn ⟨21, 10, 19, 6, 1⟩), (0x2D3AAA9B, .ldhn ⟨21, 10, 19, 6, 1⟩),
    (0x2D3CAA9B, .ldwn ⟨21, 10, 19, 6, 1⟩), (0x2D30AA9D, .stb ⟨21, 10, 19, 6, 1⟩),
    (0x2D32AA9D, .sth ⟨21, 10, 19, 6, 1⟩), (0x2D34AA9D, .stw ⟨21, 10, 19, 6, 1⟩),
    (0x2D36AA9D, .std ⟨21, 10, 19, 6, 1⟩), (0x0980AA9F, .ldacq ⟨21, 10, 0, 6, 2⟩),
    (0x19AEA01F, .strel ⟨0, 10, 23, 6, 2⟩), (0x2980AA9F, .ldl ⟨21, 10, 0, 6, 2⟩),
    (0x39AEAA9F, .stc ⟨21, 10, 23, 6, 2⟩), (0x0B66AAA1, .fadd ⟨21, 10, 19, 5, true, 2⟩),
    (0x1B66AAA1, .fsub ⟨21, 10, 19, 5, true, 2⟩)] : List (Nat × Instr)),
    decode (bytesOf 4 e.1) = .ok (e.2, 4) := by decide
theorem test_decode_word_4 : ∀ e ∈ ([(0x2B66AAA1, .fmul ⟨21, 10, 19, 5, true, 2⟩), (0x3B66AAA1, .fdiv ⟨21, 10, 19, 5, true, 2⟩),
    (0x4B40AAA1, .fsqrt ⟨21, 10, 0, 5, true, 2⟩), (0x5B66AAA1, .fmin ⟨21, 10, 19, 5, true, 2⟩),
    (0x6B66AAA1, .fmax ⟨21, 10, 19, 5, true, 2⟩), (0x7B66AAA1, .fma ⟨21, 10, 19, 5, true, 2⟩),
    (0x8B66AAA1, .fnma ⟨21, 10, 19, 5, true, 2⟩), (0x9B44AAA1, .fcvti ⟨21, 10, 2, 5, true, 2⟩),
    (0xAB46AAA1, .fcvtf ⟨21, 10, 3, 5, true, 2⟩), (0xBB4AAAA1, .fcvtp ⟨21, 10, 5, 5, true, 2⟩),
    (0x0B66AAA3, .faddD ⟨21, 10, 19, 5, true, 2⟩), (0x1B66AAA3, .fsubD ⟨21, 10, 19, 5, true, 2⟩),
    (0x2B66AAA3, .fmulD ⟨21, 10, 19, 5, true, 2⟩), (0x3B66AAA3, .fdivD ⟨21, 10, 19, 5, true, 2⟩),
    (0x4B40AAA3, .fsqrtD ⟨21, 10, 0, 5, true, 2⟩), (0x5B66AAA3, .fminD ⟨21, 10, 19, 5, true, 2⟩),
    (0x6B66AAA3, .fmaxD ⟨21, 10, 19, 5, true, 2⟩), (0x7B66AAA3, .fmaD ⟨21, 10, 19, 5, true, 2⟩),
    (0x8B66AAA3, .fnmaD ⟨21, 10, 19, 5, true, 2⟩), (0x9B42AAA3, .fcvtiD ⟨21, 10, 1, 5, true, 2⟩),
    (0xAB44AAA3, .fcvtfD ⟨21, 10, 2, 5, true, 2⟩), (0xBB4CAAA3, .fcvtpD ⟨21, 10, 6, 5, true, 2⟩),
    (0x15A60AA5, .csrr ⟨21, 0, 2771⟩), (0x35A6A025, .csrw ⟨0, 10, 2771⟩)] : List (Nat × Instr)),
    decode (bytesOf 4 e.1) = .ok (e.2, 4) := by decide
theorem test_decode_word_5 : ∀ e ∈ ([(0x55A6AAA5, .csrx ⟨21, 10, 2771⟩), (0x0B400AA7, .svc ⟨21, 0, 0, 5, true, 2⟩),
    (0x1B400AA7, .trap ⟨21, 0, 0, 5, true, 2⟩), (0x2B400027, .tret ⟨0, 0, 0, 5, true, 2⟩),
    (0x33400027, .uiret ⟨0, 0, 0, 5, true, 0⟩), (0x4B400027, .idle ⟨0, 0, 0, 5, true, 2⟩),
    (0x5B400027, .nop ⟨0, 0, 0, 5, true, 2⟩), (0x6B400027, .brk ⟨0, 0, 0, 5, true, 2⟩),
    (0x7B400027, .exit ⟨0, 0, 0, 5, true, 2⟩), (0x0FA6AAA9, .vadd ⟨21, 10, 19, 6, true, true, true⟩),
    (0x1FA6AAA9, .vsub ⟨21, 10, 19, 6, true, true, true⟩), (0x2FA6AAA9, .vmul ⟨21, 10, 19, 6, true, true, true⟩),
    (0x3FA6AAA9, .vmulh ⟨21, 10, 19, 6, true, true, true⟩), (0x4FA6AAA9, .vmulhn ⟨21, 10, 19, 6, true, true, true⟩),
    (0x5FA6AAA9, .vmin ⟨21, 10, 19, 6, true, true, true⟩), (0x6FA6AAA9, .vmax ⟨21, 10, 19, 6, true, true, true⟩),
    (0x7FA6AAA9, .vminn ⟨21, 10, 19, 6, true, true, true⟩), (0x8FA6AAA9, .vmaxn ⟨21, 10, 19, 6, true, true, true⟩),
    (0x9FA6AAA9, .vand ⟨21, 10, 19, 6, true, true, true⟩), (0xAFA6AAA9, .vor ⟨21, 10, 19, 6, true, true, true⟩),
    (0xBFA6AAA9, .vxor ⟨21, 10, 19, 6, true, true, true⟩), (0xCFA6AAA9, .vandn ⟨21, 10, 19, 6, true, true, true⟩),
    (0xDFA6AAA9, .vshl ⟨21, 10, 19, 6, true, true, true⟩), (0xEFA6AAA9, .vshr ⟨21, 10, 19, 6, true, true, true⟩)] : List (Nat × Instr)),
    decode (bytesOf 4 e.1) = .ok (e.2, 4) := by decide
theorem test_decode_word_6 : ∀ e ∈ ([(0xFFA6AAA9, .vsra ⟨21, 10, 19, 6, true, true, true⟩), (0x0FA6AAAB, .vsadd ⟨21, 10, 19, 6, true, true, true⟩),
    (0x1FA6AAAB, .vssub ⟨21, 10, 19, 6, true, true, true⟩), (0x2FA6AAAB, .vsaddn ⟨21, 10, 19, 6, true, true, true⟩),
    (0x3FA6AAAB, .vssubn ⟨21, 10, 19, 6, true, true, true⟩), (0x4FA6AAAB, .vabsd ⟨21, 10, 19, 6, true, true, true⟩),
    (0x5780AAAB, .vclz ⟨21, 10, 0, 6, true, true, false⟩), (0x6780AAAB, .vpopc ⟨21, 10, 0, 6, true, true, false⟩),
    (0x7780AAAB, .vneg ⟨21, 10, 0, 6, true, true, false⟩), (0x0FA6AAAD, .vfadd ⟨21, 10, 19, 6, true, true, true⟩),
    (0x1FA6AAAD, .vfsub ⟨21, 10, 19, 6, true, true, true⟩), (0x2FA6AAAD, .vfmul ⟨21, 10, 19, 6, true, true, true⟩),
    (0x3FA6AAAD, .vfma ⟨21, 10, 19, 6, true, true, true⟩), (0x4FA6AAAD, .vfms ⟨21, 10, 19, 6, true, true, true⟩),
    (0x5FA6AAAD, .vfnma ⟨21, 10, 19, 6, true, true, true⟩), (0x6FA6AAAD, .vfdiv ⟨21, 10, 19, 6, true, true, true⟩),
    (0x7780AAAD, .vfsqrt ⟨21, 10, 0, 6, true, true, false⟩), (0x8FA6AAAD, .vfmin ⟨21, 10, 19, 6, true, true, true⟩),
    (0x9FA6AAAD, .vfmax ⟨21, 10, 19, 6, true, true, true⟩), (0xA780AAAD, .vfabs ⟨21, 10, 0, 6, true, true, false⟩),
    (0xB780AAAD, .vfneg ⟨21, 10, 0, 6, true, true, false⟩), (0xC780AAAD, .vfclass ⟨21, 10, 0, 6, true, true, false⟩),
    (0x9FA6A2AF, .vcmp ⟨5, 10, 19, 6, true, true, true, 9⟩), (0x5FA6A2B1, .vfcmp ⟨5, 10, 19, 6, true, true, true, 5⟩)] : List (Nat × Instr)),
    decode (bytesOf 4 e.1) = .ok (e.2, 4) := by decide
theorem test_decode_word_7 : ∀ e ∈ ([(0x078622B3, .kand ⟨5, 2, 3, 6, true, true, false⟩), (0x178622B3, .kor ⟨5, 2, 3, 6, true, true, false⟩),
    (0x278622B3, .kxor ⟨5, 2, 3, 6, true, true, false⟩), (0x378622B3, .kandn ⟨5, 2, 3, 6, true, true, false⟩),
    (0x478022B3, .knot ⟨5, 2, 0, 6, true, true, false⟩), (0x578022B3, .kmov ⟨5, 2, 0, 6, true, true, false⟩),
    (0x67802AB3, .kpopc ⟨21, 2, 0, 6, true, true, false⟩), (0x77802AB3, .kfirst ⟨21, 2, 0, 6, true, true, false⟩),
    (0x0780AAB5, .vmv ⟨21, 10, 0, 6, true, true, false⟩), (0x0FA60AB5, .vmvX ⟨21, 0, 19, 6, true, true, true⟩),
    (0x1FA6AAB5, .vbcast ⟨21, 10, 19, 6, true, true, true⟩), (0x27A6AAB5, .vsel ⟨21, 10, 19, 6, true, true, false⟩),
    (0x3FA6AAB5, .vslideup ⟨21, 10, 19, 6, true, true, true⟩),
    (0x4FA6AAB5, .vslidedn ⟨21, 10, 19, 6, true, true, true⟩),
    (0x57A6AAB5, .vgathr ⟨21, 10, 19, 6, true, true, false⟩), (0x6780AAB5, .vcompr ⟨21, 10, 0, 6, true, true, false⟩),
    (0x7780AAB5, .vexpnd ⟨21, 10, 0, 6, true, true, false⟩), (0x87800AB5, .viota ⟨21, 0, 0, 6, true, true, false⟩),
    (0x9DE6AAB5, .vexts ⟨21, 10, 19, 7, false, true, true⟩), (0xADE6AAB5, .vinss ⟨21, 10, 19, 7, false, true, true⟩),
    (0xBFA6AAB5, .vrowmv ⟨21, 10, 19, 6, true, true, true⟩), (0xC780AAB5, .vtrn ⟨21, 10, 0, 6, true, true, false⟩),
    (0x0784AAB7, .vcvt ⟨21, 10, 2, 6, true, true, false⟩), (0x1780AAB7, .vcbenc ⟨21, 10, 0, 6, true, true, false⟩)] : List (Nat × Instr)),
    decode (bytesOf 4 e.1) = .ok (e.2, 4) := by decide
theorem test_decode_word_8 : ∀ e ∈ ([(0x2780AAB7, .vcbdec ⟨21, 10, 0, 6, true, true, false⟩), (0x37A6AAB7, .vpack ⟨21, 10, 19, 6, true, true, false⟩),
    (0x4FA6AAB7, .vunpk ⟨21, 10, 19, 6, true, true, true⟩), (0x0FA6AAB9, .vredo ⟨21, 10, 19, 6, true, true, true⟩),
    (0x1FA6AAB9, .vredt ⟨21, 10, 19, 6, true, true, true⟩), (0x2FA6AAB9, .vredmax ⟨21, 10, 19, 6, true, true, true⟩),
    (0x3FA6AAB9, .vredmin ⟨21, 10, 19, 6, true, true, true⟩), (0x4FA6AAB9, .vredand ⟨21, 10, 19, 6, true, true, true⟩),
    (0x5FA6AAB9, .vredor ⟨21, 10, 19, 6, true, true, true⟩), (0x67A6AAB9, .vdoto ⟨21, 10, 19, 6, true, true, false⟩),
    (0x77A6AAB9, .vdott ⟨21, 10, 19, 6, true, true, false⟩), (0x0780AABB, .vexp2 ⟨21, 10, 0, 6, true, true, false⟩),
    (0x1780AABB, .vlog2 ⟨21, 10, 0, 6, true, true, false⟩), (0x2780AABB, .vrcp ⟨21, 10, 0, 6, true, true, false⟩),
    (0x3780AABB, .vrsq ⟨21, 10, 0, 6, true, true, false⟩), (0x4780AABB, .vsin ⟨21, 10, 0, 6, true, true, false⟩),
    (0x5780AABB, .vcos ⟨21, 10, 0, 6, true, true, false⟩), (0x6780AABB, .vtanh ⟨21, 10, 0, 6, true, true, false⟩),
    (0x7780AABB, .vsigm ⟨21, 10, 0, 6, true, true, false⟩), (0x05E6AABD, .vmrg ⟨21, 10, 19, 7, false, true, false⟩),
    (0x15E6AABD, .vmrgi ⟨21, 10, 19, 7, false, true, false⟩), (0x27A6AABD, .vbsrch ⟨21, 10, 19, 6, true, true, false⟩),
    (0x0B40303F, .vconf ⟨0, 3, 0, 5, true, 2⟩), (0x1B42AABF, .vsetl ⟨21, 10, 1, 5, true, 2⟩)] : List (Nat × Instr)),
    decode (bytesOf 4 e.1) = .ok (e.2, 4) := by decide
theorem test_decode_word_9 : ∀ e ∈ ([(0x2B42AABF, .vclaim ⟨21, 10, 1, 5, true, 2⟩), (0x3B42AABF, .vclaimp ⟨21, 10, 1, 5, true, 2⟩),
    (0x4B40A0BF, .vsett ⟨1, 10, 0, 5, true, 2⟩), (0x5B66A0BF, .vcbld ⟨1, 10, 19, 5, true, 2⟩),
    (0x6B40A33F, .wthset ⟨6, 10, 0, 5, true, 2⟩), (0xA7A6AAC1, .vld ⟨21, 10, 19, 6, true, 9, 2⟩),
    (0xA7A6AAC3, .vst ⟨21, 10, 19, 6, true, 9, 2⟩), (0xA7A6AAC5, .vstn ⟨21, 10, 19, 6, true, 9, 2⟩),
    (0xA7A6AAC7, .vldcl ⟨21, 10, 19, 6, true, 9, 2⟩), (0xA7A6AAC9, .vstcl ⟨21, 10, 19, 6, true, 9, 2⟩),
    (0xA3A6AACB, .vgll ⟨21, 10, 19, 6, true, 8, 2⟩), (0xB7A6AACD, .vscc ⟨21, 10, 19, 6, true, 13, 2⟩),
    (0xA7A6AACF, .vlda ⟨21, 10, 19, 6, true, 9, 2⟩), (0xA7A6AAD1, .vstl ⟨21, 10, 19, 6, true, 9, 2⟩),
    (0x0B40A053, .qdrain ⟨0, 10, 0, 5, true, 2⟩), (0x1B40A3D3, .fence ⟨7, 10, 0, 5, true, 2⟩),
    (0x2B400053, .efence ⟨0, 0, 0, 5, true, 2⟩), (0x3B66A453, .waitge ⟨8, 10, 19, 5, true, 2⟩),
    (0x4B664053, .waitdc ⟨0, 4, 19, 5, true, 2⟩), (0x5B40A2D3, .bar ⟨5, 10, 0, 5, true, 2⟩),
    (0x6B66A053, .hgive ⟨0, 10, 19, 5, true, 2⟩), (0x7B40A053, .htake ⟨0, 10, 0, 5, true, 2⟩),
    (0x0B66A2D5, .enq ⟨5, 10, 19, 5, true, 2⟩), (0x1B48AAD5, .deq ⟨21, 10, 4, 5, true, 2⟩)] : List (Nat × Instr)),
    decode (bytesOf 4 e.1) = .ok (e.2, 4) := by decide
theorem test_decode_word_10 : ∀ e ∈ ([(0x2B40A2D5, .venq ⟨5, 10, 0, 5, true, 2⟩), (0x3B40AAD5, .vdeq ⟨21, 10, 0, 5, true, 2⟩),
    (0x4B66A2D5, .stream ⟨5, 10, 19, 5, true, 2⟩), (0x5B66A2D5, .charm ⟨5, 10, 19, 5, true, 2⟩),
    (0x6B4EAAD5, .chstat ⟨21, 10, 7, 5, true, 2⟩), (0x7B4002D5, .chclr ⟨5, 0, 0, 5, true, 2⟩),
    (0x0B66AAD7, .tdep ⟨21, 10, 19, 5, true, 2⟩), (0x1B66AAD7, .tcpy ⟨21, 10, 19, 5, true, 2⟩),
    (0x2B66AAD7, .ttak ⟨21, 10, 19, 5, true, 2⟩), (0x3B66AAD7, .tcpyn ⟨21, 10, 19, 5, true, 2⟩),
    (0x4B66AAD7, .ttakn ⟨21, 10, 19, 5, true, 2⟩), (0x5B66AAD7, .treg ⟨21, 10, 19, 5, true, 2⟩),
    (0x6B40A057, .tfree ⟨0, 10, 0, 5, true, 2⟩), (0x07A6AAD9, .gsub ⟨21, 10, 19, 6, true, true, false⟩),
    (0x17A6AAD9, .gadd ⟨21, 10, 19, 6, true, true, false⟩), (0x2FA6AAD9, .gscale ⟨21, 10, 19, 6, true, true, true⟩),
    (0x37A6AAD9, .gdot ⟨21, 10, 19, 6, true, true, false⟩), (0x47A6AAD9, .gcross ⟨21, 10, 19, 6, true, true, false⟩),
    (0x5780AAD9, .glen ⟨21, 10, 0, 6, true, true, false⟩), (0x6FA6AAD9, .gcvt ⟨21, 10, 19, 6, true, true, true⟩),
    (0x77A6AAD9, .gxfm ⟨21, 10, 19, 6, true, true, false⟩), (0x8780AAD9, .gtag ⟨21, 10, 0, 6, true, true, false⟩),
    (0x9FA6AAD9, .gsettag ⟨21, 10, 19, 6, true, true, true⟩), (0xA780A2D9, .gchk ⟨5, 10, 0, 6, true, true, false⟩)] : List (Nat × Instr)),
    decode (bytesOf 4 e.1) = .ok (e.2, 4) := by decide
theorem test_decode_word_11 : ∀ e ∈ ([(0xB780AAD9, .gretag ⟨21, 10, 0, 6, true, true, false⟩), (0x0B40AADB, .fnew ⟨21, 10, 0, 5, true, 2⟩),
    (0x1B40A05B, .ffree ⟨0, 10, 0, 5, true, 2⟩), (0x2B66A05B, .fupd ⟨0, 10, 19, 5, true, 2⟩),
    (0x3B40AADB, .fsplit ⟨21, 10, 0, 5, true, 2⟩), (0x4B66AADB, .frepar ⟨21, 10, 19, 5, true, 2⟩),
    (0x5B40005B, .ffence ⟨0, 0, 0, 5, true, 2⟩), (0x0FA6AADD, .gcell ⟨21, 10, 19, 6, true, true, true⟩),
    (0x17A6A2DD, .hins ⟨5, 10, 19, 6, true, true, false⟩), (0x2FA6AADD, .hlook ⟨21, 10, 19, 6, true, true, true⟩),
    (0x35C0005D, .hclr ⟨0, 0, 0, 7, false, true, false⟩), (0x0DE6AADF, .wfwd ⟨21, 10, 19, 7, false, true, true⟩),
    (0x15C0AADF, .winv ⟨21, 10, 0, 7, false, true, false⟩), (0x25C0AADF, .wtag ⟨21, 10, 0, 7, false, true, false⟩),
    (0x3DE60ADF, .wsettag ⟨21, 0, 19, 7, false, true, true⟩), (0x0B40A0E1, .mcfg ⟨1, 10, 0, 5, true, 2⟩),
    (0x1B66A061, .mldb ⟨0, 10, 19, 5, true, 2⟩), (0x2B66A0E1, .mmac ⟨1, 10, 19, 5, true, 2⟩),
    (0x3B40A0E1, .mdrain ⟨1, 10, 0, 5, true, 2⟩), (0x4B40A0E1, .mzero ⟨1, 10, 0, 5, true, 2⟩),
    (0x5B40A061, .mwait ⟨0, 10, 0, 5, true, 2⟩), (0x6B400061, .msync ⟨0, 0, 0, 5, true, 2⟩),
    (0x7B401AE1, .mstep ⟨21, 1, 0, 5, true, 2⟩), (0x0B40AAE3, .launch ⟨21, 10, 0, 5, true, 2⟩)] : List (Nat × Instr)),
    decode (bytesOf 4 e.1) = .ok (e.2, 4) := by decide
theorem test_decode_word_12 : ∀ e ∈ ([(0x1B40AAE3, .spawn ⟨21, 10, 0, 5, true, 2⟩), (0x2B40AAE3, .steal ⟨21, 10, 0, 5, true, 2⟩),
    (0x3B40AAE3, .taskget ⟨21, 10, 0, 5, true, 2⟩), (0x4B400063, .yield ⟨0, 0, 0, 5, true, 2⟩),
    (0x0B66A065, .tlbi ⟨0, 10, 19, 5, true, 2⟩), (0x1940AAE5, .msq ⟨21, 10, 0, 5, false, 2⟩),
    (0x2B66A065, .migrate ⟨0, 10, 19, 5, true, 2⟩), (0x3B66AAE5, .keyld ⟨21, 10, 19, 5, true, 2⟩),
    (0x4B66A065, .actbl ⟨0, 10, 19, 5, true, 2⟩), (0x5B66AAE5, .preempt ⟨21, 10, 19, 5, true, 2⟩),
    (0x6B66AAE5, .resume ⟨21, 10, 19, 5, true, 2⟩), (0x0000D067, .pfx ⟨0, 5, true, false⟩),
    (0x0002D4E7, .pfxCopy ⟨9, 5, true, false⟩)] : List (Nat × Instr)),
    decode (bytesOf 4 e.1) = .ok (e.2, 4) := by decide
theorem test_decode_compact_1 : ∀ e ∈ ([(0x9A80, .cAdd ⟨10, 19⟩), (0x9A82, .cSub ⟨10, 19⟩), (0x9A84, .cAnd ⟨10, 19⟩), (0x9A86, .cOr ⟨10, 19⟩),
    (0x9A88, .cXor ⟨10, 19⟩), (0x9A8A, .cShl ⟨10, 19⟩), (0x9A8C, .cShr ⟨10, 19⟩), (0x9A8E, .cAddi ⟨10, 19⟩),
    (0x9A90, .cMov ⟨10, 19⟩), (0x9A92, .cLdd ⟨10, 19⟩), (0x9A94, .cStd ⟨10, 19⟩), (0x9A96, .cBnz ⟨10, 19⟩),
    (0x003E, .cNop ⟨0, 0⟩)] : List (Nat × Instr)),
    decode (bytesOf 2 e.1) = .ok (e.2, 2) := by decide
theorem witness_IntegerWordsCompute : base.Ready ∧ base.guarded 7 false ∧ base.guarded 0 true :=
  ⟨base_ready, rfl, rfl⟩
/-- The hart of the division's three cases. -/
def divider : State := withRegs [(1, 0x8000000000000000), (2, 0xFFFFFFFFFFFFFFFF), (3, -7), (4, 2)] base
theorem witness_DivisionEdgeCases : divider.Ready ∧ divider.h.pred 7 = !false ∧ divider.h.reg 0 = 0 ∧
    divider.h.reg 1 = 0x8000000000000000 ∧ divider.h.reg 2 = 0xFFFFFFFFFFFFFFFF ∧ divider.h.reg 3 = -7 ∧
    divider.h.reg 4 = 2 := ⟨ready_of rfl rfl rfl rfl rfl rfl rfl, by decide +kernel⟩
theorem witness_ImmediateWordsCompute : base.Ready ∧ (Instr.shli ⟨1, 2, 63⟩).wf = true ∧ (Instr.addi ⟨1, 2, 0xFFF⟩).wf = true :=
  ⟨base_ready, by decide +kernel, by decide +kernel⟩
theorem witness_PredicateWordsCompute : base.Ready ∧ base.guarded 7 false ∧ (Instr.pnot ⟨7, 7, 0, 7, false, 0⟩).wf = true ∧
    (Instr.pand ⟨7, 7, 7, 7, false, 3⟩).wf = true ∧
    ((11 : BitVec 4), fun (a b : Word) => a &&& b == 0) ∈ [((10 : BitVec 4), fun (a b : Word) => a &&& b != 0),
      (11, fun a b => a &&& b == 0)] :=
  ⟨base_ready, rfl, by decide +kernel, by decide +kernel, .tail _ (.head _)⟩
theorem witness_BranchesTransferControl : padded.Ready ∧ (padded.h.reg 5 + (0 : BitVec 12).signExtend 64).toNat % 4 = 0 ∧
    (padded.h.reg 6 + (0 : BitVec 12).signExtend 64).toNat % 4 ≠ 0 ∧ padded.h.reg 0 = 0 ∧ padded.h.reg 6 ≠ 0 :=
  ⟨padded_ready, by decide +kernel⟩
theorem witness_ScalarFloatComputes : padded.Ready ∧ padded.guarded 7 false := ⟨padded_ready, rfl⟩
/-- A hart whose last word was a prefix. -/
def prefixed : State := onHart base fun h => { h with pfx := some ⟨false, false, 7, some 9, 0x0000F4FF, 0⟩ }
theorem witness_GuardsAndPrefixes : base.Ready ∧ ¬base.guarded 0 false ∧
    State.Ready { prefixed with h := { prefixed.h with pfx := none } } ∧
    prefixed.h.pfx = some ⟨false, false, (7 : BitVec 3).toNat, some (9 : BitVec 5).toNat, 0x0000F4FF, 0⟩ ∧
    prefixed.guarded 7 false ∧ ¬prefixed.guarded 0 false :=
  ⟨base_ready, by unfold State.guarded; decide, ready_of rfl rfl rfl rfl rfl rfl rfl, rfl, rfl, by unfold State.guarded; decide⟩
theorem witness_ConditionalBranches : padded.Ready ∧ padded.h.reg 6 ≠ padded.h.reg 7 ∧
    ((5 : BitVec 3), fun (a b : Word) => decide (b.toNat ≤ a.toNat)) ∈
      [((0 : BitVec 3), fun (a b : Word) => a == b), (5, fun a b => decide (b.toNat ≤ a.toNat))] :=
  ⟨padded_ready, by decide +kernel, .tail _ (.head _)⟩
theorem witness_ScalarLoadsRead : padded.Ready ∧ padded.h.role ≠ .computer ∧
    (padded.h.reg 5 + BitVec.ofNat 64 (0 * 8)).toNat = pad ∧ padded.Plain pad 8 ∧ padded.Plain pad 1 ∧
    physRead padded.ctx pad 8 padded = .ok (padded, List.replicate 8 0, none) ∧
    (let s := onHart padded fun h => { h with lastd := 5 }
     s.Ready ∧ (s.h.reg s.h.lastd.toNat + BitVec.ofNat 64 (8 * 31)).toNat = pad + 248 ∧ s.Plain (pad + 248) 8 ∧
      physRead s.ctx (pad + 248) 8 s = .ok (s, List.replicate 8 0, none)) :=
by
  refine ⟨padded_ready, ?_, ?_, padded_plain _ ?_ ?_, padded_plain _ ?_ ?_, ?_, ready_of rfl rfl rfl rfl rfl rfl rfl, ?_,
    ⟨rfl, ?_, ?_, rfl, rfl, rfl, loaded_of rfl⟩, ?_⟩ <;> decide +kernel
theorem witness_CountedLoadsIssue : counted.Ready ∧ counted.h.role ≠ .computer ∧ (0 : BitVec 3).toNat < 6 ∧
    (counted.h.deps[0]?.getD 0) < 63 ∧ counted.Plain pad 8 ∧
    physRead counted.ctx pad 8 counted = .ok (counted, List.replicate 8 0, none) :=
by
  refine ⟨ready_of rfl rfl rfl rfl rfl rfl rfl, ?_, ?_, ?_, ⟨rfl, ?_, ?_, rfl, rfl, rfl, loaded_of rfl⟩, ?_⟩ <;> decide +kernel
theorem witness_ScalarStoresBuffer : counted.Ready ∧ counted.h.role ≠ .computer ∧ counted.Plain pad 8 ∧
    (0 : BitVec 3).toNat < 6 ∧ (counted.h.deps[0]?.getD 0) < 63 ∧
    (counted.h.reg 5 + BitVec.ofNat 64 (0 * 8)).toNat = pad ∧
    (let s := onHart padded fun h => { h with lastd := 5 }
     s.Ready ∧ (s.h.reg s.h.lastd.toNat + BitVec.ofNat 64 (8 * 0)).toNat = pad ∧ s.Plain pad 8) :=
by
  refine ⟨ready_of rfl rfl rfl rfl rfl rfl rfl, ?_, ⟨rfl, ?_, ?_, rfl, rfl, rfl, loaded_of rfl⟩, ?_, ?_, ?_,
    ready_of rfl rfl rfl rfl rfl rfl rfl, ?_, ⟨rfl, ?_, ?_, rfl, rfl, rfl, loaded_of rfl⟩⟩ <;> decide +kernel
/-- A hart that holds one byte to be stored: the last of its core's scratchpad. -/
def storing : State := onHart padded fun h => { h with strip := { h.strip with
  buf := [⟨0, State.access (pad + 0xFFFFF), [7], some 0, [], 3⟩], nextSeq := 1 } }
theorem witness_BufferedStoresPerform : Memory.wf storing.mem = true ∧ 0 < 96 ∧ 0xFFFFF % 32 + [(7 : Byte)].length ≤ 32 ∧
    0xFFFFF < 2 ^ 20 ∧ [(7 : Byte)] ≠ [] ∧ look ((pad + 0xFFFFF) / 32 * 32) storing.flaws = none ∧
    pad + 0xFFFFF = 0x100000000000 + coordCluster storing.cur * 2 ^ 27 + 0 * 2 ^ 20 + 0xFFFFF ∧
    storing.h.strip.buf = [⟨0, State.access (pad + 0xFFFFF), [7], some 0, [], 3⟩] ∧ storing.h.ops = [] := by decide +kernel
/-- A state whose memory-side cache holds line 0. -/
def cachedLine : State := { base with hbm := { base.hbm with cache := [(0, {})] } }
theorem witness_PlainRequests : Memory.wf base.mem = true ∧ 0 < 32 ∧ (pad + 0xFFFE0) % 32 + 32 ≤ 32 ∧
    look ((pad + 0xFFFE0) / 32 * 32) base.flaws = none ∧ 95 < 96 ∧ 0xFFFE0 < 2 ^ 20 ∧
    0 < 0xF000000000 ∧ cached cachedLine (lineOf 0) = true ∧ cachedLine.dev.heldWrites = [] ∧
    (keyOf cachedLine 0).isSome = true := by decide +kernel
/-- Its link is on the scratchpad's first line. -/
def linked : State := onHart padded fun h => { h with link := some pad }
theorem witness_AcquireReleaseWords : linked.Ready ∧ linked.h.role ≠ .computer ∧ linked.Plain pad 8 ∧ pad % 8 = 0 ∧
    physRead linked.ctx pad 8 linked = .ok (linked, List.replicate 8 0, none) ∧
    padded.h.link ≠ some (pad / 128 * 128) ∧ linked.h.link = some (pad / 128 * 128) ∧ unstepped linked = false ∧
    okWhere (physWrite linked.ctx pad (bytesOf 8 (linked.h.reg 6).toNat) (earlyCommit 2 linked))
      (fun r => decide (r.2 = none) && decide (r.1.h.pend = []) && decide (r.1.h.pfx = none)) = true :=
by
  refine ⟨ready_of rfl rfl rfl rfl rfl rfl rfl, ?_, ⟨rfl, ?_, ?_, rfl, rfl, rfl, loaded_of rfl⟩, ?_⟩ <;> decide +kernel
theorem witness_AccessFaultsTrap : unmapped.Ready ∧ unmapped.h.role ≠ .computer ∧
    (unmapped.h.reg 5 + BitVec.ofNat 64 (0 * 8)).toNat % 8 = 0 ∧
    translateKept unmapped.h.mode 0x10008 .read unmapped = .error (.cause 0x10) ∧ 4 < 0x10 ∧
    padded.h.mode = .machine ∧ (padded.h.reg 6).toNat % 2 ^ 1 ≠ 0 ∧ computer.Ready ∧ computer.h.role = .computer :=
by
  refine ⟨ready_of rfl rfl rfl rfl rfl rfl rfl, ?_, ?_, ?_, ?_, rfl, ?_, ready_of rfl rfl rfl rfl rfl rfl rfl, ?_⟩ <;> decide +kernel
theorem witness_TrapEntrySaves : base.h.role ≠ .control ∧ base.h.strip.buf = [] ∧ base.h.pend = [] ∧ 0xFF < 256 ∧
    base.h.mode = .machine ∧ 0xFF ≠ 0x31 := by decide +kernel
theorem witness_TrapWordsEnter : base.Ready ∧ base.guarded 7 false ∧ entryWaits base = false ∧ base.h.inHandler = false ∧
    (let s := onHart base fun h => { h with inHandler := true }
     s.Ready ∧ s.guarded 7 false ∧ s.h.inHandler = true) := ⟨base_ready, rfl, by decide +kernel, rfl, ready_of rfl rfl rfl rfl rfl rfl rfl, rfl, rfl⟩
/-- A supervisor hart whose STATUS names machine mode, and one whose STATUS names user mode. -/
def returning (prev : Word) : State := onHart base fun h => { h with mode := .supervisor, sup := { h.sup with status := prev } }
theorem witness_ReturnsRestore :
    (returning 1).Ready ∧ (returning 1).guarded 7 false ∧ (returning 1).h.mode ≠ .user ∧
      wbits (returning 1).h.sup.status 1 0 ≤ modeNum (returning 1).h.mode ∧
    (returning 2).Ready ∧ modeNum (returning 2).h.mode < wbits (returning 2).h.sup.status 1 0 ∧
    unmapped.Ready ∧ unmapped.h.mode = .user := by
  refine ⟨ready_of rfl rfl rfl rfl rfl rfl rfl, rfl, ?_, ?_, ready_of rfl rfl rfl rfl rfl rfl rfl, ?_, ready_of rfl rfl rfl rfl rfl rfl rfl, ?_⟩ <;> decide +kernel
theorem witness_CsrWords : base.Ready ∧ (0x246 : BitVec 12).toNat / 256 ≤ modeNum base.h.mode ∧
    (0xBF : BitVec 12).toNat < 0xC0 ∧ 0x248 ≤ (0x248 : BitVec 12).toNat ∧
    (0xE4 : BitVec 12) ∈ ([0xC0, 0xC1, 0xC2, 0xCA, 0xCF, 0xDB, 0xDE, 0xE0, 0xE1, 0xE4] : List (BitVec 12)) ∧
    unmapped.Ready ∧ 0x140 ≤ (0x147 : BitVec 12).toNat ∧ (0x147 : BitVec 12).toNat ≤ 0x147 ∧ unmapped.h.mode = .user ∧
    0x240 ≤ (0x240 : BitVec 12).toNat ∧ (0x240 : BitVec 12).toNat ≤ 0x247 ∧ unmapped.h.mode ≠ .machine := by
  refine ⟨base_ready, ?_, ?_, ?_, ?_, ready_of rfl rfl rfl rfl rfl rfl rfl, ?_⟩ <;> decide +kernel
/-- The loop of an add of two elements at SEW 64, from element 1, with both active. -/
def aLoop : Loop := ⟨vtypeOf 0x205, 2, 64, 1, fun _ _ => true⟩
theorem witness_ElementRule : aLoop.v.sew ≠ 6 ∧ 0 < aLoop.v.sew ∧
    (∀ r i res res', ((fun (_ i _ : Nat) => some (⟨i, 0, 0⟩ : Elem)) r i res).map (·.value) =
      ((fun (_ i _ : Nat) => some (⟨i, 0, 0⟩ : Elem)) r i res').map (·.value)) ∧
    0 < aLoop.n ∧ 0 * aLoop.n + 0 < aLoop.start ∧ 1 < aLoop.n ∧ aLoop.start ≤ 0 * aLoop.n + 1 ∧ aLoop.n < aLoop.max :=
  ⟨by decide +kernel, by decide +kernel, fun _ _ _ _ => rfl, by decide +kernel⟩
theorem witness_RowsAreReadBack : padded.Solo ∧ padded.h.span = 0 ∧ (24 : BitVec 5).toNat + (vtypeOf 0x1C5).rows ≤ 32 ∧
    (List.replicate 8 (({} : Wide), 0, 0)).length = (vtypeOf 0x1C5).rows ∧ 0 < (vtypeOf 0x1C5).rows := by
  refine ⟨padded_solo, ?_⟩
  decide +kernel
theorem witness_VectorIntegerWords : (typed 0x204 0 5).Solo ∧
    groupsLegal (typed 0x204 0 5).h (some (⟨31, ((typed 0x204 0 5).h.slot false).rows⟩, false)) [⟨one 0, true⟩, ⟨one 31, true⟩] = true ∧
    ((typed 0x204 0 5).h.slot false).fmt = 0 ∧ ((typed 0x204 0 5).h.slot false).sew = 32 ∧
    ((7 : BitVec 3) == 7 && true) = true ∧ ((0 : BitVec 3) == 7 && true) = false := by
  refine ⟨typed_solo _ _ _, ?_⟩
  decide +kernel
theorem witness_VectorFloatWords : (typed 0x00C 0 3).Solo ∧ ((7 : BitVec 3) == 7 && false) = false ∧
    groupsLegal (typed 0x00C 0 3).h (some (⟨3, ((typed 0x00C 0 3).h.slot false).rows⟩, true)) [⟨one 1, true⟩, ⟨one 2, true⟩] = true ∧
    ((typed 0x00C 0 3).h.slot false).float = some fp32 ∧ ((typed 0x013 0 3).h.slot false).float = some bf16 := by
  refine ⟨typed_solo _ _ _, ?_⟩
  decide +kernel
theorem witness_VectorMoveWords : (typed 0x205 0x205 5).Solo ∧ ((7 : BitVec 3) == 7 && false) = false ∧
    groupsLegal (typed 0x205 0x205 5).h (some (⟨3, 1⟩, false)) [⟨one 1, false⟩, ⟨one 2, false⟩] = true ∧
    groupsLegal (typed 0x205 0x205 5).h (some (⟨3, 1⟩, false)) [] = true ∧ groupsLegal (typed 0x205 0x205 5).h none [⟨one 31, false⟩] = true ∧
    ((typed 0x205 0x205 5).h.slot true).sew ≠ 128 ∧ ((typed 0x205 0x205 5).h.slot true).fmt = 0 ∧
    blockOf (typed 0x205 0x205 5) 3 = none := by
  refine ⟨typed_solo _ _ _, ?_⟩
  decide +kernel
theorem witness_VectorGroupChecks : (typed 0x1C5 0 5).Solo ∧
    groupsLegal (typed 0x1C5 0 5).h (some (⟨25, ((typed 0x1C5 0 5).h.slot false).rows⟩, false)) [⟨⟨0, 8⟩, true⟩] = false ∧
    groupsLegal (typed 0x1C5 0 5).h (some (⟨24, ((typed 0x1C5 0 5).h.slot false).rows⟩, false)) [⟨⟨24, 8⟩, true⟩] = true ∧
    groupsLegal (typed 0x1C5 0 5).h (some (⟨24, ((typed 0x1C5 0 5).h.slot false).rows⟩, false)) [⟨⟨24, 8⟩, false⟩] = false := by
  refine ⟨typed_solo _ _ _, ?_⟩
  decide +kernel
/-- A hart whose codebook slot 0 holds 16 entries; slot 0 of VTYPE names codes of four bits, slot 1 FP32. -/
def coded (v u : Word) : State :=
  onHart (typed v u 4) fun h => { h with cbs := h.cbs.setIfInBounds 0 ⟨0, (List.range 16).map (BitVec.ofNat 16)⟩ }
theorem witness_VectorConvertWords : (coded 0x018 0x00C).Solo ∧ ((7 : BitVec 3) == 7 && false) = false ∧
    groupsLegal (coded 0x018 0x00C).h (some (⟨3, 1⟩, false)) [⟨one 1, false⟩] = true ∧
    groupsLegal (coded 0x018 0x00C).h (some (⟨3, 1⟩, false)) [⟨one 1, false⟩, ⟨one 2, false⟩] = true ∧
    ((coded 0x018 0x00C).h.slot false).fmt = 3 ∧ ((coded 0x018 0x00C).h.slot true).float = some fp32 ∧
    ((coded 0x018 0x00C).h.slot true).rows = ((coded 0x018 0x00C).h.slot false).rows ∧
    ((coded 0x018 0x00C).h.book ((coded 0x018 0x00C).h.slot false)).entries.length =
      2 ^ ((coded 0x018 0x00C).h.slot false).sew ∧
    ((typed 0x002 0x00C 4).h.slot false).fmt = 0 ∧ ((typed 0x002 0x00C 4).h.slot false).sew ≠ 4 := by
  refine ⟨⟨ready_of rfl rfl rfl rfl rfl rfl rfl, rfl⟩, ?_⟩
  decide +kernel
theorem witness_VectorReduceWords : (typed 0x00C 0x205 5).Solo ∧ ((7 : BitVec 3) == 7 && false) = false ∧
    groupsLegal (typed 0x00C 0x205 5).h (some (⟨3, 1⟩, false)) [⟨one 1, false⟩, ⟨one 2, true⟩] = true ∧
    groupsLegal (typed 0x00C 0x205 5).h (some (⟨3, 1⟩, true)) [⟨one 1, false⟩, ⟨one 2, false⟩] = true ∧
    ((typed 0x00C 0x205 5).h.slot false).float.isSome = true ∧ ((typed 0x00C 0x205 5).h.slot true).fmt = 0 ∧
    ((typed 0x00C 0x205 5).h.slot true).sew = 64 := by
  refine ⟨typed_solo _ _ _, ?_⟩
  decide +kernel
theorem witness_VectorSpecialAndMerge : (typed 0x00C 0x002 5).Solo ∧ ((7 : BitVec 3) == 7 && false) = false ∧
    groupsLegal (typed 0x00C 0x002 5).h (some (⟨3, 1⟩, false)) [⟨one 1, true⟩] = true ∧
    ((typed 0x00C 0x002 5).h.slot false).float = some fp32 ∧ ((typed 0x00C 0x002 5).h.slot false).sew ≠ 64 ∧
    groupsLegal (typed 0x00C 0x003 5).h (some (⟨3, 1⟩, false)) [⟨one 1, false⟩, ⟨one 2, false⟩] = true ∧
    ((typed 0x00C 0x002 5).h.slot true).fmt = 0 ∧ 8 ≤ ((typed 0x00C 0x002 5).h.slot true).sew ∧
    ((typed 0x00C 0x002 5).h.slot true).rows = 1 ∧ 16 ≤ ((typed 0x00C 0x003 5).h.slot true).sew := by
  refine ⟨typed_solo _ _ _, ?_⟩
  decide +kernel
theorem witness_MaskWords : (typed 0x00C 0x205 5).Solo ∧ ((7 : BitVec 3) == 7 && false) = false ∧ ((7 : BitVec 3) == 7 && true) = true ∧
    groupsLegal (typed 0x00C 0x205 5).h none [⟨one 1, true⟩, ⟨one 2, true⟩] = true ∧
    ((typed 0x00C 0x205 5).h.slot false).float = some fp32 ∧ ((typed 0x00C 0x205 5).h.slot true).fmt = 0 ∧
    ((typed 0x00C 0x205 5).h.slot true).sew ≠ 128 ∧ naturalCond (9 : BitVec 4).toNat = true ∧
    ((typed 0x00C 0x205 5).h.slot true).sew ≠ 4 := by
  refine ⟨typed_solo _ _ _, ?_⟩
  decide +kernel
/-- A hart of a launch, with a claim record of 9 rows and 100 columns at the scratchpad and, 64 bytes on, 16 codebook entries
that rise. -/
def claiming : State := { onHart (withRegs [(8, 1), (9, 0x100000000040), (10, 0x300)] padded) fun h => { h with launch := 1 } with
  dev := { padded.dev with launches := [(1, oneLaunch)] }
  mem := Memory.writeBytes pad (bytesOf 4 9 ++ bytesOf 4 100 ++ bytesOf 4 8 ++ bytesOf 4 99 ++ bytesOf 8 0x4000 ++ bytesOf 8 1024)
    (Memory.writeBytes (pad + 64) ((List.range 16).flatMap fun i => bytesOf 2 (0x3F80 + i)) []) }
theorem claiming_ready : claiming.Ready := ready_of rfl rfl rfl rfl rfl rfl rfl
theorem witness_VectorConfigurationWords : claiming.Ready ∧ claiming.guarded 7 false ∧
    (claiming.h.role ≠ .control ∧ claiming.h.role ≠ .computer ∧ claiming.h.role = .solo ∧
      look claiming.h.launch claiming.dev.launches = some oneLaunch ∧ look base.h.launch base.dev.launches = none ∧
      vtypeLegal 0x205 = true ∧ vtypeLegal 0x100000 = false ∧ thresholdsLegal 0 = true ∧ thresholdsLegal (0xFFFFFFFFFFFFFFFF) = false) ∧
    ((claiming.h.reg 8).toNat % 4 ≠ 0 ∧ (claiming.h.reg 8).toNat / 4 % 64 = 0 ∧ (claiming.h.reg 8).toNat / 65536 = 0 ∧
      (claiming.h.reg 9).toNat % 2 = 0 ∧
      doneWhere (readTable (claiming.h.reg 9) 16 claiming) (fun es s1 =>
        decide (s1.h = claiming.h) && decide (tableFault es = none)) = true) ∧
    (8 ≤ (claiming.h.slot false).sew ∧ pad % 8 = 0 ∧
      doneWhere (loadBytes (some 0) pad 32 8 claiming) (fun rec' s1 =>
        decide (s1.h = claiming.h) && decide (leAt rec' 8 4 < leAt rec' 0 4) && decide (leAt rec' 4 4 ≠ 0) &&
        doneWhere (storeBytes (some 0) (pad + 8) 8 (bytesOf 4 9 ++ bytesOf 4 0) s1) fun _ s2 =>
          decide (s2.h.pfx = none) && decide (s2.h.pend = [])) = true) ∧
    doneWhere (loadBytes (some 0) (pad + 128) 32 8 claiming) (fun rec' s1 =>
      decide (s1.h = claiming.h) && decide (leAt rec' 0 4 ≤ leAt rec' 8 4)) = true := by
  refine ⟨claiming_ready, rfl, ?_, ?_, ?_, ?_⟩ <;> decide +kernel
/-- A hart with a checkpoint. -/
def checked : State := takeCheckpoint 4 base
theorem witness_CheckpointAndRewind : base.h.strip.buf = [] ∧ base.h.pend = [] ∧ base.h.ops = [] ∧
    (checked.h.strip.check.map fun c => (c.s, c.handler, c.pc)) = some (base.h.s, false, 4) ∧ checked.h.ops = [] := by
  decide +kernel
theorem witness_VectorElementAddresses : 8 ≤ ((typed 0x205 0 3).h.slot false).sew ∧ ((typed 0x001 0 3).h.slot false).sew < 8 ∧
    memElts (typed 0x205 0 1) ((typed 0x205 0 1).h.slot false) ⟨1, 5, 0, 7, false, 0, 0⟩ 0 = [⟨0, pad, 8, 0, [(0, 0)]⟩] := by
  decide +kernel
/-- A unit access of one 64-bit element at the scratchpad, by v1. -/
def unit : MArgs := ⟨1, 5, 0, 7, false, 0, 0⟩
/-- An indexed one, by v2's elements, from address zero. -/
def indexed : MArgs := ⟨1, 0, 2, 7, false, 0, 2⟩
theorem typed_read : physRead (typed 0x205 0 1).ctx pad 8 (typed 0x205 0 1) =
    .ok (typed 0x205 0 1, List.replicate 8 0, none) := by decide +kernel
theorem typed_plain : (typed 0x205 0 1).Plain pad 8 := ⟨rfl, by decide, by decide +kernel, rfl, rfl, rfl, loaded_of rfl⟩
theorem unit_elements : memElts (typed 0x205 0 1) ((typed 0x205 0 1).h.slot false) unit 0 = [⟨0, pad, 8, 0, [(0, 0)]⟩] := by
  decide +kernel
theorem witness_VectorLoads : (typed 0x205 0 1).Solo ∧ (typed 0x205 0 1).unpinned ∧ unit.mode ≠ 3 ∧
    (typed 0x205 0 1).h.mode = .machine ∧ (typed 0x205 0 1).h.strip.buf = [] ∧
    groupsLegal (typed 0x205 0 1).h (some (⟨1, 1 * ((typed 0x205 0 1).h.slot false).rows⟩, false)) [] = true ∧
    groupsLegal (typed 0x1C5 0 1).h (some (⟨31, 1 * ((typed 0x1C5 0 1).h.slot false).rows⟩, false)) [] = false ∧
    ((7 : BitVec 3) == 7 && false) = false ∧ (typed 0x205 0 1).h.waiting = none ∧
    (∀ e ∈ memElts (typed 0x205 0 1) ((typed 0x205 0 1).h.slot false) unit (typed 0x205 0 1).h.vstart,
      (typed 0x205 0 1).Plain e.va e.size ∧ (((typed 0x205 0 1).h.slot false).sew = 6 → e.va % 4 = 0) ∧
      ∃ bs, physRead (typed 0x205 0 1).ctx e.va e.size (typed 0x205 0 1) = .ok (typed 0x205 0 1, bs, none) ∧ natOfBytes bs = 0) ∧
    groupsLegal (typed 0x205 0 1).h (some (⟨1, 1 * ((typed 0x205 0 1).h.slot false).rows⟩, false)) [⟨one 2, false⟩] = true ∧
    ((typed 0x205 0 1).h.slot false).sew = 64 ∧
    (∀ e ∈ clusterElts (typed 0x205 0 1) ((typed 0x205 0 1).h.slot false) indexed, e.va < 2 ^ 27 ∧ e.va / 2 ^ 20 < 96 ∧
      pad + ((0 : Word).toNat + e.va % 2 ^ 20) % 2 ^ 20 = pad ∧ pad % 8 = 0 ∧ e.size = 8) := by
  refine ⟨typed_solo _ _ _, rfl, by decide, rfl, rfl, by decide +kernel, by decide +kernel, by decide, rfl, ?_, ?_⟩ <;> try decide +kernel
  intro e he
  rw [show (typed 0x205 0 1).h.vstart = 0 from rfl, unit_elements, List.mem_singleton] at he
  subst he
  exact ⟨typed_plain, by decide +kernel, _, typed_read, by decide +kernel⟩
/-- A hart with its notification word at the scratchpad's second line, enabled. -/
def notifying : State := onHart (typed 0x205 0 1) fun h => { h with csr := { h.csr with notify := 0x100000000081 } }
theorem notifying_solo : notifying.Solo := ⟨ready_of rfl rfl rfl rfl rfl rfl rfl, rfl⟩
theorem witness_VectorStores : notifying.Solo ∧ notifying.unpinned ∧ unit.mode ≠ 3 ∧ notifying.h.mode = .machine ∧
    notifying.h.strip.buf = [] ∧ ((7 : BitVec 3) == 7 && false) = false ∧ unstepped notifying = false ∧
    groupsLegal notifying.h none [⟨⟨1, 1 * (notifying.h.slot false).rows⟩, false⟩] = true ∧
    groupsLegal (typed 0x1C5 0 1).h none [⟨⟨25, 1 * ((typed 0x1C5 0 1).h.slot false).rows⟩, false⟩] = false ∧
    (∀ e ∈ memElts notifying (notifying.h.slot false) unit notifying.h.vstart,
      notifying.Plain e.va e.size ∧ ((notifying.h.slot false).sew = 6 → e.va % 4 = 0)) ∧
    ((memElts notifying (notifying.h.slot false) unit 0).flatMap fun e => sectors e.va e.size).length ≤ 1024 ∧
    (typed 0x205 0 1).h.csr.notify.getLsbD 0 = false ∧ notifying.h.csr.notify.getLsbD 0 = true ∧
    doneWhere (storeRelease 2 (notifyAddr notifying.h.csr.notify) (bytesOf 8 1)
        (earlyCommit 2 { notifying with h := notifying.h.bufferAll (some 0) [(pad, List.replicate 8 0, [])] }))
      (fun _ w => decide (w.h.pfx = none) && decide (w.h.role = .solo) && decide ((coreOf w (coreIndex w.cur)).pins = [])) = true ∧
    ((State.putNow [(pad, List.replicate 8 0, [])] (earlyCommit 2 notifying)).map (·.h.vlink)) = some notifying.h.vlink ∧
    groupsLegal notifying.h none [⟨⟨1, 1 * (notifying.h.slot false).rows⟩, false⟩, ⟨one 2, false⟩] = true ∧
    (∀ e ∈ clusterElts notifying (notifying.h.slot false) indexed, e.va < 2 ^ 27 ∧ e.va / 2 ^ 20 < 96 ∧
      (pad + ((0 : Word).toNat + e.va % 2 ^ 20) % 2 ^ 20) % 8 = 0) ∧
    (notifying.h.slot false).sew = 64 := by
  refine ⟨notifying_solo, rfl, by decide, rfl, rfl, by decide, by decide +kernel, by decide +kernel, by decide +kernel, ?_, ?_⟩
  · intro e he
    rw [show memElts notifying (notifying.h.slot false) unit notifying.h.vstart = [⟨0, pad, 8, 0, [(0, 0)]⟩] by decide +kernel,
      List.mem_singleton] at he
    subst he
    exact ⟨⟨rfl, by decide, by decide +kernel, rfl, rfl, rfl, loaded_of rfl⟩, by decide +kernel⟩
  · decide +kernel
/-- A tile of one column whose first value is 1, at the scratchpad: header, bitmap and values. -/
def tiled : State := { typed 0x1CC 0 1 with
  mem := Memory.writeBytes pad (bytesOf 8 (1 + 256 * 1 + 2 ^ 32) ++ bytesOf 8 1 ++ bytesOf 8 0x3F800000) [] }
theorem tiled_solo : tiled.Solo := ⟨ready_of rfl rfl rfl rfl rfl rfl (by decide +kernel), rfl⟩
theorem witness_PackedTiles : tiled.Solo ∧ tiled.unpinned ∧ tiled.h.mode = .machine ∧ tiled.h.strip.buf = [] ∧
    ((7 : BitVec 3) == 7 && !false) = true ∧ (24 : BitVec 5).toNat + 8 ≤ 32 / 2 ^ tiled.h.span ∧
    ((typed 0x205 0 1).h.slot false).float = none ∧
    (tiled.h.slot false).float = some fp32 ∧ (tiled.h.slot false).rows = 8 ∧ (24 : BitVec 5).toNat % 8 = 0 ∧
    tiled.h.vlIn (tiled.h.slot false) = 1 ∧ pad % 8 = 0 ∧
    tiled.Plain pad (8 + bitmapSize 1 + valuesSize fp32 1) ∧ pad + (8 + bitmapSize 1 + valuesSize fp32 1) < 2 ^ 64 ∧
    physRead tiled.ctx pad 8 tiled = .ok (tiled, bytesOf 8 (257 + 2 ^ 32), none) ∧
    physRead tiled.ctx (pad + 8) (bitmapSize 1) tiled = .ok (tiled, bytesOf 8 1, none) ∧
    physRead tiled.ctx (pad + 8 + bitmapSize 1) (valuesSize fp32 1) tiled = .ok (tiled, bytesOf 8 0x3F800000, none) ∧
    headerBad fp32 1 (natOfBytes (bytesOf 8 (257 + 2 ^ 32))) = false ∧ natOfBytes (bytesOf 8 (257 + 2 ^ 32)) / 2 ^ 32 = 1 ∧
    natOfBytes (bytesOf 8 1) < 2 ^ (8 * 1) ∧ popCount (8 * 1) (natOfBytes (bytesOf 8 1)) = 1 ∧
    (∀ b ∈ (bytesOf 8 0x3F800000).drop (1 * (fp32.width / 8)), b = 0) ∧
    (let x := tileOf fp32 tiled (tiled.h.slot false) 24
     let bs := tileBytes fp32 1 x.1 x.2.1 (fun _ _ => true) x.2.2.1
     tiled.Plain pad bs.length ∧ pad + bs.length < 2 ^ 64 ∧ bs.length ≤ 32000) ∧
    tiled.Plain (pad + 64) 8 ∧ physRead tiled.ctx (pad + 64) 8 tiled = .ok (tiled, List.replicate 8 0, none) ∧
    headerBad fp32 1 (natOfBytes (List.replicate 8 0)) = true := by
  refine ⟨tiled_solo, rfl, rfl, rfl, ?_, ?_, ?_, ?_, ?_, ?_, ?_, ?_, ⟨rfl, ?_, ?_, rfl, rfl, rfl, loaded_of rfl⟩, ?_, ?_, ?_, ?_,
    ?_, ?_, ?_, ?_, ?_, ⟨⟨rfl, ?_, ?_, ?_, ?_, rfl, loaded_of rfl⟩, ?_⟩, ⟨rfl, ?_, ?_, rfl, rfl, rfl, loaded_of rfl⟩, ?_⟩ <;>
    decide +kernel
/-- The state with barrier 0 of core 0 so. -/
def barred (b : Barrier) : State := setCore 0 { coreOf padded 0 with barriers := (coreOf padded 0).barriers.setIfInBounds 0 b } padded
def barrierOf (s : State) : Barrier := (coreOf s 0).barriers[0]?.getD {}
/-- The state with window 0 of cluster 0 so: bit 63 valid, bit 62 offered, to slot 0 of core 0. -/
def windowed (d : Word) : State :=
  setCluster 0 { clusterOf padded 0 with ownwin := (clusterOf padded 0).ownwin.setIfInBounds 0 d } padded
/-- A hart that waits in a WAITGE for a word of at least n. -/
def watching (n : Word) : State := onHart padded fun h =>
  { h with waiting := some (.progress pad n 0), latch := some ⟨[], h.s, h.shadow, h.p, [], true, 0, none⟩ }
/-- A control core of which a copy into the weight buffer is due, which waits for channel 0 of its core. -/
def copying : State := setChannel (coreIndex 0x7F00) 0 { state := .running, base := pad, expected := 64 } (setCluster 0
  { loader := [{ parts := [(State.access pad, 64)], granule := 0, count := 1, order := 0 }] } { onHart padded fun h => { h with role := .control } with cur := 0x7F00 })
theorem copying_due : copying.Ready ∧ copying.guarded 7 false ∧ ¬copying.loaded :=
  ⟨ready_of rfl rfl rfl rfl rfl rfl rfl, rfl, fun h => absurd (h rfl) (by decide +kernel)⟩
/-- A hart with an error pending. -/
def erring : State := onHart padded fun h => { h with errs := [⟨0x30, 0, 0⟩] }
theorem witness_SyncWords : padded.Ready ∧ padded.guarded 7 false ∧ (unstepped padded = false ∧ unstepped (earlyCommit 2 padded) = false) ∧
    padded.loaded ∧ (earlyCommit 2 padded).loaded ∧
    ((padded.h.reg 6).toNat < 2 ^ 32 ∧ 2 ^ 32 ≤ (padded.h.reg 5).toNat ∧
      (∀ r ∈ padded.tuples.replies, r.req.coord ≠ padded.cur) ∧ (earlyCommit 3 padded).h.errs = [] ∧
      (earlyCommit 3 erring).h.errs = [⟨0x30, 0, 0⟩] ∧ entryWaits (earlyCommit 3 erring) = false ∧
      entryWaits (onHart copying fun h => { h with errs := [⟨0x30, 0, 0⟩] }) = true) ∧
    (padded.h.role ≠ .computer ∧ (padded.h.reg 5).toNat % 8 = 0 ∧
      okWhere (physRead padded.ctx pad 8 (earlyCommit 3 padded)) (fun r =>
        decide (natOfBytes r.2.1 = 0) && decide (r.2.2 = none) && decide (r.1.h.pfx = none)) = true ∧
      (padded.h.reg 0).toNat ≤ 0 ∧ 0 < (padded.h.reg 6).toNat ∧ (padded.h.reg 6).toNat % 8 ≠ 0) ∧
    ((padded.h.deps[5]?.getD 0) ≤ (0 : BitVec 5).toNat ∧ (0 : BitVec 5).toNat < (counted.h.deps[0]?.getD 0)) ∧
    (padded.h.reg 0 = 0 ∧ 8 < (padded.h.reg 5).toNat ∧ padded.h.reg 7 ≠ 0 ∧ (padded.h.reg 7).toNat ≤ 8 ∧
      coordSlot padded.cur = 0 ∧ 0 ∈ (barrierOf (barred ⟨2, [], [0]⟩)).released ∧
      0 ∈ (barrierOf (barred ⟨2, [0], []⟩)).arrived ∧
      (barrierOf (barred ⟨2, [1], []⟩)).arrived ≠ [] ∧
      (barrierOf (barred ⟨2, [1], []⟩)).count ≠ (padded.h.reg 6).toNat ∧
      (barrierOf (barred ⟨3, [1], []⟩)).count = (padded.h.reg 6).toNat ∧
      [1].length + 1 < (padded.h.reg 6).toNat ∧ (padded.h.reg 6).toNat ≤ [1, 2].length + 1) ∧
    (15 < (padded.h.reg 5).toNat ∧ (padded.h.reg 6).toNat ≤ 15 ∧ 768 ≤ (padded.h.reg 5).toNat ∧ (padded.h.reg 7).toNat < 768 ∧
      (let d := (clusterOf (windowed 0x8000000000000000) 0).ownwin[0]?.getD 0
       d.getLsbD 63 = true ∧ d.getLsbD 62 = false) ∧
      (let d := (clusterOf (windowed 0xC000000000000000) 0).ownwin[0]?.getD 0
       d.getLsbD 63 = true ∧ d.getLsbD 62 = true ∧ wbits d 51 42 = slotInCluster padded.cur)) ∧
    ((watching 0).h.waiting = some (.progress pad 0 0) ∧ ((watching 0).h.latch.map (·.given)) = some [] ∧
      doneWhere (progressRead pad (watching 0)) (fun v _ => decide (v = 0)) = true ∧
      doneWhere (progressRead pad (watching 1)) (fun v _ => decide (v.toNat < 1)) = true) := by
  refine ⟨padded_ready, rfl, by decide +kernel, loaded_of rfl, loaded_of (by decide +kernel), ?_, ?_, ?_, ?_, ?_, ?_⟩ <;>
    decide +kernel
/-- A crew's hart at the slot its stage gives, with these words in branch queue 0 and these rows in ring 0. -/
def crewed (r : Role) (stage : Nat) (words : List Word) (rows : List VRow) : State :=
  { onHart padded fun h => { h with role := r, stage := stage } with
    cur := stage
    crews := [(0, { rings := (Vector.replicate 8 []).set 0 rows, bqs := (Vector.replicate 2 []).set 0 words })] }
theorem crewed_ready (r : Role) (stage : Nat) (ws : List Word) (rows : List VRow) : (crewed r stage ws rows).Ready :=
  ready_of rfl rfl rfl rfl rfl rfl (show wbit 0 0 = false by decide)
theorem witness_CrewQueueWords :
    (crewed .computer 1 [5] []).Ready ∧ (unstepped (crewed .computer 1 [5] []) = false ∧ unstepped (earlyCommit 2 (crewed .computer 1 [5] [])) = false) ∧
    (crewed .computer 1 [5] []).guarded 7 false ∧
    ((crewed .computer 1 [5] []).h.role = .computer ∧
      (lookD {} ((crewed .computer 1 [5] []).cur - 1) (crewed .computer 1 [5] []).crews).bqs[0]?.getD [] = [5] ∧
      (lookD {} ((crewed .computer 1 [] []).cur - 1) (crewed .computer 1 [] []).crews).bqs[0]?.getD [] = []) ∧
    (padded.h.role = .solo ∧ 2 ^ 10 ≤ (padded.h.reg 5).toNat ∧ (padded.h.reg 6).toNat < 2 ^ 10 ∧
      ((List.range 10).filter fun q => (padded.h.reg 6).getLsbD q) = [0, 1] ∧
      queueEmpty (lookD {} 0 (crewed .loader 0 [] [{}]).crews) 0 = false ∧
      queueEmpty (lookD {} 0 (crewed .loader 0 [] []).crews) 1 = true ∧ (crewed .storer 2 [] []).h.role = .storer) ∧
    ((crewed .loader 0 (List.replicate 15 0) []).h.role = .loader ∧ (List.replicate 15 (0 : Word)).length < 16 ∧
      16 ≤ ((lookD {} 0 (crewed .loader 0 (List.replicate 16 0) []).crews).bqs[0]?.getD []).length) := by
  refine ⟨crewed_ready _ _ _ _, by decide +kernel, rfl, ?_, ?_, ?_⟩ <;> decide +kernel
/-- A control core, in slot 0 of core 127 of cluster 0. -/
def control : State := { onHart padded fun h => { h with role := .control } with cur := 0x7F00 }
theorem control_ready : control.Ready := ready_of rfl rfl rfl rfl rfl rfl rfl
/-- The cluster with these commands, and quadrant 0's ports so. -/
def ported (cmds : List Word) (a out : List PortRow) (s : State) : State :=
  setQuad 0 0 { quadOf s 0 0 with aPort := a, outPort := out } (setCluster 0 { clusterOf s 0 with cmds := cmds } s)
def replied (l : List Word) (s : State) : State := setSlot 0 { slotOf s 0 with reply := l } s
theorem witness_PortWords :
    (padded.Ready ∧ padded.guarded 7 false ∧ padded.loaded ∧ (unstepped padded = false ∧ unstepped (earlyCommit 2 padded) = false) ∧ padded.h.role ≠ .control ∧ (3 : BitVec 5).toNat ≠ 2 ∧
      (clusterOf (earlyCommit 2 (ported (List.replicate 63 0) [] [] padded)) 0).cmds.length < 64 ∧
      64 ≤ (clusterOf (earlyCommit 2 (ported (List.replicate 64 0) [] [] padded)) 0).cmds.length ∧
      (slotOf (earlyCommit 2 (replied [9] padded)) 0).reply = [9] ∧ (slotOf (earlyCommit 2 padded) 0).reply = [] ∧
      (padded.h.deps[0]?.getD 0) < 63) ∧
    (control.Ready ∧ control.h.role = .control ∧ 768 ≤ (control.h.reg 5).toNat ∧ (control.h.reg 0).toNat < 768 ∧
      (slotOf (earlyCommit 2 (replied (List.replicate 15 0) control)) (coordOf 0 (0 / 8) (0 % 8))).reply.length < 16 ∧
      16 ≤ (slotOf (earlyCommit 2 (replied (List.replicate 16 0) control)) (coordOf 0 0 0)).reply.length ∧
      (clusterOf (earlyCommit 2 (ported [4] [] [] control)) 0).cmds = [4] ∧
      (clusterOf (earlyCommit 2 control) 0).cmds = []) ∧
    (padded.h.role = .solo ∧ groupsLegal (typed 0x002 0 256).h none [⟨one 1, false⟩] = true ∧
      ((typed 0x002 0 256).h.slot false).fmt = 0 ∧ ((typed 0x002 0 256).h.slot false).sew = 8 ∧
      (typed 0x002 0 256).h.vlIn ((typed 0x002 0 256).h.slot false) ≤ 256 ∧
      (quadOf (earlyCommit 2 (typed 0x002 0 256)) 0 0).aPort.length + 1 ≤ 64 ∧
      64 < (quadOf (earlyCommit 2 (ported [] (List.replicate 64 ⟨0, 8, 0, []⟩) [] (typed 0x002 0 256))) 0 0).aPort.length + 1) ∧
    (groupsLegal (typed 0x002 0 256).h (some (⟨1, 1⟩, false)) [] = true ∧
      (quadOf (earlyCommit 2 (typed 0x002 0 256)) 0 0).outPort.length < ((typed 0x002 0 256).h.slot false).rows ∧
      (quadOf (earlyCommit 2 (ported [] [] [⟨0, 8, 0, [1]⟩] (typed 0x002 0 256))) 0 0).outPort = [⟨0, 8, 0, [1]⟩] ∧
      [(1 : Nat)].length ≤ (typed 0x002 0 256).h.maxIn ((typed 0x002 0 256).h.slot false) ∧ (1 : Nat) ≠ 0) := by
  refine ⟨⟨padded_ready, rfl, loaded_of rfl, ?_⟩, ⟨control_ready, ?_⟩, ?_, ?_⟩ <;> decide +kernel
/-- The state with channel 0 of core 0 so. -/
def channelled (c : Channel) : State := setChannel 0 0 c (onHart padded fun h => { h with vl := 8 })
theorem channelled_ready (c : Channel) : (channelled c).Ready := ready_of rfl rfl rfl rfl rfl rfl (show wbit 0 0 = false by decide)
/-- A channel armed for 8 bytes, and one running with 16 streams. -/
def armed8 : Channel := { state := .armed, base := pad, expected := 8 }
def oneStream : Stream := ⟨0, 0, 8, 0, 0, false, 0, 0, .machine, 0, none, none⟩
def full16 : Channel := { armed8 with state := .running, streams := List.replicate 16 oneStream }
/-- It armed, on a core whose engine may read all of HBM, with routine 16's entry at 256: code at 4 and one pass. -/
def vended : State := { channelled armed8 with
  mem := Memory.writeBytes 256 (bytesOf 8 4 ++ bytesOf 4 1) []
  dev := { base.dev with access := [(8 * (0x10 + engineOf 0), BitVec.ofNat 128 (0xFFFFFF * 2 ^ 64 + 7 * 2 ^ 61))] } }
theorem witness_ChannelWords_held : (let s := channelled { armed8 with state := .failed, fcause := 2 }
    let t := earlyCommit 2 { s with dev := { s.dev with heldWrites := [{ pa := 0, bytes := [1], landing := some (0, 0, 0) }] } }
    landingHeld 0 0 t = true ∧ landingHeld 0 0 s = false ∧ (coreOf t 0).channels = (coreOf s 0).channels) := by decide +kernel
theorem witness_ChannelWords : (channelled armed8).Ready ∧ (channelled armed8).guarded 7 false ∧
    (unstepped (channelled armed8) = false ∧ unstepped (earlyCommit 2 (channelled armed8)) = false) ∧
    ((channelled armed8).h.role ≠ .computer ∧ armed8.state ≠ .idle ∧ ({} : Channel).state = .idle ∧
      wbits (withRegs [(9, 0x8)] padded |>.h.reg 9) 63 44 = 0 ∧ wbits (0x8 : Word) 42 40 ≠ 7 ∧ wbits (0x8 : Word) 39 0 ≠ 0 ∧
      wbits (0x0000070000000001 : Word) 42 40 = 7 ∧ pad % 2 ^ 0 = 0 ∧ canonical pad = true ∧ pad % 2 ^ 55 + 8 ≤ 2 ^ 55 ∧
      (∀ c ∈ (coreOf padded 0).channels.toList, c.state = .idle) ∧
      (2 ^ 54 : Nat) % 2 ^ 0 = 0 ∧ canonical (2 ^ 54) = false) ∧
    (armed8.owner = coordSlot padded.cur ∧ armed8.held = false ∧ ({} : Channel).state = .idle ∧
      ({ armed8 with state := .failed } : Channel).state = .failed ∧ wbits (0 : Word) 63 48 = 0 ∧ wbits (0 : Word) 15 11 = 0 ∧
      wbits (0 : Word) 10 8 = armed8.esize ∧
      doneWhere (routineEntry (wbits (0 : Word) 7 0) (channelled armed8)) (fun e s1 => e.isSome && decide (s1.h = (channelled armed8).h)) = true ∧
      doneWhere (routineEntry 5 (channelled armed8)) (fun e s1 => e.isNone && decide (s1.h.pfx = none)) = true ∧
      (channelled armed8).h.role = .solo ∧ (channelled armed8).h.ops = [] ∧ coreIndex vended.cur = 0 ∧ vended.h.csr.cerout = 0 ∧
      okWhere (physRead { initiator := 0x10 + engineOf 0 } (0 + 16 * 16) 16 vended)
        (fun x => decide (x.2.1 = bytesOf 8 4 ++ bytesOf 8 1) && decide (x.2.2 = none)) = true ∧
      armed8.issued + (channelled armed8).h.vl * ((channelled armed8).h.slot false).rows ≤ armed8.expected ∧
      ({ armed8 with expected := 7 } : Channel).expected <
        0 + (channelled armed8).h.vl * ((channelled armed8).h.slot false).rows ∧
      16 ≤ full16.streams.length ∧ armed8.streams.length < 16 ∧
      padded.h.vl * (padded.h.slot false).rows = 0) ∧
    ((counted.h.deps[0]?.getD 0) < 63 ∧ full16.state = .running ∧
      (coreOf (earlyCommit 2 (channelled full16)) 0).channels = (coreOf (channelled full16) 0).channels ∧
      (coreOf (earlyCommit 2 (channelled armed8)) 0).channels = (coreOf (channelled armed8) 0).channels ∧
      padded.h.mode ≠ .user) := by
  refine ⟨channelled_ready _, rfl, by decide +kernel, ?_, ?_, ?_⟩ <;> decide +kernel
/-- A supervisor hart of a core that holds the translation of a page of tuples at 0x10000, onto granule 1. -/
def tupledBy (leaf : Word) : State := setCore 0 { coreOf base 0 with tlb := [⟨0, 0x10000, 65536, leaf⟩] }
  (onHart (withRegs [(9, 0x10000), (10, 0x10100), (6, 3), (7, 1), (8, 5000)] (typed 0x205 0 1)) fun h => { h with mode := .supervisor })
def tupled : State := tupledBy 0x10008387
theorem tupled_solo : tupled.Solo := ⟨ready_of rfl rfl rfl rfl rfl rfl (by decide +kernel), rfl⟩
/-- It with region 0 registered there, cluster 0 allowed everything of HBM. -/
def regioned : State := { tupled with
  tuples := { regions := [⟨0, [(0x10000, 0, false)]⟩] }
  dev := { tupled.dev with access := [(0, BitVec.ofNat 128 (0xFFFFFF * 2 ^ 64 + 7 * 2 ^ 61))] } }
theorem regioned_ready : regioned.Ready := ready_of rfl rfl rfl rfl rfl rfl (by decide +kernel)
/-- Its translation of the page. -/
def tuplePage : Xlat := ⟨0x10000, 0, false, 4, (0, 0x10000, 65536)⟩
theorem witness_TupleWords :
    (tupled.Solo ∧ tupled.guarded 7 false ∧ unstepped tupled = false ∧ (3 : BitVec 5).toNat * 2 ^ tupled.h.span < 32 ∧
      (tupled.h.slot false).sew = 64 ∧ tupled.h.vl = 1 ∧ wbits tupled.h.csr.tupctl 2 0 = 7 ∧
      tupled.h.kbit (wbits tupled.h.csr.tupctl 6 4) 0 0 = true ∧ wbits (tupled.h.reg 9) 15 8 = 0 ∧
      wbits (tupled.h.reg 10) 15 8 ≠ 0 ∧ padded.h.vl = 0 ∧ tupled.h.strip.buf = [] ∧
      okWhere (translateKept tupled.h.mode (handleBase (tupled.h.reg 9)) .rmw tupled) (fun x => decide (x.2 = tuplePage) &&
        decide (x.1.h.pfx = none) && decide (x.1.h.ops = []) && decide (x.1.h.role = .solo) && !unstepped x.1 &&
        !unstepped (earlyCommit 2 x.1) && decide (x.1.h.deps = tupled.h.deps)) = true ∧ tuplePage.typ = 4) ∧
    (unmapped.Ready ∧ unmapped.h.role ≠ .control ∧ unmapped.h.mode = .user) ∧
    (tupled.Ready ∧ tupled.h.mode ≠ .user ∧ (tupled.h.reg 6).toNat % 65536 ≠ 0 ∧ (tupled.h.reg 9).toNat % 65536 = 0 ∧
      tupled.h.reg 0 = 0 ∧ 4096 < (tupled.h.reg 8).toNat ∧ tupled.h.reg 7 ≠ 0 ∧ (tupled.h.reg 7).toNat ≤ 4096 ∧
      doneWhere (regionPages (tupled.h.reg 9).toNat 1 tupled) (fun ps s1 =>
        decide (ps = [(0x10000, 0, false)]) && decide (s1.h.pfx = none) && decide (s1.h.pend = []) && (keyOf s1 0).isSome &&
        decide (regionOf (earlyCommit 2 s1) 0 = none)) = true ∧
      doneWhere (regionPages (tupled.h.reg 9).toNat 1 (tupledBy 0x10018387)) (fun ps s1 =>
        decide (ps = [(0x10000, 1, false)]) && decide (s1.h.pfx = none) && decide (s1.h.pend = []) && (keyOf s1 1).isNone) = true ∧
      doneWhere (regionPages (tupled.h.reg 9).toNat 1 { tupled with tuples := { regions := (List.range 256).map fun r => ⟨r, []⟩ } })
        (fun _ s1 => (List.range 256).all fun r => (regionOf (earlyCommit 2 s1) r).isSome) = true) ∧
    (regioned.Ready ∧ regioned.h.mode ≠ .user ∧
      okWhere (translateKept regioned.h.mode (handleBase (regioned.h.reg 9)) .rmw regioned) (fun x => decide (x.2 = tuplePage) &&
        decide (x.1.h.pfx = none) && decide (x.1.h.mode = regioned.h.mode)) = true ∧
      regionHere tupled 0 0x10000 = none ∧ regionHere regioned 0 0x10000 = some ⟨0, [(0x10000, 0, false)]⟩ ∧
      checkRequest (arrivalCtx false 0 (0x10000, 0, false)) 0x10000 8 true true regioned = none ∧
      checkRequest (arrivalCtx false 0 (0x10000, 0, false)) 0x10000 8 true true tupled = some 0x14) := by
  refine ⟨⟨tupled_solo, rfl, ?_⟩, ⟨ready_of rfl rfl rfl rfl rfl rfl rfl, ?_⟩, ⟨tupled_solo.toReady, ?_⟩, ⟨regioned_ready, ?_⟩⟩ <;>
    decide +kernel
/-- A request of func f for one field, 5, at slice n, and the state with it outstanding. -/
def request (f n : Nat) : TupleReq :=
  ⟨1, 0, f, 0, 0x10000, n, [5], [true], 0x10000, 3, true, 64, false, false, 0, false, false⟩
def requested (qs : List TupleReq) (ts : List Tuple) : State := { regioned with
  tuples := { regioned.tuples with requests := qs, tuples := ts, next := 2 } }
theorem witness_TupleSlices :
    (∀ f < 5, (requested [request f 0] []).tuples.requests.find? (fun q => q.slice == 0 && !q.parked) = some (request f 0)) ∧
    regionHere tupled 0 0x10000 = none ∧
    regionHere (requested [request 0 0] []) 0 0x10000 = some ⟨0, [(0x10000, 0, false)]⟩ ∧
    checkRequest (arrivalCtx false 0 (0x10000, 0, false)) 0x10000 8 true true (requested [request 0 0] []) = none ∧
    checkRequest (arrivalCtx false 0 (0x10000, 0, false)) 0x10000 8 true true tupled = some 0x14 ∧
    (freeSlot (requested [request 0 0] []) ⟨0, [(0x10000, 0, false)]⟩ 0).isSome = true ∧
    freeSlot (requested [request 0 64] []) ⟨0, [(0x10000, 0, false)]⟩ 64 = none ∧
    (requested [request 0 0, { request 2 0 with num := 7, parked := true }] []).tuples.requests.filter (fun c => c.parked &&
      c.func == 2 && c.region == 0 && c.slice == 0 && fieldsMatch c.mask c.fields [5]) =
      [{ request 2 0 with num := 7, parked := true }] ∧
    okWhere (physWrite (slotCtx (0x10000, 0, false)) 0x10000 (bytesOf 8 5) (requested [request 0 0] [])) (fun _ => true) = true ∧
    okWhere (physWrite (slotCtx (0x20000, 7, false)) 0x20000 (bytesOf 8 5) (requested [request 0 0] [])) (fun _ => true) = false ∧
    (let g : Region := ⟨0, [(0x10000, 0, false)]⟩
     let t : Tuple := ⟨0, 0, 0x10000, 1, 0⟩
     let s : State := { requested [request 1 0] [t] with
       mem := Memory.writeBytes 0x10000 (bytesOf 8 5) [], hbm := { cache := [(0x10000, {})] } }
     readTuple g t s = .ok (s, [5], false) ∧ fieldsMatch [true] [5] [5] = true ∧ fieldsMatch [true] [6] [5] = false ∧
      okWhere (storedMatch (request 1 0) g [t] s) (fun x => x.2.isSome) = true ∧
      okWhere (storedMatch (request 1 0) g [] s) (fun x => x.2.isNone) = true ∧
      okWhere (storedMatch (request 1 0) ⟨0, [(0x10000, 7, false)]⟩ [t] s) (fun _ => true) = false) ∧
    (requested [{ request 1 0 with parked := true, withdrawn := true }] []).tuples.requests.find?
      (fun c => c.num == 1 && c.parked && c.withdrawn) = some { request 1 0 with parked := true, withdrawn := true } ∧
    (let p : CountedOp := { kind := .tuple 1 1 3, counter := 0, dest := some 4, copy := none }
     let r : TupleReply := { req := request 1 0, served := some [5] }
     let s : State := { onHart regioned fun h => { h with ops := [p] } with tuples := { regioned.tuples with replies := [r] } }
     s.h.ops[0]? = some p ∧ s.h.ops.find? (tupleOp 1) = some p ∧ p.counter < 6 ∧ p.copy = none ∧
      s.tuples.replies.find? (fun r => r.req.coord == s.cur && tupleOp r.req.num p) = some r ∧ r.req.coord = s.cur ∧
      keptFor s r = false ∧ r.req.saving = false ∧ ({ request 1 0 with saving := true } : TupleReq).saving = true ∧
      homeOf s.h r.req.vreg = some (.own 3)) := by
  decide +kernel
/-- The hart with v1's and v2's first physical rows so. -/
def rowed (a b : BitVec 4096) (s : State) : State :=
  onHart s fun h => { h with rows := (h.rows.setIfInBounds 1 { bits := a }).setIfInBounds 2 { bits := b } }
theorem rowed_solo (a b : BitVec 4096) (v u : Word) (n : Nat) : (rowed a b (typed v u n)).Solo :=
  ⟨ready_of rfl rfl rfl rfl rfl rfl (show wbit 0 0 = false by decide), rfl⟩
theorem witness_GeomWords : (rowed 0 0 (typed 0x026 0x026 1)).Solo ∧ ((typed 0x026 0x026 1).h.slot false).fmt = 4 ∧
    ((typed 0x026 0x026 1).h.slot false).sew = 128 ∧ ((7 : BitVec 3) == 7 && false) = false ∧
    groupsLegal (typed 0x026 0x026 1).h (some (⟨3, 1⟩, false)) [⟨one 1, true⟩, ⟨one 2, true⟩] = true ∧
    (!((0 : Nat).testBit 127 && (0 : Nat).testBit 127)) = true ∧ ((0 : Nat).testBit 127 || (0 : Nat).testBit 127) = false ∧
    (let r := geomElems (fun _ => addSub true (vtypeOf 0x026) 0 0) [0] (typed 0x026 0x026 1)
     r.2.1 = none ∧ r.2.2.h = (typed 0x026 0x026 1).h) ∧
    (let r := geomElems (fun _ => addSub true (vtypeOf 0x026) (5 * 2 ^ 96) 0) [0] (typed 0x026 0x026 1)
     r.2.1 = some (0, 1, 0) ∧ frameDelegated (typed 0x026 0x026 1).h 1 = false ∧
      (let h : Hart := (typed 0x026 0x026 1).h
       frameDelegated { h with mode := .user, csr := { h.csr with ufdeleg := 2, ufvec := 1 } } 1 = true)) ∧
    groupsLegal (typed 0x026 0x205 1).h none [⟨one 1, false⟩] = true ∧
    doneWhere (tagsLive [0] (typed 0x026 0x205 1)) (fun _ s1 => decide (s1.h = (typed 0x026 0x205 1).h)) = true ∧
    ((typed 0x026 0x205 1).h.slot true).fmt = 0 ∧ ((typed 0x026 0x205 1).h.slot true).sew = 64 ∧
    ((typed 0x026 0x205 1).h.slot true).rows = ((typed 0x026 0x205 1).h.slot false).rows ∧
    -24 ≤ (40 : Word).toInt ∧ (40 : Word).toInt ≤ 40 ∧ ¬(-24 ≤ (41 : Word).toInt ∧ (41 : Word).toInt ≤ 40) := by
  refine ⟨rowed_solo _ _ _ _ _, ?_⟩
  decide +kernel
/-- A table of a root, a cell and a body, at the start of HBM; and specs of a cell, a root, a body's pose and a bone at the
scratchpad. -/
def rootNode : Node := ⟨1, 0, 0, true, 0, 0, 0, 0, [0, 0, 0], [0x3F800000, 0, 0, 0], 0, 0⟩
def cellNode : Node := { rootNode with idx := 2, parent := 1, kind := 1, depth := 1, hexp := 10 }
def bodyNode : Node := { rootNode with idx := 3, parent := 1, kind := 2, depth := 1 }
def spec (parent kind hexp : Nat) : List Byte :=
  bytesOf 4 parent ++ bytesOf 1 kind ++ bytesOf 1 hexp ++ List.replicate 34 0 ++ bytesOf 4 0x3F800000 ++ List.replicate 20 0
def framed : State := { withRegs [(8, 1), (9, 2), (10, 3), (11, 0x100000000040), (12, 0x100000000080), (13, 0x1000000000C0)] padded with
  mem := Memory.writeBytes pad (spec 1 1 10 ++ spec 0 0 0 ++ spec 0 2 0 ++ spec 1 3 0)
    (Memory.writeBytes 64 (rootNode.encode ++ cellNode.encode ++ bodyNode.encode) [])
  hbm := { cache := [(0, {}), (128, {})] }
  dev := { padded.dev with frctl := 1 } }
theorem framed_ready : framed.Ready := ready_of rfl rfl rfl rfl rfl rfl rfl
def framedUser : State := onHart padded fun h => { h with mode := .user }
theorem witness_FrameWords : framed.Ready ∧ framed.guarded 7 false ∧ framed.h.role ≠ .control ∧
    (framedUser.Ready ∧ framedUser.h.mode = .user ∧ framedUser.dev.frctl.getLsbD 1 = false) ∧
    (padded.h.role ≠ .computer ∧ padded.h.mode ≠ .user ∧ padded.dev.frctl.getLsbD 0 = false ∧ frameDelegated padded.h 2 = false) ∧
    framed.dev.frctl.getLsbD 0 = true ∧ (unstepped framed = false ∧ unstepped (earlyCommit 2 framed) = false) ∧
    (let t := earlyCommit 2 framed
     let live := fun (f : List Node → State → Bool) (s : State) => doneWhere (liveRecords s) f
     failsWhere (checkTag 0 t) (fun e u => decide (e = (1, 0)) && decide (u.h = t.h)) = true ∧
     doneWhere (checkTag 1 t) (fun n u => live (fun l _ => l.any fun m => m.parent == n.idx) u) = true ∧
     doneWhere (checkTag 3 t) (fun n u => live (fun l u2 => (l.all fun m => m.parent != n.idx) && decide (u2.h = t.h) &&
       doneWhere (writeNode { n with live := false, gen := (n.gen + 1) % 1024 } u2) fun _ u3 => decide (u3.h = t.h)) u) = true ∧
     doneWhere (checkTag 3 t) (fun n u => doneWhere (readSpec false (framed.h.reg 12) u) fun p u2 =>
       decide (n.kind ≠ 0) && decide (p.kind = n.kind) && decide (p.hexp = n.hexp) && decide (u2.h = t.h)) = true ∧
     doneWhere (checkTag 2 t) (fun n u => doneWhere (readSpec false (framed.h.reg 12) u) fun p _ => decide (p.kind ≠ n.kind)) = true ∧
     doneWhere (readSpec true (framed.h.reg 5) t) (fun p u => live (fun l u2 => decide (p.kind ≠ 0) &&
       doneWhere (checkTag p.parent u2) fun n u3 => decide (u3.h = t.h) && suits p.kind n.kind && decide (n.depth < 24) &&
         decide (firstIndex (fun i => !l.any fun n => n.idx == i) 1 (nodeCount u3 - 1) 1 = some 4) &&
         doneWhere (storedNode 4 u3) fun _ _ => true) u) = true ∧
     doneWhere (readSpec true (framed.h.reg 13) t) (fun p u => doneWhere (checkTag p.parent u) fun n _ => !suits p.kind n.kind) = true ∧
     doneWhere (readSpec true (framed.h.reg 11) t) (fun p u => live (fun l _ => decide (p.kind = 0) && decide (p.parent = 0) &&
       decide (freeTree l = some 1)) u) = true ∧
     doneWhere (checkTag 2 t) (fun n u => live (fun l u2 => decide (n.kind = 1 ∧ n.child = 0 ∧ -7 ≤ n.hexp) && decide (n.depth < 24) &&
       decide (firstIndex (fun i => (List.range 8).all fun k => !l.any fun m => m.idx == i + k) 8 (nodeCount u2 / 8 - 1) 8 = some 8) &&
       doneWhere ((List.range 8).mapM (fun k => storedNode (8 + k)) u2) fun _ u3 => decide (u3.h = t.h)) u) = true ∧
     doneWhere (checkTag 3 t) (fun n u => doneWhere (checkTag 2 u) fun p u2 => live (fun l u3 =>
       decide (p.idx ∉ subtree l 26 [n.idx]) && suits n.kind p.kind && decide (u3.h = t.h)) u2) = true) := by
  refine ⟨framed_ready, rfl, by decide, ⟨ready_of rfl rfl rfl rfl rfl rfl rfl, ?_⟩, ?_⟩ <;> decide +kernel
/-- A hart whose hash table is one bucket at the scratchpad, with v1's and v2's elements so. -/
def hashing (a b : BitVec 4096) (cells : List Byte) : State :=
  { onHart (rowed a b (withRegs [(9, 0x100000001000)] (typed 0x205 0x204 1)))
      fun h => { h with csr := { h.csr with htab := 0x100000000000 } } with mem := Memory.writeBytes pad cells [] }
theorem hashing_solo (a b : BitVec 4096) (cells : List Byte) : (hashing a b cells).Solo :=
  ⟨ready_of rfl rfl rfl rfl rfl rfl (show wbit 0 0 = false by decide), rfl⟩
theorem witness_HashWords : (hashing 0 0 []).Solo ∧ (hashing 0 0 []).h.mode = .machine ∧ ((7 : BitVec 3) == 7 && false) = false ∧
    ((hashing 0 0 []).h.slot true).sew ≠ 64 ∧ ((hashing 0 0 []).h.slot false).fmt = 0 ∧ ((hashing 0 0 []).h.slot false).sew = 64 ∧
    (coreOf (hashing 0 0 []) 0).pins = [] ∧ ((hashing 0 0 []).h.slot false).rows = 1 ∧
    (let s := hashing 0 0 []
     let table := (hashBase s.h, 128 * hashBuckets s.h)
     doneWhere (hashRanges .write [table] s) (fun _ t => decide (t = s)) = true ∧
     doneWhere (hashRanges .rmw [table] s) (fun _ t => decide (t = s)) = true ∧
     doneWhere ((List.range (hashBuckets s.h)).forM (fun b => hashWrite (bucketAddr s.h b)
       ((List.replicate 8 (bytesOf 8 (2 ^ 64 - 1) ++ bytesOf 8 0)).flatten)) (earlyCommit 2 s)) (fun _ w =>
         decide (w.h.pfx = none) && decide ((coreOf w 0).pins = [])) = true ∧
     groupsLegal s.h none [⟨one 1, false⟩, ⟨one 2, false⟩] = true ∧
     Machine.getElem (groupRow (hashing (BitVec.ofNat 4096 (2 ^ 63)) 0 []) (one 1) 0).bits 64 0 = 2 ^ 63 ∧
     Machine.getElem (groupRow s (one 1) 0).bits 64 0 = 0 ∧ blockingChannels s (bucketAddr s.h (bucketOf s.h 0)) 128 = [] ∧
     doneWhere (hashInserts (fun _ => 0) (fun _ => 7) [0] (earlyCommit 2 s)) (fun _ w => decide (w.h.k = s.h.k) &&
       decide (w.h.pfx = none) && decide (w.h.role = .solo) && decide ((coreOf w 0).pins = [])) = true ∧
     doneWhere (loadBytes (some 0) pad 128 8 s) (fun bs s1 => decide (s1.h = s.h) &&
       (List.range 8).all fun j => leAt bs (16 * j) 8 != 2 ^ 64 - 1) = true) ∧
    (let s := hashing 0 0 (bytesOf 8 (2 ^ 64 - 1))
     doneWhere (loadBytes (some 0) pad 128 8 s) (fun bs s1 => decide (leAt bs 0 8 = 2 ^ 64 - 1) &&
       doneWhere (hashWrite pad (bytesOf 8 3 ++ bytesOf 8 4) s1) fun _ _ => true) = true ∧
     groupsLegal s.h (some (⟨3, 1⟩, false)) [⟨one 1, true⟩] = true ∧
     doneWhere (hashTable .read [((s.h.reg 9).toNat, 1728)] s) (fun _ t => decide (t = s)) = true ∧
     doneWhere (lookQueries (fun _ => lookNeighbours 0 (s.h.reg 9).toNat (List.range 27)) [0] s) (fun r w => decide (r.2.isNone) &&
       decide (w.h.rows = s.h.rows) && decide (w.h.span = s.h.span) && decide (w.h.pfx = none) && decide (w.h.role = .solo) &&
       decide ((coreOf w 0).pins = [])) = true) := by
  refine ⟨hashing_solo _ _ _, ?_⟩
  decide +kernel
theorem witness_WaveWords : (typed 0x1CC 0x205 2).Solo ∧ ((7 : BitVec 3) == 7 && false) = false ∧
    groupsLegal (typed 0x1CC 0x205 2).h (some (⟨24, 8⟩, false)) [⟨⟨8, 8⟩, true⟩] = true ∧
    ((typed 0x1CC 0x205 2).h.slot false).float = some fp32 ∧ ((typed 0x1CC 0x205 2).h.slot false).rows = 8 ∧
    (24 : BitVec 5).toNat % 8 = 0 ∧ (8 : BitVec 5).toNat % 8 = 0 ∧ ((typed 0x1CC 0x205 2).h.slot true).float = none ∧
    groupsLegal (typed 0x1CC 0x205 2).h (some (⟨24, 1⟩, false)) [⟨one 8, true⟩] = true ∧
    (4 : Word).toNat % 4 = 0 ∧ 32 ≤ (33 : Word).toNat ∧ (31 : Word).toNat % 4 ≠ 0 ∧ (31 : Word).toNat < 32 ∧
    groupsLegal (typed 0x1CC 0x205 2).h none [⟨⟨8, 8⟩, false⟩] = true ∧
    groupsLegal (typed 0x1CC 0x205 2).h (some (⟨24, 8⟩, false)) [] = true ∧
    2 ^ (6 * 8) ≤ (0x1000000000000 : Word).toNat ∧ (0xFFFFFFFFFFFF : Word).toNat < 2 ^ (6 * 8) := by
  refine ⟨typed_solo _ _ _, ?_⟩
  decide +kernel
/-- A control core whose quadrant 0 is so; descriptors at the scratchpad: the default, a bad one, and one with a codebook and
a bias; the codebook and, a page on, the bias. -/
def matrixAt (k : Quadrant) : State := { setQuad 0 0 k
    (withRegs [(9, 0x100001000), (10, 0x1000), (11, 0x1000000), (12, 1), (13, 33), (14, 16)] control) with
  mem := Memory.writeBytes (pad + 64) (bytesOf 8 9) (Memory.writeBytes (pad + 128)
    (bytesOf 8 0x1000002 ++ bytesOf 8 0 ++ bytesOf 8 (pad + 4096) ++ bytesOf 8 (pad + 256))
    (Memory.writeBytes (pad + 256) ((List.range 16).flatMap fun i => bytesOf 2 (0x3F80 + i)) [])) }
theorem matrixAt_ready (k : Quadrant) : (matrixAt k).Ready := ready_of rfl rfl rfl rfl rfl rfl (show wbit 0 0 = false by decide)
theorem witness_MatrixWords : padded.Ready ∧ padded.h.role ≠ .control ∧ (matrixAt {}).Ready ∧ (matrixAt {}).h.role = .control ∧
    (matrixAt {}).guarded 7 false ∧
    (let s := matrixAt {}
     let rg := fun (w : Word) => wbits w 24 12 ≠ 0 ∧ wbits w 11 0 + wbits w 24 12 ≤ 4096 ∧ wbits w 31 25 = 0
     quadOf s 0 0 = {} ∧ quadOf (matrixAt { seq := 0x8100000000000000 }) 0 0 = { seq := 0x8100000000000000 } ∧
     (0x8100000000000000 : Word).getLsbD 63 = true ∧ wbits (0x8100000000000000 : Word) 58 56 ≠ 0 ∧
     rg (s.h.reg 9) ∧ wbits (s.h.reg 9) 63 41 = 0 ∧ wbits (s.h.reg 9) 40 32 = 1 ∧ wbits (s.h.reg 0) 63 18 = 0 ∧
     rg (s.h.reg 10) ∧ wbits (s.h.reg 10) 63 32 = 0 ∧ ¬rg (s.h.reg 0) ∧ (quadOf s 0 0).drain.hlev = 0) ∧
    (let s := matrixAt {}
     32 ≤ (s.h.reg 13).toNat ∧ (s.h.reg 12).toNat < 32 ∧ (s.h.reg 14).getLsbD 4 = true ∧
      ((List.range 4).filter fun q => (s.h.reg 12).getLsbD q) = [0] ∧ (clusterOf s 0).loader = [] ∧
      (∀ q < 4, (quadOf s 0 q).running = false ∧ (quadOf s 0 q).seq.getLsbD 63 = false) ∧
      wbits (quadOf (matrixAt { running := true, seq := 0x1800000000000000 }) 0 0).seq 61 59 = 3) ∧
    (let s := matrixAt { seq := 0xE000000000000000, opa := 0x1000, running := false }
     let w := (quadOf s 0 0).seq
     w.getLsbD 63 = true ∧ w.getLsbD 62 = true ∧ wbits w 58 56 = 0 ∧ (runToPoint 0 0 (200 + (clusterOf s 0).loader.length) (seqRestart 0 0 w s)).h.pfx = none ∧
       (runToPoint 0 0 (200 + (clusterOf s 0).loader.length) (seqRestart 0 0 w s)).h.pend = []) ∧
    (let s := matrixAt {}
     pad % 64 = 0 ∧ wbits (s.h.reg 11) 41 24 = 1 ∧ wbits (s.h.reg 11) 17 0 + 1 ≤ 196608 ∧ wbits (s.h.reg 11) 23 18 = 0 ∧
      wbits (s.h.reg 11) 63 42 = 0 ∧ wbits (s.h.reg 0) 41 24 = 0 ∧
      doneWhere (translateRange pad 64 .read s) (fun ps t => decide (t = s) && ps.all fun p => decide (p.2.2.typ ≤ 1)) = true ∧
      doneWhere (pinCopy [] s) (fun _ t => decide (t.h = s.h) && decide (t.cur = s.cur) && !unstepped t && !unstepped (earlyCommit 3 t)) = true) ∧
    (let s := matrixAt {}
     doneWhere (loadBytes (some 0) pad 64 8 s) (fun d s1 => !drainBad 0 d && decide (leAt d 3 1 ≠ 1) &&
       decide (¬(2 ≤ leAt d 0 1 ∧ leAt d 0 1 ≤ 4)) && decide (s1.h = s.h)) = true ∧
     doneWhere (loadBytes (some 0) (pad + 64) 64 8 s) (fun d s1 => drainBad 0 d && decide (s1.h = s.h)) = true ∧
     doneWhere (loadBytes (some 0) (pad + 128) 64 8 s) (fun d s1 => !drainBad 0 d && decide (leAt d 3 1 = 1) && decide (leAt d 0 1 = 2) &&
       decide (leAt d 16 8 % 8 = 0) && decide (leAt d 24 8 % 8 = 0) &&
       doneWhere (loadBytes (some 0) (leAt d 16 8) 1024 8 s1) (fun _ s2 =>
         doneWhere (loadBytes (some 0) (leAt d 24 8) (2 * 2 ^ (outFormat 2).2) 8 s2) fun cs s3 =>
           decide (s3.h = s.h) && decide (s3.cur = s.cur) && decide (tableFault (entriesOf (2 ^ (outFormat 2).2) cs) = none))) = true) := by
  refine ⟨padded_ready, by decide, matrixAt_ready _, rfl, rfl, ?_, ?_, ?_, ?_, ?_⟩ <;> decide +kernel
/-- A cluster with this quadrant 0 and these copies for the weight loader. -/
def engine (k : Quadrant) (ws : List WeightCopy) : State :=
  setCluster 0 { clusterOf (matrixAt k) 0 with loader := ws } (matrixAt k)
def aCopy : WeightCopy := { parts := [(State.access pad, 64)], granule := 0, count := 1, order := 0 }
theorem witness_MatrixSteps :
    (quadOf (engine {} []) 0 0).running = false ∧ (clusterOf (engine {} []) 0).loader = [] ∧
    (let s := engine { running := true, seq := 0x1000000000000000, opa := 196608, g := 196608, opb := 0x100001000, order := 1 } []
     let k := quadOf s 0 0
     k.running = true ∧ wbits k.seq 61 59 = 2 ∧ k.seq.getLsbD 28 = false ∧ fetchBlock 0 0 s = some (.error 2)) ∧
    fetchBlock 0 0 (engine { running := true, seq := 0x1000000000000000, opb := 0x100001000, order := 1 } [aCopy]) = none ∧
    (let k : Quadrant := { running := true, seq := 0x1000000010000000, opb := 0x200002000, block := [0], aPort := [⟨2, 16, 0, [1]⟩] }
     wbits k.seq 61 59 = 2 ∧ k.seq.getLsbD 28 = true ∧ k.block ≠ [] ∧ k.mtype.toNat % 4 = 0 ∧ wbits k.seq 12 0 < wbits k.opb 24 12 ∧
      (let w : Word := 0x1000000010000002
       wbits w 61 59 = 2 ∧ w.getLsbD 28 = true ∧ wbits k.opb 24 12 ≤ wbits w 12 0) ∧
      (let w : Word := 0x1000000110000002
       wbits w 61 59 = 2 ∧ w.getLsbD 28 = true ∧ wbits k.opb 24 12 ≤ wbits w 12 0) ∧
      wbits (0x1000000010000002 : Word) 40 32 + 1 < wbits k.opb 40 32 ∧
      wbits k.opb 40 32 ≤ wbits (0x1000000110000002 : Word) 40 32 + 1) ∧
    (let k : Quadrant := { running := true, seq := 0x1800000000000000, opa := 0x2000 }
     wbits k.seq 61 59 = 3 ∧ k.outPort.length + 1 ≤ 64 ∧ wbits k.seq 12 0 < wbits k.opa 24 12 ∧
      wbits k.opa 24 12 ≤ wbits (0x1800000000000002 : Word) 12 0 ∧ wbits (0x2000000000000001 : Word) 12 0 < wbits k.opa 24 12 ∧
      wbits k.opa 24 12 ≤ wbits (0x2000000000000002 : Word) 12 0 ∧ 64 < (List.replicate 64 (⟨1, 32, 0, []⟩ : PortRow)).length + 1) ∧
    wbits (0x2000000000000000 : Word) 61 59 = 4 ∧
    (let s := engine {} [aCopy]
     (clusterOf s 0).loader = [aCopy] ∧ fetchPending (clusterOf s 0) aCopy = false ∧ copyChannels 0 aCopy s = [] ∧
      ∀ p ∈ aCopy.parts, heldOver s p.1.pa p.2 = false) ∧
    (quadOf (engine { seq := 0x9000000000000000 } []) 0 0).seq.getLsbD 63 = true ∧
    (quadOf (engine {} []) 0 0).seq.getLsbD 63 = false := by
  decide +kernel
/-- With a block of FORM 5 and no values at granule 0 of the weight buffer. -/
def sparse : State :=
  let s := engine { running := true, seq := 0x1000000000000000, opb := 0x100001000, order := 1 } []
  setCluster 0 { clusterOf s 0 with weights := [(0, 5)] } s
/-- The loader's oldest copy under a running channel, its first read, and one that has been read. -/
def blocked : State := setChannel (coreIndex 0x7F00) 0 { state := .running, base := pad, expected := 64 }
  (engine { running := true, seq := 0x1000000000000000, opb := 0x100001000, order := 1 } [aCopy])
theorem witness_MatrixSteps_stop :
    (seqStep 0 0 (engine { running := true, seq := 0x2000000000000001, opa := 0x1000 } [])).2 = .ended ∧
    (seqStep 0 0 sparse).2 = .moved true ∧ (quadOf (seqStep 0 0 sparse).1 0 0).running = true ∧
    (seqStep 0 0 (engine { running := true, seq := 0x1000000010000001, opb := 0x200001000, block := [0] } [])).2 = .moved false ∧
    (seqStep 0 0 (engine { running := true, seq := 0x1000000010000000, opb := 0x100001000, block := [0] } [])).2 = .waits true ∧
    (quadOf (seqStep 0 0 (engine { running := true, seq := 0x1000000010000000, opb := 0x100001000, block := [0] } [])).1 0 0).running = true := by
  decide +kernel
theorem witness_MatrixWords_step : blocked.h.role = .control ∧
    (let s := setQuad 0 0 { quadOf blocked 0 0 with running := false, seq := 0xD000000000000000 } blocked
     let w := (quadOf s 0 0).seq
     w.getLsbD 63 = true ∧ w.getLsbD 62 = true ∧ wbits w 58 56 = 0 ∧
      (quadOf (runToPoint 0 0 (200 + 2 * (clusterOf s 0).loader.length) (seqRestart 0 0 w s)) 0 0).running = true) := by
  decide +kernel
theorem witness_MatrixSteps_load :
    (let w := { aCopy with data := some [(7, false)] }
     (clusterOf (engine {} [w]) 0).loader = [w] ∧ fetchPending (clusterOf (engine {} [w]) 0) w = false ∧
      (let s := engine { running := true, seq := 0x1000000000000000, opb := 0x100001000, order := 0 } [{ w with order := 2 }]
       fetchPending (clusterOf s 0) { w with order := 2 } = true)) ∧
    (let s := engine {} [aCopy]
     (clusterOf s 0).loader.find? (fun u => u.data.isNone) = some aCopy ∧ copyChannels 0 aCopy s = [] ∧
      readGranule 0 aCopy.parts (64 * 0) s = (s, Memory.readBytes s.mem pad 64, false) ∧ aCopy.count = 1 ∧
      (clusterOf s 0).loader.head? = some aCopy ∧ (clusterOf (engine {} [{ aCopy with data := some [] }, aCopy]) 0).loader.head? ≠ some aCopy) := by
  decide +kernel
theorem witness_MatrixSteps_block : (quadOf sparse 0 0).running = true ∧ wbits (quadOf sparse 0 0).seq 61 59 = 2 ∧
    (quadOf sparse 0 0).seq.getLsbD 28 = false ∧ (match fetchBlock 0 0 sparse with
      | some (.ok _) => true
      | _ => false) = true := by
  decide +kernel
/-- The bytes of a launch packet: words 0 to 19, then zeros. -/
def packetBytes (desc ctrl : Nat) : List Byte :=
  bytesOf 8 desc ++ bytesOf 8 64 ++ bytesOf 8 ctrl ++ List.replicate 232 0
/-- A packet of one solo hart at the scratchpad, its descriptor 256 bytes on, and a malformed packet after that. -/
def launching (fifo : List Packet) : State := setQueue 48 { queueOf padded 48 with fifo := fifo } { withRegs [(8, 0x100000000200)] padded with
  mem := Memory.writeBytes pad (packetBytes (pad + 256) 0x202)
    (Memory.writeBytes (pad + 256) (bytesOf 4 0x51584B44 ++ bytesOf 4 1) []) }
theorem launching_ready (l : List Packet) : (launching l).Ready := ready_of rfl rfl rfl rfl rfl rfl (show wbit 0 0 = false by decide)
/-- A hart with a deque of four records in its scratchpad, n of them held. -/
def dequed (n : Nat) : State := onHart padded fun h =>
  { h with csr := { h.csr with taskq := 0x100000001002 }, deque := n, peers := 2, launch := 1 }
theorem dequed_ready (n : Nat) : (dequed n).Ready := ready_of rfl rfl rfl rfl rfl rfl (show wbit 0 0 = false by decide)
/-- It with this mail, beside a hart of its launch in slot 1 with that mail. -/
def mailed (m v : Mail) : State :=
  { setSlot 1 { mail := v } (setSlot 0 { mail := m } (dequed 0)) with harts := [(1, { (dequed 0).h with ordinal := 1 })] }
theorem witness_TaskWords : (launching []).Ready ∧ (launching []).h.role ≠ .control ∧ (launching []).h.role ≠ .computer ∧
    (launching []).guarded 7 false ∧ (unstepped (launching []) = false ∧ unstepped (earlyCommit 2 (launching [])) = false) ∧
    (let u := earlyCommit 2 (launching [])
     let parse := fun (bs : List Byte) (s1 : State) => parsePacket ⟨s1.cur, s1.h.csr.ptroot, s1.h.mode, fun key z => ctxOf s1.cur s1.h.mode key z⟩
       0 s1.h.sup.tvec s1.h.mach.tvec bs s1
     pad % 256 = 0 ∧ doneWhere (loadBytes (some 0) pad 256 256 u) (fun bs s1 => decide (s1.cur = 0) && decide (s1.h.pfx = none) &&
       decide (s1.h.pend = []) && decide (s1.h.mode ≠ .user) &&
       doneWhere (parse bs s1) fun _ s2 => decide (s2.h = s1.h) && decide (s2.cur = s1.cur) &&
         decide ((queueOf s2 48).fifo.length < 64)) = true ∧
     64 ≤ (queueOf (launching (List.replicate 64 oneLaunch.packet)) 48).fifo.length ∧
     (launching []).h.reg 8 = 0x100000000200 ∧
     doneWhere (loadBytes (some 0) (pad + 512) 256 256 u) (fun bs s1 =>
       failsWhere (parse bs s1) fun e s2 => decide (e.1 ≠ 6) && decide (s2.h = s1.h)) = true) ∧
    ((dequed 3).Ready ∧ pad % 8 = 0 ∧ wbits (dequed 3).h.csr.taskq 2 0 = 2 ∧ (dequed 3).h.deque < 2 ^ 2 ∧ 2 ^ 2 ≤ (dequed 4).h.deque ∧
      (slotOf (mailed { mailbox := [⟨1, 4⟩] } {}) 0).mail.mailbox = [⟨1, 4⟩] ∧ (slotOf (dequed 3) 0).mail.mailbox = [] ∧
      doneWhere (loadBytes (some 0) pad 32 8 (dequed 3)) (fun bs s1 => decide (s1.cur = 0) && decide (s1.h = (dequed 3).h) && !unstepped s1 && !unstepped (earlyCommit 2 s1) &&
        decide (dequeSlot (dequed 3).h 3 % 8 = 0) &&
        doneWhere (dequeCheck (dequeSlot (dequed 3).h 3) .write s1) fun _ s2 =>
          doneWhere (storeBytes (some 0) (dequeSlot (dequed 3).h 3) 8 bs s2) fun _ s3 =>
            decide (s3.h.pfx = none) && decide (s3.h.pend = [])) = true) ∧
    ((padded.h.reg 0).toNat = padded.h.ordinal ∧ padded.h.peers ≤ (padded.h.reg 6).toNat ∧
      stealVictim (earlyCommit 2 (mailed {} {})) 1 = some 1 ∧
      (slotOf (mailed { pendSteal := some 4 } {}) 0).mail.pendSteal ≠ none ∧ (slotOf (mailed {} {}) 0).mail.pendSteal = none ∧ (slotOf (mailed {} {}) 0).mail.inbox = none ∧
      16 ≤ (slotOf (mailed {} { mailbox := List.replicate 16 ⟨0, 0⟩ }) 1).mail.mailbox.length ∧
      (slotOf (mailed {} { mailbox := List.replicate 15 ⟨0, 0⟩ }) 1).mail.mailbox.length < 16) ∧
    ((dequed 0).h.deque = 0 ∧ (slotOf (mailed { inbox := some (List.replicate 32 0) } {}) 0).mail.inbox = some (List.replicate 32 0) ∧
      doneWhere (storeBytes (some 0) pad 8 (List.replicate 32 0) (mailed { inbox := some (List.replicate 32 0) } {})) (fun _ s1 =>
        decide (s1.cur = 0) && decide (s1.h.pfx = none) && decide (s1.h.pend = [])) = true ∧ (dequed 1).h.deque ≠ 0 ∧
      doneWhere (dequeCheck (dequeSlot (dequed 1).h 0) .read (dequed 1)) (fun _ s1 =>
        doneWhere (loadBytes (some 0) (dequeSlot (dequed 1).h 0) 32 8 s1) fun bs s2 =>
          doneWhere (storeBytes (some 0) pad 8 bs s2) fun _ s3 =>
            decide (s3.cur = 0) && decide (s3.h.pfx = none) && decide (s3.h.pend = [])) = true) ∧
    ((dequed 0).h.strip.buf = [] ∧ (dequed 0).h.errs = [] ∧ (∀ st ∈ (slotOf (mailed { mailbox := [⟨1, 4⟩] } { pendSteal := some 4 }) 0).mail.mailbox, st.slot ≠ (dequed 0).cur) ∧
      (⟨1, 4⟩ : Steal) ∈ (slotOf (mailed { mailbox := [⟨1, 4⟩] } { pendSteal := some 4 }) 0).mail.mailbox ∧
      (∀ c ∈ (coreOf (dequed 0) 0).channels.toList, c.state = .idle) ∧
      (slotOf (mailed { mailbox := [⟨1, 4⟩] } { pendSteal := some 4 }) 1).mail.pendSteal = some 4) := by
  refine ⟨launching_ready _, by decide, by decide, rfl, by decide +kernel, ?_, ⟨dequed_ready _, ?_⟩, ?_, ?_, ?_⟩ <;> decide +kernel
/-- A supervisor hart whose page table, in granules 2 to 4, maps the page at 0x10000 to granule 1 by this leaf; cluster 0 may
use all of HBM. -/
def mapped (leaf : Word) : State := { onHart (withRegs [(9, 0x10000), (10, 0x50000), (11, 0x400), (12, 1), (13, 4097), (14, 0x2000)] padded)
    fun h => { h with mode := .supervisor, csr := { h.csr with ptroot := 0x20000000 } } with
  mem := Memory.writeBytes 0x20000 (bytesOf 8 0x30000001) (Memory.writeBytes 0x30000 (bytesOf 8 0x40000001)
    (Memory.writeBytes 0x40008 (bytesOf 8 leaf.toNat) []))
  dev := { padded.dev with access := [(0, BitVec.ofNat 128 (0xFFFFFF * 2 ^ 64 + 7 * 2 ^ 61))] } }
theorem mapped_ready (leaf : Word) : (mapped leaf).Ready := ready_of rfl rfl rfl rfl rfl rfl (show wbit 0 0 = false by decide)
/-- A counted load through the page's entry. -/
def mappedLoad : CountedOp :=
  { kind := .load [(⟨0x10000, 0x10000, 0, false, false, some (0, 0x10000, 65536)⟩, 8)] true 0, counter := 0, dest := some 1, copy := none }
/-- What is left where 8 bytes of HBM have been read, and where a byte has been written. -/
def readState (pa : Nat) (s : State) : State :=
  match physRead {} pa 8 s with
  | .ok (s1, _, _) => s1
  | .error _ => s
def writeState (pa : Nat) (bs : List Byte) (s : State) : State :=
  match physWrite {} pa bs s with
  | .ok (s1, _) => s1
  | .error _ => s
/-- The page's leaf with neither A nor D set, and what the walk to it has read, and has marked. -/
def fresh : Word := 0x10000381
def readTables : State := readState 0x40008 (readState 0x30000 (readState 0x20000 (mapped fresh)))
def walkedTo (write : Bool) : State := writeState 0x40008 (bytesOf 1 (fresh ||| (if write then 6 else 2)).toNat) readTables
theorem fresh_walks (write : Bool) : (mapped fresh).Walks 0x10000 8 write fresh (walkedTo write) := by
  refine ⟨?_, ?_, ?_, ?_, ?_, ?_, ?_, ?_, ⟨0x30000001, 0x40000001, readState 0x20000 (mapped fresh),
    readState 0x30000 (readState 0x20000 (mapped fresh)), readTables, ?_, ?_, ?_, ?_, ?_⟩, ?_, ?_, ?_, ?_, loaded_of ?_, ?_⟩
  case refine_12 =>
    intro p hp
    rcases List.mem_cons.mp hp with h | h
    · subst h
      decide +kernel
    · rw [List.mem_singleton.mp h]
      decide +kernel
  all_goals (cases write <;> decide +kernel)
theorem witness_ScalarLoadsRead_walk : (mapped fresh).Ready ∧ (mapped fresh).h.role ≠ .computer ∧
    ((mapped fresh).h.reg 9 + BitVec.ofNat 64 (0 * 8)).toNat = 0x10000 ∧
    (mapped fresh).Walks 0x10000 8 false fresh (walkedTo false) ∧ (mapped fresh).Walks 0x10000 8 true fresh (walkedTo true) ∧
    okWhere (physRead (ctxOf (mapped fresh).cur (mapped fresh).h.mode (wbits fresh 27 16) (wbit fresh 3)) (pageAddr fresh 0x10000) 8
      ((mapped fresh).walked 0x10000 false fresh (walkedTo false))) (fun x => decide (x.2.2 = none)) = true := by
  refine ⟨mapped_ready _, by decide, by decide +kernel, fresh_walks _, fresh_walks _, by decide +kernel⟩
def migrating (s : State) : State := { s with dev := { s.dev with migrating := [(1, ⟨5, 0, 0x10000, 0, false⟩)] } }
def pinned (ps : List PinUse) : State := setCore 0 { pins := ps } base
theorem witness_PrivWords : framedUser.Ready ∧ framedUser.h.mode = .user ∧ (mapped 0x10000387).Ready ∧
    (mapped 0x10000387).h.mode = .supervisor ∧ (mapped 0x10000387).guarded 7 false ∧ padded.h.mode = .machine ∧
    (mapped 0x10000387).loaded ∧ padded.loaded ∧ (unstepped (mapped 0x10000387) = false ∧ unstepped (earlyCommit 2 (mapped 0x10000387)) = false) ∧
    (let s := mapped 0x10000387
     2 ^ 10 ≤ (s.h.reg 11).toNat ∧ (s.h.reg 12).toNat < 2 ^ 10 ∧ entriesQuiet (fun _ => true) (earlyCommit 2 s) = true ∧
     entriesQuiet (fun _ => true) (onHart s fun h => { h with ops := [mappedLoad] }) = false) ∧
    (let s := mapped 0x10000387
     doneWhere (translateAs .supervisor 0x10000 .read s) (fun v s1 => decide (v.typ ≠ 4) && decide (targetOf v.pa = .hbm) &&
       accessAllowed s1 0 v.pa true false && decide (s1.h.pfx = none) && decide (s1.h.pend = []) &&
       decide (s1.h.ops = []) && decide (s1.h.role = .solo) && !unstepped s1 && !unstepped (earlyCommit 2 s1)) = true ∧
     doneWhere (translateAs .supervisor 0x10000 .read (mapped 0x10008387)) (fun v _ => decide (v.typ = 4)) = true ∧
     doneWhere (translateAs .supervisor 0x10000 .read (mapped 0x1000000000000387)) (fun v _ => decide (targetOf v.pa ≠ .hbm)) = true ∧
     (s.hbm.stored 0).isSome = true ∧ (List.range 16).any (fun x => (({ lost := [x, (x + 1) % 16] } : Hbm).stored 0).isNone) = true) ∧
    (let s := mapped 0x10000387
     let leaves := fun (w : Word) (p : State → Word → Nat → Bool) => okWhere (walk {} 2 0x10000 true (mapped w)) fun r =>
       p r.1 r.2.1 r.2.2 && rightsOk r.2.1 .write .supervisor && decide (r.1.h.pfx = none)
     canonical 0x10000 = true ∧ wbits s.h.csr.ptroot 63 28 = 2 ∧
     leaves 0x10000387 (fun _ e lvl => decide (lvl = 3) && decide (wbits e 6 4 = 0) && decide (wbits e 15 13 ≤ 1)) = true ∧
     leaves 0x10008387 (fun _ e _ => decide (1 < wbits e 15 13)) = true ∧ leaves 0x10000397 (fun _ e _ => decide (wbits e 6 4 ≠ 0)) = true ∧
     wbits (s.h.reg 9) 51 16 = 1 ∧ wbits (s.h.reg 10) 51 16 = 5 ∧ (s.h.reg 10).toNat % 65536 = 0 ∧ (s.h.reg 10).toNat < 0xF000000000 ∧
     (migrating s).dev.migrating.any (fun m => m.1 == 1 || m.2.dest == 1) = true ∧
     s.dev.migrating.any (fun m => m.1 == 1 || m.2.dest == 1) = false) ∧
    (let s := withRegs [(11, 0x2000), (12, 1), (13, 4097), (14, 0x1FF)] padded
     2 ^ 13 ≤ (s.h.reg 11).toNat ∧ (s.h.reg 0).toNat % 4096 = 0 ∧ (s.h.reg 13).toNat < 2 ^ 13 ∧ (s.h.reg 13).toNat % 4096 ≠ 0 ∧
     4096 ≤ (s.h.reg 13).toNat ∧ (s.h.reg 12).toNat < 4096 ∧ pad % 16 = 0 ∧
     doneWhere (loadBytes (some 0) pad 72 8 (earlyCommit 2 s)) (fun _ s1 => decide (s1.h.pfx = none) && decide (s1.h.pend = [])) = true ∧
     wbits (s.h.reg 14) 15 10 = 0 ∧ wbits (s.h.reg 14) 63 19 = 0 ∧ 0x100 ≤ wbits (s.h.reg 14) 9 0 ∧ wbits (s.h.reg 14) 9 0 < 0x200 ∧
     ¬(wbits (0x58 : Word) 9 0 < 0x58 ∨ 0x100 ≤ wbits (0x58 : Word) 9 0 ∧ wbits (0x58 : Word) 9 0 < 0x200) ∧
     doneWhere (loadBytes (some 0) pad 16 16 (earlyCommit 2 s)) (fun _ s1 => decide (s1.h.pfx = none)) = true) ∧
    (look 1 padded.dev.migrating = none ∧ look 1 (migrating (mapped 0x10000387)).dev.migrating = some ⟨5, 0, 0x10000, 0, false⟩ ∧
      migrationQuiet 1 (entryMatches (some 0) (some 0x10000)) (migrating (mapped 0x10000387)) = true ∧
      migrationQuiet 1 (entryMatches (some 0) (some 0x10000)) (migrating (pinned [⟨0, [(0, 0x10000, 65536)], true⟩])) = false ∧
      (∀ w ∈ (migrating (mapped 0x10000387)).dev.heldWrites, w.pa / 65536 ≠ 1) ∧ (migrating (mapped 0x10000387)).dev.heldReads = [] ∧
      (let w : HeldWrite := { pa := 65540, bytes := [7], ack := some (0x50, 3) }
       w.pa / 65536 = 1 ∧ w.mask = [] ∧ w.coord = none ∧ w.bytes ≠ [] ∧ w.pa % 32 + w.bytes.length ≤ 32 ∧ 5 < 0xF00000 ∧
       look 5 (migrating (mapped 0x10000387)).dev.migrating = none ∧ (keyOf (migrating (mapped 0x10000387)) w.key).isSome = true ∧
       Memory.wf (migrating (mapped 0x10000387)).mem = true)) := by
  refine ⟨ready_of rfl rfl rfl rfl rfl rfl rfl, rfl, mapped_ready _, rfl, rfl, rfl, loaded_of rfl, loaded_of rfl, by decide +kernel, ?_, ?_, ?_, ?_, ?_⟩ <;> decide +kernel
/-- The image header of a solo hart of class 2 in user mode. -/
def header (kind : Nat) : List Byte :=
  bytesOf 4 0x51584349 ++ bytesOf 2 1 ++ bytesOf 1 kind ++ List.replicate 18 0 ++ bytesOf 1 2 ++ List.replicate 38 0
/-- A machine-mode hart with an image at the scratchpad, beside a user hart in slot 1, of which it has or has not asked for a
pre-emption. -/
def asking (kind : Nat) (r : Option PreemptReq) : State :=
  { setSlot 1 { preempt := r } (withRegs [(8, 1), (9, 0x101), (10, 8), (11, 2)] padded) with
    harts := [(1, { live := true, mode := .user })], mem := Memory.writeBytes pad (header kind) [] }
theorem asking_ready (kind : Nat) (r : Option PreemptReq) : (asking kind r).Ready :=
  ready_of rfl rfl rfl rfl rfl rfl (show wbit 0 0 = false by decide)
/-- The user hart's own turn. -/
def preempted : State := { onHart base fun h => { h with mode := .user } with
  cur := 1, slots := [(1, { preempt := some ⟨[], 0⟩ })] }
theorem witness_ContextWords : (asking 0 none).Ready ∧ (asking 0 none).h.mode ≠ .user ∧ (asking 0 none).guarded 7 false ∧
    (let s := asking 0 none
     wbits (s.h.reg 8) 14 8 = 0 ∧ coordOf 0 0 1 ≠ s.cur ∧ wbits (s.h.reg 8) 63 32 = 0 ∧ wbits (s.h.reg 8) 23 20 = 0 ∧
     (s.h.reg 8).getLsbD 15 = false ∧ wbits (s.h.reg 8) 7 3 = 0 ∧ wbits (s.h.reg 10) 7 3 ≠ 0 ∧ s.h.reg 0 = 0 ∧
     occupied s 1 = true ∧ occupied s 0x102 = false ∧ (slotOf s s.cur).answer = none ∧
     (slotOf (setSlot 0 { answer := some 0 } s) 0).answer = some 0 ∧ requestOpen s = false ∧
     requestOpen (asking 0 (some ⟨[], 0⟩)) = true ∧ (s.h.reg 10).toNat % 4096 ≠ 0 ∧ pad % 4096 = 0 ∧ crewSlots s 1 = [1] ∧
     (slotOf (asking 0 (some ⟨[], 5⟩)) 1).preempt.isSome = true ∧ requestOpen (asking 0 (some ⟨[], 5⟩)) = false ∧
     (slotOf s 1).preempt = none ∧
     doneWhere (translateRange pad 0x18000 .write s) (fun ps s1 => (ps.all fun p => decide (p.2.2.typ < 2)) &&
       decide (s1.h.pfx = none) && decide (s1.h.pend = [])) = true ∧
     doneWhere (translateRange 0x180000000000 0x18000 .write s) (fun ps _ =>
       (ps.find? fun p => decide (2 ≤ p.2.2.typ)).isSome) = true) ∧
    (let u := earlyCommit 2 (asking 0 none)
     doneWhere (loadBytes (some 0) (pad + 4096) 64 1 u) (fun hd s1 => (parseHeader none hd).isNone && decide (s1.h.pfx = none)) = true ∧
     doneWhere (loadBytes (some 0) pad 64 1 (earlyCommit 2 (asking 2 none))) (fun hd _ => ((parseHeader none hd).map (·.kind)) == some 2) = true ∧
     doneWhere (loadBytes (some 0) pad 64 1 u) (fun hd s1 => ((parseHeader none hd).map (·.kind)) == some 0 &&
       doneWhere (loadBytes (some 0) pad 64 1 s1) fun hd' s2 => (parseHeader (some 0) hd').isSome && decide (s2.h.pfx = none) &&
         decide (s2.h.pend = []) && decide (resumeGroups s2 2 2 0 0 = some [0]) && decide (resumeGroups s2 1 2 0 0 = none)) = true) ∧
    (preempted.h.live = true ∧ (slotOf preempted preempted.cur).preempt = some ⟨[], 0⟩ ∧ interruptible preempted.h = true ∧ preempted.h.atStop = true ∧ heldBy preempted.cur preempted = false ∧
      preempted.h.role = .solo ∧ preempted.h.strip.buf = [] ∧ preempted.h.pend = [] ∧ preempted.h.ops = [] ∧ preempted.h.errs = [] ∧
      0 ≠ preempted.cur ∧ interruptible base.h = false ∧ (slotOf base base.cur).preempt = none) := by
  refine ⟨asking_ready _ _, by decide, rfl, ?_, ?_, ?_⟩ <;> decide +kernel
theorem witness_ContextWords_image : doneWhere (readImage pad (some 0) (asking 0 none)) (fun im s3 => im.isSome && decide (s3.cur = 0)) = true := by
  decide +kernel
/-- A state whose cache holds line 0, dirty or not; and lines of stack 0 and others by stack. -/
def lined (dirty : Bool) : State := { base with hbm := { cache := [(0, { dirty := dirty })] } }
def lostOne (x : Nat) : State := { base with hbm := { lost := [x], cloveState := 1 } }
theorem witness_MemoryEvents :
    (let c := requestCtx 0x3F0 base
     okWhere (physRead c 0 8 base) (fun _ => true) = true ∧
     okWhere (physWrite c 0 [1] base) (fun r => decide (r.1.dev.heldWrites = base.dev.heldWrites)) = true ∧
     accessAllowed base 0x3F0 0 true false = true ∧ accessAllowed base 0x3F0 0 false true = true ∧ (keyOf base c.key).isSome = true ∧
     requestReaches 0x3F0 0 8 base = true ∧ requestReaches 0x50 pad 8 base = false ∧ requestReaches 0x3F0 0 1 base = true ∧
     physRead c 0xF000000000 8 base = .error (0x14, 0xF000000000) ∧ 0x14 ≠ 0 ∧
     physRead c 0 8 { base with dev := { base.dev with heldWrites := [{ pa := 0, bytes := [1] }] } } = .error (0, 0) ∧
     (∃ e, physWrite c 0xF000000000 [1] base = .error e ∧ e.1 ≠ 0)) ∧
    (0x20008 % 8 = 0 ∧ 0x12000 % 8 = 0 ∧ 0x20000 % 8 = 0 ∧ 0x12008 % 4 = 0 ∧ (0x50 : Nat) < 0x100) ∧
    (let held : TlbEntry := ⟨0, 0x10000, 65536, 0x10004387⟩
     mayFill 65536 (setCore 0 { tlb := [held] } base) = false ∧ mayFill 0 base = true ∧
     ({ lost := [dataStack 0, (dataStack 0 + 1) % 16] } : Hbm).place 0 = 3 ∧
     (lostOne (dataStack 0)).hbm.place 0 = 1 ∧ (lostOne (dataStack 0)).hbm.stripePending (stripeOf 0) = false ∧
     ((makeRoom 0 (lostOne (dataStack 0))).hbm.rebuilt 0).tag < 9 ∧
     ((makeRoom 0 (breakLinks 0 none (lostOne (dataStack 0)))).hbm.rebuilt 0).tag < 9 ∧ base.hbm.cache.length < 16 ∧
     cached (lostOne (dataStack 0)) 0 = false) ∧
    (cached (lined false) 0 = true ∧ cached base 0 = false ∧ (0xEFFFFFFF80 : Nat) < 0xF000000000 ∧ base.hbm.lost = [] ∧
      keyOf base 1 = none ∧ (keyOf base 0).isSome = true ∧ look 0 base.hbm.images = none ∧ ({ tag := 8 } : Image).tag < 9 ∧
      look 0 ([(0, { tag := 8 })] : List (Nat × Image)) = some { tag := 8 } ∧ base.hbm.stripePending (stripeOf 0) = false ∧
      ({ base.hbm with pending := [0] } : Hbm).stripePending (stripeOf 0) = true) ∧
    (base.hbm.cloveState = 0 ∧ look 0 (lined true).hbm.cache = some { dirty := true } ∧ (keyOf (lined true) 0).isSome = true ∧
      look 0 base.hbm.deltas = none ∧ (look 0 ({ deltas := [(0, {})] } : Hbm).deltas).isSome = true) ∧
    (base.hbm.place 0 ≠ 1 ∧ (List.range 16).any (fun x => (lostOne x).hbm.place 0 == 1) = true) ∧
    (0 < 16 ∧ 1 ≤ 4 ∧ 4 ≤ 4 ∧ ¬(1 ≤ 5 ∧ 5 ≤ 4) ∧ ¬(1 ≤ 0 ∧ 0 ≤ 4) ∧ 15 ∈ (lostOne 15).hbm.lost ∧ (lostOne 15).hbm.lost = [15] ∧ 15 ≠ 0 ∧ (lostOne 15).hbm.cloveState ≠ 3 ∧
      hartAt { lostOne 15 with cur := 1 } (lostOne 15).dev.mgmt.mgtgt.toNat = none) ∧
    (base.hbm.cloveState ≠ 1 ∧ (lostOne 0).hbm.cloveState = 1 ∧ (lostOne 0).hbm.prog + 1 ≠ 2 ^ 29 ∧
      (lostOne 0).hbm.stripePending 0 = false ∧
      (List.range 16).any (fun x => ((stripeLines 0).find? fun l => dataStack l == x).isNone) = true ∧
      (List.range 16).any (fun x => ((stripeLines 0).find? fun l => dataStack l == x).isSome) = true ∧
      ({ prog := 2 ^ 29 - 1 } : Hbm).prog + 1 = 2 ^ 29) := by
  refine ⟨⟨?_, ?_, ?_, ?_, ?_, ?_, ?_, ?_, ?_, ?_, ?_, _, rfl, ?_⟩, ?_, ?_, ?_, ?_, ?_, ?_, ?_⟩ <;> decide +kernel
/-- A write to a migrating granule is held with its requester (R85), and a read of its line then waits for it. -/
theorem test_heldWrite :
    (match writeRequest { initiator := 0x3F0, tag := 4, pa := 65540, bytes := [7] } (migrating (mapped 0x10000387)) with
      | s => decide (s.dev.heldWrites = [{ pa := 65540, bytes := [7], ack := some (0x3F0, 4) }]) && decide (s.replies = []) &&
        (match endMigration 1 (readRequest { initiator := 0x3F0, tag := 5, pa := 65540, len := 1, bar := false } s) with
          | t => decide (t.replies = [{ initiator := 0x3F0, tag := 4, bytes := some [] }, { initiator := 0x3F0, tag := 5, bytes := some [7] }]) &&
            decide (Memory.read t.mem (5 * 65536 + 4) = 7))) = true := by decide +kernel
/-- A failed sector is reported once, and is poison from then on (R67). -/
theorem test_reportFailed :
    let s := reportFailed 33 1 { base with flaws := [(32, .failed)] }
    s.flaws = [(32, .poison)] ∧ s.dev.mgmt.uncorrectable = [(dataStack 0, 1)] ∧ reportFailed 32 32 s = s := by decide +kernel
/-- A hart in IDLE since cycle 0, at this cycle. -/
def idling (clock : Nat) : State := onHart base fun h => { h with idleFrom := some 0, clock := clock }
theorem idling_ready (n : Nat) : (idling n).Ready := ready_of rfl rfl rfl rfl rfl rfl (show wbit 0 0 = false by decide)
/-- A user hart with its handlers enabled, and a channel whose completion is pending. -/
def handled : State := setChannel 0 15 { state := .done, uip := true } (onHart base fun h => { h with
  mode := .user, csr := { h.csr with uivec := 0x1001, ufvec := 0x2001, ufdeleg := 0x3E } })
/-- A hart whose strip has had a store since cycle 0, at this cycle. -/
def aging (clock : Nat) : State := onHart base fun h => { h with
  clock := clock, strip := { h.strip with buf := [⟨0, State.access pad, [1], none, [], 0⟩], firstStore := some 0 } }
/-- A hart with one counted load outstanding. -/
def aLoad : CountedOp := { kind := .load [(State.access pad, 8)] true 0, counter := 5, dest := some 3, copy := none }
def loading : State := onHart padded fun h => { h with ops := [aLoad], deps := h.deps.setIfInBounds 5 1 }
theorem witness_HartEvents : (base.Ready ∧ base.guarded 7 false ∧ (idling 4096).Ready) ∧
    (base.dev.mgmt.pending = false ∧ base.h.strip.buf = [] ∧ (idling 4096).h.idleFrom = some 0 ∧ 0 + 4096 ≤ (idling 4096).h.clock ∧
      base.h.idleFrom = none ∧ preemptReady base = false ∧ wakeReady base = false ∧ userInterruptReady base = false) ∧
    (({} : State).h.live = false ∧ base.h.live = true ∧ base.h.pfx = none ∧ base.h.errs = [] ∧
      (onHart base fun h => { h with errs := [⟨0x30, 4, 0⟩] }).h.errs = [⟨0x30, 4, 0⟩] ∧ (slotOf base 0).wake = false ∧
      (slotOf (setSlot 0 { wake := true } handled) 0).wake = true ∧ handled.h.mode = .user) ∧
    (let s : State := { idling 0 with dev := { base.dev with mgmt := { base.dev.mgmt with pending := true } } }
     s.dev.mgmt.pending = true ∧ s.cur = s.dev.mgmt.mgtgt.toNat ∧ s.h.mode = .machine ∧ s.h.idleFrom.isSome = true ∧
      s.h.strip.buf = [] ∧ entryWaits (earlyCommit 3 s) = false ∧ entryWaits s = false ∧ s.h.latch = none) ∧
    ((1 ≤ 8 ∧ 8 ≤ 8) ∧ (0x29 ≤ 0x31 ∧ 0x31 ≤ 0x31) ∧ ¬((1 ≤ 0x28 ∧ 0x28 ≤ 8) ∨ (0x10 ≤ 0x28 ∧ 0x28 ≤ 0x27) ∨ (0x29 ≤ 0x28 ∧ 0x28 ≤ 0x31)) ∧
      base.h.latch = none ∧ base.h.vq = [] ∧ handled.h.latch = none ∧ handled.h.vq = [] ∧ entryWaits handled = false ∧ entryWaits base = false ∧
      (base.h.clock < 0 + 4096)) ∧
    (handled.h.inHandler = false ∧ wbit handled.h.csr.uivec 0 = true ∧
      (let c := channelOf handled 0 15
       c.uip = true ∧ c.held = false ∧ c.owner = coordSlot handled.cur) ∧
      (∀ j < 15, (channelOf handled 0 j).uip = false) ∧ handled.h.strip.buf = [] ∧ handled.h.pend = [] ∧
      (∀ c ∈ (coreOf base 0).channels.toList, c.uip = false)) ∧
    (wbit handled.h.csr.ufdeleg 5 = true ∧ wbit handled.h.csr.ufvec 0 = true ∧ wbit handled.h.csr.ufdeleg 0 = false) ∧
    ((aging 65536).h.strip.aged = false ∧ (aging 65536).h.strip.firstStore = some 0 ∧ 0 + 65536 ≤ (aging 65536).h.clock ∧
      (aging 65535).h.clock < 65536 ∧ checked.h.strip.early = false ∧ wbit checked.h.csr.indmask 0 = false ∧
      checked.h.strip.retry = false ∧ checked.h.strip.check.isSome = true ∧ (earlyCommit 2 checked).h.strip.early = true ∧
      (rewind checked).h.strip.retry = true) ∧
    (base.h.ops.length ≤ 0 ∧ loading.h.ops = [aLoad] ∧ aLoad.counter < 6 ∧
      okWhere (physRead loading.ctx pad 8 loading) (fun r => decide (r.1.h = loading.h) && decide (r.2.2 = none)) = true ∧
      aLoad.value = none ∧ aLoad.flit = none ∧ aLoad.shadow = loading.h.inHandler ∧ loading.Plain pad 8) ∧
    (nextPin base (coreOf base 0) = none ∧
      nextPin base (coreOf (pinned [⟨0, [(0, 0, 65536)], false⟩]) 0) = some ⟨0, [(0, 0, 65536)], false⟩ ∧
      pinsHeld (coreOf (pinned [⟨0, [(0, 0, 65536)], false⟩]) 0) + 1 ≤ 1024 ∧
      1024 < pinsHeld (coreOf (pinned [⟨1, List.replicate 1024 (0, 0, 65536), true⟩]) 0) + 1) ∧
    (base.h.waiting = none ∧ (onHart base fun h => { h with waiting := some (.channel pad 8) }).h.waiting = some (.channel pad 8) ∧
      blockingChannels base pad 8 = [] ∧ blockingChannels (channelled { armed8 with state := .running }) pad 8 ≠ []) := by
  refine ⟨⟨base_ready, rfl, idling_ready _⟩, ?_, ?_, ?_, ?_, ?_, ?_, ?_,
    ⟨?_, ?_, ?_, ?_, ?_, ?_, ?_, ⟨rfl, ?_, ?_, rfl, rfl, rfl, loaded_of rfl⟩⟩, ?_, ?_⟩ <;> decide +kernel
/-- Cluster 0's queue with a packet in it, in service. -/
def queued (p : Packet) : State := setQueue 48 { qctl := 0x301, fifo := [p] } padded
def dependent : Packet := { oneLaunch.packet with dep := some (0, 1) }
def counting : Packet := { oneLaunch.packet with done := some 0 }
def launched (p : Packet) (unfinished : Nat) (waiting : List Nat) : State :=
  { padded with dev := { padded.dev with launches := [(1, { oneLaunch with packet := p, unfinished := unfinished, waiting := waiting })] } }
/-- A stream that has produced these elements. -/
def produced (out : Option (List (Nat × List Byte))) (f : Option Nat) : Channel :=
  { armed8 with state := .running, issued := 8, streams := [{ oneStream with output := out, failAfter := f }] }
/-- Such a channel that waits for its engine's service, with these writes held. -/
def serving (held : List HeldWrite) : State := { channelled (produced none none) with
  dev := { base.dev with
    access := [(8 * (0x10 + engineOf 0), BitVec.ofNat 128 (0xFFFFFF * 2 ^ 64 + 7 * 2 ^ 61))], heldWrites := held
    served := [(engineOf 0, 1)] } }
/-- A launch that has ended, whose completion word lies at this address of the mapped hart's address space. -/
def finishing (va : Nat) : State :=
  let s := mapped 0x10000387
  { s with dev := { s.dev with launches := [(1, { oneLaunch with
      unfinished := 0, packet := { oneLaunch.packet with done := some va, root := 0x20000000, mode := .supervisor } })] } }
/-- What the dispatcher's reading of that word fails with. -/
def wordFails (s : State) (va : Nat) : Option PacketFail :=
  match (dispatcherReads (packetWord { oneLaunch.packet with root := 0x20000000, mode := .supervisor } va .rmw) s).1 with
  | .ok _ => none
  | .error e => some e
/-- A lane group that the harts in slots 0 and 1 share. -/
def sharing : State := { onHart padded fun h => { h with groups := [0] } with
  harts := [(1, { live := true, groups := [0], cls := 2 })] }
theorem witness_AgentEvents :
    (choosePacket (readyPackets (queued oneLaunch.packet)).2.dev.robin (readyPackets (queued oneLaunch.packet)).1 = some (48, oneLaunch.packet) ∧
      choosePacket (readyPackets padded).2.dev.robin (readyPackets padded).1 = none ∧ (∀ n < 64, queueOpen n padded = false)) ∧
    (48 < 64 ∧ queueOpen 48 (queued dependent) = true ∧ headPacket 48 (queued dependent) = (some dependent, queued dependent) ∧
      dependent.dep = some (0, 1) ∧ oneLaunch.packet.dep = none ∧
      okWhere (dispatcherReads (packetWord dependent 0 .read) (queued dependent)).1 (fun x => decide (x = ({}, 0))) = true ∧
      okWhere (physRead {} 0 8 (queued dependent)) (fun r => decide (natOfBytes r.2.1 < (1 : Word).toNat) && decide (r.2.2 = none)) = true ∧
      okWhere (physRead {} 0 8 { queued dependent with mem := Memory.writeBytes 0 [1] [] })
        (fun r => decide ((1 : Word).toNat ≤ natOfBytes r.2.1) && decide (r.2.2 = none)) = true) ∧
    (nextUnit padded = none ∧ ((nextUnit (launched oneLaunch.packet 1 [0])).map fun x => (x.1, x.2.2.1, x.2.2.2)) = some (1, 0, 1, [0]) ∧
      oneLaunch.packet.shape = 0 ∧ (0 : Nat) < (if oneLaunch.packet.shape = 1 then 3 else 1)) ∧
    (look 1 padded.dev.launches = none ∧ (look 1 (launched oneLaunch.packet 1 []).dev.launches).isSome = true ∧
      ((look 1 (launched counting 0 []).dev.launches).map fun l => (l.unfinished, l.packet.done)) = some (0, some 0) ∧
      okWhere (dispatcherReads (packetWord counting 0 .rmw) (launched counting 0 [])).1 (fun x => decide (x = ({}, 0))) = true ∧
      ((look 1 (finishing 0x10000).dev.launches).map fun l => (l.unfinished, l.packet.done)) = some (0, some 0x10000) ∧
      wordFails (finishing 0x10000) 0x10000 = none ∧ wordFails (finishing 0x20000) 0x20000 = some (4, 0) ∧
      wordFails { finishing 0x10000 with flaws := [(0x20000, .poison)] } 0x10000 = some (6, 0x20000) ∧
      wordFails { finishing 0x10000 with dev := { (finishing 0x10000).dev with heldWrites := [{ pa := 0x20000, bytes := [1] }] } } 0x10000 =
        some (0, 0) ∧
      okWhere (physRead {} 0 8 (launched counting 0 [])) (fun r => okWhere (physWrite {} 0 (bytesOf 8 1) r.1) fun _ => true) = true ∧
      physRead {} 0xF000000000 8 padded = .error (0x14, 0xF000000000) ∧
      physRead {} 0 8 { padded with dev := { padded.dev with heldWrites := [{ pa := 0, bytes := [1] }] } } = .error (0, 0)) ∧
    (3 < 4 ∧ ((sharers (onHart padded fun h => { h with groups := [0] }) 0 0).map (·.1)) = [0] ∧ (arbiterOf padded 0 0).fresh = false ∧
      (((sharers sharing 0 0).map fun e => (e.1, e.2.live)) = [(0, true), (1, true)] ∧ arbiterOf sharing 0 0 = {} ∧
       (let path : List Arbiter := [{ bound := none }, { pointer := slotFrom [0, 1] (slotFrom [0, 1] 0 + 1), fresh := false, deficits := put 0 0 [] }]
        path.length ≤ 16 ∧ slotFrom [0, 1] 0 = 0 ∧ 0 ∉ [1] ∧ (path.getLast?.map fun b => (b.pointer, b.fresh)) = some (1, false) ∧
          slotFrom [0, 1] 1 = 1 ∧ 1 ≤ min (lookD 0 1 (put 0 0 ([] : List (Nat × Nat))) + 4) 15))) ∧
    (15 < 16 ∧ (channelOf padded 0 0).state ≠ .running ∧
      (channelOf (channelled (produced none none)) 0 0) = produced none none ∧
      nextChannel (engineOf 0) (channelled armed8) ≠ some 0 ∧ nextChannel (engineOf 0) (channelled (produced none none)) = some 0 ∧
      engineChannels (engineOf 0) false (channelled (produced (some []) none)) = [] ∧ landingHeld 0 0 (channelled (produced (some []) (some 2))) = false ∧
      engineChannels (engineOf 0) false (channelled (produced none none)) = [0] ∧
      (let r := runRoutine ⟨0, 0, 0, .machine⟩ oneStream pad 1 (serving [])
       r.1.2 ≠ some 0 ∧ channelOf r.2 0 0 = produced none none) ∧
      (runRoutine ⟨0, 0, 0, .machine⟩ oneStream pad 1 (serving [{ pa := 0, bytes := [1] }])).1.2 = some 0 ∧
      (let s := onHart (channelled (produced (some []) (some 2))) fun h => { h with waiting := some (.channel pad 8) }
       s.h.waiting = some (.channel pad 8) ∧ coreIndex s.cur = 0 ∧ pad < armed8.base + armed8.expected * 2 ^ armed8.esize ∧
        armed8.base + armed8.landed * 2 ^ armed8.esize < pad + 8) ∧
      (produced (some []) (some 2)).streams = [{ oneStream with output := some [], failAfter := some 2 }] ∧ 2 ≠ 4) ∧
    (let c := produced (some [(0, [7])]) none
     (c.streams.flatMap fun st => (st.output.getD []).map fun e => (st.src, e.1, e.2)) = [(0, 0, [7])] ∧ c.ahead = [] ∧
      doneWhere (engWrite ⟨0, 0, 0, .machine⟩ 0 0 pad [7] (channelled c)) (fun _ s1 => decide (channelOf s1 0 0 = c) &&
        s1.dev.heldWrites.isEmpty) = true ∧ 0 = c.landed ∧ 0 + 1 ≠ c.expected ∧ ({ c with expected := 1 } : Channel).expected = 0 + 1 ∧
      failsWhere (engWrite ⟨0, 0, 0, .machine⟩ 0 0 0xF000000000 [7] (channelled c)) (fun f _ => decide (f ≠ 0)) = true ∧
      doneWhere (engWrite ⟨0, 0, 0, .machine⟩ 0 0 65536 [7] (migrating (serving []))) (fun _ s1 => decide (channelOf s1 0 0 = produced none none) &&
        decide (s1.dev.heldWrites.length = 1)) = true ∧
      failsWhere (engWrite ⟨0, 0, 0x20000000, .supervisor⟩ 0 0 0x10000 [7] { finishing 0 with
        dev := { (finishing 0).dev with heldWrites := [{ pa := 0x20000, bytes := [1] }] } }) (fun f _ => decide (f = 0)) = true) := by
  refine ⟨?_, ?_, ?_, ?_, ?_, ?_, ⟨?_, ?_, ?_, ?_, ?_, ?_, ?_, ?_, ?_⟩⟩ <;> decide +kernel
theorem witness_OutsideEvents : 15 < 16 ∧ 0x8000000000000 ≤ 0x8000000000000 ∧ 0x8000000000000 < 0x10000000000000 ∧ Memory.wf base.mem = true ∧
    (63 < 64 ∧ ¬(16 < 0 ∨ 2 ^ 4 < 16 - 0) ∧ (2 ^ wbits ({} : Queue).qbase 4 0 < 17 - ({} : Queue).head) ∧ wbit (2 : Word) 1 = true ∧
      wbit ({ qctl := 0x302 } : Queue).qctl 1 = true ∧ ({ qctl := 0x302, code := 1 } : Queue).code ≠ 5 ∧ wbit ({} : Queue).qctl 1 = false) ∧
    (barTarget 0x20000 = .reg .hwkey ∧ regAligned 0x20000 8 = true ∧ regAligned 0x20004 8 = false ∧ barTarget 0x30000 = .reserved ∧
      targetOf 0x190000010000 = .reg .clovest ∧
      okWhere (physWrite (requestCtx 0x3F0 base) 0x190000010000 (List.replicate 8 0) base) (fun _ => true) = true ∧
      okWhere (physWrite (requestCtx 0x3F0 base) 0x190000010004 (List.replicate 8 0) base) (fun _ => true) = false) ∧
    (base.hbm.cache = [] ∧ base.hbm.images = [] ∧ base.hbm.lost = [] ∧ base.dev.heldWrites = [] ∧
      (∀ e ∈ (lined true).hbm.cache, e.1 % 128 = 0) ∧ (lined true).hbm.cache ≠ [] ∧ (lined true).hbm.images = []) ∧
    (base.dev.mgmt.inReset = false ∧ ({ inReset := true } : Mgmt).inReset = true ∧
      (∀ e ∈ [((0xEFFFFFFFFF : Nat), (3 : Nat), (1 : Nat))], e.1 + e.2.2 ≤ 0xF000000000) ∧
      wbits (0xEFFFFFFF08 : Word) 51 8 * 256 + 256 * [List.replicate 256 (0 : Byte)].length ≤ 0xF000000000 ∧
      0x10000 ≤ 0x11FFF ∧ 0x11FFF < 0x12000 ∧ 0x12000 < 0x11FFF + 2 ∧ 0x11FFF + [(7 : Byte)].length ≤ 0x12000 ∧
      barTarget 0x10000 = .buffer ∧ (∀ r, targetOf 0 ≠ .reg r) ∧ (15 : Nat) < 16) ∧
    (base.dev.mgmt.running = none ∧ wbit base.dev.mgmt.mbdb 63 = false ∧ wbit (0x8000000000000000 : Word) 63 = true ∧
      natOfBytes (Memory.readBytes (Memory.writeBytes 0x190000020000 (bytesOf 4 4200) []) 0x190000020000 4) = 4200 ∧
      natOfBytes (Memory.readBytes base.mem 0x190000020000 4) < 1000 ∧ ({ running := some 4 } : Mgmt).running = some 4 ∧
      (0 = 0 ∨ 7 < 0) ∧ 7 < 8 ∧ 0 < 7 ∧ 7 ≤ 7) := by
  refine ⟨?_, ?_, ?_, ?_, ?_, ?_, ?_, ⟨?_, ?_, ?_, ?_, ?_, ?_, ?_, ?_, ?_, nofun, ?_⟩, ?_⟩ <;> decide +kernel
def linkUp (l : Link) (s : State) : State := { s with dev := { s.dev with links := s.dev.links.setIfInBounds 17 l } }
/-- A write of the hart in slot 0 that waits on link 17 for the acknowledgement of flit n. -/
def onLink (n : Nat) : HeldWrite := { pa := 0x11000000000, bytes := [7], coord := some 0, link := some (17, n) }
/-- Flit n with nothing in it, sent again k times; a counted load in flight in flit n of link 17. -/
def aFlit (n k : Nat) : Flit := { seq := n, ack := 0, msgs := [], bytes := [], table := [], retries := k }
def peerLoad (n : Nat) : CountedOp :=
  { kind := .load [(State.access 0x4010000000000, 8)] true 0, counter := 5, dest := some 3, copy := none, flit := some (17, n) }
theorem witness_LinkEvents : 17 < 18 ∧ 4095 < 4096 ∧ (linkOf base 17).up = false ∧
    (let l : Link := { up := true, expect := 4095, replay := [aFlit 3 0, aFlit 4 0] }
     let s := linkUp l base
     linkOf s 17 = l ∧ l.up = true ∧ 4095 = l.expect ∧ 4094 ≠ l.expect ∧ l.replay = [aFlit 3 0] ++ aFlit 4 0 :: [] ∧
      l.replay.length ≤ 1024 ∧ [aFlit 3 0].length < 1024 ∧ (aFlit 4 0).seq = 4 ∧ (∀ x ∈ [aFlit 3 0] ++ [], x.seq ≠ 4) ∧
      (∀ x ∈ l.replay, x.seq ≠ 9) ∧ (∀ x ∈ l.replay, x.retries < 16) ∧
      aFlit 3 16 ∈ (linkOf (linkUp { up := true, replay := [aFlit 3 16] } base) 17).replay ∧ 16 ≤ (aFlit 3 16).retries ∧
      s.dev.heldWrites = [] ∧ s.h.ops = []) ∧
    (∃ o : FlitArgs, o.crc ≠ crc32 (flitBody 0 o.seq o.ack o.payload)) ∧
    (let w := onLink 4
     w.link = some (17, 4) ∧ w.mask = [] ∧ w.ack = none ∧ w.coord = some base.cur ∧ w.store = none ∧ w.landing = none) ∧
    ((peerLoad 4).value = none ∧ (peerLoad 4).flit = some (17, 4) ∧ targetOf 0x4010000000000 = .peer 1 ∧ (peerLoad 4).counter < 6) ∧
    (base.h.live = true ∧ base.h.pfx = none ∧ ({} : State).h.live = false ∧
      doneWhere (translate 0x8000000000000 .read base) (fun x _ => decide (targetOf x.pa = .host)) = true ∧
      doneWhere (translate pad .read base) (fun x _ => decide (targetOf x.pa ≠ .host)) = true ∧
      targetOf 0x8000000000000 = .host ∧
      ∀ e ∈ ([.engineStreamStart ⟨0, 0⟩, .landing ⟨0, 0, 0⟩, .weightLoad ⟨0, 0⟩, .dispatchPacket] : List Instr),
        (match exec e { base with dev := { base.dev with silent := true } } with
          | .next _ => true
          | _ => false) = true) ∧
    (0 ∉ base.dev.mgmt.nominal ∧ 0 ∉ base.dev.mgmt.failing ∧ 0 ∈ ({ nominal := [0] } : Mgmt).nominal) := by
  refine ⟨?_, ?_, ?_, ?_, ⟨⟨17, 0, 0, 0, crc32 (flitBody 0 0 0 0) + 1⟩, fun h => ?_⟩, ?_, ?_, ⟨?_, ?_, ?_, ?_, ?_, ?_, ?_⟩, ?_⟩
  case refine_5 => simp at h
  all_goals decide +kernel
theorem witness_DecodeInvertsEncode : (Instr.add ⟨31, 31, 31, 7, true, 3⟩).wf = true ∧ (Instr.add ⟨31, 31, 31, 7, true, 3⟩).size ≠ 0 ∧
    (Instr.cNop ⟨0, 0⟩).wf = true ∧ (Instr.cNop ⟨0, 0⟩).size ≠ 0 ∧ decode [0x3E, 0x00] = .ok (.cNop ⟨0, 0⟩, 2) := by decide +kernel
/-- A hart at an ADD, at a word that does not decode, and one whose pc nothing maps. -/
def atWord (w : Nat) : State := { onHart base fun h => { h with pc := 0x100000000000 } with mem := Memory.writeBytes pad (bytesOf 4 w) [] }
theorem witness_StepRunsDecodedWord : (atWord 0x01C41181).h.live = true ∧ boundary (atWord 0x01C41181) = none ∧
    (atWord 0x01C41181).h.latch = none ∧ boundary (watching 0) = none ∧ (watching 0).h.latch.isSome = true ∧
    doneWhere (wordBytes (atWord 0x01C41181)) (fun bs _ => decide (decode bs = .ok (.add ⟨3, 1, 2, 7, false, 0⟩, 4))) = true ∧
    doneWhere (wordBytes (atWord 0xFFFFFFFF)) (fun bs s1 => (match decode bs with
      | .ok _ => false
      | .error _ => true) && decide (s1.h.pfx = none)) = true ∧
    unmapped.h.live = true ∧ boundary unmapped = none ∧
    failsWhere (wordBytes unmapped) (fun e s1 => (match e with
      | .trap c _ => decide (4 < c)
      | _ => false) && decide (s1.h.pfx = none)) = true ∧
    ((atWord 0x01C41181).h.mode = .machine ∧ (atWord 0x01C41181).h.waiting = none ∧ untranslatedType 0x190000000000 = 2 ∧
      untranslatedType pad = 0 ∧ untranslatedType (pad + 2) = 0 ∧ blockingChannels (atWord 0x01C41181) pad 2 = [] ∧
      blockingChannels (atWord 0x01C41181) (pad + 2) 2 = [] ∧
      (onHart (atWord 0) fun h => { h with waiting := some (.failed pad) }).h.waiting = some (.failed pad)) ∧
    okWhere (physRead (atWord 0x01C41181).ctx pad 2 (atWord 0x01C41181)) (fun r => (r.2.1.headD 0).getLsbD 0 && decide (r.2.2 = none) &&
      decide (r.1.h = (atWord 0x01C41181).h) && okWhere (physRead (atWord 0x01C41181).ctx (pad + 2) 2 r.1) fun r' => decide (r'.2.2 = none)) = true ∧
    okWhere (physRead (atWord 0x3E).ctx pad 2 (atWord 0x3E)) (fun r => !(r.2.1.headD 0).getLsbD 0) = true ∧
    (atWord 0).agenda = [] ∧ ({ atWord 0 with agenda := [.tick 1] } : State).agenda = [.tick 1] := by
  decide +kernel
/-- A hart with a VENQ in its vector queue, of which the port has no room or some, before a C.NOP or a VADD. -/
def portWaits (ports : List PortRow) (w : Nat) : State :=
  let s := ported [] ports [] (typed 0x002 0 256)
  { onHart s fun h => { h with
      pc := 0x100000000000, words := 1
      vq := [⟨⟨bytesOf 4 0x21C000D5, h.s, h.shadow, h.p, [], false, 0, some (0, false)⟩, 0, none, 0⟩] } with
    mem := Memory.writeBytes pad (bytesOf 4 w) [] }
theorem witness_StepRunsDecodedWord_queue :
    (runHead (portWaits [] 0x3E)).isSome = true ∧ runHead (portWaits (List.replicate 64 ⟨0, 8, 0, []⟩) 0x3E) = none ∧
    (let s := portWaits (List.replicate 64 ⟨0, 8, 0, []⟩) 0x3E
     s.h.live = true ∧ s.h.vq ≠ [] ∧ pressing s = false ∧ boundary s = none ∧
      doneWhere (wordBytes s) (fun bs s1 => passesQueue (natOfBytes bs) && decide (s1.h.vq.length = 1)) = true ∧
      doneWhere (wordBytes (portWaits (List.replicate 64 ⟨0, 8, 0, []⟩) 0x01C002A7)) (fun bs s1 =>
        !passesQueue (natOfBytes bs) && !joinsQueue (natOfBytes bs) && decide (s1.h.vq ≠ []) &&
          (decode bs).toOption.isSome) = true ∧
      s.h.vq.length < 16 ∧
      (let t := onHart s fun h => { h with waiting := some .port, latch := some ⟨[], h.s, h.shadow, h.p, [], false, 0, some (0, false)⟩ }
       t.h.waiting = some .port ∧ (t.h.latch.map fun l => l.settled) = some (some (0, false)) ∧ pressing t = false)) := by
  decide +kernel
theorem witness_StepKeepsMemoryCanonical : State.Inv (atWord 0x01C41181) ∧
    (match step (atWord 0x01C41181) with
      | .next t => decide (t.h.pc = 0x100000000004)
      | _ => false) = true := by
  refine ⟨?_, ?_⟩
  · unfold State.Inv
    decide +kernel
  · decide +kernel
/-! Results, each worked out by hand from the rule it names. -/
/-- Whether a word completes, with a next state that p holds of. -/
def after (i : Instr) (s : State) (p : State → Bool) : Bool :=
  match exec i s with
  | .next t => p t
  | _ => false
/-- What s3 holds once every result has arrived. -/
def s3 (t : State) : Word :=
  match t.h.pend with
  | [] => t.h.reg 3
  | e :: _ => e.value
/-- Whether an R-format word leaves w in s3, with a in s1 and b in s2. -/
def leaves (i : RArgs → Instr) (a b w : Word) : Bool :=
  after (i ⟨3, 1, 2, 7, false, 0⟩) (withRegs [(1, a), (2, b)] base) fun t => s3 t == w
theorem test_add_wraps : leaves .add 0xFFFFFFFFFFFFFFFF 2 1 = true := by decide +kernel
theorem test_sub_order : leaves .sub 5 7 0xFFFFFFFFFFFFFFFE = true := by decide +kernel
theorem test_andn_complements_second : leaves .andn 0xFF 0x0F 0xF0 = true := by decide +kernel
theorem test_shift_counts_modulo_64 : leaves .shl 3 65 6 = true := by decide +kernel
theorem test_sra_keeps_sign : leaves .sra 0x8000000000000000 63 0xFFFFFFFFFFFFFFFF = true := by decide +kernel
theorem test_rotl : leaves .rotl 0x8000000000000001 4 0x18 = true := by decide +kernel
theorem test_min_is_signed : leaves .min 0xFFFFFFFFFFFFFFFF 1 0xFFFFFFFFFFFFFFFF = true := by decide +kernel
theorem test_minn_is_unsigned : leaves .minn 0xFFFFFFFFFFFFFFFF 1 1 = true := by decide +kernel
theorem test_mulh_of_minus_ones : leaves .mulh 0xFFFFFFFFFFFFFFFF 0xFFFFFFFFFFFFFFFF 0 = true := by decide +kernel
theorem test_mulhn_of_ones : leaves .mulhn 0xFFFFFFFFFFFFFFFF 0xFFFFFFFFFFFFFFFF 0xFFFFFFFFFFFFFFFE = true := by decide +kernel
theorem test_div_truncates : leaves .div (-7) 2 (-3) = true := by decide +kernel
theorem test_remn_is_unsigned : leaves .remn 0xFFFFFFFFFFFFFFFF 10 5 = true := by decide +kernel
theorem test_clz_of_zero : leaves (fun o => .clz { o with b := 0 }) 0 0 64 = true := by decide +kernel
theorem test_sextb : leaves (fun o => .sextb { o with b := 0 }) 0x1280 0 0xFFFFFFFFFFFFFF80 = true := by decide +kernel
/-- R304: the immediate is signed, and LIH shifts by 12. -/
theorem test_addi_is_signed : after (.addi ⟨3, 1, 0xFFF⟩) (withRegs [(1, 0)] base) (fun t => s3 t == 0xFFFFFFFFFFFFFFFF) = true := by
  decide +kernel
/-- R316: 1.5 + 2.25 = 3.75; 1 / 3 rounded to nearest; 2 squared is 4. -/
theorem test_fadd : leaves .fadd 0x3FC00000 0x40100000 0x40700000 = true := by decide +kernel
theorem test_fdiv_rounds : leaves .fdiv 0x3F800000 0x40400000 0x3EAAAAAB = true := by decide +kernel
theorem test_fsqrtD : leaves (fun o => .fsqrtD { o with b := 0 }) 0x4000000000000000 0 0x3FF6A09E667F3BCD = true := by decide +kernel
/-- R307: −1 is below 1 as signed numbers; the second predicate is the complement. -/
theorem test_cmp_lt : after (.cmp ⟨1, 2, 1, 2, 7, false, 2⟩) (withRegs [(1, 0xFFFFFFFFFFFFFFFF), (2, 1)] base)
    (fun t => t.h.pred 1 && !t.h.pred 2) = true := by decide +kernel
/-- R51, R323: a compact form adds to the register last written. -/
theorem test_cAdd : after (.cAdd ⟨3, 2⟩) (onHart (withRegs [(1, 40), (2, 2)] base) fun h => { h with lastd := 1 })
    (fun t => s3 t == 42 && t.h.pc == 2) = true := by decide +kernel
/-- R166, R167: CSR 0x0C0 is VL. -/
theorem test_csrr_vl : after (.csrr ⟨3, 0, 0x0C0⟩) (typed 0x205 0 7) (fun t => s3 t == 7) = true := by decide +kernel
/-- R4: bytes are little-endian. -/
theorem test_read_little_endian : okWhere (physRead padded.ctx pad 4
    { padded with mem := Memory.writeBytes pad [0x78, 0x56, 0x34, 0x12] [] }) (fun r => natOfBytes r.2.1 == 0x12345678) = true := by
  decide +kernel
/-- R4: a byte written as zero is listed no longer. -/
theorem test_memory_is_canonical : Memory.writeBytes 3 [0] (Memory.writeBytes 2 [1, 2] []) = [(2, 1)] := by decide
/-- R54: the worked case of 03_main_memory. -/
theorem test_worked_line : stripeOf 0x12300 = 38 ∧ parityStack 38 = 6 ∧ dataStack 0x12300 = 3 ∧ homeSlice 0x12300 = 14 := by decide
/-- R116 routine 3: a skippable frame, then a frame of one RLE block (RFC 8878 sections 3.1.1.2.2 and 3.1.2). -/
theorem test_zstd_skips : zFrames (fun o => ([0x50, 0x2A, 0x4D, 0x18, 1, 0, 0, 0, 9, 0x28, 0xB5, 0x2F, 0xFD, 0x20, 6, 0x33, 0, 0, 0x61]
    : List Byte)[o]?) 6 9 0 [] = (List.replicate 6 0x61, .good, (19, none)) := by decide +kernel
/-- R116 codec 2: a frame that the reference library made, with matches and a checksum. -/
theorem test_zstd_frame : zOne 38 38 (bytesOf 34 0x6F76A7770118B92D393000023A656C6974206C6F73617571600000AD2624FD2FB528) =
    some (bytesOf 38 0x656C6974206C6F73617571203A656C6974206C6F73617571206C6F73617571206C6F73617571) := by decide +kernel
/-- R115: c.addi sp, -16 and c.bnez a5, 10 stand for addi and bne. -/
theorem test_routine_compressed : expand16 0x1141 = some 0xFF010113 ∧ expand16 0xE789 = some 0x00079563 ∧ expand16 0 = none := by decide +kernel
/-- R115: add a0, a0, a1; fdiv.d f1, f1, f2 of 1 and 3; ecall is none of them. -/
theorem test_routine_scalar :
    ((({ pc := 0 : Rv }.setReg 10 5).setReg 11 0xFFFFFFFFFFFFFFFE).compute 0x00B50533).map (fun r => r.reg 10) = some 3
    ∧ ((({ pc := 0 : Rv }.setFreg 1 0x3FF0000000000000).setFreg 2 0x4008000000000000).compute 0x1A20F0D3).map (fun r => (r.freg 1, r.fcsr)) =
      some (0x3FD5555555555555, 1)
    ∧ ({ pc := 0 : Rv }.compute 0x73) = none := by decide +kernel
/-- R115: vsetvli t0, a2, e8, m8 with 700 to do sets 512; vadd.vi v8, v8, 1 wraps in eight bits. -/
theorem test_routine_vector :
    ((({ pc := 0 : Rv }.setReg 12 700).opV 0x0C3672D7).map fun r => (r.vl, r.reg 5)) = some (512, 512)
    ∧ ((({ pc := 0, v := 0x01FF * 2 ^ 4096 : Rv }.setReg 12 2).opV 0x0C3672D7).bind fun r => (r.opV 0x0280B457).map fun r => r.v) =
      some (0x0200 * 2 ^ 4096) := by decide +kernel
/-- Whether a vector word of rows a and b leaves these bits in v3. -/
def leavesRow (i : VArgs → Instr) (v : Word) (n : Nat) (a b w : BitVec 4096) : Bool :=
  after (i ⟨3, 1, 2, 7, false, false, false⟩) (rowed a b (typed v 0 n)) fun t => ((t.h.rows[3]?.map fun r => r.bits) == some w)
theorem test_vadd_lanes_wrap : leavesRow .vadd 0x204 2 0xFFFFFFFF00000001 0x0000000100000002 3 = true := by decide +kernel
theorem test_vsub_order : leavesRow .vsub 0x204 1 5 7 0xFFFFFFFE = true := by decide +kernel
theorem test_vfadd : leavesRow .vfadd 0x00C 2 0x3F8000003FC00000 0x3F80000040100000 0x4000000040700000 = true := by decide +kernel
theorem test_vredo : leavesRow .vredo 0x204 3 0x000000030000000200000001 0x0000000A 0x00000010 = true := by decide +kernel
theorem test_vgathr : leavesRow .vgathr 0x204 2 0x0000000B0000000A 0x0000000000000001 0x0000000A0000000B = true := by decide +kernel
theorem test_viota : leavesRow (fun o => .viota { o with a := 0, b := 0 }) 0x204 3 0 0 0x000000020000000100000000 = true := by decide +kernel

end Sys2Proof.Tests
end

section
namespace Sys2Proof.Machine

/-! Requests of plain memory (R53, R128, R67, R70): what a machine-mode request within one sector answers. -/

/-- R128: where byte `off` of a core's scratchpad lies. -/
def padByte (cl core off : Nat) : Nat := 0x100000000000 + cl * 2 ^ 27 + core * 2 ^ 20 + off
theorem coordCluster_lt (c : Nat) : coordCluster c < 16 := Nat.mod_lt _ (by decide)
/-- R128: an address of a scratchpad names its cluster, core and offset. -/
theorem targetOf_padByte (cl core off : Nat) (hcl : cl < 16) (hc : core < 96) (ho : off < 2 ^ 20) :
    targetOf (padByte cl core off) = .scratch cl core off := by
  have hk : bits (padByte cl core off - 0x100000000000) 26 20 = core := by
    simp only [bits, padByte]
    omega
  have hlow : ¬padByte cl core off < 0xF000000000 := by simp only [padByte]; omega
  have hbase : ¬padByte cl core off < 0x100000000000 := by simp only [padByte]; omega
  have htop : padByte cl core off < 0x100080000000 := by simp only [padByte]; omega
  simp only [targetOf, hlow, hbase, htop, hk, hc, if_true, if_false, Target.scratch.injEq, true_and]
  simp only [padByte]
  omega
theorem targetOf_hbm (pa : Nat) (h : pa < 0xF000000000) : targetOf pa = .hbm := by simp [targetOf, h]

/-- R423: an access whose one sector holds no register is no misfit. -/
theorem registerMisfit_one (pa n : Nat) (h : ∀ r, targetOf pa ≠ .reg r) : registerMisfit [(pa, n)] pa n = false := by
  cases ht : targetOf pa with
  | reg r => exact absurd ht (h r)
  | _ => simp [registerMisfit, ht]
/-- R133, R70: a machine-mode request within its own cluster's scratchpads is admitted. -/
theorem checkRequest_pad (pa n core off : Nat) (rd wr : Bool) (s : State)
    (ht : targetOf pa = .scratch (coordCluster s.cur) core off) : checkRequest s.ctx pa n rd wr s = none := by
  simp [checkRequest, ht, State.ctx, ctxOf]
/-- R70, R65: a machine-mode read of HBM that nothing holds back is admitted. -/
theorem checkRequest_hbm (pa n : Nat) (s : State) (ht : targetOf pa = .hbm) (hh : s.dev.heldWrites = [])
    (hk : (keyOf s 0).isSome = true) : checkRequest s.ctx pa n true false s = none := by
  simp [checkRequest, ht, State.ctx, ctxOf, accessAllowed, heldOver, hh, Option.isSome_iff_ne_none.1 hk]
theorem checked_unflawed (pa n : Nat) (bs : List Byte) (s : State) (hf : look (pa / 32 * 32) s.flaws = none) :
    checked pa n bs s = (s, bs, false) := by simp [checked, hf]
/-- R93: a cached line is neither filled nor held. -/
theorem fillLine_cached (key line : Nat) (s : State) (h : cached s line = true) :
    fillLine key line (settleFor line s) = s := by simp [fillLine, settleFor, h]

/-- R128, R67: one sector's share of a read of the own cluster's scratchpads. -/
theorem readPiece_pad (pa n core off : Nat) (s : State) (ht : targetOf pa = .scratch (coordCluster s.cur) core off)
    (hf : look (pa / 32 * 32) s.flaws = none) :
    readPiece s.ctx pa n s = .ok (s, Memory.readBytes s.mem pa n, false) := by
  simp only [readPiece, checkRequest_pad pa n core off true false s ht, ht, checked_unflawed pa n _ s hf]
/-- R67, R88: one sector's share of a read of a cached line. -/
theorem readPiece_cached (pa n : Nat) (s : State) (ht : targetOf pa = .hbm) (hl : cached s (lineOf pa) = true)
    (hh : s.dev.heldWrites = []) (hk : (keyOf s 0).isSome = true) (hf : look (pa / 32 * 32) s.flaws = none) :
    readPiece s.ctx pa n s = .ok (s, Memory.readBytes s.mem pa n, false) := by
  simp only [readPiece, checkRequest_hbm pa n s ht hh hk, ht, fillLine_cached _ _ s hl, checked_unflawed pa n _ s hf]
/-- A read within one sector is that sector's share. -/
theorem physRead_one (pa n : Nat) (s : State) (bs : List Byte) (hn : 0 < n) (hs : pa % 32 + n ≤ 32)
    (ht : ∀ r, targetOf pa ≠ .reg r) (h : readPiece s.ctx pa n s = .ok (s, bs, false)) :
    physRead s.ctx pa n s = .ok (s, bs, none) := by
  have hm : movedTo s.ctx.moved pa = pa := rfl
  simp [physRead, sectors_one pa n hn hs, registerMisfit_one pa n ht, hm, readPieces, h]

theorem reportFailed_one (pa n : Nat) (s : State) (hn : 0 < n) (hs : pa % 32 + n ≤ 32)
    (hf : look (pa / 32 * 32) s.flaws = none) : reportFailed pa n s = s := by
  simp [reportFailed, sectors_one pa n hn hs, hf]
/-- R68, R88: bytes that merge into a sector without a flaw change memory, and break other harts' links. -/
theorem mergeBytes_one (pa : Nat) (bs : List Byte) (s : State) (hn : 0 < bs.length) (hs : pa % 32 + bs.length ≤ 32)
    (hf : look (pa / 32 * 32) s.flaws = none) :
    mergeBytes s.ctx pa bs s = (breakLinks (lineOf pa) (some s.cur)
      { s with mem := Memory.writeBytes pa bs s.mem, flaws := cut (pa / 32 * 32) s.flaws }, false) := by
  simp [mergeBytes, reportFailed_one pa _ s hn hs hf, hf, State.ctx, ctxOf]
theorem breakLinks_own (line : Nat) (s : State) : (breakLinks line (some s.cur) s).h = s.h := if_pos rfl
/-- A write within one sector of the own cluster's scratchpads is accepted. -/
theorem physWrite_pad (pa core off : Nat) (bs : List Byte) (s : State)
    (ht : targetOf pa = .scratch (coordCluster s.cur) core off) (hn : 0 < bs.length) (hs : pa % 32 + bs.length ≤ 32)
    (hf : look (pa / 32 * 32) s.flaws = none) :
    ∃ t, physWrite s.ctx pa bs s = .ok (t, none) ∧ t.h = s.h ∧ t.mem = Memory.writeBytes pa bs s.mem := by
  refine ⟨_, ?_, breakLinks_own (lineOf pa)
    { s with mem := Memory.writeBytes pa bs s.mem, flaws := cut (pa / 32 * 32) s.flaws }, rfl⟩
  have hm : registerMisfit [(pa, bs.length)] pa bs.length = false := registerMisfit_one pa _ (by simp [ht])
  have hd : divert s.ctx pa bs [] s = none := by simp [divert, ht]
  simp [physWrite, sectors_one pa _ hn hs, refusal, checkRequest_pad pa _ core off _ _ s ht, hm, writePieces, writePiece,
    hd, ht, mergeBytes_one pa bs s hn hs hf]

/-- Settles O13, by the laws of memory and the one share of a request within one sector. -/
theorem plainRequests : Obligations.PlainRequests := by
  refine ⟨fun m a x bs hm => ⟨Memory.wf_writeBytes a bs m hm, Memory.read_writeBytes a x bs m hm⟩,
    fun s pa n hn hs hf => ⟨?_, ?_⟩, ?_⟩
  · rintro core off hc ho rfl
    have ht := targetOf_padByte (coordCluster s.cur) core off (coordCluster_lt _) hc ho
    exact physRead_one _ n s _ hn hs (fun r e => nomatch ht.symm.trans e) (readPiece_pad _ n core off s ht hf)
  · intro hp hl hh hk
    have ht := targetOf_hbm pa hp
    exact physRead_one pa n s _ hn hs (by simp [ht]) (readPiece_cached pa n s ht hl hh hk hf)
  · intro s core off bs pa hm hc ho hs hb hf
    have ht := targetOf_padByte (coordCluster s.cur) core off (coordCluster_lt _) hc ho
    have hs' : pa % 32 + bs.length ≤ 32 := by simp only [pa]; omega
    obtain ⟨t, written, hart, mem⟩ := physWrite_pad pa core off bs s ht (List.length_pos_of_ne_nil hb) hs' hf
    refine ⟨t, written, hart, fun x => ?_⟩
    rw [mem, Memory.read_writeBytes pa x bs s.mem hm]
end Sys2Proof.Machine
end

section
namespace Sys2Proof.Machine

/-! The canonical form of memory through the model's operations (R4, R53, log 2), for O60. Four kinds of operation
answer a state: a function of it, one that may have no answer, one that may refuse, and a part of a monad's work,
  which leaves a
state also where it fails. One lemma per operation says that its answer's state is canonical where the one it began with
was: `f_inv` for a function of the state, `f_keeps` for a part of a monad's work. Only the operations that write bytes,
install a line or reset the machine change `mem` at all; what they do to it is in the lemmas about `Memory.wf`. -/

/-! The kinds of answer. -/

/-- An optional next state is canonical. -/
def OptionInv (r : Option State) : Prop := ∀ t ∈ r, t.Inv
/-- What a request answers holds a canonical state, which `st` picks; a refusal holds none. -/
def ExceptInv {ε α : Type} (st : α → State) : Except ε α → Prop
  | .ok x => (st x).Inv
  | .error _ => True
/-- The outcome of a step is canonical. -/
def ResultInv : Result → Prop
  | .next t => t.Inv
  | _ => True
/-- A monad's answer leaves a canonical state, also where it fails. -/
def AnswerInv {ε α : Type} : EStateM.Result ε State α → Prop
  | .ok _ t => t.Inv
  | .error _ t => t.Inv
/-- A part of a hart's, an engine's, the dispatcher's or the resolver's work keeps memory canonical. -/
def Keeps {ε α : Type} (a : EStateM ε State α) : Prop := ∀ s : State, s.Inv → AnswerInv (a s)

/-- Memory alone decides: a change of the other fields keeps the form. -/
theorem State.Inv.same {s : State} {cur : Nat} {h : Hart} {harts : List (Nat × Hart)} {slots : List (Nat × Slot)}
    {crews : List (Nat × Crew)} {cores : List (Nat × CoreState)} {clusters : List (Nat × Cluster)}
    {flaws : List (Nat × Flaw)} {hbm : Hbm} {tuples : TupleSpace} {dev : Device} {agenda : List Turn}
    {replies : List Reply} {freeCount : Nat} (hs : s.Inv) :
    State.Inv ⟨cur, h, harts, slots, crews, cores, clusters, s.mem, flaws, hbm, tuples, dev, agenda, replies,
      freeCount⟩ :=
  hs

theorem State.Inv.of_fst {α : Type} {p : State × α} {t : State} {x : α} (h : p.1.Inv) (e : p = (t, x)) : t.Inv := by
  subst e
  exact h
theorem State.Inv.of_snd {α : Type} {p : α × State} {t : State} {x : α} (h : p.2.Inv) (e : p = (x, t)) : t.Inv := by
  subst e
  exact h
theorem OptionInv.nothing : OptionInv none := fun _ h => (Option.not_mem_none _ h).elim
theorem OptionInv.next {t : State} (h : t.Inv) : OptionInv (some t) := by
  rintro _ ⟨⟩
  exact h
theorem OptionInv.of_some {r : Option State} {t : State} (h : OptionInv r) (e : r = some t) : t.Inv := h t e
theorem OptionInv.of_some_snd {α : Type} {r : Option (α × State)} {x : α} {t : State} (h : OptionInv (r.map Prod.snd))
    (e : r = some (x, t)) : t.Inv :=
  h t (Option.mem_map_of_mem Prod.snd e)
theorem OptionInv.getD {r : Option State} {s : State} (h : OptionInv r) (hs : s.Inv) : (r.getD s).Inv := by
  cases r with
  | none => exact hs
  | some t => exact h t rfl
theorem OptionInv.or {r r' : Option State} (h : OptionInv r) (h' : OptionInv r') : OptionInv (r.or r') := by
  cases r with
  | none => exact h'
  | some t => exact h
theorem OptionInv.map {α : Type} {f : α → State} (h : ∀ x, (f x).Inv) (r : Option α) : OptionInv (r.map f) := by
  cases r with
  | none => exact .nothing
  | some x => exact .next (h x)
theorem OptionInv.findSome {α : Type} {f : α → Option State} {l : List α} (h : ∀ x, OptionInv (f x)) :
    OptionInv (l.findSome? f) := by
  intro t e
  obtain ⟨x, _, hx⟩ := List.exists_of_findSome?_eq_some e
  exact h x t hx
theorem OptionInv.foldl {α : Type} {f : Option State → α → Option State} {r : Option State} {l : List α}
    (h : ∀ r, ∀ x ∈ l, OptionInv r → OptionInv (f r x)) (hr : OptionInv r) : OptionInv (l.foldl f r) := by
  induction l generalizing r with
  | nil => exact hr
  | cons x l ih =>
    exact ih (fun r y hy => h r y (List.mem_cons_of_mem x hy)) (h r x List.mem_cons_self hr)
theorem ExceptInv.of_ok {ε : Type} {r : Except ε State} {t : State} (h : ExceptInv id r) (e : r = .ok t) : t.Inv := by
  subst e
  exact h
theorem ExceptInv.of_ok_fst {ε α : Type} {r : Except ε (State × α)} {t : State} {x : α} (h : ExceptInv Prod.fst r)
    (e : r = .ok (t, x)) : t.Inv := by
  subst e
  exact h
theorem ExceptInv.map {ε α β : Type} {f : α → State × β} {r : Except ε α} (h : ∀ x, (f x).1.Inv) :
    ExceptInv Prod.fst (r.map f) := by
  cases r with
  | error e => trivial
  | ok x => exact h x
theorem ExceptInv.bind {ε α β : Type} {r : Except ε (State × α)} {f : State × α → Except ε (State × β)}
    (h : ExceptInv Prod.fst r) (hf : ∀ x : State × α, x.1.Inv → ExceptInv Prod.fst (f x)) :
    ExceptInv Prod.fst (r >>= f) := by
  cases r with
  | error e => trivial
  | ok x => exact hf x h
/-- A request that may be refused first. -/
theorem ExceptInv.guard {ε α : Type} {st : α → State} {c : Prop} [Decidable c] {e : ε} {r : Except ε α}
    (h : ExceptInv st r) :
    ExceptInv st (if c then .error e else r) := by
  split
  · trivial
  · exact h
theorem ResultInv.of_next {r : Result} {t : State} (h : ResultInv r) (e : r = .next t) : t.Inv := by
  subst e
  exact h
theorem AnswerInv.of_ok {ε α : Type} {r : EStateM.Result ε State α} {x : α} {t : State} (h : AnswerInv r)
    (e : r = .ok x t) :
    t.Inv := by
  subst e
  exact h
theorem AnswerInv.of_error {ε α : Type} {r : EStateM.Result ε State α} {x : ε} {t : State} (h : AnswerInv r)
    (e : r = .error x t) : t.Inv := by
  subst e
  exact h

/-- What each step of a fold keeps, the fold keeps. -/
theorem State.Inv.foldl {α : Type} {f : State → α → State} {s : State} {l : List α}
    (h : ∀ s x, s.Inv → (f s x).Inv) (hs : s.Inv) :
    (l.foldl f s).Inv := by
  induction l generalizing s with
  | nil => exact hs
  | cons x l ih => exact ih (h s x hs)
theorem State.Inv.foldl_fst {α β : Type} {f : State × β → α → State × β} {x : State × β} {l : List α}
    (h : ∀ x a, x.1.Inv → (f x a).1.Inv) (hx : x.1.Inv) : (l.foldl f x).1.Inv := by
  induction l generalizing x with
  | nil => exact hx
  | cons a l ih => exact ih (h x a hx)
theorem State.Inv.foldl_snd {α β : Type} {f : β × State → α → β × State} {x : β × State} {l : List α}
    (h : ∀ x a, x.2.Inv → (f x a).2.Inv) (hx : x.2.Inv) : (l.foldl f x).2.Inv := by
  induction l generalizing x with
  | nil => exact hx
  | cons a l ih => exact ih (h x a hx)

/-! The rules of a monad's work. -/

section
variable {ε α β : Type}

theorem Keeps.pure {x : α} : Keeps (Pure.pure x : EStateM ε State α) := fun _ hs => hs
theorem Keeps.throw {e : ε} : Keeps (MonadExcept.throw e : EStateM ε State α) := fun _ hs => hs
theorem Keeps.bind {a : EStateM ε State α} {f : α → EStateM ε State β} (ha : Keeps a) (hf : ∀ x, Keeps (f x)) :
    Keeps (a >>= f) := by
  intro s hs
  have first := ha s hs
  simp only [Bind.bind, EStateM.bind]
  cases e : a s with
  | ok x t => exact hf x t (first.of_ok e)
  | error x t => exact first.of_error e
/-- The state that a work reads is canonical. -/
theorem Keeps.get {f : State → EStateM ε State β} (hf : ∀ s : State, s.Inv → Keeps (f s)) :
    Keeps (MonadState.get >>= f) :=
  fun s hs => hf s hs s hs
theorem Keeps.set {t : State} (h : t.Inv) : Keeps (MonadStateOf.set t : EStateM ε State PUnit) := fun _ _ => h
theorem Keeps.update {f : State → State} (h : ∀ s : State, s.Inv → (f s).Inv) :
    Keeps (modify f : EStateM ε State PUnit) :=
  fun s hs => h s hs
theorem Keeps.map {a : EStateM ε State α} {f : α → β} (h : Keeps a) : Keeps (f <$> a) := by
  intro s hs
  have first := h s hs
  simp only [Functor.map, EStateM.map]
  cases e : a s with
  | ok x t => exact first.of_ok e
  | error x t => exact first.of_error e
theorem Keeps.forM {f : α → EStateM ε State PUnit} {l : List α} (h : ∀ x, Keeps (f x)) : Keeps (l.forM f) := by
  induction l with
  | nil => exact .pure
  | cons x l ih => exact .bind (h x) fun _ => ih
theorem Keeps.mapM {f : α → EStateM ε State β} {l : List α} (h : ∀ x, Keeps (f x)) : Keeps (l.mapM f) := by
  induction l with
  | nil => exact .pure
  | cons x l ih =>
    rw [List.mapM_cons]
    exact .bind (h x) fun _ => .bind ih fun _ => .pure
theorem Keeps.foldlM {f : β → α → EStateM ε State β} {l : List α} {b : β} (h : ∀ b x, Keeps (f b x)) :
    Keeps (l.foldlM f b) := by
  induction l generalizing b with
  | nil => exact .pure
  | cons x l ih => exact .bind (h b x) fun _ => ih
theorem Keeps.ite {c : Prop} [Decidable c] {a b : EStateM ε State α} (ha : Keeps a) (hb : Keeps b) :
    Keeps (if c then a else b) := by
  split
  · exact ha
  · exact hb
theorem Keeps.forIn {f : α → β → EStateM ε State (ForInStep β)} {l : List α} {b : β} (h : ∀ x b, Keeps (f x b)) :
    Keeps (ForIn.forIn l b f) := by
  induction l generalizing b with
  | nil => exact .pure
  | cons x l ih =>
    rw [List.forIn_cons]
    refine .bind (h x b) fun y => ?_
    cases y with
    | done b => exact .pure
    | yield b => exact ih
end

end Sys2Proof.Machine
end

section
namespace Sys2Proof.Machine

/-! Requests and registers. `Laws/Frame.lean` says what each request does to memory: it writes bytes, or it installs
a line, and both keep the form. -/

theorem breakLinks_inv {line : Nat} {by' : Option Nat} {s : State} (hs : s.Inv) : (breakLinks line by' s).Inv :=
  (breakLinks_request ..).canonical hs
theorem countUncorrectable_inv {array : Nat} {s : State} (hs : s.Inv) : (countUncorrectable array s).Inv :=
  (countUncorrectable_request ..).canonical hs
theorem reportFailed_inv {pa n : Nat} {s : State} (hs : s.Inv) : (reportFailed pa n s).Inv :=
  (reportFailed_request ..).canonical hs
theorem startWriteback_inv {line : Nat} {s0 : State} (hs : s0.Inv) : (startWriteback line s0).Inv :=
  (startWriteback_request ..).canonical hs
theorem applyDelta_inv {line : Nat} {s : State} (hs : s.Inv) : (applyDelta line s).Inv :=
  (applyDelta_request ..).canonical hs
theorem endWriteback_inv {line : Nat} {s : State} (hs : s.Inv) : (endWriteback line s).Inv :=
  (endWriteback_request ..).canonical hs
theorem settleStripe_inv {st : Nat} {s : State} (hs : s.Inv) : (settleStripe st s).Inv :=
  (settleStripe_request ..).canonical hs
theorem writebackLine_inv {line : Nat} {s : State} (hs : s.Inv) : (writebackLine line s).Inv :=
  (writebackLine_request ..).canonical hs
theorem dropLine_inv {line : Nat} {s : State} (hs : s.Inv) : (dropLine line s).Inv :=
  (dropLine_request ..).canonical hs
theorem fillLine_inv {key line : Nat} {s0 : State} (hs : s0.Inv) : (fillLine key line s0).Inv :=
  (fillLine_request ..).canonical hs
theorem sendOn_inv {i : Nat} {msg : Nat → PeerMsg} {s : State} (hs : s.Inv) : (sendOn i msg s).Inv :=
  (sendOn_request ..).canonical hs
theorem mergeBytes_inv {c : Ctx} {pa : Nat} {bs : List Byte} {s0 : State} (hs : s0.Inv) :
    (mergeBytes c pa bs s0).1.Inv :=
  (mergeBytes_request ..).canonical hs
theorem writeQctl_inv {machine : Bool} {n : Nat} {v : Word} {stop : Bool} {s : State} (hs : s.Inv) :
    (writeQctl machine n v stop s).Inv :=
  (writeQctl_request ..).canonical hs
theorem writeQtail_inv {n : Nat} {v : Word} {s : State} (hs : s.Inv) : (writeQtail n v s).Inv :=
  (writeQtail_request ..).canonical hs
theorem startCommand_inv {code : Nat} {s : State} (hs : s.Inv) : (startCommand code s).Inv :=
  (startCommand_request ..).canonical hs
theorem writeReg_inv {machine : Bool} {r : DevReg} {off : Nat} {bs : List Byte} {s : State} (hs : s.Inv) :
    (writeReg machine r off bs s).Inv :=
  (writeReg_request ..).canonical hs
theorem writeOwnwin_inv {c w : Nat} {v : Word} {s : State} (hs : s.Inv) : (writeOwnwin c w v s).Inv := by
  unfold writeOwnwin
  extract_lets cl old holder core base
  split
  exact .same hs
theorem raiseMsix_inv {v : Nat} {s : State} (hs : s.Inv) : (raiseMsix v s).Inv :=
  .same hs
theorem writeMbdone_inv {v : Word} {s : State} (hs : s.Inv) : (writeMbdone v s).Inv := by
  unfold writeMbdone
  extract_lets m mbdb
  clear_value mbdb
  exact raiseMsix_inv (.same hs)
theorem physRead_inv {c : Ctx} {pa n : Nat} {s : State} (hs : s.Inv) : ExceptInv Prod.fst (physRead c pa n s) := by
  cases e : physRead c pa n s with
  | error => trivial
  | ok x => exact (physRead_request _ _ _ _ _ _ _ e).canonical hs
theorem physWrite_inv {c : Ctx} {pa : Nat} {bs : List Byte} {s : State} (hs : s.Inv) :
    ExceptInv Prod.fst (physWrite c pa bs s) := by
  cases e : physWrite c pa bs s with
  | error => trivial
  | ok x => exact (physWrite_request _ _ _ _ _ _ e).canonical hs
theorem writeMasked_inv {c : Ctx} {pa : Nat} {bs mask : List Byte} {s : State} (hs : s.Inv) :
    ExceptInv Prod.fst (writeMasked c pa bs mask s) := by
  cases e : writeMasked c pa bs mask s with
  | error => trivial
  | ok x => exact (writeMasked_request _ _ _ _ _ _ _ e).canonical hs
theorem performStrip_inv {s : State} (hs : s.Inv) : (performStrip s).Inv :=
  (performStrip_committed ..).canonical hs
theorem earlyCommit_inv {why : Nat} {s : State} (hs : s.Inv) : (earlyCommit why s).Inv :=
  (earlyCommit_committed ..).canonical hs
theorem setHart_inv {coord : Nat} {h : Hart} {s : State} (hs : s.Inv) : (setHart coord h s).Inv := by
  unfold setHart
  split <;> exact .same hs
theorem answer_inv {initiator tag : Nat} {bytes : Option (List Byte)} {poison : Bool} {s : State} (hs : s.Inv) :
    (answer initiator tag bytes poison s).Inv := by
  unfold answer
  dsimp only
  split
  · exact .same hs
  · split
    · exact sendOn_inv (.same hs)
    · exact .same hs
theorem serveRead_inv {r : HeldRead} {s : State} (hs : s.Inv) : (serveRead r s).Inv := by
  unfold serveRead
  split
  · exact .same hs
  · exact answer_inv hs
  · exact answer_inv ((physRead_inv hs).of_ok_fst ‹_›)
end Sys2Proof.Machine
end

section
namespace Sys2Proof.Machine

/-! Accesses of a hart (R72 to R82, R112, R373 to R375). In a `do` block, `jp` is the work that follows a branch: it is
proved once, as `hjp`, for every branch that goes on to it. -/

theorem trapWith_keeps {α : Type} {cause : Nat} {tval : Word} : Keeps (trapWith cause tval : Act α) :=
  .throw
theorem waitFor_keeps {α : Type} {w : Wait} : Keeps (waitFor w : Act α) :=
  .throw
theorem getH_keeps : Keeps getH :=
  .get fun _ _ => .pure
theorem modH_keeps {f : Hart → Hart} : Keeps (modH f) :=
  .update fun _ hs => hs
theorem require_keeps {ok : Bool} {cause : Nat} {tval : Word} : Keeps (require ok cause tval) := by
  unfold require
  split
  · exact .pure
  · exact trapWith_keeps
theorem readEntry_inv {w : Walker} {pa : Nat} {s : State} (hs : s.Inv) : ExceptInv Prod.fst (readEntry w pa s) := by
  unfold readEntry
  split
  · exact trivial
  · exact trivial
  · exact trivial
  · exact (physRead_inv hs).of_ok_fst ‹_›
theorem walk_inv {w : Walker} {root va : Nat} {write : Bool} {s : State} (hs : s.Inv) :
    ExceptInv Prod.fst (walk w root va write s) := by
  unfold walk
  extract_lets fmt mark
  have hmark : ∀ a e s, s.Inv → (mark a e s).1.Inv := by
    intro _ _ _ hs
    unfold mark
    extract_lets e'
    clear_value e'
    split
    · exact hs
    · split
      · exact .same hs
      · split
        · exact (physWrite_inv hs).of_ok_fst ‹_›
        · exact hs
  refine .bind (readEntry_inv hs) fun (a, _) ha => .guard (.guard ?_)
  extract_lets a2
  refine .bind (readEntry_inv ha) fun (b, _) hb => .guard ?_
  extract_lets a3
  split
  · exact .guard (hmark _ _ _ hb)
  · exact .guard (.bind (readEntry_inv hb) fun (c, _) hc => .guard (.guard (hmark _ _ _ hc)))
theorem keepEntry_inv {coord : Nat} {t : TlbEntry} {s : State} (hs : s.Inv) : (keepEntry coord t s).Inv := by
  unfold keepEntry
  dsimp only
  split <;> exact .same hs
theorem findEntry_inv {coord : Nat} {w : Walker} {ptroot : Word} {v : Nat} {wr : Bool} {s : State} (hs : s.Inv) :
    ExceptInv Prod.fst (findEntry coord w ptroot v wr s) := by
  unfold findEntry
  dsimp only
  split
  · exact hs
  · split
    · exact keepEntry_inv hs
    · split
      · exact trivial
      · exact keepEntry_inv ((walk_inv hs).of_ok_fst ‹_›)
theorem translateFor_inv {coord : Nat} {w : Walker} {ptroot : Word} {mode : Mode} {va : Nat} {kind : AccKind}
    {s : State} (hs : s.Inv) :
    ExceptInv Prod.fst (translateFor coord w ptroot mode va kind s) := by
  unfold translateFor
  split
  · exact .map fun _ => hs
  · split
    · exact trivial
    · split
      · exact trivial
      · exact .map fun _ => (findEntry_inv hs).of_ok_fst ‹_›
theorem translateKept_inv {mode : Mode} {va : Nat} {kind : AccKind} {s : State} (hs : s.Inv) :
    ExceptInv Prod.fst (translateKept mode va kind s) := by
  unfold translateKept
  dsimp only
  split
  · exact .map fun _ => hs
  · split
    · exact trivial
    · split
      · exact .map fun _ => hs
      · split
        · exact trivial
        · exact .map fun _ => .same ((findEntry_inv hs).of_ok_fst ‹_›)
theorem acquiresDone_keeps : Keeps acquiresDone := by
  unfold acquiresDone
  refine .get fun _ _ => ?_
  split
  · exact waitFor_keeps
  · exact .pure
theorem translateNow_keeps {mode : Mode} {va : Nat} {kind : AccKind} : Keeps (translateNow mode va kind) := by
  unfold translateNow
  refine .get fun _ hs => ?_
  split
  · exact .bind (.set ((translateKept_inv hs).of_ok_fst ‹_›)) fun _ => .pure
  · exact waitFor_keeps
  · exact trapWith_keeps
  · exact .throw
theorem translateAs_keeps {mode : Mode} {va : Nat} {kind : AccKind} : Keeps (translateAs mode va kind) :=
  .bind acquiresDone_keeps fun _ => translateNow_keeps
theorem translate_keeps {va : Nat} {kind : AccKind} : Keeps (translate va kind) :=
  .bind getH_keeps fun _ => translateAs_keeps
theorem translateParts_keeps {kind : AccKind} {ps : List (Nat × Nat)} : Keeps (translateParts kind ps) := by
  induction ps with
  | nil => exact .pure
  | cons p ps ih =>
    unfold translateParts
    exact .bind translate_keeps fun _ => .bind ih fun _ => .pure
theorem translateRange_keeps {va n : Nat} {kind : AccKind} : Keeps (translateRange va n kind) :=
  translateParts_keeps
theorem stampAccess_inv {n : Nat} {a : Access} {order : Nat} {store : Option Nat} {s : State} (hs : s.Inv) :
    (stampAccess n a order store s).Inv :=
  (stampAccess_request ..).canonical hs
theorem commit_keeps {why : Nat} : Keeps (commit why) :=
  .update fun _ hs => earlyCommit_inv hs
theorem readParts_keeps {ps : List (Access × Nat)} : Keeps (readParts ps) := by
  induction ps with
  | nil => exact .pure
  | cons p ps ih =>
    unfold readParts
    refine .get fun _ hs => ?_
    extract_lets held jp mode _
    have hjp : ∀ x, Keeps (jp x) := by
      intro _
      unfold jp
      dsimp only
      exact .bind ih fun _ => .pure
    split
    · exact .bind .pure fun _ => hjp _
    · split
      · exact .bind waitFor_keeps fun _ => hjp _
      · exact .bind trapWith_keeps fun _ => hjp _
      · exact .bind (.set ((physRead_inv hs).of_ok_fst ‹_›)) fun _ => .bind .pure fun _ => hjp _
theorem readValue_keeps {parts : List (Access × Nat)} {natural : Bool} : Keeps (readValue parts natural) := by
  unfold readValue
  refine .bind readParts_keeps fun _ => ?_
  dsimp only
  split
  · exact .throw
  · exact .pure
theorem orValue_keeps {act : Act Word} {v : Word} (hact : Keeps act) : Keeps (orValue act v) := by
  unfold orValue
  intro s hs
  dsimp only
  split
  · exact (hact _ hs).of_error ‹_›
  · exact (hact _ hs).of_error ‹_›
  · exact hact _ hs
theorem loadNow_keeps {o : CountedOp} {parts : List (Access × Nat)} {natural : Bool} :
    Keeps (loadNow o parts natural) := by
  unfold loadNow
  split
  · exact .pure
  · exact readValue_keeps
  · split
    · exact .pure
    · exact orValue_keeps readValue_keeps
theorem bindLoads_keeps {first : CountedOp → Bool} : Keeps (bindLoads first) := by
  unfold bindLoads
  refine .bind getH_keeps fun _ => ?_
  dsimp only
  refine .forM fun _ => .bind getH_keeps fun _ => ?_
  split
  · split
    · split
      · exact .bind loadNow_keeps fun _ => modH_keeps
      · exact .pure
    · exact .pure
  · exact .pure
theorem weightsRead_keeps {cls : Option Nat} {parts : List (Nat × Nat)} : Keeps (weightsRead cls parts) := by
  unfold weightsRead
  refine .get fun _ _ => ?_
  split
  · dsimp only
    split
    · exact waitFor_keeps
    · exact .pure
  · exact .pure
theorem performOwn_keeps {why : Nat} : Keeps (performOwn why) := by
  unfold performOwn
  refine .get fun _ _ => ?_
  extract_lets jp
  have hjp : ∀ x, Keeps (jp x) := by
    intro _
    refine .bind bindLoads_keeps fun _ => .bind commit_keeps fun _ => .get fun _ _ => ?_
    split
    · exact waitFor_keeps
    · exact .pure
  split
  · exact .bind waitFor_keeps fun _ => hjp ()
  · exact hjp ()
theorem performEarlier_keeps {why : Nat} : Keeps (performEarlier why) :=
  .bind weightsRead_keeps fun _ => performOwn_keeps
theorem watermark_keeps {va n : Nat} : Keeps (watermark va n) := by
  unfold watermark
  refine .get fun _ _ => ?_
  dsimp only
  split
  · exact trapWith_keeps
  · split
    · exact .pure
    · exact .bind commit_keeps fun _ => waitFor_keeps
theorem plainChecks_keeps {va align : Nat} {parts : List (Nat × Nat × Xlat)} : Keeps (plainChecks va align parts) := by
  unfold plainChecks
  extract_lets jp
  have hjp : ∀ x, Keeps (jp x) := by
    intro _
    unfold jp
    split
    · exact trapWith_keeps
    · exact .pure
  split
  · exact .bind trapWith_keeps fun _ => hjp ()
  · exact hjp ()
theorem loadCommits_keeps {cls : Option Nat} {parts : List (Nat × Nat × Xlat)} : Keeps (loadCommits cls parts) := by
  unfold loadCommits
  split
  · exact performEarlier_keeps
  · refine .bind weightsRead_keeps fun _ => .bind getH_keeps fun _ => ?_
    dsimp only
    split
    · exact .bind bindLoads_keeps fun _ => commit_keeps
    · refine .bind bindLoads_keeps fun _ => ?_
      split
      · exact commit_keeps
      · exact .pure
theorem loadBytes_keeps {cls : Option Nat} {va n align : Nat} : Keeps (loadBytes cls va n align) := by
  unfold loadBytes
  refine .bind translateRange_keeps fun _ => .bind plainChecks_keeps fun _ => .bind watermark_keeps fun _ =>
    .bind loadCommits_keeps fun _ => .get fun _ _ => .bind readParts_keeps fun _ => ?_
  dsimp only
  split
  · exact .throw
  · exact .pure
theorem bufferStore_keeps {cls : Option Nat} {a : Access} {bs : List Byte} {mask : List Byte} :
    Keeps (bufferStore cls a bs mask) := by
  unfold bufferStore
  extract_lets secs jp
  have hjp : ∀ x, Keeps (jp x) := by
    intro _
    refine .bind getH_keeps fun _ => ?_
    dsimp only
    exact .bind modH_keeps fun _ => .pure
  refine .bind getH_keeps fun _ => ?_
  dsimp only
  split
  · exact .bind commit_keeps fun _ => hjp ()
  · exact hjp ()
theorem tryWrite_keeps {vector : Bool} {a : Access} {bs : List Byte} {mask : List Byte} :
    Keeps (tryWrite vector a bs mask) := by
  unfold tryWrite
  refine .get fun _ hs => ?_
  extract_lets c place jp
  have hjp : ∀ x, Keeps (jp x) := fun _ => .pure
  split
  · exact waitFor_keeps
  · split
    · exact .bind modH_keeps fun _ => .pure
    · exact trapWith_keeps
  · refine .bind (.set (stampAccess_inv ((writeMasked_inv hs).of_ok_fst ‹_›))) fun _ => ?_
    split
    · exact .bind modH_keeps fun _ => hjp ()
    · exact hjp ()
theorem tryWriteOn_keeps {vector : Bool} {typ : Nat} {a : Access} {bs : List Byte} {mask : List Byte} :
    Keeps (tryWriteOn vector typ a bs mask) := by
  unfold tryWriteOn
  refine .get fun _ _ => ?_
  extract_lets n
  refine .bind tryWrite_keeps fun _ => ?_
  extract_lets jp
  have hjp : ∀ x, Keeps (jp x) := fun _ => .pure
  split
  · exact .bind (.update fun _ hs_1 => .same hs_1) fun _ => hjp ()
  · exact hjp ()
theorem writeNow_keeps {vector : Bool} {typ : Nat} {a : Access} {bs : List Byte} {mask : List Byte} :
    Keeps (writeNow vector typ a bs mask) :=
  .bind tryWriteOn_keeps fun _ => .pure
theorem storeParts_keeps {cls : Option Nat} {vector : Bool} {ps : List (Nat × Nat × Xlat)} {bs mask : List Byte} :
    Keeps (storeParts cls vector ps bs mask) := by
  induction ps generalizing bs mask with
  | nil => exact .pure
  | cons p ps ih =>
    unfold storeParts
    refine .get fun _ _ => ?_
    extract_lets a jp
    have hjp : ∀ x, Keeps (jp x) := fun _ => .bind ih fun _ => .pure
    refine .bind weightsRead_keeps fun _ => ?_
    split
    · exact .bind performEarlier_keeps fun _ => .bind writeNow_keeps fun _ => .bind .pure fun _ => hjp _
    · exact .bind bindLoads_keeps fun _ => .bind bufferStore_keeps fun _ => .bind .pure fun _ => hjp _
theorem storeBytes_keeps {cls : Option Nat} {va align : Nat} {bs : List Byte} : Keeps (storeBytes cls va align bs) :=
  .bind translateRange_keeps fun _ => .bind plainChecks_keeps fun _ => .bind watermark_keeps fun _ => storeParts_keeps
theorem releasePins_inv {coord : Nat} {s : State} (hs : s.Inv) : (releasePins coord s).Inv := by
  unfold releasePins
  dsimp only
  split
  · exact .same hs
  · exact hs
theorem admitNext_inv {core : Nat} {s : State} (hs : s.Inv) : (admitNext core s).Inv := by
  unfold admitNext
  dsimp only
  split
  · exact hs
  · split
    · exact .same hs
    · exact hs
theorem admitPins_keeps {pages : List (Nat × Nat × Nat)} : Keeps (admitPins pages) := by
  unfold admitPins
  split
  · exact .pure
  · extract_lets jp
    have hjp : ∀ x, Keeps (jp x) := by
      intro _
      refine .get fun _ _ => ?_
      extract_lets ci mine jp1
      have hjp1 : ∀ x, Keeps (jp1 x) := by
        intro _
        refine .bind (.update fun _ hs_1 => admitNext_inv hs_1) fun _ => .get fun _ hs_1 => ?_
        split
        · exact waitFor_keeps
        · exact .pure
      clear_value mine
      split
      · split
        · exact .pure
        · exact hjp1 ()
      · refine .bind (.update fun _ hs_1 => ?_) fun _ => hjp1 ()
        dsimp only
        exact .same hs_1
    split
    · exact .bind trapWith_keeps fun _ => hjp ()
    · exact hjp ()
theorem writeNowParts_keeps {vector : Bool} {ps : List (Nat × Nat × Xlat)} {bs : List Byte} :
    Keeps (writeNowParts vector ps bs) := by
  induction ps generalizing bs with
  | nil => exact .pure
  | cons p ps ih =>
    unfold writeNowParts
    exact .get fun _ _ => .bind writeNow_keeps fun _ => ih
theorem storeRelease_keeps {why va : Nat} {bs : List Byte} : Keeps (storeRelease why va bs) :=
  .bind translateRange_keeps fun _ => .bind plainChecks_keeps fun _ => .bind watermark_keeps fun _ =>
    .bind performEarlier_keeps fun _ => writeNowParts_keeps
end Sys2Proof.Machine
end

section
namespace Sys2Proof.Machine

/-! The matrix sequencers (R275 to R289), trap entry and containment (R364 to R376), and the issue of a word
(R35 to R50). -/

theorem setQuad_inv {c q : Nat} {v : Quadrant} {s : State} (hs : s.Inv) : (setQuad c q v s).Inv := by
  unfold setQuad
  dsimp only
  exact .same hs
theorem raiseMstat_inv {c f : Nat} {s : State} (hs : s.Inv) : (raiseMstat c f s).Inv := by
  unfold raiseMstat
  split
  · exact setHart_inv hs
  · exact hs
theorem seqFinish_inv {c q : Nat} {s : State} (hs : s.Inv) : (seqFinish c q s).Inv :=
  setQuad_inv hs
theorem seqFail_inv {c q err : Nat} {s : State} (hs : s.Inv) : (seqFail c q err s).Inv := by
  unfold seqFail
  dsimp only
  exact setQuad_inv hs
theorem seqHalt_inv {c q : Nat} {s : State} (hs : s.Inv) : (seqHalt c q s).Inv := by
  unfold seqHalt
  dsimp only
  split
  · exact setQuad_inv hs
  · exact hs
theorem macStep_inv {c q : Nat} {s : State} (hs : s.Inv) : (macStep c q s).1.Inv := by
  unfold macStep
  dsimp only
  split
  · split
    · exact hs
    · exact seqFail_inv hs
    · exact setQuad_inv hs
  · split
    · split
      · exact setQuad_inv hs
      · exact seqFinish_inv hs
    · split
      · exact hs
      · split
        · exact seqFail_inv (setQuad_inv hs)
        · exact setQuad_inv (raiseMstat_inv hs)
theorem zeroRow_inv {c q n : Nat} {s : State} (hs : s.Inv) : (zeroRow c q n s).Inv := by
  unfold zeroRow
  dsimp only
  exact setQuad_inv hs
theorem zeroStep_inv {c q : Nat} {s : State} (hs : s.Inv) : (zeroStep c q s).1.Inv := by
  unfold zeroStep
  dsimp only
  split
  · exact seqFinish_inv hs
  · exact setQuad_inv (zeroRow_inv hs)
theorem drainStep_inv {c q : Nat} {s : State} (hs : s.Inv) : (drainStep c q s).1.Inv := by
  unfold drainStep
  dsimp only
  split
  · exact seqFinish_inv hs
  · split
    · split
      · exact hs
      · exact setQuad_inv (raiseMstat_inv hs)
    · split
      · exact hs
      · exact setQuad_inv (raiseMstat_inv hs)
theorem seqStep_inv {c q : Nat} {s : State} (hs : s.Inv) : (seqStep c q s).1.Inv := by
  unfold seqStep
  dsimp only
  split
  · exact hs
  · split
    · exact macStep_inv hs
    · exact drainStep_inv hs
    · exact zeroStep_inv hs
    · exact seqFinish_inv hs
theorem readGranule_inv {c : Nat} {parts : List (Access × Nat)} {off : Nat} {s : State} (hs : s.Inv) :
    (readGranule c parts off s).1.Inv := by
  unfold readGranule
  split
  · exact hs
  · dsimp only
    split
    · exact hs
    · split
      · exact (physRead_inv hs).of_ok_fst ‹_›
      · exact hs
theorem readWeights_inv {c : Nat} {s : State} (hs : s.Inv) : OptionInv (readWeights c s) := by
  unfold readWeights
  split
  · exact .nothing
  · split
    · exact .nothing
    · dsimp only
      exact .next (.same (.foldl_fst (fun _ _ hs_1 => readGranule_inv hs_1) hs))
theorem writeWeights_inv {c : Nat} {s : State} (hs : s.Inv) : OptionInv (writeWeights c s) := by
  unfold writeWeights
  dsimp only
  split
  · exact .nothing
  · split
    · exact .nothing
    · split
      · exact .nothing
      · exact .next (.same hs)
theorem loadWeights_inv {c : Nat} {s : State} (hs : s.Inv) : OptionInv (loadWeights c s) := by
  unfold loadWeights
  split
  · exact .next (OptionInv.getD (writeWeights_inv ((readWeights_inv hs).of_some ‹_›)) ((readWeights_inv hs).of_some
      ‹_›))
  · exact writeWeights_inv hs
theorem runToPoint_inv {c q n : Nat} {s : State} (hs : s.Inv) : (runToPoint c q n s).Inv := by
  induction n generalizing s with
  | zero => exact hs
  | succ n ih =>
    unfold runToPoint
    split
    · exact (seqStep_inv hs).of_fst ‹_›
    · exact seqHalt_inv ((seqStep_inv hs).of_fst ‹_›)
    · exact seqHalt_inv ((seqStep_inv hs).of_fst ‹_›)
    · exact ih ((seqStep_inv hs).of_fst ‹_›)
    · split
      · exact ih ((loadWeights_inv ((seqStep_inv hs).of_fst ‹_›)).of_some ‹_›)
      · exact (seqStep_inv hs).of_fst ‹_›
theorem finishLoads_inv {c n : Nat} {s : State} (hs : s.Inv) : (finishLoads c n s).Inv := by
  induction n generalizing s with
  | zero => exact hs
  | succ n ih =>
    unfold finishLoads
    split
    · exact ih ((loadWeights_inv hs).of_some ‹_›)
    · exact hs
theorem stopQuadrants_inv {c : Nat} {s : State} (hs : s.Inv) : (stopQuadrants c s).Inv := by
  unfold stopQuadrants
  dsimp only
  refine finishLoads_inv (.foldl (fun _ _ hs_1 => ?_) hs)
  split
  · exact runToPoint_inv hs_1
  · exact hs_1
theorem writeD_keeps {d : BitVec 5} {v : Word} {lat : Nat} {flags : Nat} {locked : Bool} :
    Keeps (writeD d v lat flags locked) :=
  modH_keeps
theorem readS_keeps {n : BitVec 5} : Keeps (readS n) :=
  .bind getH_keeps fun _ => .pure
theorem dropWaitingPin_inv {coord : Nat} {s : State} (hs : s.Inv) : (dropWaitingPin coord s).Inv := by
  unfold dropWaitingPin
  dsimp only
  split
  · exact .same hs
  · exact hs
theorem endPins_inv {s : State} (hs : s.Inv) : (endPins s).Inv := by
  unfold endPins
  split
  · exact dropWaitingPin_inv hs
  · exact releasePins_inv hs
theorem quietUnits_inv {s : State} (hs : s.Inv) : (quietUnits s).Inv := by
  unfold quietUnits
  refine endPins_inv ?_
  split
  · exact stopQuadrants_inv hs
  · exact hs
theorem whenEntered_inv {f : State → State} {s : State} (hf : ∀ s : State, s.Inv → (f s).Inv) (hs : s.Inv) :
    (whenEntered f s).Inv := by
  unfold whenEntered
  split
  · exact hf _ hs
  · dsimp only
    exact .same (quietUnits_inv hs)
theorem dropRequests_inv {coord : Nat} {s : State} (hs : s.Inv) : (dropRequests coord s).Inv := by
  unfold dropRequests
  split
  · exact hs
  · exact .same hs
theorem takeTrap_inv {cause : Nat} {int imp : Bool} {tval epc : Word} {pfxs : Option Nat} {s : State} (hs : s.Inv) :
    (takeTrap cause int imp tval epc pfxs s).Inv := by
  unfold takeTrap
  extract_lets s0 s1 s2 h m bank h1
  have hs1 : s1.Inv := earlyCommit_inv (.same (quietUnits_inv (dropRequests_inv hs)))
  clear_value s1
  have hs2 : s2.Inv := by
    unfold s2
    split <;> exact hs1
  clear_value s2
  split <;> exact hs2
theorem enterUser_inv {ret target : Word} {s : State} (hs : s.Inv) : (enterUser ret target s).Inv := by
  unfold enterUser
  dsimp only
  exact .same (earlyCommit_inv (.same (endPins_inv (dropRequests_inv hs))))
theorem takeCheckpoint_inv {next : Word} {s : State} (hs : s.Inv) : (takeCheckpoint next s).Inv := by
  unfold takeCheckpoint
  dsimp only
  exact .same (performStrip_inv hs)
theorem rewind_inv {s0 : State} (hs : s0.Inv) : (rewind s0).Inv := by
  unfold rewind
  dsimp only
  split
  · exact endPins_inv hs
  · exact .same (endPins_inv hs)
theorem containError_inv {data : Bool} {addr : Nat} {s : State} (hs : s.Inv) : (containError data addr s).Inv := by
  unfold containError
  split
  · exact rewind_inv hs
  · refine whenEntered_inv (fun _ hs_1 => ?_) hs
    split <;> exact takeTrap_inv hs_1
theorem wordTrap_inv {word' : Nat} {cause : Nat} {tval : Word} {s : State} (hs : s.Inv) :
    (wordTrap word' cause tval s).Inv := by
  unfold wordTrap
  dsimp only
  refine whenEntered_inv (fun _ hs_1 => ?_) hs
  repeat' split
  all_goals exact takeTrap_inv hs_1
theorem deliver_inv {word' : Nat} {e : Exc} {s : State} (hs : s.Inv) : (deliver word' e s).Inv := by
  unfold deliver
  split
  · exact .same hs
  · exact wordTrap_inv hs
  · dsimp only
    split
    · exact .same (enterUser_inv hs)
    · exact wordTrap_inv hs
  · exact containError_inv (reportFailed_inv hs)
theorem latchWait_inv {i : Info} {l : Latch} {w : Wait} {s : State} (hs : s.Inv) : (latchWait i l w s).Inv := by
  unfold latchWait
  dsimp only
  exact .same hs
theorem runLatched_keeps {i : Info} {l : Latch} {body : Act Flow} (hbody : Keeps body) :
    Keeps (runLatched i l body) := by
  unfold runLatched
  intro s hs
  dsimp only
  split
  · exact .same ((hbody _ (.same hs)).of_ok ‹_›)
  · exact latchWait_inv (.same ((hbody _ (.same hs)).of_error ‹_›))
  · exact .same ((hbody _ (.same hs)).of_error ‹_›)
theorem runFirst_keeps {i : Info} {body : Act Flow} (hbody : Keeps body) : Keeps (runFirst i body) := by
  unfold runFirst
  intro s hs
  dsimp only
  split
  · exact latchWait_inv ((hbody _ hs).of_error ‹_›)
  · exact hbody _ hs
theorem issueChecks_keeps {i : Info} {legal pairLegal later : Act Unit} (hlegal : Keeps legal)
    (hpairLegal : Keeps pairLegal) (hlater : Keeps later) :
    Keeps (issueChecks i legal pairLegal later) := by
  unfold issueChecks
  refine .bind modH_keeps fun _ => .bind getH_keeps fun _ => ?_
  extract_lets jp jp1 jp2
  have hjp : ∀ x, Keeps (jp x) := by
    intro _
    refine .bind getH_keeps fun _ => ?_
    dsimp only
    refine .bind require_keeps fun _ => ?_
    split
    · exact .pure
    · exact .bind modH_keeps fun _ => .bind getH_keeps fun _ => .bind require_keeps fun _ => .pure
  have hjp1 : ∀ x, Keeps (jp1 x) := by
    intro _
    refine .bind require_keeps fun _ => .bind require_keeps fun _ => .bind hlater fun _ => ?_
    split
    · exact .bind waitFor_keeps fun _ => hjp ()
    · exact .bind modH_keeps fun _ => hjp ()
  have hjp2 : ∀ x, Keeps (jp2 x) := by
    intro _
    refine .bind require_keeps fun _ => .bind hlegal fun _ => .bind require_keeps fun _ => ?_
    split
    · exact .bind hpairLegal fun _ => hjp1 ()
    · exact hjp1 ()
  split
  · exact .bind waitFor_keeps fun _ => hjp2 ()
  · exact hjp2 ()
theorem issueAct_keeps {i : Info} {legal pairLegal later : Act Unit} {body : Act Flow} (hlegal : Keeps legal)
    (hpairLegal : Keeps pairLegal) (hlater : Keeps later) (hbody : Keeps body) :
    Keeps (issueAct i legal pairLegal later body) := by
  unfold issueAct
  refine .bind getH_keeps fun _ => ?_
  extract_lets jp
  have hjp : ∀ x, Keeps (jp x) := by
    intro _
    refine .bind getH_keeps fun _ => ?_
    split
    · exact .bind modH_keeps fun _ => runLatched_keeps hbody
    · refine .bind (issueChecks_keeps hlegal hpairLegal hlater) fun _ => ?_
      split
      · exact runFirst_keeps hbody
      · exact .pure
  split
  · exact .bind trapWith_keeps fun _ => hjp ()
  · exact hjp ()
theorem issue_inv {i : Info} {body : Act Flow} {s : State} {legal : Act Unit} {pairLegal : Act Unit}
    {later : Act Unit} (hbody : Keeps body) (hlegal : Keeps legal) (hpairLegal : Keeps pairLegal)
    (hlater : Keeps later) (hs : s.Inv) :
    ResultInv (issue i body s legal pairLegal later) := by
  unfold issue
  split
  · exact trivial
  · split
    · exact .same ((issueAct_keeps hlegal hpairLegal hlater hbody _ hs).of_ok ‹_›)
    · exact deliver_inv ((issueAct_keeps hlegal hpairLegal hlater hbody _ hs).of_error ‹_›)
theorem andNext_keeps {a : Act Unit} (ha : Keeps a) : Keeps (andNext a) :=
  .bind ha fun _ => .pure
theorem counterRoom_keeps {c : Nat} : Keeps (counterRoom c) := by
  unfold counterRoom
  refine .bind getH_keeps fun _ => ?_
  split
  · exact waitFor_keeps
  · exact .pure
theorem raiseCounter_keeps {c : Nat} : Keeps (raiseCounter c) :=
  modH_keeps
theorem addOp_keeps {kind : OpKind} {c : Nat} {dest : Option Nat} : Keeps (addOp kind c dest) :=
  .bind raiseCounter_keeps fun _ => modH_keeps
end Sys2Proof.Machine
end

section
namespace Sys2Proof.Machine

/-! Scalar words: integer, floating point, and branches (R302 to R317, R323, R356). -/

theorem binaryWord_inv {major func : Nat} {f : Word → Word → Word} {lat : Nat} {o : RArgs} {s : State}
    (hs : s.Inv) :
    ResultInv (binaryWord major func f lat o s) :=
  issue_inv (andNext_keeps (.bind getH_keeps fun _ => writeD_keeps)) .pure .pure .pure hs
theorem divideWord_inv {func : Nat} {f : Word → Word → Word} {size : Word → Nat} {o : RArgs} {s : State}
    (hs : s.Inv) :
    ResultInv (divideWord func f size o s) := by
  unfold divideWord
  refine issue_inv (andNext_keeps (.bind getH_keeps fun _ => ?_)) .pure .pure .pure hs
  dsimp only
  exact writeD_keeps
theorem unaryWord_inv {major func : Nat} {f : Word → Word} {o : RArgs} {s : State} (hs : s.Inv) :
    ResultInv (unaryWord major func f o s) :=
  issue_inv (andNext_keeps (.bind getH_keeps fun _ => writeD_keeps)) .pure .pure .pure hs
theorem immWord_inv {func : Nat} {f : Word → BitVec 12 → Word} {o : IArgs} {s : State} (hs : s.Inv) :
    ResultInv (immWord func f o s) :=
  issue_inv (andNext_keeps (.bind getH_keeps fun _ => writeD_keeps)) .pure .pure .pure hs
theorem execLih_inv {o : UArgs} {s : State} (hs : s.Inv) : ResultInv (execLih o s) :=
  issue_inv (andNext_keeps writeD_keeps) .pure .pure .pure hs
theorem execAddpc_inv {o : UArgs} {s : State} (hs : s.Inv) : ResultInv (execAddpc o s) :=
  issue_inv (andNext_keeps (.bind getH_keeps fun _ => writeD_keeps)) .pure .pure .pure hs
theorem writeCompare_keeps {o : CArgs} {c : Bool} {lat flags : Nat} : Keeps (writeCompare o c lat flags) :=
  modH_keeps
theorem execCmp_inv {o : CArgs} {s : State} (hs : s.Inv) : ResultInv (execCmp o s) :=
  issue_inv (andNext_keeps (.bind getH_keeps fun _ => writeCompare_keeps)) .pure .pure .pure hs
theorem execCmpImm_inv {o : CArgs} {s : State} (hs : s.Inv) : ResultInv (execCmpImm o s) :=
  issue_inv (andNext_keeps (.bind getH_keeps fun _ => writeCompare_keeps)) .pure .pure .pure hs
theorem plogWord_inv {func : Nat} {f : Bool → Bool → Bool} {o : RArgs} {s : State} (hs : s.Inv) :
    ResultInv (plogWord func f o s) :=
  issue_inv (andNext_keeps (.bind getH_keeps fun _ => modH_keeps)) .pure .pure .pure hs
theorem execPmov_inv {o : RArgs} {s : State} (hs : s.Inv) : ResultInv (execPmov o s) :=
  issue_inv (andNext_keeps (.bind getH_keeps fun _ => modH_keeps)) .pure .pure .pure hs
theorem execPnot_inv {o : RArgs} {s : State} (hs : s.Inv) : ResultInv (execPnot o s) :=
  issue_inv (andNext_keeps (.bind getH_keeps fun _ => modH_keeps)) .pure .pure .pure hs
theorem compactWord_inv {op : Nat} {f : Word → Word → Word} {o : KArgs} {s : State} (hs : s.Inv) :
    ResultInv (compactWord op f o s) :=
  issue_inv (andNext_keeps (.bind getH_keeps fun _ => writeD_keeps)) .pure .pure .pure hs
theorem execCAddi_inv {o : KArgs} {s : State} (hs : s.Inv) : ResultInv (execCAddi o s) :=
  issue_inv (andNext_keeps (.bind getH_keeps fun _ => writeD_keeps)) .pure .pure .pure hs
theorem execCMov_inv {o : KArgs} {s : State} (hs : s.Inv) : ResultInv (execCMov o s) :=
  issue_inv (andNext_keeps (.bind getH_keeps fun _ => writeD_keeps)) .pure .pure .pure hs
theorem execCNop_inv {o : KArgs} {s : State} (hs : s.Inv) : ResultInv (execCNop o s) :=
  issue_inv (andNext_keeps .pure) .pure .pure .pure hs
theorem arithWord_inv {major func : Nat} {F : Fmt} {lat : Nat} {op : Rnd → Val → Val → Val → Val × Nat}
    {acc : Bool} {o : RArgs} {s : State} {locked : Bool} (hs : s.Inv) :
    ResultInv (arithWord major func F lat op acc o s locked) := by
  unfold arithWord
  refine issue_inv (andNext_keeps (.bind getH_keeps fun _ => ?_)) .pure .pure .pure hs
  dsimp only
  exact writeD_keeps
theorem minMaxWord_inv {major func : Nat} {F : Fmt} {isMax : Bool} {o : RArgs} {s : State} (hs : s.Inv) :
    ResultInv (minMaxWord major func F isMax o s) := by
  unfold minMaxWord
  refine issue_inv (andNext_keeps (.bind getH_keeps fun _ => ?_)) .pure .pure .pure hs
  dsimp only
  exact writeD_keeps
theorem convertWord_inv {major func lat : Nat} {op : Rnd → Nat → Nat × Nat} {o : RArgs} {s : State}
    {locked : Bool} (hs : s.Inv) :
    ResultInv (convertWord major func lat op o s locked) := by
  unfold convertWord
  refine issue_inv (andNext_keeps (.bind getH_keeps fun _ => ?_)) .pure .pure .pure hs
  dsimp only
  exact writeD_keeps
theorem floatCompareWord_inv {form : Nat} {F : Fmt} {o : CArgs} {s : State} (hs : s.Inv) :
    ResultInv (floatCompareWord form F o s) := by
  unfold floatCompareWord
  refine issue_inv (andNext_keeps (.bind getH_keeps fun _ => ?_)) .pure .pure .pure hs
  dsimp only
  exact writeCompare_keeps
theorem jumpIf_keeps {taken : Bool} {target : Word} : Keeps (jumpIf taken target) :=
  .pure
theorem execB_inv {o : BArgs} {s : State} (hs : s.Inv) : ResultInv (execB o s) :=
  issue_inv (.bind getH_keeps fun _ => jumpIf_keeps) .pure .pure .pure hs
theorem execBp_inv {o : JArgs} {s : State} (hs : s.Inv) : ResultInv (execBp o s) :=
  issue_inv (.bind getH_keeps fun _ => jumpIf_keeps) .pure .pure .pure hs
theorem execCall_inv {o : JArgs} {s : State} (hs : s.Inv) : ResultInv (execCall o s) := by
  unfold execCall
  refine issue_inv (.bind getH_keeps fun _ => ?_) .pure .pure .pure hs
  split
  · exact .bind writeD_keeps fun _ => .pure
  · exact .pure
theorem execCallr_inv {o : IArgs} {s : State} (hs : s.Inv) : ResultInv (execCallr o s) := by
  unfold execCallr
  refine issue_inv (.bind getH_keeps fun _ => ?_) .pure .pure .pure hs
  dsimp only
  exact .bind require_keeps fun _ => .bind writeD_keeps fun _ => .pure
theorem execCBnz_inv {o : KArgs} {s : State} (hs : s.Inv) : ResultInv (execCBnz o s) :=
  issue_inv (.bind getH_keeps fun _ => jumpIf_keeps) .pure .pure .pure hs
theorem crewNow_keeps : Keeps crewNow :=
  .get fun _ _ => .pure
theorem setCrewNow_keeps {c : Crew} : Keeps (setCrewNow c) :=
  .update fun _ hs => .same hs
theorem bqWord'_inv {cond : Nat} {o : BqArgs} {taken : Word → Bool} {s : State} (hs : s.Inv) :
    ResultInv (bqWord' cond o taken s) := by
  unfold bqWord'
  refine issue_inv (.bind crewNow_keeps fun _ => ?_) .pure .pure (.bind getH_keeps fun _ => require_keeps) hs
  split
  · exact .bind commit_keeps fun _ => waitFor_keeps
  · exact .bind performEarlier_keeps fun _ => .bind setCrewNow_keeps fun _ => .bind getH_keeps fun _ => jumpIf_keeps
theorem execBqNz_inv {o : BqArgs} {s : State} (hs : s.Inv) : ResultInv (execBqNz o s) :=
  bqWord'_inv hs
theorem execBqZ_inv {o : BqArgs} {s : State} (hs : s.Inv) : ResultInv (execBqZ o s) :=
  bqWord'_inv hs
theorem pushBq_keeps {q : Nat} {v : Word} : Keeps (pushBq q v) := by
  unfold pushBq
  refine .bind getH_keeps fun _ => .bind require_keeps fun _ => .bind crewNow_keeps fun _ => ?_
  extract_lets l jp
  have hjp : ∀ x, Keeps (jp x) := fun _ => .bind performEarlier_keeps fun _ => setCrewNow_keeps
  split
  · exact .bind commit_keeps fun _ => .bind waitFor_keeps fun _ => hjp ()
  · exact hjp ()
theorem prefixWord_inv {copy : Bool} {o : PArgs} {s : State} (hs : s.Inv) : ResultInv (prefixWord copy o s) :=
  issue_inv (.bind getH_keeps fun _ => .pure) .pure .pure .pure hs
end Sys2Proof.Machine
end

section
namespace Sys2Proof.Machine

/-! A copy engine's reads, and the core that runs a table routine (R108 to R115). -/

theorem engTranslate_keeps {e : EngCtx} {va : Nat} {kind : AccKind} : Keeps (engTranslate e va kind) := by
  unfold engTranslate
  refine .get fun _ hs => ?_
  split
  · exact .bind (.set ((translateFor_inv hs).of_ok_fst ‹_›)) fun _ => .pure
  · exact .throw
  · exact .throw
  · exact .bind (.update fun _ hs_1 => reportFailed_inv hs_1) fun _ => .throw
theorem engRead_keeps {e : EngCtx} {va n : Nat} : Keeps (engRead e va n) := by
  unfold engRead
  refine .bind (.mapM fun _ => ?_) fun _ => .pure
  split
  refine .bind engTranslate_keeps fun _ => ?_
  extract_lets jp
  have hjp : ∀ x, Keeps (jp x) := by
    intro _
    refine .get fun _ hs => ?_
    split
    · exact .bind (.set ((physRead_inv hs).of_ok_fst ‹_›)) fun _ => .throw
    · exact .bind (.set ((physRead_inv hs).of_ok_fst ‹_›)) fun _ => .pure
    · exact .throw
    · exact .throw
  split
  · exact .bind .throw fun _ => hjp ()
  · exact hjp ()
/-! Work on the engine's core (R115): a routine's registers are carried over the engine's state. -/

/-- From any registers, the work keeps memory canonical. -/
def RvKeeps {α : Type} (m : RvM α) : Prop := ∀ r : Rv, Keeps (m r)

section
variable {α β : Type}

theorem RvKeeps.pure {x : α} : RvKeeps (Pure.pure x : RvM α) := fun _ => .pure
theorem RvKeeps.throw {e : Nat} : RvKeeps (MonadExcept.throw e : RvM α) := fun _ => .throw
theorem RvKeeps.bind {m : RvM α} {f : α → RvM β} (h : RvKeeps m) (hf : ∀ x, RvKeeps (f x)) : RvKeeps (m >>= f) :=
  fun r => .bind (h r) fun x => hf x.1 x.2
theorem RvKeeps.get : RvKeeps (MonadState.get : RvM Rv) := fun _ => .pure
theorem RvKeeps.set {r : Rv} : RvKeeps (MonadStateOf.set r : RvM PUnit) := fun _ => .pure
theorem RvKeeps.update {f : Rv → Rv} : RvKeeps (modify f : RvM PUnit) := fun _ => .pure
theorem RvKeeps.lift {a : Eng α} (h : Keeps a) : RvKeeps (liftM a : RvM α) := fun _ => .bind h fun _ => .pure
theorem RvKeeps.lift_get {f : State → RvM β} (hf : ∀ s : State, s.Inv → RvKeeps (f s)) :
    RvKeeps ((liftM (MonadState.get : Eng State) : RvM State) >>= f) :=
  fun r s hs => hf s hs r s hs
theorem RvKeeps.forM {f : α → RvM PUnit} {l : List α} (h : ∀ x, RvKeeps (f x)) : RvKeeps (l.forM f) := by
  induction l with
  | nil => exact .pure
  | cons x l ih => exact .bind (h x) fun _ => ih
theorem RvKeeps.forIn {f : α → β → RvM (ForInStep β)} {l : List α} {b : β} (h : ∀ x b, RvKeeps (f x b)) :
    RvKeeps (ForIn.forIn l b f) := by
  induction l generalizing b with
  | nil => exact .pure
  | cons x l ih =>
    rw [List.forIn_cons]
    refine .bind (h x b) fun y => ?_
    cases y with
    | done b => exact .pure
    | yield b => exact ih
theorem RvKeeps.tryCatch {m : RvM α} {f : Nat → RvM α} (h : RvKeeps m) (hf : ∀ e, RvKeeps (f e)) :
    RvKeeps (MonadExcept.tryCatch m f) := by
  intro r s hs
  have first := h r s hs
  change AnswerInv (EStateM.tryCatch (m r) (fun e => f e r) s)
  simp only [EStateM.tryCatch]
  cases e : m r s with
  | ok x t => exact first.of_ok e
  | error c t => exact hf c r _ (first.of_error e)
end

theorem illegal_keeps {α : Type} : RvKeeps (illegal : RvM α) :=
  .throw
theorem legal_keeps {b : Bool} : RvKeeps (legal b) := by
  unfold legal
  split
  · exact .pure
  · exact illegal_keeps
theorem orIllegal_keeps {α : Type} {a : Option α} : RvKeeps (orIllegal a) := by
  unfold orIllegal
  split
  · exact .pure
  · exact illegal_keeps
theorem rvLoad_keeps {c : RvEnv} {a n : Nat} : RvKeeps (rvLoad c a n) := by
  unfold rvLoad
  refine .bind .get fun _ => ?_
  dsimp only
  refine .bind (.lift ?_) fun _ => .pure
  split
  · refine .map (.mapM fun _ => ?_)
    split
    · exact .pure
    · exact engRead_keeps
  · exact engRead_keeps
theorem rvStore_keeps {c : RvEnv} {a n v : Nat} : RvKeeps (rvStore c a n v) := by
  unfold rvStore
  dsimp only
  exact .bind legal_keeps fun _ => .update
theorem rvFetch_keeps {c : RvEnv} {pc : Nat} : RvKeeps (rvFetch c pc) := by
  unfold rvFetch
  refine .lift_get fun _ hs => ?_
  split
  · exact .throw
  · exact .throw
  · exact .bind (.lift (.set ((physRead_inv hs).of_ok_fst ‹_›))) fun _ => .throw
  · exact .bind (.lift (.set ((physRead_inv hs).of_ok_fst ‹_›))) fun _ => .pure
theorem rvAtomic_keeps {c : RvEnv} {w : Nat} : RvKeeps (rvAtomic c w) := by
  unfold rvAtomic
  refine .bind .get fun _ => ?_
  extract_lets a b k ext jp
  have hjp : ∀ x, RvKeeps (jp x) := fun _ => .update
  refine .bind legal_keeps fun _ => ?_
  split
  · exact .bind legal_keeps fun _ => .bind rvLoad_keeps fun _ => .update
  · split
    · exact .bind rvStore_keeps fun _ => hjp ()
    · exact hjp ()
  · exact .bind orIllegal_keeps fun _ => .bind rvLoad_keeps fun _ => .bind orIllegal_keeps fun _ =>
      .bind rvStore_keeps fun _ => .update
theorem rvLoadX_keeps {c : RvEnv} {w : Nat} : RvKeeps (rvLoadX c w) := by
  unfold rvLoadX
  dsimp only
  exact .bind legal_keeps fun _ => .bind .get fun _ => .bind rvLoad_keeps fun _ => .update
theorem rvLoadF_keeps {c : RvEnv} {w : Nat} : RvKeeps (rvLoadF c w) := by
  unfold rvLoadF
  dsimp only
  exact .bind .get fun _ => .bind rvLoad_keeps fun _ => .update
theorem rvStoreS_keeps {c : RvEnv} {w k v : Nat} : RvKeeps (rvStoreS c w k v) :=
  .bind .get fun _ => rvStore_keeps
theorem rvMove_keeps {c : RvEnv} {store : Bool} {a d e i : Nat} : RvKeeps (rvMove c store a d e i) := by
  unfold rvMove
  split
  · exact .bind .get fun _ => rvStore_keeps
  · exact .bind rvLoad_keeps fun _ => .update
theorem rvElements_keeps {c : RvEnv} {store : Bool} {addr : Nat → Nat} {d per e fields : Nat} {is : List Nat} :
    RvKeeps (rvElements c store addr d per e fields is) :=
  .forM fun _ => .bind .update fun _ => .forM fun _ => rvMove_keeps
theorem rvFaultFirst_keeps {c : RvEnv} {addr : Nat → Nat} {d per e fields : Nat} {is : List Nat} :
    RvKeeps (rvFaultFirst c addr d per e fields is) := by
  unfold rvFaultFirst
  refine .bind (.forIn fun _ _ => .bind .get fun _ => ?_) fun _ => .pure
  split
  · exact .pure
  · refine .bind (.tryCatch rvElements_keeps fun _ => ?_) fun _ => .pure
    split
    · exact .throw
    · exact .update
theorem rvVecMem_keeps {c : RvEnv} {store : Bool} {w : Nat} : RvKeeps (rvVecMem c store w) := by
  unfold rvVecMem
  refine .bind .get fun _ => ?_
  extract_lets base d nf vm e unit jp k o stride
  have hjp : ∀ x, RvKeeps (jp x) := fun _ => .update
  refine .bind legal_keeps fun _ => ?_
  split
  · exact .bind legal_keeps fun _ => .bind rvElements_keeps fun _ => hjp ()
  · refine .bind orIllegal_keeps fun _ => ?_
    split
    · exact .bind legal_keeps fun _ => .bind rvElements_keeps fun _ => hjp ()
    · split
      · dsimp only
        exact .bind legal_keeps fun _ => .bind legal_keeps fun _ => .bind rvElements_keeps fun _ => hjp ()
      · dsimp only
        refine .bind legal_keeps fun _ => ?_
        split
        · exact .bind rvElements_keeps fun _ => hjp ()
        · split
          · exact .bind rvElements_keeps fun _ => hjp ()
          · exact .bind legal_keeps fun _ => .bind rvFaultFirst_keeps fun _ => hjp ()
theorem rvExec_keeps {c : RvEnv} {w len : Nat} : RvKeeps (rvExec c w len) := by
  unfold rvExec
  refine .bind .get fun _ => ?_
  extract_lets next vecWidth b jp to' _
  have hjp : ∀ x, RvKeeps (jp x) := fun _ => .update
  split
  · exact .bind rvLoadX_keeps fun _ => hjp ()
  · split
    · exact .bind rvVecMem_keeps fun _ => hjp ()
    · exact .bind legal_keeps fun _ => .bind rvLoadF_keeps fun _ => hjp ()
  · exact .bind legal_keeps fun _ => .bind rvStoreS_keeps fun _ => hjp ()
  · split
    · exact .bind rvVecMem_keeps fun _ => hjp ()
    · exact .bind legal_keeps fun _ => .bind rvStoreS_keeps fun _ => hjp ()
  · exact .bind rvAtomic_keeps fun _ => hjp ()
  · exact .bind orIllegal_keeps fun _ => .bind .set fun _ => hjp ()
  · refine .bind orIllegal_keeps fun _ => ?_
    split
    · exact .bind .set fun _ => .pure
    · exact hjp ()
  · exact .bind legal_keeps fun _ => .bind .set fun _ => .pure
  · exact .bind .set fun _ => .pure
  · exact .bind orIllegal_keeps fun _ => .bind .set fun _ => hjp ()
theorem rvStep_keeps {c : RvEnv} : RvKeeps (rvStep c) := by
  unfold rvStep
  refine .bind .get fun _ => ?_
  dsimp only
  refine .bind rvFetch_keeps fun _ => ?_
  split
  · exact .bind rvFetch_keeps fun _ => rvExec_keeps
  · exact .bind orIllegal_keeps fun _ => rvExec_keeps
theorem rvRun_inv {c : RvEnv} {back n : Nat} {r : Rv} {s : State} (hs : s.Inv) : (rvRun c back n r s).2.2.Inv := by
  induction n generalizing r s with
  | zero => exact hs
  | succ n ih =>
    unfold rvRun
    split
    · exact hs
    · split
      · exact ih ((rvStep_keeps _ _ hs).of_ok ‹_›)
      · exact (rvStep_keeps _ _ hs).of_error ‹_›
end Sys2Proof.Machine
end

section
namespace Sys2Proof.Machine

/-! The copy engines' routines (R115 to R118). -/

theorem runSteps_inv {α : Type} {step : Nat → α → Eng (List (List Byte) × α)} {n fuel : Nat} {p : α} {r : Run}
    {s : State} (hstep : ∀ n p, Keeps (step n p)) (hs : s.Inv) :
    (runSteps step n fuel p r s).2.2.Inv := by
  induction fuel generalizing p r s with
  | zero => exact hs
  | succ fuel ih =>
    unfold runSteps
    split
    · exact hs
    · split
      · exact (hstep _ _ _ hs).of_error ‹_›
      · exact ih ((hstep _ _ _ hs).of_ok ‹_›)
theorem scoutAhead_inv {α : Type} {next : α → Eng α} {k : Nat} {p : α} {s : State} (hnext : ∀ p, Keeps (next p))
    (hs : s.Inv) :
    (scoutAhead next k p s).Inv := by
  induction k generalizing p s with
  | zero => exact hs
  | succ k ih =>
    unfold scoutAhead
    split
    · exact ih ((hnext _ _ hs).of_ok ‹_›)
    · exact hs
theorem copyStep_keeps {e : EngCtx} {src esz : Nat} {_left off : Nat} : Keeps (copyStep e src esz _left off) :=
  .bind engRead_keeps fun _ => .pure
theorem deltaStep_keeps {e : EngCtx} {src esz : Nat} {left off : Nat} : Keeps (deltaStep e src esz left off) := by
  unfold deltaStep
  extract_lets k jp
  have hjp : ∀ x, Keeps (jp x) := by
    intro _
    refine .bind engRead_keeps fun _ => ?_
    extract_lets d jp1
    have hjp1 : ∀ x, Keeps (jp1 x) := by
      intro _
      refine .bind engRead_keeps fun _ => ?_
      dsimp only
      exact .bind engRead_keeps fun _ => .pure
    split
    · exact .bind .throw fun _ => hjp1 ()
    · exact hjp1 ()
  split
  · exact .bind .throw fun _ => hjp ()
  · exact hjp ()
theorem lz4Step_keeps {e : EngCtx} {src esz : Nat} {left off : Nat} : Keeps (lz4Step e src esz left off) := by
  unfold lz4Step
  refine .bind engRead_keeps fun _ => ?_
  extract_lets comp size jp
  have hjp : ∀ x, Keeps (jp x) := by
    intro _
    refine .bind engRead_keeps fun _ => ?_
    split
    · exact .pure
    · exact .throw
  split
  · exact .bind .throw fun _ => hjp ()
  · exact hjp ()
theorem zstdRun_inv {e : EngCtx} {src want : Nat} {s : State} (hs : s.Inv) : (zstdRun e src want s).2.2.2.Inv := by
  unfold zstdRun
  dsimp only
  split
  · split
    · exact (engRead_keeps _ hs).of_error ‹_›
    · exact (engRead_keeps _ hs).of_ok ‹_›
  · split
    · split
      · exact hs
      · exact (engRead_keeps _ hs).of_ok ‹_›
    · split
      · exact hs
      · exact (engRead_keeps _ hs).of_ok ‹_›
theorem zstdScout_keeps {e : EngCtx} {src : Nat} {p : ZPlace} : Keeps (zstdScout e src p) := by
  unfold zstdScout
  refine .get fun _ _ => ?_
  split
  · exact .throw
  · exact .bind engRead_keeps fun _ => .pure
theorem tileStep_keeps {e : EngCtx} {src esz count param : Nat} {left : Nat} {p : Nat × Nat} :
    Keeps (tileStep e src esz count param left p) := by
  unfold tileStep
  split
  extract_lets skip jp
  have hjp : ∀ x, Keeps (jp x) := by
    intro _
    refine .bind engRead_keeps fun _ => ?_
    extract_lets comp n codec next want jp1 jp2 jp3
    have hjp1 : ∀ x, Keeps (jp1 x) := fun _ => .pure
    have hjp2 : ∀ x, Keeps (jp2 x) := fun _ => .bind engRead_keeps fun _ => hjp1 _
    have hjp3 : ∀ x, Keeps (jp3 x) := by
      intro _
      unfold jp3
      split
      · exact .pure
      · clear_value codec
        split
        · split
          · exact .bind .throw fun _ => hjp2 ()
          · exact hjp2 ()
        · refine .bind engRead_keeps fun _ => ?_
          split
          · exact .bind .pure fun _ => hjp1 _
          · exact .bind .throw fun _ => hjp1 _
        · refine .bind engRead_keeps fun _ => ?_
          split
          · exact .bind .pure fun _ => hjp1 _
          · exact .bind .throw fun _ => hjp1 _
    split
    · exact .bind .throw fun _ => hjp3 ()
    · exact hjp3 ()
  split
  · exact .bind .throw fun _ => hjp ()
  · exact hjp ()
theorem runTable_inv {e : EngCtx} {st : Stream} {base esz : Nat} {s : State} (hs : s.Inv) :
    (runTable e st base esz s).2.Inv := by
  unfold runTable
  dsimp only
  exact rvRun_inv (.same hs)
theorem runRoutine_inv {e : EngCtx} {st : Stream} {base esz : Nat} {s : State} (hs : s.Inv) :
    (runRoutine e st base esz s).2.Inv := by
  unfold runRoutine
  dsimp only
  split
  · split
    · exact scoutAhead_inv (fun _ => .pure) (runSteps_inv (fun _ _ => copyStep_keeps) hs)
    · exact runSteps_inv (fun _ _ => copyStep_keeps) hs
  · split
    · split
      · exact scoutAhead_inv (fun _ => .bind (.bind engRead_keeps fun _ => .pure) fun _ =>
          .pure) (runSteps_inv (fun _ _ => deltaStep_keeps) hs)
      · exact runSteps_inv (fun _ _ => deltaStep_keeps) hs
    · split
      · split
        · exact scoutAhead_inv (fun _ => .bind (.bind engRead_keeps fun _ => .pure) fun _ =>
            .pure) (runSteps_inv (fun _ _ => lz4Step_keeps) hs)
        · exact runSteps_inv (fun _ _ => lz4Step_keeps) hs
      · split
        · split
          · exact scoutAhead_inv (fun _ => zstdScout_keeps) (zstdRun_inv hs)
          · exact zstdRun_inv hs
        · split
          · split
            · exact (engRead_keeps _ hs).of_error ‹_›
            · split
              · exact (engRead_keeps _ hs).of_ok ‹_›
              · split
                · exact scoutAhead_inv (fun _ => .bind (.bind engRead_keeps fun _ => .pure) fun _ =>
                    .pure) (runSteps_inv (fun _ _ => tileStep_keeps) ((engRead_keeps _ hs).of_ok ‹_›))
                · exact runSteps_inv (fun _ _ => tileStep_keeps) ((engRead_keeps _ hs).of_ok ‹_›)
          · exact runTable_inv hs
end Sys2Proof.Machine
end

section
namespace Sys2Proof.Machine

/-! CSRs, system words, and the channels of the copy engines (R119 to R124, R319 to R321, R367). -/

theorem clearFrames_inv {f : Word} {s : State} (hs : s.Inv) : (clearFrames f s).Inv := by
  unfold clearFrames
  refine .foldl (fun _ _ hs_1 => ?_) hs
  split
  · exact (physWrite_inv hs_1).of_ok_fst ‹_›
  · exact hs_1
theorem freeFrames_inv {f : Word} {s : State} (hs : s.Inv) : (freeFrames f s).Inv := by
  unfold freeFrames
  refine .foldl (fun _ _ hs_1 => .foldl (fun _ _ hs_2 => ?_) hs_1) hs
  split
  · dsimp only
    split
    · split
      · exact (physWrite_inv ((physRead_inv hs_2).of_ok_fst ‹_›)).of_ok_fst ‹_›
      · exact (physRead_inv hs_2).of_ok_fst ‹_›
    · exact (physRead_inv hs_2).of_ok_fst ‹_›
  · exact hs_2
theorem writeFrctl_inv {v : Word} {s : State} (hs : s.Inv) : (writeFrctl v s).Inv := by
  unfold writeFrctl
  extract_lets _ _ _ _ _ _ s1
  have hs1 : s1.Inv := .same hs
  clear_value s1
  split
  · exact clearFrames_inv hs1
  · split
    · exact freeFrames_inv hs1
    · exact hs1
theorem seqRestart_inv {c q : Nat} {v : Word} {s : State} (hs : s.Inv) : (seqRestart c q v s).Inv := by
  unfold seqRestart
  dsimp only
  exact .same hs
theorem seqStore_inv {c q : Nat} {v : Word} {s : State} (hs : s.Inv) : (seqStore c q v s).Inv := by
  unfold seqStore
  dsimp only
  exact setQuad_inv hs
theorem writeMsa_inv {c q : Nat} {v : Word} {s : State} (hs : s.Inv) : (writeMsa c q v s).Inv := by
  unfold writeMsa
  dsimp only
  exact setQuad_inv hs
theorem writeMseq_inv {c q : Nat} {v : Word} {s : State} (hs : s.Inv) : (writeMseq c q v s).Inv := by
  unfold writeMseq
  split
  · exact seqRestart_inv hs
  · exact seqStore_inv hs
theorem modCsr_keeps {f : Csrs → Csrs} : Keeps (modCsr f) :=
  modH_keeps
theorem csrWrite_keeps {n : Nat} {v : Word} : Keeps (csrWrite n v) := by
  unfold csrWrite
  refine .get fun s _ => ?_
  extract_lets c
  refine .ite modH_keeps (.ite modH_keeps (.ite modH_keeps (.ite ?_ (.ite ?_ (.ite ?_ ?_)))))
  · exact .update fun _ hs_1 => writeMseq_inv hs_1
  · exact .update fun _ hs_1 => writeMsa_inv hs_1
  · exact .update fun _ hs_1 => setQuad_inv hs_1
  · split
    any_goals exact modCsr_keeps
    any_goals exact modH_keeps
    · exact .bind require_keeps fun _ => modCsr_keeps
    · exact pushBq_keeps
    · exact pushBq_keeps
    · split
      · exact .bind waitFor_keeps fun _ => modH_keeps
      · exact modH_keeps
    · exact .update fun _ hs_1 => writeFrctl_inv hs_1
    · exact .pure
theorem csrReadWait_keeps {n : Nat} : Keeps (csrReadWait n) := by
  unfold csrReadWait
  refine .get fun _ _ => ?_
  split
  · exact waitFor_keeps
  · exact .pure
theorem csrLegal_keeps {write : Bool} {n : Nat} : Keeps (csrLegal write n) :=
  .bind getH_keeps fun _ => require_keeps
theorem csrRole_keeps {write : Bool} {n : Nat} : Keeps (csrRole write n) := by
  unfold csrRole
  split
  · exact .bind getH_keeps fun _ => require_keeps
  · exact .pure
theorem execCsrr_inv {o : IArgs} {s : State} (hs : s.Inv) : ResultInv (execCsrr o s) :=
  issue_inv (andNext_keeps (.bind csrReadWait_keeps fun _ => .get fun _ _ =>
    writeD_keeps)) csrLegal_keeps .pure .pure hs
theorem execCsrw_inv {o : IArgs} {s : State} (hs : s.Inv) : ResultInv (execCsrw o s) :=
  issue_inv (andNext_keeps (.bind readS_keeps fun _ => csrWrite_keeps)) csrLegal_keeps .pure csrRole_keeps hs
theorem execCsrx_inv {o : IArgs} {s : State} (hs : s.Inv) : ResultInv (execCsrx o s) := by
  unfold execCsrx
  refine issue_inv (andNext_keeps (.bind csrReadWait_keeps fun _ => .get fun _ _ =>
    ?_)) csrLegal_keeps .pure csrRole_keeps hs
  dsimp only
  exact .bind readS_keeps fun _ => .bind csrWrite_keeps fun _ => writeD_keeps
theorem hartWrite_inv {a : Act Unit} {s : State} (ha : Keeps a) (hs : s.Inv) : ResultInv (hartWrite a s) := by
  unfold hartWrite
  split
  · exact hs
  · split
    · exact .same ((ha _ hs).of_ok ‹_›)
    · exact deliver_inv ((ha _ hs).of_error ‹_›)
theorem execFrctl_inv {o : ValueArgs} {s : State} (hs : s.Inv) : ResultInv (execFrctl o s) :=
  writeFrctl_inv hs
theorem execEfcclr_inv {s : State} (hs : s.Inv) : ResultInv (execEfcclr s) :=
  .same hs
theorem execMseqRestart_inv {o : ClusterArgs} {s : State} (hs : s.Inv) : ResultInv (execMseqRestart o s) := by
  unfold execMseqRestart
  dsimp only
  split
  · exact seqRestart_inv hs
  · exact hs
theorem execMseqAbandon_inv {o : ClusterArgs} {s : State} (hs : s.Inv) : ResultInv (execMseqAbandon o s) :=
  seqStore_inv hs
theorem execSvc_inv {o : RArgs} {s : State} (hs : s.Inv) : ResultInv (execSvc o s) := by
  unfold execSvc
  refine issue_inv (.get fun _ _ => ?_) .pure .pure .pure hs
  extract_lets jp
  have hjp : ∀ x, Keeps (jp x) := fun _ => .bind (.update fun _ hs_2 => takeTrap_inv hs_2) fun _ => .pure
  split
  · exact .bind waitFor_keeps fun _ => hjp ()
  · exact hjp ()
theorem execTrap_inv {o : RArgs} {s : State} (hs : s.Inv) : ResultInv (execTrap o s) :=
  issue_inv trapWith_keeps .pure .pure .pure hs
theorem execTret_inv {o : RArgs} {s : State} (hs : s.Inv) : ResultInv (execTret o s) :=
  issue_inv (.bind modH_keeps fun _ => .pure) .pure .pure (.bind getH_keeps fun _ => require_keeps) hs
theorem execUiret_inv {o : RArgs} {s : State} (hs : s.Inv) : ResultInv (execUiret o s) :=
  issue_inv (.bind getH_keeps fun _ => .bind require_keeps fun _ => .bind modH_keeps fun _ =>
    .pure) .pure .pure .pure hs
theorem execNop_inv {o : RArgs} {s : State} (hs : s.Inv) : ResultInv (execNop o s) :=
  issue_inv .pure .pure .pure .pure hs
theorem execBrk_inv {o : RArgs} {s : State} (hs : s.Inv) : ResultInv (execBrk o s) :=
  issue_inv trapWith_keeps .pure .pure .pure hs
theorem setChannel_inv {core ch : Nat} {v : Channel} {s : State} (hs : s.Inv) : (setChannel core ch v s).Inv := by
  unfold setChannel
  dsimp only
  exact .same hs
theorem takeWake_inv {epc : Word} {s : State} (hs : s.Inv) : (takeWake epc s).Inv := by
  unfold takeWake
  dsimp only
  exact takeTrap_inv (.same hs)
theorem takeMgmt_inv {epc : Word} {s : State} (hs : s.Inv) : (takeMgmt epc s).Inv :=
  takeTrap_inv (.same hs)
theorem takeUserInterrupt_inv {ch : Nat} {s : State} (hs : s.Inv) : (takeUserInterrupt ch s).Inv := by
  unfold takeUserInterrupt
  dsimp only
  exact enterUser_inv (.same (setChannel_inv hs))
theorem takePendingError_inv {imp : Bool} {s : State} (hs : s.Inv) : (takePendingError imp s).Inv := by
  unfold takePendingError
  split
  · exact hs
  · exact takeTrap_inv (.same hs)
theorem ageCommit_inv {s : State} (hs : s.Inv) : (ageCommit s).Inv := by
  unfold ageCommit
  dsimp only
  exact .same (earlyCommit_inv hs)
theorem execIdle_inv {o : RArgs} {s : State} (hs : s.Inv) : ResultInv (execIdle o s) := by
  unfold execIdle
  refine issue_inv (.bind commit_keeps fun _ => .bind modH_keeps fun _ => .get fun _ _ => ?_) .pure .pure .pure hs
  split
  · exact .bind (.update fun _ hs_2 => takeMgmt_inv hs_2) fun _ => .pure
  · split
    · exact .pure
    · exact waitFor_keeps
theorem eventWhen_inv {ok : Bool} {f : State → State} {s : State} (hf : ∀ s : State, s.Inv → (f s).Inv)
    (hs : s.Inv) :
    ResultInv (eventWhen ok f s) := by
  unfold eventWhen
  change State.Inv _
  split
  · exact hf _ hs
  · exact hs
theorem failAt_inv {core ch cause : Nat} {s : State} (hs : s.Inv) : (failAt core ch cause s).Inv := by
  unfold failAt
  dsimp only
  exact setChannel_inv (.same hs)
theorem channelNow_keeps {ch : Nat} : Keeps (channelNow ch) :=
  .get fun _ _ => .pure
theorem setChannelNow_keeps {ch : Nat} {c : Channel} : Keeps (setChannelNow ch c) :=
  .update fun _ hs => setChannel_inv hs
theorem execCharm_inv {o : RArgs} {s : State} (hs : s.Inv) : ResultInv (execCharm o s) := by
  unfold execCharm
  refine issue_inv (andNext_keeps (.bind getH_keeps fun _ => ?_)) .pure .pure .pure hs
  dsimp only
  exact .bind channelNow_keeps fun _ => .bind require_keeps fun _ => .bind require_keeps fun _ =>
    .bind require_keeps fun _ => .get fun _ _ => .bind require_keeps fun _ => .bind commit_keeps fun _ =>
    setChannelNow_keeps
theorem routineEntry_keeps {n : Nat} : Keeps (routineEntry n) := by
  unfold routineEntry
  split
  · exact .pure
  · split
    · exact .pure
    · refine .get fun _ hs => ?_
      split
      · exact waitFor_keeps
      · exact .pure
      · exact .bind (.set ((physRead_inv hs).of_ok_fst ‹_›)) fun _ => .pure
      · refine .bind (.set ((physRead_inv hs).of_ok_fst ‹_›)) fun _ => ?_
        dsimp only
        split <;> exact .pure
theorem execStream_inv {o : RArgs} {s : State} (hs : s.Inv) : ResultInv (execStream o s) := by
  unfold execStream
  refine issue_inv (andNext_keeps (.get fun _ _ => ?_)) .pure .pure .pure hs
  extract_lets h ch ctl n
  refine .bind channelNow_keeps fun _ => .bind require_keeps fun _ => .bind require_keeps fun _ =>
    .bind routineEntry_keeps fun _ => .bind require_keeps fun _ => .bind require_keeps fun _ => ?_
  split
  · exact commit_keeps
  · extract_lets jp
    have hjp : ∀ x, Keeps (jp x) := fun _ => .bind performEarlier_keeps fun _ => setChannelNow_keeps
    split
    · exact .bind waitFor_keeps fun _ => hjp ()
    · exact hjp ()
theorem execChstat_inv {o : RArgs} {s : State} (hs : s.Inv) : ResultInv (execChstat o s) := by
  unfold execChstat
  refine issue_inv (andNext_keeps (.bind counterRoom_keeps fun _ => .bind commit_keeps fun _ =>
    ?_)) .pure .pure .pure hs
  split
  · exact addOp_keeps
  · exact .bind channelNow_keeps fun _ => writeD_keeps
theorem clearChannel_keeps {ch : Nat} : Keeps (clearChannel ch) := by
  unfold clearChannel
  refine .bind channelNow_keeps fun _ => .get fun _ _ => ?_
  split
  · exact .bind (.update fun _ hs_1 => failAt_inv hs_1) fun _ => .bind channelNow_keeps fun _ =>
      .bind setChannelNow_keeps fun _ => waitFor_keeps
  · split
    · exact waitFor_keeps
    · exact setChannelNow_keeps
theorem execChclr_inv {o : RArgs} {s : State} (hs : s.Inv) : ResultInv (execChclr o s) := by
  unfold execChclr
  refine issue_inv (andNext_keeps (.get fun _ _ => .bind channelNow_keeps fun _ => .bind commit_keeps fun _ =>
    ?_)) .pure .pure .pure hs
  split
  · exact .pure
  · exact .bind require_keeps fun _ => clearChannel_keeps
theorem serve_inv {e k : Nat} {s : State} (hs : s.Inv) : (serve e k s).Inv :=
  .same hs
theorem startStream_inv {core ch : Nat} {s0 : State} (hs : s0.Inv) : (startStream core ch s0).Inv := by
  unfold startStream
  dsimp only
  split
  · exact hs
  · split
    · exact serve_inv hs
    · split
      · exact serve_inv hs
      · exact setChannel_inv (runRoutine_inv (serve_inv hs))
theorem engWrite_keeps {e : EngCtx} {ch i va : Nat} {bs : List Byte} : Keeps (engWrite e ch i va bs) := by
  unfold engWrite
  refine .get fun _ _ => ?_
  extract_lets n rest
  refine .bind (.forIn fun _ _ => ?_) fun _ => .update fun _ hs_1 => .same hs_1
  extract_lets rest1
  split
  refine .bind engTranslate_keeps fun _ => ?_
  extract_lets rest2 jp jp1
  have hjp : ∀ x, Keeps (jp x) := fun _ => .pure
  have hjp1 : ∀ x, Keeps (jp1 x) := by
    intro _
    refine .get fun _ hs_1 => ?_
    split
    · exact .bind (.set (.same ((physWrite_inv hs_1).of_ok_fst ‹_›))) fun _ => hjp ()
    · exact .bind .throw fun _ => hjp ()
  split
  · exact .bind .throw fun _ => hjp1 ()
  · exact hjp1 ()
theorem landElement_inv {core ch pick : Nat} {s : State} (hs : s.Inv) : (landElement core ch pick s).Inv := by
  unfold landElement
  dsimp only
  split
  · exact hs
  · split
    · exact hs
    · split
      · exact setChannel_inv ((engWrite_keeps _ hs).of_ok ‹_›)
      · exact hs
      · exact failAt_inv ((engWrite_keeps _ hs).of_error ‹_›)
theorem endLanding_inv {core ch i : Nat} {refused : Bool} {s : State} (hs : s.Inv) :
    (endLanding core ch i refused s).Inv := by
  unfold endLanding
  dsimp only
  split
  · exact hs
  · split
    · exact failAt_inv hs
    · exact setChannel_inv hs
theorem failStream_inv {core ch : Nat} {s : State} (hs : s.Inv) : (failStream core ch s).Inv := by
  unfold failStream
  split
  · exact failAt_inv hs
  · exact hs
theorem execEngineStreamStart_inv {o : StreamArgs} {s : State} (hs : s.Inv) :
    ResultInv (execEngineStreamStart o s) :=
  startStream_inv hs
theorem execLanding_inv {o : LandingArgs} {s : State} (hs : s.Inv) : ResultInv (execLanding o s) :=
  landElement_inv hs
theorem execStreamFail_inv {o : StreamArgs} {s : State} (hs : s.Inv) : ResultInv (execStreamFail o s) :=
  failStream_inv hs
theorem execWatermarkRelease_inv {s : State} (hs : s.Inv) : ResultInv (execWatermarkRelease s) := by
  unfold execWatermarkRelease
  split
  · split
    · exact .same hs
    · exact hs
  · exact hs
end Sys2Proof.Machine
end

section
namespace Sys2Proof.Machine

/-! Launches and the dispatcher, and the scalar words that access memory. -/

theorem badIf_keeps {code : Nat} {b : Bool} : Keeps (badIf code b) := by
  unfold badIf
  split
  · exact .throw
  · exact .pure
theorem readerXlat_keeps {r : Reader} {va : Nat} {kind : AccKind} : Keeps (readerXlat r va kind) := by
  unfold readerXlat
  refine .get fun _ hs => ?_
  split
  · exact .bind (.set ((translateFor_inv hs).of_ok_fst ‹_›)) fun _ => .bind badIf_keeps fun _ => .pure
  · exact .throw
  · exact .throw
  · exact .throw
theorem readerRead_keeps {r : Reader} {x : Xlat} {n : Nat} : Keeps (readerRead r x n) := by
  unfold readerRead
  refine .get fun _ hs => ?_
  split
  · exact .throw
  · exact .bind (.set ((physRead_inv hs).of_ok_fst ‹_›)) fun _ => .pure
  · exact .throw
  · exact .throw
theorem parseDescriptor_keeps {desc : Word} {bs : List Byte} : Keeps (parseDescriptor desc bs) := by
  unfold parseDescriptor
  dsimp only
  exact .bind badIf_keeps fun _ => .bind badIf_keeps fun _ => .bind badIf_keeps fun _ => .bind badIf_keeps fun _ =>
    .pure
theorem parsePacket_keeps {r : Reader} {mincl : Nat} {tvec mtvec : Word} {bs : List Byte} :
    Keeps (parsePacket r mincl tvec mtvec bs) := by
  unfold parsePacket
  dsimp only
  refine .bind badIf_keeps fun _ => .bind badIf_keeps fun _ => .bind badIf_keeps fun _ =>
    .bind readerXlat_keeps fun _ => .bind readerRead_keeps fun _ => .bind parseDescriptor_keeps fun _ =>
    .bind badIf_keeps fun _ => .bind ?_ fun _ => .bind ?_ fun _ => .pure
  · split
    · exact .pure
    · exact .bind readerXlat_keeps fun _ => .pure
  · split
    · exact .pure
    · exact .bind readerXlat_keeps fun _ => .pure
theorem dispatcherReads_inv {α : Type} {m : Reading α} {s : State} (hm : Keeps m) (hs : s.Inv) :
    (dispatcherReads m s).2.Inv := by
  unfold dispatcherReads
  split
  · exact .same ((hm _ hs).of_ok ‹_›)
  · exact .same ((hm _ hs).of_error ‹_›)
theorem readRing_inv {n : Nat} {s : State} (hs : s.Inv) : (readRing n s).2.Inv := by
  unfold readRing
  dsimp only
  exact dispatcherReads_inv (.bind readerRead_keeps fun _ => parsePacket_keeps) hs
theorem poisonSector_inv {a : Nat} {s : State} (hs : s.Inv) : (poisonSector a s).Inv := by
  unfold poisonSector
  split
  · exact .same hs
  · exact hs
theorem rejectPacket_inv {n : Nat} {e : PacketFail} {s : State} (hs : s.Inv) : (rejectPacket n e s).Inv := by
  unfold rejectPacket
  split
  · exact countUncorrectable_inv (.same (poisonSector_inv hs))
  · exact .same hs
theorem headPacket_inv {n : Nat} {s : State} (hs : s.Inv) : (headPacket n s).2.Inv := by
  unfold headPacket
  split
  · exact hs
  · split
    · exact (readRing_inv hs).of_snd ‹_›
    · split
      · exact (readRing_inv hs).of_snd ‹_›
      · exact rejectPacket_inv ((readRing_inv hs).of_snd ‹_›)
theorem readyPackets_inv {s : State} (hs : s.Inv) : (readyPackets s).2.Inv := by
  unfold readyPackets
  refine .foldl_snd (fun _ _ hs_1 => ?_) hs
  dsimp only
  split
  · exact hs_1
  · split <;> exact (headPacket_inv hs_1).of_snd ‹_›
theorem takePacket_inv {n : Nat} {p : Packet} {s : State} (hs : s.Inv) : (takePacket n p s).Inv := by
  unfold takePacket
  dsimp only
  exact .same hs
theorem dispatchPacket_inv {s : State} (hs : s.Inv) : (dispatchPacket s).Inv := by
  unfold dispatchPacket
  dsimp only
  split
  · exact readyPackets_inv hs
  · exact takePacket_inv (readyPackets_inv hs)
theorem packetWord_keeps {p : Packet} {va : Nat} {kind : AccKind} : Keeps (packetWord p va kind) := by
  unfold packetWord
  dsimp only
  exact .bind readerXlat_keeps fun _ => .pure
theorem readDependence_inv {n : Nat} {s : State} (hs : s.Inv) : (readDependence n s).Inv := by
  unfold readDependence
  split
  · exact hs
  · split
    · split
      · exact (headPacket_inv hs).of_snd ‹_›
      · split
        · split
          · split
            · exact .same ((physRead_inv ((dispatcherReads_inv packetWord_keeps ((headPacket_inv hs).of_snd
                ‹_›)).of_snd ‹_›)).of_ok_fst ‹_›)
            · exact (physRead_inv ((dispatcherReads_inv packetWord_keeps ((headPacket_inv hs).of_snd ‹_›)).of_snd
                ‹_›)).of_ok_fst ‹_›
          · exact (dispatcherReads_inv packetWord_keeps ((headPacket_inv hs).of_snd ‹_›)).of_snd ‹_›
        · exact (dispatcherReads_inv packetWord_keeps ((headPacket_inv hs).of_snd ‹_›)).of_snd ‹_›
    · exact (headPacket_inv hs).of_snd ‹_›
theorem setArbiter_inv {core g : Nat} {a : Arbiter} {s : State} (hs : s.Inv) : (setArbiter core g a s).Inv := by
  unfold setArbiter
  dsimp only
  exact .same hs
theorem joinGroup_inv {coord g : Nat} {s : State} (hs : s.Inv) : (joinGroup coord g s).Inv := by
  unfold joinGroup
  dsimp only
  exact setArbiter_inv hs
theorem passGroup_inv {coord g : Nat} {s : State} (hs : s.Inv) : (passGroup coord g s).Inv := by
  unfold passGroup
  dsimp only
  exact setArbiter_inv hs
theorem leaveGroups_inv {coord : Nat} {s : State} (hs : s.Inv) : (leaveGroups coord s).Inv := by
  unfold leaveGroups
  split
  · exact hs
  · refine .foldl (fun _ _ hs_1 => ?_) hs
    dsimp only
    exact setArbiter_inv (passGroup_inv hs_1)
theorem arbiterCycle_inv {core g : Nat} {ready : List Nat} {s : State} (hs : s.Inv) :
    (arbiterCycle core g ready s).Inv := by
  unfold arbiterCycle
  dsimp only
  split <;> exact setArbiter_inv hs
theorem startHart_inv {coord : Nat} {h : Hart} {s : State} (hs : s.Inv) : (startHart coord h s).Inv := by
  unfold startHart
  dsimp only
  exact .foldl (fun _ _ hs_1 => joinGroup_inv hs_1) (.same (setHart_inv hs))
theorem placeLaunch_inv {n : Nat} {l : Launch} {o at' : Nat} {gs : List Nat} {s : State} (hs : s.Inv) :
    (placeLaunch n l o at' gs s).Inv := by
  unfold placeLaunch
  dsimp only
  exact .foldl (fun _ _ hs_1 => startHart_inv hs_1) (.same hs)
theorem finishLaunch_inv {n : Nat} {s : State} (hs : s.Inv) : (finishLaunch n s).Inv := by
  unfold finishLaunch
  split
  · exact hs
  · split
    · exact hs
    · dsimp only
      split
      · exact .same hs
      · split
        · exact (dispatcherReads_inv packetWord_keeps hs).of_snd ‹_›
        · exact .same (countUncorrectable_inv (poisonSector_inv ((dispatcherReads_inv packetWord_keeps hs).of_snd ‹_›)))
        · exact .same ((dispatcherReads_inv packetWord_keeps hs).of_snd ‹_›)
        · split
          · exact (dispatcherReads_inv packetWord_keeps hs).of_snd ‹_›
          · exact .same ((dispatcherReads_inv packetWord_keeps hs).of_snd ‹_›)
          · split
            · exact .same ((physRead_inv ((dispatcherReads_inv packetWord_keeps hs).of_snd ‹_›)).of_ok_fst ‹_›)
            · exact .same ((physWrite_inv ((physRead_inv ((dispatcherReads_inv packetWord_keeps hs).of_snd
                ‹_›)).of_ok_fst ‹_›)).of_ok_fst ‹_›)
theorem execDispatchPacket_inv {s : State} (hs : s.Inv) : ResultInv (execDispatchPacket s) :=
  dispatchPacket_inv hs
theorem execDependenceRead_inv {o : QueueArgs} {s : State} (hs : s.Inv) : ResultInv (execDependenceRead o s) :=
  readDependence_inv hs
theorem execPlaceUnit_inv {o : PlaceArgs} {s : State} (hs : s.Inv) : ResultInv (execPlaceUnit o s) := by
  unfold execPlaceUnit
  split
  · change State.Inv _
    split
    · exact placeLaunch_inv hs
    · exact hs
  · exact hs
theorem execLaunchDoneAdd_inv {o : LaunchArgs} {s : State} (hs : s.Inv) : ResultInv (execLaunchDoneAdd o s) :=
  finishLaunch_inv hs
theorem execLaneGroupArbitration_inv {o : ArbiterArgs} {s : State} (hs : s.Inv) :
    ResultInv (execLaneGroupArbitration o s) :=
  arbiterCycle_inv hs
theorem loadWord_inv {code n : Nat} {natural : Bool} {o : LArgs} {s : State} (hs : s.Inv) :
    ResultInv (loadWord code n natural o s) := by
  unfold loadWord
  refine issue_inv (andNext_keeps (.bind getH_keeps fun _ => ?_)) .pure .pure .pure hs
  dsimp only
  split
  · exact .bind loadBytes_keeps fun _ => writeD_keeps
  · exact .bind counterRoom_keeps fun _ => .bind translateRange_keeps fun _ => .bind plainChecks_keeps fun _ =>
      .bind watermark_keeps fun _ => .bind loadCommits_keeps fun _ => .get fun _ _ =>
      .bind readValue_keeps fun _ => .bind addOp_keeps fun _ => modH_keeps
theorem storeWord_inv {code n : Nat} {o : LArgs} {s : State} (hs : s.Inv) : ResultInv (storeWord code n o s) := by
  unfold storeWord
  refine issue_inv (andNext_keeps (.bind getH_keeps fun _ => ?_)) .pure .pure .pure hs
  dsimp only
  refine .bind counterRoom_keeps fun _ => .bind storeBytes_keeps fun _ => ?_
  split
  · exact addOp_keeps
  · exact .pure
theorem execCLdd_inv {o : KArgs} {s : State} (hs : s.Inv) : ResultInv (execCLdd o s) :=
  issue_inv (andNext_keeps (.bind getH_keeps fun _ => .bind loadBytes_keeps fun _ => writeD_keeps)) .pure .pure .pure hs
theorem execCStd_inv {o : KArgs} {s : State} (hs : s.Inv) : ResultInv (execCStd o s) :=
  issue_inv (andNext_keeps (.bind getH_keeps fun _ => .bind storeBytes_keeps fun _ => .pure)) .pure .pure .pure hs
theorem aChecked_keeps {va n : Nat} {kind : AccKind} : Keeps (aChecked va n kind) := by
  unfold aChecked
  refine .bind translate_keeps fun _ => ?_
  extract_lets jp
  have hjp : ∀ x, Keeps (jp x) := fun _ => .bind require_keeps fun _ => .pure
  split
  · exact .bind trapWith_keeps fun _ => hjp ()
  · exact hjp ()
theorem aTranslate_keeps {va n : Nat} {kind : AccKind} : Keeps (aTranslate va n kind) :=
  .bind aChecked_keeps fun _ => .bind watermark_keeps fun _ => .pure
theorem acquireRead_keeps {va n : Nat} {x : Xlat} : Keeps (acquireRead va n x) := by
  unfold acquireRead
  refine .bind loadCommits_keeps fun _ => .get fun _ _ => .bind readParts_keeps fun _ => ?_
  dsimp only
  split
  · exact .throw
  · exact .pure
theorem execLdacq_inv {o : AArgs} {s : State} (hs : s.Inv) : ResultInv (execLdacq o s) := by
  unfold execLdacq
  refine issue_inv (andNext_keeps (.bind getH_keeps fun _ => ?_)) .pure .pure .pure hs
  dsimp only
  exact .bind aTranslate_keeps fun _ => .bind acquireRead_keeps fun _ => writeD_keeps
theorem execStrel_inv {o : AArgs} {s : State} (hs : s.Inv) : ResultInv (execStrel o s) := by
  unfold execStrel
  refine issue_inv (andNext_keeps (.bind getH_keeps fun _ => ?_)) .pure .pure .pure hs
  dsimp only
  exact .bind aTranslate_keeps fun _ => .bind performEarlier_keeps fun _ => .get fun _ _ => writeNow_keeps
theorem execLdl_inv {o : AArgs} {s : State} (hs : s.Inv) : ResultInv (execLdl o s) := by
  unfold execLdl
  refine issue_inv (andNext_keeps (.bind getH_keeps fun _ => ?_)) .pure .pure .pure hs
  dsimp only
  exact .bind aTranslate_keeps fun _ => .bind acquireRead_keeps fun _ => .bind modH_keeps fun _ => writeD_keeps
theorem linkHolds_keeps {line : Nat} : Keeps (linkHolds line) :=
  .bind getH_keeps fun _ => .pure
theorem execStc_inv {o : AArgs} {s : State} (hs : s.Inv) : ResultInv (execStc o s) := by
  unfold execStc
  refine issue_inv (andNext_keeps (.bind getH_keeps fun _ => ?_)) .pure .pure .pure hs
  extract_lets va
  refine .bind aChecked_keeps fun _ => .bind linkHolds_keeps fun _ => ?_
  extract_lets jp
  have hjp : ∀ x, Keeps (jp x) := by
    intro _
    refine .bind linkHolds_keeps fun _ => ?_
    extract_lets jp1
    have hjp1 : ∀ x, Keeps (jp1 x) := fun _ => .bind modH_keeps fun _ => writeD_keeps
    split
    · exact .get fun _ _ => .bind writeNow_keeps fun _ => hjp1 ()
    · exact hjp1 ()
  split
  · exact .bind watermark_keeps fun _ => .bind performEarlier_keeps fun _ => hjp ()
  · exact .bind commit_keeps fun _ => hjp ()
end Sys2Proof.Machine
end

section
namespace Sys2Proof.Machine

/-! Vector words without memory: integer, floating point, masks, moves, conversions, reductions and merges
(R199 to R232). -/

theorem setRing_inv {ring : Nat} {rows : List VRow} {s : State} (hs : s.Inv) : (setRing ring rows s).Inv := by
  unfold setRing
  dsimp only
  exact .same hs
theorem writeGroup_inv {maxvl : Nat} {g : Group} {rows : List Wide} {s : State} (hs : s.Inv) :
    (writeGroup maxvl g rows s).Inv := by
  unfold writeGroup
  split
  · exact setRing_inv (.same hs)
  · exact .same hs
  · exact hs
theorem popHeads_inv {gs : List Group} {s : State} (hs : s.Inv) : (popHeads gs s).Inv := by
  unfold popHeads
  refine .foldl (fun _ _ hs_1 => ?_) hs
  dsimp only
  exact setRing_inv hs_1
theorem queueHere_keeps : Keeps queueHere := by
  unfold queueHere
  refine .bind getH_keeps fun _ => ?_
  split
  · exact waitFor_keeps
  · exact .pure
theorem ringsReady_keeps {reads : List Group} {writes : List Group} : Keeps (ringsReady reads writes) := by
  unfold ringsReady
  refine .bind queueHere_keeps fun _ => .get fun _ _ => ?_
  extract_lets ready jp jp1
  have hjp : ∀ x, Keeps (jp x) := by
    intro _
    unfold jp
    split
    · exact commit_keeps
    · exact .pure
  have hjp1 : ∀ x, Keeps (jp1 x) := by
    intro _
    unfold jp1
    split
    · exact .bind commit_keeps fun _ => .bind waitFor_keeps fun _ => hjp ()
    · exact hjp ()
  split
  · exact .bind waitFor_keeps fun _ => hjp1 ()
  · exact hjp1 ()
theorem acceptType_keeps {ok : Bool} {v : VType} : Keeps (acceptType ok v) :=
  require_keeps
theorem xData_keeps {h : Hart} {v : VType} {b : BitVec 5} : Keeps (xData h v b) :=
  .bind acceptType_keeps fun _ => .pure
theorem putRows_keeps {maxvl : Nat} {d : Group} {reads : List Group} {rows : List Wide → List Wide} {flags : Nat} :
    Keeps (putRows maxvl d reads rows flags) := by
  unfold putRows
  refine .get fun _ _ => ?_
  extract_lets out jp
  have hjp : ∀ x, Keeps (jp x) := fun _ => .bind (.update fun _ hs_1 => popHeads_inv hs_1) fun _ => modH_keeps
  refine .bind (.update fun _ hs_1 => writeGroup_inv hs_1) fun _ => ?_
  split
  · dsimp only
    exact .bind (.update fun _ hs_1 => writeGroup_inv hs_1) fun _ => hjp ()
  · exact hjp ()
theorem writePart_inv {maxvl : Nat} {g : Group} {rows : List Wide} {s : State} (hs : s.Inv) :
    (writePart maxvl g rows s).Inv := by
  unfold writePart
  split
  · exact .same hs
  · exact writeGroup_inv (.same hs)
theorem Loop.stopRows_inv {w : Loop} {d : Group} {k : Nat} {rows : List Wide} {s : State} (hs : s.Inv) :
    (Loop.stopRows w d k rows s).Inv := by
  unfold Loop.stopRows
  dsimp only
  split
  · exact .same (writePart_inv hs)
  · exact .same (writePart_inv (writePart_inv hs))
theorem Loop.stopAt_keeps {α : Type} {w : Loop} {d : Group} {k : Nat} {rows : List Wide → List Wide} {x : Exc} :
    Keeps (w.stopAt d k rows x : Act α) := by
  unfold Loop.stopAt
  refine .get fun _ _ => ?_
  extract_lets rewinds jp
  have hjp : ∀ x, Keeps (jp x) := fun _ => .throw
  split
  · exact .bind (.update fun _ hs_1 => Loop.stopRows_inv hs_1) fun _ => hjp ()
  · exact hjp ()
theorem rowWord_keeps {v rv : VType} {o : VArgs} {kept : Option Nat} {srcs : List Group}
    {f : List (Nat → Nat → Nat × Nat) → (Nat → BitVec 6) → List Wide → (Nat → Nat) → List (Wide × Nat × Nat)} :
    Keeps (rowWord v rv o kept srcs f) := by
  unfold rowWord
  refine .bind getH_keeps fun _ => ?_
  dsimp only
  exact .bind ringsReady_keeps fun _ => .get fun _ _ => .bind modH_keeps fun _ => putRows_keeps
theorem elementwiseIf_keeps {act : Nat → Nat → Bool} {v rv : VType} {n : Nat} {o : VArgs} {kept : Option Nat}
    {whole : Bool} {srcs : List Group} {op : List (Nat → Nat → Nat × Nat) → Nat → Nat → Nat → Option Elem} :
    Keeps (elementwiseIf act v rv n o kept whole srcs op) := by
  unfold elementwiseIf
  refine .get fun _ _ => ?_
  dsimp only
  exact rowWord_keeps
theorem elementwise_keeps {v : VType} {n : Nat} {o : VArgs} {kept : Option Nat} {whole : Bool} {srcs : List Group}
    {op : List (Nat → Nat → Nat × Nat) → Nat → Nat → Nat → Option Elem} :
    Keeps (elementwise v n o kept whole srcs op) :=
  .bind getH_keeps fun _ => elementwiseIf_keeps
theorem vWordOf_inv {i : Info} {o : VArgs} {dstRead : Bool} {srcs : Hart → VType → List Source}
    {body : VType → Act Unit} {s : State} {later : Act Unit} (hbody : ∀ x, Keeps (body x)) (hlater : Keeps later)
    (hs : s.Inv) :
    ResultInv (vWordOf i o dstRead srcs body s later) := by
  unfold vWordOf
  dsimp only
  exact issue_inv (andNext_keeps (hbody _)) (.bind getH_keeps fun _ => .bind getH_keeps fun _ =>
    require_keeps) (.bind getH_keeps fun _ => .bind getH_keeps fun _ => require_keeps) hlater hs
theorem intWord_inv {major func : Nat} {nat : Bool} {f : Nat → Nat → Nat → Nat} {o : VArgs} {s : State}
    (hs : s.Inv) :
    ResultInv (intWord major func nat f o s) := by
  unfold intWord
  refine vWordOf_inv (fun _ => .bind acceptType_keeps fun _ => .bind getH_keeps fun _ => ?_) .pure hs
  extract_lets jp
  have hjp : ∀ x, Keeps (jp x) := fun _ => elementwise_keeps
  split
  · exact .bind xData_keeps fun _ => hjp _
  · exact .bind .pure fun _ => hjp _
theorem unaryIntWord_inv {major func : Nat} {f : Nat → Nat → Nat → Nat} {o : VArgs} {s : State} (hs : s.Inv) :
    ResultInv (unaryIntWord major func f o s) :=
  vWordOf_inv (fun _ => .bind acceptType_keeps fun _ => .bind getH_keeps fun _ => elementwise_keeps) .pure hs
theorem floatSlot_keeps {v : VType} : Keeps (floatSlot v) := by
  unfold floatSlot
  split
  · exact .pure
  · exact trapWith_keeps
theorem fpWord_inv {major func : Nat} {l : VArgs → Bool} {f : VType → Fmt → Nat → Nat → Nat → Nat → Elem}
    {o : VArgs} {s : State} (hs : s.Inv) :
    ResultInv (fpWord major func l f o s) := by
  unfold fpWord
  refine vWordOf_inv (fun _ => .bind floatSlot_keeps fun _ => .get fun _ _ => ?_) .pure hs
  dsimp only
  exact elementwise_keeps
theorem fpUnary_inv {major func : Nat} {l : Bool} {f : VType → Fmt → Nat → Nat → Nat → Elem} {o : VArgs}
    {s : State} (hs : s.Inv) :
    ResultInv (fpUnary major func l f o s) := by
  unfold fpUnary
  refine vWordOf_inv (fun _ => .bind floatSlot_keeps fun _ => .get fun _ _ => ?_) .pure hs
  dsimp only
  exact elementwise_keeps
theorem addWord_inv {func : Nat} {op : Rnd → Val → Val → Val × Nat} {o : VArgs} {s : State} (hs : s.Inv) :
    ResultInv (addWord func op o s) := by
  unfold addWord
  refine vWordOf_inv (fun _ => .bind floatSlot_keeps fun _ => .get fun _ _ => ?_) .pure hs
  dsimp only
  exact elementwise_keeps
theorem fmaWord_inv {func : Nat} {negP negD : Bool} {o : VArgs} {s : State} (hs : s.Inv) :
    ResultInv (fmaWord func negP negD o s) := by
  unfold fmaWord
  refine vWordOf_inv (fun _ => .bind floatSlot_keeps fun _ => .get fun _ _ => ?_) .pure hs
  dsimp only
  exact elementwise_keeps
theorem execVfmin_inv {o : VArgs} {s : State} (hs : s.Inv) : ResultInv (execVfmin o s) :=
  fpWord_inv hs
theorem execVfmax_inv {o : VArgs} {s : State} (hs : s.Inv) : ResultInv (execVfmax o s) :=
  fpWord_inv hs
theorem writeMask_keeps {w : Loop} {d : Nat} {f : Nat → Nat → Bool × Nat} : Keeps (writeMask w d f) :=
  modH_keeps
theorem compareWord_inv {major : Nat} {accepts : VType → Bool} {f : VType → Nat → Nat → Bool × Nat} {o : VCmpArgs}
    {s : State} (hs : s.Inv) :
    ResultInv (compareWord major accepts f o s) := by
  unfold compareWord
  dsimp only
  refine issue_inv (andNext_keeps (.bind acceptType_keeps fun _ => .bind getH_keeps fun _ =>
    ?_)) (.bind getH_keeps fun _ => .bind getH_keeps fun _ => require_keeps) .pure .pure hs
  split
  · exact .bind xData_keeps fun _ => .bind ringsReady_keeps fun _ => .get fun _ _ =>
      .bind writeMask_keeps fun _ => .update fun _ hs_2 => popHeads_inv hs_2
  · exact .bind .pure fun _ => .bind ringsReady_keeps fun _ => .get fun _ _ => .bind writeMask_keeps fun _ =>
      .update fun _ hs_2 => popHeads_inv hs_2
theorem execVfcmp_inv {o : VCmpArgs} {s : State} (hs : s.Inv) : ResultInv (execVfcmp o s) :=
  compareWord_inv hs
theorem klogWord_inv {func : Nat} {f : Bool → Bool → Bool} {o : VArgs} {s : State} (hs : s.Inv) :
    ResultInv (klogWord func f o s) := by
  unfold klogWord
  refine issue_inv (andNext_keeps (.bind queueHere_keeps fun _ => .bind getH_keeps fun _ => ?_)) .pure .pure .pure hs
  dsimp only
  exact writeMask_keeps
theorem kcountWord_inv {func : Nat} {f : List Nat → Word} {o : VArgs} {s : State} (hs : s.Inv) :
    ResultInv (kcountWord func f o s) :=
  issue_inv (andNext_keeps (.bind getH_keeps fun _ => .bind writeD_keeps fun _ =>
    modH_keeps)) .pure .pure (.bind getH_keeps fun _ => require_keeps) hs
theorem moveWord_inv {func : Nat} {srcs : List (BitVec 5)} {same l whole : Bool}
    {op : VType → Nat → Nat → List (Nat → Nat → Nat × Nat) → Nat → Nat → Nat → Option Elem} {o : VArgs}
    {s : State} (hs : s.Inv) :
    ResultInv (moveWord func srcs same l whole op o s) := by
  unfold moveWord
  refine vWordOf_inv (fun _ => .get fun _ _ => ?_) .pure hs
  dsimp only
  exact elementwise_keeps
theorem execVmvX_inv {o : VArgs} {s : State} (hs : s.Inv) : ResultInv (execVmvX o s) :=
  vWordOf_inv (fun _ => .bind getH_keeps fun _ => .bind xData_keeps fun _ => elementwise_keeps) .pure hs
theorem execVsel_inv {o : VArgs} {s : State} (hs : s.Inv) : ResultInv (execVsel o s) :=
  vWordOf_inv (fun _ => .bind getH_keeps fun _ => elementwiseIf_keeps) .pure hs
theorem execVslideup_inv {o : VArgs} {s : State} (hs : s.Inv) : ResultInv (execVslideup o s) :=
  moveWord_inv hs
theorem execVgathr_inv {o : VArgs} {s : State} (hs : s.Inv) : ResultInv (execVgathr o s) :=
  moveWord_inv hs
theorem execVcompr_inv {o : VArgs} {s : State} (hs : s.Inv) : ResultInv (execVcompr o s) := by
  unfold execVcompr
  refine vWordOf_inv (fun _ => .bind getH_keeps fun _ => ?_) .pure hs
  dsimp only
  exact rowWord_keeps
theorem execViota_inv {o : VArgs} {s : State} (hs : s.Inv) : ResultInv (execViota o s) :=
  vWordOf_inv (fun _ => .bind acceptType_keeps fun _ => .bind getH_keeps fun _ => elementwise_keeps) .pure hs
theorem execVexts_inv {o : VArgs} {s : State} (hs : s.Inv) : ResultInv (execVexts o s) := by
  unfold execVexts
  dsimp only
  exact issue_inv (andNext_keeps (.bind acceptType_keeps fun _ => .bind ringsReady_keeps fun _ => .get fun _ _ =>
    .bind writeD_keeps fun _ => .bind (.update fun _ hs_2 => popHeads_inv hs_2) fun _ =>
    modH_keeps)) (.bind getH_keeps fun _ => require_keeps) .pure .pure hs
theorem spreadBlock_inv {v : VType} {name : Nat} {s : State} (hs : s.Inv) : (spreadBlock v name s).Inv := by
  unfold spreadBlock
  split
  · exact hs
  · dsimp only
    exact writeGroup_inv hs
theorem execVinss_inv {o : VArgs} {s : State} (hs : s.Inv) : ResultInv (execVinss o s) := by
  unfold execVinss
  refine vWordOf_inv (fun _ => .bind acceptType_keeps fun _ => ?_) .pure hs
  extract_lets d
  refine .bind getH_keeps fun _ => .bind ringsReady_keeps fun _ => ?_
  extract_lets j rows jp
  have hjp : ∀ x, Keeps (jp x) := fun _ => putRows_keeps
  split
  · exact .bind (.update fun _ hs_1 => spreadBlock_inv hs_1) fun _ => hjp ()
  · exact hjp ()
theorem execVtrn_inv {o : VArgs} {s : State} (hs : s.Inv) : ResultInv (execVtrn o s) := by
  unfold execVtrn
  refine vWordOf_inv (fun _ => .bind getH_keeps fun _ => ?_) .pure hs
  dsimp only
  exact elementwise_keeps
theorem convertVector_inv {func : Nat} {checks : Hart → VType → VType → Act Unit}
    {op : Hart → VType → VType → Nat → Nat → Nat → Elem} {o : VArgs} {s : State}
    (hchecks : ∀ x y z, Keeps (checks x y z)) (hs : s.Inv) :
    ResultInv (convertVector func checks op o s) := by
  unfold convertVector
  refine vWordOf_inv (fun _ => .bind getH_keeps fun _ => ?_) .pure hs
  dsimp only
  exact .bind require_keeps fun _ => .bind (hchecks _ _ _) fun _ => elementwiseIf_keeps
theorem execVcvt_inv {o : VArgs} {s : State} (hs : s.Inv) : ResultInv (execVcvt o s) :=
  convertVector_inv (fun _ _ _ => .bind acceptType_keeps fun _ => acceptType_keeps) hs
theorem bookReady_keeps {h : Hart} {v : VType} : Keeps (bookReady h v) :=
  require_keeps
theorem execVcbenc_inv {o : VArgs} {s : State} (hs : s.Inv) : ResultInv (execVcbenc o s) :=
  convertVector_inv (fun _ _ _ => .bind acceptType_keeps fun _ => .bind acceptType_keeps fun _ => bookReady_keeps) hs
theorem execVcbdec_inv {o : VArgs} {s : State} (hs : s.Inv) : ResultInv (execVcbdec o s) :=
  convertVector_inv (fun _ _ _ => .bind acceptType_keeps fun _ => .bind acceptType_keeps fun _ => bookReady_keeps) hs
theorem execVpack_inv {o : VArgs} {s : State} (hs : s.Inv) : ResultInv (execVpack o s) := by
  unfold execVpack
  refine vWordOf_inv (fun _ => .get fun _ _ => ?_) .pure hs
  dsimp only
  exact elementwise_keeps
theorem execVunpk_inv {o : VArgs} {s : State} (hs : s.Inv) : ResultInv (execVunpk o s) := by
  unfold execVunpk
  refine vWordOf_inv (fun _ => .get fun _ _ => ?_) .pure hs
  dsimp only
  exact elementwise_keeps
theorem reduceRows_keeps {v : VType} {o : VArgs} {srcs : List Group}
    {f : List (Nat → Nat → Nat × Nat) → Nat → List Nat → Nat × Nat} :
    Keeps (reduceRows v o srcs f) := by
  unfold reduceRows
  refine .bind getH_keeps fun _ => ?_
  dsimp only
  exact rowWord_keeps
theorem reductionWord_inv {func : Nat} {accepts : VType → Bool} {f : VType → Nat → List (Option Nat) → Nat × Nat}
    {o : VArgs} {s : State} (hs : s.Inv) :
    ResultInv (reductionWord func accepts f o s) := by
  unfold reductionWord
  refine vWordOf_inv (fun _ => .bind acceptType_keeps fun _ => .bind getH_keeps fun _ => ?_) .pure hs
  extract_lets jp
  have hjp : ∀ x, Keeps (jp x) := fun _ => reduceRows_keeps
  split
  · exact .bind xData_keeps fun _ => hjp _
  · exact .bind .pure fun _ => hjp _
theorem execVredo_inv {o : VArgs} {s : State} (hs : s.Inv) : ResultInv (execVredo o s) :=
  reductionWord_inv hs
theorem execVredt_inv {o : VArgs} {s : State} (hs : s.Inv) : ResultInv (execVredt o s) :=
  reductionWord_inv hs
theorem dotWord_inv {func : Nat} {f : Fmt → Nat → List (Option (Nat × Nat)) → Nat × Nat} {o : VArgs} {s : State}
    (hs : s.Inv) :
    ResultInv (dotWord func f o s) :=
  vWordOf_inv (fun _ => .bind acceptType_keeps fun _ => .bind getH_keeps fun _ => reduceRows_keeps) .pure hs
theorem execVdoto_inv {o : VArgs} {s : State} (hs : s.Inv) : ResultInv (execVdoto o s) :=
  dotWord_inv hs
theorem execVdott_inv {o : VArgs} {s : State} (hs : s.Inv) : ResultInv (execVdott o s) :=
  dotWord_inv hs
theorem specWord_inv {func : Nat} {o : VArgs} {s : State} (hs : s.Inv) : ResultInv (specWord func o s) :=
  vWordOf_inv (fun _ => .bind acceptType_keeps fun _ => .bind floatSlot_keeps fun _ => .bind getH_keeps fun _ =>
    elementwise_keeps) .pure hs
theorem mergeWord_inv {func least : Nat} {pick : Nat × Nat → Nat} {o : VArgs} {s : State} (hs : s.Inv) :
    ResultInv (mergeWord func least pick o s) := by
  unfold mergeWord
  refine vWordOf_inv (fun _ => .bind acceptType_keeps fun _ => .bind getH_keeps fun _ => ?_) .pure hs
  dsimp only
  exact .get fun _ _ => .bind rowWord_keeps fun _ => modH_keeps
theorem execVbsrch_inv {o : VArgs} {s : State} (hs : s.Inv) : ResultInv (execVbsrch o s) := by
  unfold execVbsrch
  refine vWordOf_inv (fun _ => .bind acceptType_keeps fun _ => .bind getH_keeps fun _ => ?_) .pure hs
  dsimp only
  exact elementwise_keeps
end Sys2Proof.Machine
end

section
namespace Sys2Proof.Machine

/-! Vector words with memory, tiles, vector configuration, and waveform words. -/

theorem memForm_keeps {v : VType} {o : MArgs} : Keeps (memForm v o) :=
  require_keeps
theorem checkElts_keeps {kind : AccKind} {v : VType} {plainOnly : Bool} {elts : List Elt} :
    Keeps (checkElts kind v plainOnly elts) := by
  unfold checkElts
  refine .bind (.mapM fun _ => .bind translateRange_keeps fun _ => .pure) fun _ => ?_
  extract_lets device bad jp
  have hjp : ∀ x, Keeps (jp x) := by
    intro _
    refine .bind getH_keeps fun _ => ?_
    dsimp only
    refine .bind require_keeps fun _ => ?_
    clear_value bad
    split
    · exact trapWith_keeps
    · exact .pure
  split
  · exact .bind trapWith_keeps fun _ => hjp ()
  · exact hjp ()
theorem attempt_keeps {α : Type} {a : Act α} (ha : Keeps a) : Keeps (attempt a) := by
  unfold attempt
  intro s hs
  dsimp only
  split
  · exact (ha _ hs).of_ok ‹_›
  · exact (ha _ hs).of_error ‹_›
theorem inOrder_keeps {α : Type} {f : Elt → Act α} {elts : List Elt} (hf : ∀ e, Keeps (f e)) :
    Keeps (inOrder f elts) := by
  induction elts with
  | nil => exact .pure
  | cons e es ih =>
    unfold inOrder
    refine .bind (attempt_keeps (hf _)) fun _ => ?_
    split
    · exact .pure
    · refine .bind ih fun _ => ?_
      dsimp only
      exact .pure
theorem loadElt_keeps {cls : Option Nat} {linked : Bool} {e : Elt} : Keeps (loadElt cls linked e) := by
  unfold loadElt
  refine .bind translateRange_keeps fun _ => ?_
  extract_lets jp
  have hjp : ∀ x, Keeps (jp x) := by
    intro _
    refine .bind loadCommits_keeps fun _ => .get fun _ _ => .bind readParts_keeps fun _ => ?_
    split
    split
    · exact .throw
    · extract_lets jp1
      have hjp1 : ∀ x, Keeps (jp1 x) := fun _ => .pure
      split
      · exact .bind modH_keeps fun _ => hjp1 ()
      · exact hjp1 ()
  split
  · exact .bind watermark_keeps fun _ => hjp ()
  · exact hjp ()
theorem finishLoad_keeps {w : Loop} {d : Group} {reads : List Group} {got : List (Elt × Nat)}
    {stop : Option (Nat × Exc)} :
    Keeps (finishLoad w d reads got stop) := by
  unfold finishLoad
  dsimp only
  split
  · exact putRows_keeps
  · exact Loop.stopAt_keeps
theorem admitLinked_keeps {elts : List Elt} {pages : List (Nat × Nat × Nat)} : Keeps (admitLinked elts pages) := by
  unfold admitLinked
  refine .bind getH_keeps fun _ => ?_
  split
  · exact .pure
  · exact .bind (.forM fun _ => watermark_keeps) fun _ => .bind admitPins_keeps fun _ => modH_keeps
theorem loadBody_keeps {cls : Option Nat} {linked : Bool} {v : VType} {o : MArgs} :
    Keeps (loadBody cls linked v o) := by
  unfold loadBody
  refine .bind memForm_keeps fun _ => .bind getH_keeps fun _ => ?_
  extract_lets d reads first
  refine .bind ringsReady_keeps fun _ => .get fun _ _ => ?_
  extract_lets w elts jp
  have hjp : ∀ x, Keeps (jp x) := by
    intro _
    refine .bind (inOrder_keeps fun _ => loadElt_keeps) fun _ => ?_
    dsimp only
    exact .bind finishLoad_keeps fun _ => .update fun _ hs_1 => releasePins_inv hs_1
  refine .bind checkElts_keeps fun _ => ?_
  split
  · refine .bind admitLinked_keeps fun _ => ?_
    split
    · exact .bind modH_keeps fun _ => hjp ()
    · exact hjp ()
  · extract_lets jp1
    have hjp1 : ∀ x, Keeps (jp1 x) := fun _ => .bind admitPins_keeps fun _ => hjp ()
    split
    · exact .bind (.forM fun _ => watermark_keeps) fun _ => hjp1 ()
    · exact hjp1 ()
theorem loadWordV_inv {major : Nat} {o : MArgs} {body : VType → Act Unit} {s : State}
    (hbody : ∀ x, Keeps (body x)) (hs : s.Inv) :
    ResultInv (loadWordV major o body s) := by
  unfold loadWordV
  dsimp only
  exact issue_inv (andNext_keeps (hbody _)) (.bind getH_keeps fun _ => .bind getH_keeps fun _ =>
    require_keeps) (.bind getH_keeps fun _ => require_keeps) .pure hs
theorem storeNow_keeps {e : Elt} {parts : List (Nat × Nat × Xlat)} {bs mask : List Byte} :
    Keeps (storeNow e parts bs mask) := by
  unfold storeNow
  refine .foldlM fun _ _ => ?_
  dsimp only
  exact .get fun _ _ => .bind tryWriteOn_keeps fun _ => .pure
theorem storeElt_keeps {cls : Option Nat} {now : Bool} {v : VType} {srcs : List SrcRow} {e : Elt} :
    Keeps (storeElt cls now v srcs e) := by
  unfold storeElt
  refine .bind translateRange_keeps fun _ => .bind watermark_keeps fun _ => ?_
  dsimp only
  split
  · exact .bind storeNow_keeps fun _ => .pure
  · exact .bind storeParts_keeps fun _ => .pure
theorem storeBody_keeps {cls : Option Nat} {now : Bool} {last : Act Unit} {v : VType} {o : MArgs}
    (hlast : Keeps last) :
    Keeps (storeBody cls now last v o) := by
  unfold storeBody
  refine .bind memForm_keeps fun _ => ?_
  extract_lets src reads
  refine .bind ringsReady_keeps fun _ => .get fun _ _ => ?_
  extract_lets w elts rows jp
  have hjp : ∀ x, Keeps (jp x) := by
    intro _
    refine .bind (inOrder_keeps fun _ => storeElt_keeps) fun _ => ?_
    dsimp only
    split
    · exact .bind modH_keeps fun _ => .throw
    · exact .bind hlast fun _ => .bind (.update fun _ hs_1 => releasePins_inv hs_1) fun _ =>
        .bind (.update fun _ hs_1 => popHeads_inv hs_1) fun _ => modH_keeps
  refine .bind checkElts_keeps fun _ => .bind admitPins_keeps fun _ => ?_
  split
  · exact .bind performEarlier_keeps fun _ => hjp ()
  · exact hjp ()
theorem storeWordV_inv {major : Nat} {o : MArgs} {body : VType → Act Unit} {s : State}
    (hbody : ∀ x, Keeps (body x)) (hs : s.Inv) :
    ResultInv (storeWordV major o body s) := by
  unfold storeWordV
  dsimp only
  exact issue_inv (andNext_keeps (hbody _)) (.bind getH_keeps fun _ => .bind getH_keeps fun _ =>
    require_keeps) .pure .pure hs
theorem notify_keeps {v : VType} : Keeps (notify v) := by
  unfold notify
  refine .bind commit_keeps fun _ => .bind getH_keeps fun _ => ?_
  dsimp only
  refine .bind (attempt_keeps storeRelease_keeps) fun _ => ?_
  split
  · exact .bind modH_keeps fun _ => .throw
  · exact modH_keeps
theorem notifyReady_keeps : Keeps notifyReady :=
  .bind getH_keeps fun _ => require_keeps
theorem clusterChecks_keeps {v : VType} {o : MArgs} {rd wr : Bool} {elts : List Elt} :
    Keeps (clusterChecks v o rd wr elts) := by
  unfold clusterChecks
  refine .get fun _ _ => .forM fun _ => ?_
  split
  · exact trapWith_keeps
  · refine .bind require_keeps fun _ => ?_
    split
    · exact trapWith_keeps
    · exact .pure
theorem execVldcl_inv {o : MArgs} {s : State} (hs : s.Inv) : ResultInv (execVldcl o s) := by
  unfold execVldcl
  refine loadWordV_inv (fun _ => .bind require_keeps fun _ => .bind getH_keeps fun _ => ?_) hs
  dsimp only
  refine .bind ringsReady_keeps fun _ => .bind acquiresDone_keeps fun _ => .get fun _ _ =>
    .bind clusterChecks_keeps fun _ => .bind (inOrder_keeps fun _ => .get fun _ _ =>
    .bind loadCommits_keeps fun _ => .bind readParts_keeps fun _ => ?_) fun _ => finishLoad_keeps
  split
  · exact .throw
  · exact .pure
theorem execVstcl_inv {o : MArgs} {s : State} (hs : s.Inv) : ResultInv (execVstcl o s) := by
  unfold execVstcl
  refine storeWordV_inv (fun _ => .bind require_keeps fun _ => ?_) hs
  dsimp only
  exact .bind ringsReady_keeps fun _ => .bind acquiresDone_keeps fun _ => .get fun _ _ =>
    .bind clusterChecks_keeps fun _ => .bind performEarlier_keeps fun _ => .bind (.forM fun _ => .get fun _ hs_2 =>
    writeNow_keeps) fun _ => .bind (.update fun _ hs_2 => popHeads_inv hs_2) fun _ => modH_keeps
theorem execVscc_inv {o : MArgs} {s : State} (hs : s.Inv) : ResultInv (execVscc o s) := by
  unfold execVscc
  refine storeWordV_inv (fun _ => .bind memForm_keeps fun _ => ?_) hs
  dsimp only
  refine .bind ringsReady_keeps fun _ => .get fun _ _ => .bind checkElts_keeps fun _ =>
    .bind admitLinked_keeps fun _ => .bind performEarlier_keeps fun _ => .bind (inOrder_keeps fun _ =>
    .bind translateRange_keeps fun _ => .get fun _ hs_2 => ?_) fun _ => .bind modH_keeps fun _ => ?_
  · split
    · exact .bind storeNow_keeps fun _ => .pure
    · exact .pure
  · split
    · exact .bind modH_keeps fun _ => .throw
    · exact .bind (.update fun _ hs_2 => releasePins_inv hs_2) fun _ => .bind (.update fun _ hs_2 =>
        popHeads_inv hs_2) fun _ => modH_keeps
theorem tileForm_keeps {v : VType} {o : MArgs} : Keeps (tileForm v o) := by
  unfold tileForm
  split
  · split
    · exact .pure
    · exact trapWith_keeps
  · exact trapWith_keeps
theorem tileParts_keeps {va n : Nat} {kind : AccKind} : Keeps (tileParts va n kind) := by
  unfold tileParts
  refine .bind translateRange_keeps fun _ => ?_
  split
  · exact trapWith_keeps
  · exact .pure
theorem tileRead_keeps {cls va n : Nat} : Keeps (tileRead cls va n) := by
  unfold tileRead
  refine .bind tileParts_keeps fun _ => .bind watermark_keeps fun _ => .bind loadCommits_keeps fun _ =>
    .get fun _ _ => .bind readParts_keeps fun _ => ?_
  dsimp only
  split
  · exact .throw
  · exact .pure
theorem tileLoad_keeps {v : VType} {o : MArgs} : Keeps (tileLoad v o) := by
  unfold tileLoad
  refine .bind tileForm_keeps fun _ => .bind getH_keeps fun _ => ?_
  extract_lets n d _ w va cls at' e
  split
  · exact putRows_keeps
  · refine .bind require_keeps fun _ => .bind tileRead_keeps fun _ => ?_
    extract_lets hd nnz tag
    refine .bind require_keeps fun _ => .bind tileRead_keeps fun _ => ?_
    extract_lets map jp jp1
    have hjp : ∀ x, Keeps (jp x) := by
      intro _
      refine .bind require_keeps fun _ => ?_
      dsimp only
      exact .bind putRows_keeps fun _ => .update fun _ hs => releasePins_inv hs
    have hjp1 : ∀ x, Keeps (jp1 x) := by
      intro _
      unfold jp1
      split
      · exact .bind .pure fun _ => hjp _
      · exact .bind tileRead_keeps fun _ => hjp _
    refine .bind require_keeps fun _ => .bind tileParts_keeps fun _ => ?_
    split
    · exact .bind admitPins_keeps fun _ => hjp1 ()
    · exact hjp1 ()
theorem tileStore_keeps {now performed : Bool} {last : Act Unit} {v : VType} {o : MArgs} (hlast : Keeps last) :
    Keeps (tileStore now performed last v o) := by
  unfold tileStore
  refine .bind tileForm_keeps fun _ => .get fun _ _ => ?_
  extract_lets n va
  split
  · exact .bind hlast fun _ => .bind modH_keeps fun _ => .update fun _ hs_1 => releasePins_inv hs_1
  · refine .bind require_keeps fun _ => ?_
    split
    extract_lets bs jp
    have hjp : ∀ x, Keeps (jp x) := fun _ => .bind modH_keeps fun _ => .bind hlast fun _ => .bind modH_keeps fun _ =>
      .update fun _ hs_1 => releasePins_inv hs_1
    refine .bind tileParts_keeps fun _ => ?_
    extract_lets jp1
    have hjp1 : ∀ x, Keeps (jp1 x) := by
      intro _
      refine .bind watermark_keeps fun _ => ?_
      split
      · exact .bind performEarlier_keeps fun _ => .bind writeNowParts_keeps fun _ => hjp ()
      · refine .bind (.forM fun _ => ?_) fun _ => hjp ()
        dsimp only
        exact .bind translateRange_keeps fun _ => .bind storeParts_keeps fun _ => .pure
    split
    · exact .bind admitPins_keeps fun _ => hjp1 ()
    · exact hjp1 ()
theorem loadAny_keeps {o : MArgs} {v : VType} : Keeps (loadAny o v) := by
  unfold loadAny
  split
  · exact tileLoad_keeps
  · exact loadBody_keeps
theorem storeAny_keeps {now performed : Bool} {last : Act Unit} {o : MArgs} {v : VType} (hlast : Keeps last) :
    Keeps (storeAny now performed last o v) := by
  unfold storeAny
  split
  · exact tileStore_keeps hlast
  · exact storeBody_keeps hlast
theorem execVstn_inv {o : MArgs} {s : State} (hs : s.Inv) : ResultInv (execVstn o s) := by
  unfold execVstn
  refine storeWordV_inv (fun _ => ?_) hs
  extract_lets jp
  have hjp : ∀ x, Keeps (jp x) := fun _ => .bind notifyReady_keeps fun _ => .bind getH_keeps fun _ =>
    storeAny_keeps notify_keeps
  split
  · exact .bind memForm_keeps fun _ => hjp ()
  · exact hjp ()
theorem execVconf_inv {o : RArgs} {s : State} (hs : s.Inv) : ResultInv (execVconf o s) := by
  unfold execVconf
  refine issue_inv (andNext_keeps (.bind getH_keeps fun _ => ?_)) .pure .pure (.bind getH_keeps fun _ =>
    require_keeps) hs
  extract_lets jp
  have hjp : ∀ x, Keeps (jp x) := fun _ => modH_keeps
  split
  · exact .bind waitFor_keeps fun _ => hjp ()
  · exact hjp ()
theorem execVsetl_inv {o : RArgs} {s : State} (hs : s.Inv) : ResultInv (execVsetl o s) := by
  unfold execVsetl
  refine issue_inv (andNext_keeps (.bind getH_keeps fun _ => ?_)) .pure .pure .pure hs
  dsimp only
  exact .bind modH_keeps fun _ => .bind writeD_keeps fun _ => .update fun _ hs_1 => takeCheckpoint_inv hs_1
theorem claim_keeps {k : Nat} : Keeps (claim k) := by
  unfold claim
  refine .get fun _ hs => ?_
  split
  · exact .pure
  · dsimp only
    exact .bind (.set (.same hs)) fun _ => .pure
theorem execVclaim_inv {o : RArgs} {s : State} (hs : s.Inv) : ResultInv (execVclaim o s) := by
  unfold execVclaim
  refine issue_inv (andNext_keeps (.bind getH_keeps fun _ => ?_)) .pure .pure .pure hs
  dsimp only
  exact .bind claim_keeps fun _ => .bind modH_keeps fun _ => .bind writeD_keeps fun _ => .update fun _ hs_1 =>
    takeCheckpoint_inv hs_1
theorem execVclaimp_inv {o : RArgs} {s : State} (hs : s.Inv) : ResultInv (execVclaimp o s) := by
  unfold execVclaimp
  refine issue_inv (andNext_keeps (.bind getH_keeps fun _ => ?_)) .pure .pure .pure hs
  extract_lets v va jp
  have hjp : ∀ x, Keeps (jp x) := fun _ => .update fun _ hs_1 => takeCheckpoint_inv hs_1
  refine .bind acceptType_keeps fun _ => .bind require_keeps fun _ => .bind loadBytes_keeps fun _ => ?_
  dsimp only
  split
  · exact .bind modH_keeps fun _ => .bind writeD_keeps fun _ => hjp ()
  · exact .bind storeBytes_keeps fun _ => .bind modH_keeps fun _ => .bind writeD_keeps fun _ => hjp ()
theorem execVsett_inv {o : RArgs} {s : State} (hs : s.Inv) : ResultInv (execVsett o s) := by
  unfold execVsett
  refine issue_inv (andNext_keeps (.bind getH_keeps fun _ => ?_)) .pure .pure .pure hs
  dsimp only
  exact .bind require_keeps fun _ => modH_keeps
theorem readTable_keeps {va : Word} {n : Nat} : Keeps (readTable va n) := by
  unfold readTable
  dsimp only
  exact .bind getH_keeps fun _ => .bind checkElts_keeps fun _ => .bind admitPins_keeps fun _ => .mapM fun _ =>
    .bind loadElt_keeps fun _ => .pure
theorem execVcbld_inv {o : RArgs} {s : State} (hs : s.Inv) : ResultInv (execVcbld o s) := by
  unfold execVcbld
  refine issue_inv (andNext_keeps (.bind getH_keeps fun _ => ?_)) .pure .pure .pure hs
  dsimp only
  refine .bind require_keeps fun _ => .bind require_keeps fun _ => .bind readTable_keeps fun _ => ?_
  split
  · exact trapWith_keeps
  · exact .bind modH_keeps fun _ => .update fun _ hs_1 => releasePins_inv hs_1
theorem execWthset_inv {o : RArgs} {s : State} (hs : s.Inv) : ResultInv (execWthset o s) := by
  unfold execWthset
  refine issue_inv (andNext_keeps (.bind getH_keeps fun _ => ?_)) .pure .pure .pure hs
  dsimp only
  exact .bind require_keeps fun _ => modH_keeps
theorem waveForm_keeps {v : VType} {o : VArgs} : Keeps (waveForm v o) := by
  unfold waveForm
  split
  · split
    · exact .pure
    · exact trapWith_keeps
  · exact trapWith_keeps
theorem waveRows_keeps {v : VType} {o : VArgs} {tag : BitVec 6} {f : Option Nat → List Nat → List Nat × Nat} :
    Keeps (waveRows v o tag f) := by
  unfold waveRows
  refine .get fun _ _ => ?_
  dsimp only
  exact rowWord_keeps
theorem waveWord_inv {func : Nat} {o : VArgs} {body : VType → Act Unit} {s : State} (hbody : ∀ x, Keeps (body x))
    (hs : s.Inv) :
    ResultInv (waveWord func o body s) :=
  vWordOf_inv (fun _ => hbody _) .pure hs
theorem execWfwd_inv {o : VArgs} {s : State} (hs : s.Inv) : ResultInv (execWfwd o s) := by
  unfold execWfwd
  refine waveWord_inv (fun _ => .bind waveForm_keeps fun _ => .bind getH_keeps fun _ => ?_) hs
  dsimp only
  exact .bind require_keeps fun _ => waveRows_keeps
theorem execWinv_inv {o : VArgs} {s : State} (hs : s.Inv) : ResultInv (execWinv o s) :=
  waveWord_inv (fun _ => .bind waveForm_keeps fun _ => waveRows_keeps) hs
theorem execWtag_inv {o : VArgs} {s : State} (hs : s.Inv) : ResultInv (execWtag o s) := by
  unfold execWtag
  dsimp only
  exact issue_inv (andNext_keeps (.bind ringsReady_keeps fun _ => .get fun _ _ => .bind writeD_keeps fun _ =>
    .bind (.update fun _ hs_2 => popHeads_inv hs_2) fun _ => modH_keeps)) (.bind getH_keeps fun _ =>
    require_keeps) .pure .pure hs
theorem execWsettag_inv {o : VArgs} {s : State} (hs : s.Inv) : ResultInv (execWsettag o s) := by
  unfold execWsettag
  refine vWordOf_inv (fun _ => .bind getH_keeps fun _ => ?_) .pure hs
  dsimp only
  exact .bind require_keeps fun _ => .bind ringsReady_keeps fun _ => putRows_keeps
end Sys2Proof.Machine
end

section
namespace Sys2Proof.Machine

/-! Ports, synchronisation (R357 to R362), and the tuple space (R95 to R107). -/

theorem portLegal_keeps {func : Nat} {port : BitVec 5} : Keeps (portLegal func port) :=
  .bind getH_keeps fun _ => require_keeps
theorem execEnq_inv {o : RArgs} {s : State} (hs : s.Inv) : ResultInv (execEnq o s) := by
  unfold execEnq
  refine issue_inv (andNext_keeps (.get fun _ _ => ?_)) (.bind portLegal_keeps fun _ => .bind getH_keeps fun _ =>
    require_keeps) .pure .pure hs
  extract_lets x c t tgt jp jp1
  have hjp : ∀ x, Keeps (jp x) := by
    intro _
    refine .update fun _ hs_2 => ?_
    dsimp only
    exact .same hs_2
  have hjp1 : ∀ x, Keeps (jp1 x) := by
    intro _
    refine .update fun _ hs_2 => ?_
    dsimp only
    exact .same hs_2
  split
  · refine .bind require_keeps fun _ => .bind performEarlier_keeps fun _ => .get fun _ _ => ?_
    split
    · exact .bind waitFor_keeps fun _ => hjp ()
    · exact hjp ()
  · refine .bind performEarlier_keeps fun _ => .get fun _ _ => ?_
    split
    · exact .bind waitFor_keeps fun _ => hjp ()
    · exact hjp ()
theorem popPort_inv {s : State} (hs : s.Inv) : OptionInv ((popPort s).map Prod.snd) := by
  unfold popPort
  dsimp only
  split <;> split
  · exact .nothing
  · exact .next (.same hs)
  · exact .nothing
  · exact .next (.same hs)
theorem blockingRoom_keeps : Keeps blockingRoom := by
  unfold blockingRoom
  refine .get fun _ _ => ?_
  split
  · exact waitFor_keeps
  · exact .pure
theorem execDeq_inv {o : RArgs} {s : State} (hs : s.Inv) : ResultInv (execDeq o s) := by
  unfold execDeq
  refine issue_inv (andNext_keeps (.bind counterRoom_keeps fun _ => .bind blockingRoom_keeps fun _ =>
    .bind commit_keeps fun _ => ?_)) portLegal_keeps .pure .pure hs
  split
  · exact addOp_keeps
  · refine .bind getH_keeps fun _ => ?_
    extract_lets jp
    have hjp : ∀ x, Keeps (jp x) := by
      intro _
      refine .get fun _ hs_1 => ?_
      split
      · exact waitFor_keeps
      · exact .bind (.set ((popPort_inv hs_1).of_some_snd ‹_›)) fun _ => writeD_keeps
    split
    · exact .bind waitFor_keeps fun _ => hjp ()
    · exact hjp ()
theorem execVenq_inv {o : RArgs} {s : State} (hs : s.Inv) : ResultInv (execVenq o s) := by
  unfold execVenq
  dsimp only
  refine issue_inv (andNext_keeps (.bind getH_keeps fun _ => ?_)) (.bind portLegal_keeps fun _ =>
    .bind getH_keeps fun _ => require_keeps) .pure .pure hs
  split
  · exact trapWith_keeps
  · refine .bind require_keeps fun _ => .bind ringsReady_keeps fun _ => .bind performEarlier_keeps fun _ =>
      .get fun _ _ => ?_
    split
    · exact .bind waitFor_keeps fun _ => .bind (.update fun _ hs_2 => setQuad_inv hs_2) fun _ =>
        .bind (.update fun _ hs_2 => popHeads_inv hs_2) fun _ => modH_keeps
    · exact .bind (.update fun _ hs_2 => setQuad_inv hs_2) fun _ => .bind (.update fun _ hs_2 =>
        popHeads_inv hs_2) fun _ => modH_keeps
theorem execVdeq_inv {o : RArgs} {s : State} (hs : s.Inv) : ResultInv (execVdeq o s) := by
  unfold execVdeq
  dsimp only
  refine issue_inv (andNext_keeps (.bind getH_keeps fun _ => .bind ringsReady_keeps fun _ =>
    .bind commit_keeps fun _ => .get fun _ _ => ?_)) (.bind portLegal_keeps fun _ => .bind getH_keeps fun _ =>
    require_keeps) (.bind getH_keeps fun _ => require_keeps) .pure hs
  split
  · refine .bind waitFor_keeps fun _ => ?_
    split
    · exact .pure
    · exact .bind require_keeps fun _ => .bind (.update fun _ hs_2 => setQuad_inv hs_2) fun _ => putRows_keeps
  · split
    · exact .pure
    · exact .bind require_keeps fun _ => .bind (.update fun _ hs_2 => setQuad_inv hs_2) fun _ => putRows_keeps
theorem execQdrain_inv {o : RArgs} {s : State} (hs : s.Inv) : ResultInv (execQdrain o s) := by
  unfold execQdrain
  refine issue_inv (andNext_keeps (.bind readS_keeps fun _ => .bind require_keeps fun _ => .bind getH_keeps fun _ =>
    ?_)) .pure .pure (.bind getH_keeps fun _ => require_keeps) hs
  extract_lets role named mine
  refine .bind require_keeps fun _ => .bind crewNow_keeps fun _ => ?_
  extract_lets jp
  have hjp : ∀ x, Keeps (jp x) := by
    intro _
    unfold jp
    split
    · exact .bind commit_keeps fun _ => setCrewNow_keeps
    · exact .pure
  split
  · exact .bind commit_keeps fun _ => .bind waitFor_keeps fun _ => hjp ()
  · exact hjp ()
theorem execFence_inv {o : RArgs} {s : State} (hs : s.Inv) : ResultInv (execFence o s) := by
  unfold execFence
  refine issue_inv (andNext_keeps (.bind getH_keeps fun _ => ?_)) .pure .pure .pure hs
  extract_lets m before after jp jp1 jp2
  have hjp : ∀ x, Keeps (jp x) := by
    intro _
    unfold jp
    split
    · refine .bind commit_keeps fun _ => .get fun _ _ => ?_
      split
      · exact waitFor_keeps
      · exact .pure
    · exact .pure
  have hjp1 : ∀ x, Keeps (jp1 x) := fun _ => .bind bindLoads_keeps fun _ => hjp ()
  have hjp2 : ∀ x, Keeps (jp2 x) := by
    intro _
    unfold jp2
    split
    · exact .bind weightsRead_keeps fun _ => hjp1 ()
    · exact hjp1 ()
  refine .bind require_keeps fun _ => ?_
  split
  · refine .get fun _ _ => ?_
    split
    · exact .bind waitFor_keeps fun _ => hjp2 ()
    · exact hjp2 ()
  · exact hjp ()
theorem execEfence_inv {o : RArgs} {s : State} (hs : s.Inv) : ResultInv (execEfence o s) := by
  unfold execEfence
  refine issue_inv (.bind commit_keeps fun _ => .get fun _ _ => ?_) .pure .pure .pure hs
  extract_lets jp jp1
  have hjp : ∀ x, Keeps (jp x) := fun _ => .bind (.update fun _ hs_2 => takePendingError_inv hs_2) fun _ => .pure
  have hjp1 : ∀ x, Keeps (jp1 x) := by
    intro _
    refine .bind performEarlier_keeps fun _ => .bind getH_keeps fun _ => ?_
    split
    · exact .pure
    · refine .get fun _ _ => ?_
      split
      · exact .bind waitFor_keeps fun _ => hjp ()
      · exact hjp ()
  split
  · exact .bind waitFor_keeps fun _ => hjp1 ()
  · exact hjp1 ()
theorem progressRead_keeps {va : Nat} : Keeps (progressRead va) :=
  .bind require_keeps fun _ => .bind translate_keeps fun _ => .bind require_keeps fun _ =>
    .bind watermark_keeps fun _ => .bind commit_keeps fun _ => acquireRead_keeps
theorem execWaitge_inv {o : RArgs} {s : State} (hs : s.Inv) : ResultInv (execWaitge o s) := by
  unfold execWaitge
  refine issue_inv (andNext_keeps (.bind getH_keeps fun _ => ?_)) .pure .pure .pure hs
  dsimp only
  refine .bind progressRead_keeps fun _ => ?_
  split
  · exact waitFor_keeps
  · exact .pure
theorem execWaitdc_inv {o : RArgs} {s : State} (hs : s.Inv) : ResultInv (execWaitdc o s) := by
  unfold execWaitdc
  refine issue_inv (andNext_keeps (.bind getH_keeps fun _ => ?_)) .pure .pure .pure hs
  split
  · exact waitFor_keeps
  · exact .pure
theorem barrierNow_keeps {n : Nat} : Keeps (barrierNow n) :=
  .get fun _ _ => .pure
theorem setBarrierNow_keeps {n : Nat} {b : Barrier} : Keeps (setBarrierNow n b) := by
  unfold setBarrierNow
  refine .update fun _ hs => ?_
  dsimp only
  exact .same hs
theorem execBar_inv {o : RArgs} {s : State} (hs : s.Inv) : ResultInv (execBar o s) := by
  unfold execBar
  refine issue_inv (andNext_keeps (.bind readS_keeps fun _ => ?_)) .pure .pure .pure hs
  extract_lets n
  refine .bind require_keeps fun _ => .get fun _ _ => ?_
  extract_lets me jp
  have hjp : ∀ x, Keeps (jp x) := by
    intro _
    refine .bind barrierNow_keeps fun _ => ?_
    split
    · exact setBarrierNow_keeps
    · exact waitFor_keeps
  refine .bind barrierNow_keeps fun _ => ?_
  split
  · exact .bind performEarlier_keeps fun _ => .bind require_keeps fun _ => .bind setBarrierNow_keeps fun _ => hjp ()
  · exact hjp ()
theorem windowNow_keeps {w : Nat} : Keeps (windowNow w) :=
  .get fun _ _ => .pure
theorem setWindowNow_keeps {w : Nat} {d : Word} : Keeps (setWindowNow w d) := by
  unfold setWindowNow
  refine .update fun _ hs => ?_
  dsimp only
  exact .same hs
theorem execHgive_inv {o : RArgs} {s : State} (hs : s.Inv) : ResultInv (execHgive o s) := by
  unfold execHgive
  refine issue_inv (andNext_keeps (.bind getH_keeps fun _ => ?_)) .pure .pure .pure hs
  dsimp only
  exact .bind require_keeps fun _ => .bind require_keeps fun _ => .bind windowNow_keeps fun _ => .get fun _ _ =>
    .bind require_keeps fun _ => .bind performEarlier_keeps fun _ => setWindowNow_keeps
theorem execHtake_inv {o : RArgs} {s : State} (hs : s.Inv) : ResultInv (execHtake o s) := by
  unfold execHtake
  refine issue_inv (andNext_keeps (.bind readS_keeps fun _ => .bind require_keeps fun _ =>
    .bind commit_keeps fun _ => .bind windowNow_keeps fun _ => .get fun _ _ => ?_)) .pure .pure .pure hs
  extract_lets me jp
  have hjp : ∀ x, Keeps (jp x) := fun _ => setWindowNow_keeps
  split
  · exact .bind waitFor_keeps fun _ => hjp ()
  · exact hjp ()
theorem execWaitgeRecheck_inv {s : State} (hs : s.Inv) : ResultInv (execWaitgeRecheck s) := by
  unfold execWaitgeRecheck
  split
  · split
    · split <;> exact .same ((progressRead_keeps _ (.same hs)).of_ok ‹_›)
    · exact deliver_inv (.same ((progressRead_keeps _ (.same hs)).of_error ‹_›))
  · exact hs
theorem sendReply_inv {r : TupleReply} {s : State} (hs : s.Inv) : (sendReply r s).Inv :=
  .same hs
theorem readTuple_inv {g : Region} {t : Tuple} {s : State} (hs : s.Inv) : ExceptInv Prod.fst (readTuple g t s) := by
  unfold readTuple
  split
  · exact (physRead_inv hs).of_ok_fst ‹_›
  · exact trivial
theorem storedMatch_inv {q : TupleReq} {g : Region} {ts : List Tuple} {s : State} (hs : s.Inv) :
    ExceptInv Prod.fst (storedMatch q g ts s) := by
  induction ts generalizing s with
  | nil => exact hs
  | cons t ts ih =>
    unfold storedMatch
    split
    · exact trivial
    · split
      · exact (readTuple_inv hs).of_ok_fst ‹_›
      · exact ih ((readTuple_inv hs).of_ok_fst ‹_›)
theorem depositStep_inv {q : TupleReq} {g : Region} {s : State} (hs : s.Inv) : ExceptInv id (depositStep q g s) := by
  unfold depositStep
  dsimp only
  split
  · exact sendReply_inv (sendReply_inv (.foldl (fun _ _ hs_1 => sendReply_inv hs_1) hs))
  · exact sendReply_inv (.foldl (fun _ _ hs_1 => sendReply_inv hs_1) hs)
  · split
    · exact trivial
    · exact sendReply_inv (.foldl (fun _ _ hs_1 => sendReply_inv hs_1) (.same ((physWrite_inv hs).of_ok_fst ‹_›)))
theorem patternStep_inv {q : TupleReq} {g : Region} {s : State} (hs : s.Inv) : ExceptInv id (patternStep q g s) := by
  unfold patternStep
  split
  · exact trivial
  · dsimp only
    refine sendReply_inv ?_
    split
    · exact .same ((storedMatch_inv hs).of_ok_fst ‹_›)
    · exact (storedMatch_inv hs).of_ok_fst ‹_›
  · split
    · exact sendReply_inv ((storedMatch_inv hs).of_ok_fst ‹_›)
    · split
      · exact sendReply_inv ((storedMatch_inv hs).of_ok_fst ‹_›)
      · exact .same ((storedMatch_inv hs).of_ok_fst ‹_›)
theorem requestStep_inv {q : TupleReq} {s : State} (hs : s.Inv) : ExceptInv id (requestStep q s) := by
  unfold requestStep
  split
  · exact trivial
  · split
    · exact trivial
    · split
      · exact depositStep_inv hs
      · exact patternStep_inv hs
theorem tupleStep_inv {slice : Nat} {s : State} (hs : s.Inv) : (tupleStep slice s).Inv := by
  unfold tupleStep
  split
  · exact hs
  · split
    · exact (requestStep_inv hs).of_ok ‹_›
    · exact hs
    · exact sendReply_inv hs
theorem tupleWithdraw_inv {num : Nat} {s : State} (hs : s.Inv) : (tupleWithdraw num s).Inv := by
  unfold tupleWithdraw
  split
  · exact hs
  · exact sendReply_inv hs
theorem sendAgain_inv {q : TupleReq} {s : State} (hs : s.Inv) : (sendAgain q s).Inv :=
  .same hs
theorem landReply_inv {r : TupleReply} {s : State} (hs : s.Inv) : (landReply r s).Inv := by
  unfold landReply
  split
  · exact hs
  · dsimp only
    split
    · exact .same hs
    · split
      · exact .same hs
      · split
        · exact sendAgain_inv (.same hs)
        · exact setHart_inv (.same hs)
theorem handlePa_keeps {h : Word} : Keeps (handlePa h) :=
  .bind getH_keeps fun _ => .bind translateNow_keeps fun _ => .bind require_keeps fun _ => .pure
theorem sendRequest_keeps {func : Nat} {d : BitVec 5} {counter : Nat} {q : TupleReq} :
    Keeps (sendRequest func d counter q) := by
  unfold sendRequest
  refine .get fun _ _ => ?_
  dsimp only
  exact .bind (.update fun _ hs_1 => .same hs_1) fun _ => addOp_keeps
theorem tupleWord_inv {func : Nat} {o : RArgs} {s : State} (hs : s.Inv) : ResultInv (tupleWord func o s) := by
  unfold tupleWord
  refine issue_inv (andNext_keeps (.get fun _ _ => ?_)) .pure .pure .pure hs
  extract_lets h v ctl handle mask dc
  refine .bind require_keeps fun _ => .bind require_keeps fun _ => .bind require_keeps fun _ =>
    .bind require_keeps fun _ => .bind acquiresDone_keeps fun _ => .bind handlePa_keeps fun _ =>
    .bind counterRoom_keeps fun _ => ?_
  extract_lets jp jp1
  have hjp : ∀ x, Keeps (jp x) := by
    intro _
    refine .get fun _ _ => ?_
    dsimp only
    exact sendRequest_keeps
  have hjp1 : ∀ x, Keeps (jp1 x) := by
    intro _
    unfold jp1
    split
    · exact .bind performEarlier_keeps fun _ => hjp ()
    · exact .bind commit_keeps fun _ => hjp ()
  split
  · exact .bind blockingRoom_keeps fun _ => hjp1 ()
  · exact hjp1 ()
theorem regionPages_keeps {va n : Nat} : Keeps (regionPages va n) := by
  induction n generalizing va with
  | zero => exact .pure
  | succ n ih =>
    unfold regionPages
    exact .bind translateAs_keeps fun _ => .bind require_keeps fun _ => .get fun _ _ => .bind require_keeps fun _ =>
      .bind ih fun _ => .pure
theorem zeroPage_inv {p : Nat × Nat × Bool} {s : State} (hs : s.Inv) : (zeroPage p s).Inv := by
  unfold zeroPage
  refine .foldl (fun _ _ hs_1 => ?_) hs
  split
  · exact (physWrite_inv hs_1).of_ok_fst ‹_›
  · exact hs_1
theorem execTreg_inv {o : RArgs} {s : State} (hs : s.Inv) : ResultInv (execTreg o s) := by
  unfold execTreg
  refine issue_inv (andNext_keeps (.bind getH_keeps fun _ => ?_)) .pure .pure .pure hs
  extract_lets va n
  refine .bind require_keeps fun _ => .bind require_keeps fun _ => .bind regionPages_keeps fun _ =>
    .get fun _ _ => ?_
  extract_lets jp
  have hjp : ∀ x, Keeps (jp x) := by
    intro _
    refine .bind commit_keeps fun _ => .get fun _ _ => ?_
    split
    · exact writeD_keeps
    · refine .bind (.update fun _ hs_3 => ?_) fun _ => writeD_keeps
      dsimp only
      exact .same (.foldl (fun _ _ hs_4 => zeroPage_inv hs_4) hs_3)
  split
  · exact .bind trapWith_keeps fun _ => hjp ()
  · exact hjp ()
theorem freeRegion_inv {g : Region} {s : State} (hs : s.Inv) : (freeRegion g s).Inv := by
  unfold freeRegion
  dsimp only
  exact .foldl (fun _ _ hs_1 => sendReply_inv hs_1) (.same hs)
theorem execTfree_inv {o : RArgs} {s : State} (hs : s.Inv) : ResultInv (execTfree o s) := by
  unfold execTfree
  refine issue_inv (andNext_keeps (.bind readS_keeps fun _ => .bind require_keeps fun _ =>
    .bind handlePa_keeps fun _ => .bind commit_keeps fun _ => .get fun _ _ => ?_)) .pure .pure .pure hs
  dsimp only
  split
  · exact modH_keeps
  · split
    · exact waitFor_keeps
    · exact modH_keeps
    · exact .update fun _ hs_2 => freeRegion_inv hs_2
theorem execTupleRequestStep_inv {o : SliceArgs} {s : State} (hs : s.Inv) : ResultInv (execTupleRequestStep o s) :=
  tupleStep_inv hs
theorem execTupleWithdraw_inv {o : WithdrawArgs} {s : State} (hs : s.Inv) : ResultInv (execTupleWithdraw o s) :=
  tupleWithdraw_inv hs
theorem execTupleReply_inv {o : OpArgs} {s : State} (hs : s.Inv) : ResultInv (execTupleReply o s) := by
  unfold execTupleReply
  split
  · split
    · exact landReply_inv hs
    · exact hs
  · exact hs
end Sys2Proof.Machine
end

section
namespace Sys2Proof.Machine

/-! Tasks (R338 to R345), privileged words and migration, preemption and images. -/

theorem mailNow_keeps : Keeps mailNow :=
  .get fun _ _ => .pure
theorem setMail_inv {coord : Nat} {f : Mail → Mail} {s : State} (hs : s.Inv) : (setMail coord f s).Inv := by
  unfold setMail
  dsimp only
  exact .same hs
theorem modMail_keeps {f : Mail → Mail} : Keeps (modMail f) :=
  .update fun _ hs => setMail_inv hs
theorem answerSteal_inv {st : Steal} {f : Mail → Mail} {s : State} (hs : s.Inv) : (answerSteal st f s).Inv := by
  unfold answerSteal
  dsimp only
  split
  · exact setMail_inv hs
  · split
    · exact .same hs
    · exact hs
theorem execLaunch_inv {o : RArgs} {s : State} (hs : s.Inv) : ResultInv (execLaunch o s) := by
  unfold execLaunch
  refine issue_inv (andNext_keeps (.bind readS_keeps fun _ => .bind require_keeps fun _ =>
    .bind performEarlier_keeps fun _ => .bind loadBytes_keeps fun _ => .get fun _ hs_1 => ?_)) .pure .pure .pure hs
  extract_lets h r
  refine .bind require_keeps fun _ => ?_
  split
  · exact waitFor_keeps
  · exact .throw
  · exact .bind (.set ((parsePacket_keeps _ hs_1).of_error ‹_›)) fun _ => trapWith_keeps
  · refine .bind (.set ((parsePacket_keeps _ hs_1).of_ok ‹_›)) fun _ => ?_
    extract_lets n q jp
    have hjp : ∀ x, Keeps (jp x) := fun _ => .bind (.set (.same ((parsePacket_keeps _ hs_1).of_ok ‹_›))) fun _ =>
      writeD_keeps
    split
    · exact .bind waitFor_keeps fun _ => hjp ()
    · exact hjp ()
theorem dequeCheck_keeps {va : Nat} {kind : AccKind} : Keeps (dequeCheck va kind) := by
  unfold dequeCheck
  refine .bind translate_keeps fun _ => .get fun _ _ => ?_
  dsimp only
  exact require_keeps
theorem readRecord_keeps {va : Nat} : Keeps (readRecord va) :=
  .bind require_keeps fun _ => loadBytes_keeps
theorem writeRecord_keeps {va : Nat} {bs : List Byte} : Keeps (writeRecord va bs) :=
  .bind require_keeps fun _ => .bind storeBytes_keeps fun _ => .pure
theorem execSpawn_inv {o : RArgs} {s : State} (hs : s.Inv) : ResultInv (execSpawn o s) := by
  unfold execSpawn
  refine issue_inv (andNext_keeps (.bind readS_keeps fun _ => .bind readRecord_keeps fun _ =>
    .bind getH_keeps fun _ => .bind mailNow_keeps fun _ => ?_)) .pure .pure .pure hs
  split
  · exact .bind performEarlier_keeps fun _ => .bind modMail_keeps fun _ => .bind (.update fun _ hs_1 =>
      answerSteal_inv hs_1) fun _ => writeD_keeps
  · dsimp only
    split
    · exact .bind dequeCheck_keeps fun _ => .bind writeRecord_keeps fun _ => .bind commit_keeps fun _ =>
        .bind modH_keeps fun _ => writeD_keeps
    · exact .bind commit_keeps fun _ => writeD_keeps
theorem execSteal_inv {o : RArgs} {s : State} (hs : s.Inv) : ResultInv (execSteal o s) := by
  unfold execSteal
  refine issue_inv (andNext_keeps (.bind readS_keeps fun _ => .bind commit_keeps fun _ => .get fun _ _ =>
    ?_)) .pure .pure .pure hs
  dsimp only
  split
  · exact writeD_keeps
  · split
    · exact writeD_keeps
    · split
      · exact writeD_keeps
      · exact .bind (.update fun _ hs_2 => .same hs_2) fun _ => .bind modMail_keeps fun _ =>
          .bind (.update fun _ hs_2 => setMail_inv hs_2) fun _ => writeD_keeps
theorem execTaskget_inv {o : RArgs} {s : State} (hs : s.Inv) : ResultInv (execTaskget o s) := by
  unfold execTaskget
  refine issue_inv (andNext_keeps (.bind readS_keeps fun _ => ?_)) .pure .pure .pure hs
  extract_lets va jp
  have hjp : ∀ x, Keeps (jp x) := fun _ => .bind modMail_keeps fun _ => commit_keeps
  refine .bind require_keeps fun _ => .bind getH_keeps fun _ => .bind mailNow_keeps fun _ => ?_
  split
  · dsimp only
    exact .bind dequeCheck_keeps fun _ => .bind loadBytes_keeps fun _ => .bind writeRecord_keeps fun _ =>
      .bind modH_keeps fun _ => .bind writeD_keeps fun _ => hjp ()
  · split
    · exact .bind writeRecord_keeps fun _ => .bind modMail_keeps fun _ => .bind writeD_keeps fun _ => hjp ()
    · exact .bind writeD_keeps fun _ => hjp ()
theorem execYield_inv {o : RArgs} {s : State} (hs : s.Inv) : ResultInv (execYield o s) :=
  issue_inv (andNext_keeps (.bind commit_keeps fun _ => .update fun _ hs_1 => .foldl (fun _ _ hs_2 =>
    passGroup_inv hs_2) hs_1)) .pure .pure .pure hs
theorem withdrawAll_inv {s : State} (hs : s.Inv) : (withdrawAll s).Inv := by
  unfold withdrawAll
  dsimp only
  exact .same hs
theorem returnSteals_inv {s : State} (hs : s.Inv) : (returnSteals s).Inv :=
  .foldl (fun _ _ hs_1 => answerSteal_inv hs_1) (setMail_inv hs)
theorem hartRetired_inv {n : Nat} {s : State} (hs : s.Inv) : (hartRetired n s).Inv := by
  unfold hartRetired
  split
  · exact hs
  · dsimp only
    exact .same hs
theorem freeSlotNow_inv {s : State} (hs : s.Inv) : (freeSlotNow s).Inv := by
  unfold freeSlotNow
  dsimp only
  exact hartRetired_inv (.same (leaveGroups_inv (releasePins_inv (returnSteals_inv hs))))
theorem clearOwned_keeps : Keeps clearOwned := by
  unfold clearOwned
  refine .forM fun _ => .get fun _ _ => ?_
  dsimp only
  split
  · exact clearChannel_keeps
  · exact .pure
theorem execExit_inv {o : RArgs} {s : State} (hs : s.Inv) : ResultInv (execExit o s) := by
  unfold execExit
  refine issue_inv (.bind (.update fun _ hs_1 => withdrawAll_inv hs_1) fun _ => .get fun _ _ =>
    ?_) .pure .pure .pure hs
  extract_lets jp jp1
  have hjp : ∀ x, Keeps (jp x) := fun _ => .bind (.update fun _ hs_2 => takePendingError_inv hs_2) fun _ => .pure
  have hjp1 : ∀ x, Keeps (jp1 x) := by
    intro _
    refine .bind weightsRead_keeps fun _ => .bind (.update fun _ hs_2 => performStrip_inv hs_2) fun _ =>
      .get fun _ _ => ?_
    extract_lets jp2
    have hjp2 : ∀ x, Keeps (jp2 x) := by
      intro _
      unfold jp2
      split
      · refine .get fun _ hs_3 => ?_
        split
        · exact .bind waitFor_keeps fun _ => hjp ()
        · exact hjp ()
      · exact .bind clearOwned_keeps fun _ => .bind (.update fun _ hs_3 => freeSlotNow_inv hs_3) fun _ => .pure
    split
    · exact .bind waitFor_keeps fun _ => hjp2 ()
    · exact hjp2 ()
  split
  · exact .bind waitFor_keeps fun _ => hjp1 ()
  · exact hjp1 ()
theorem takeFree_inv {s : State} (hs : s.Inv) : (takeFree s).2.Inv :=
  .same hs
theorem dropEntries_inv {m : Nat × Nat × Nat → Bool} {s : State} (hs : s.Inv) : (dropEntries m s).Inv := by
  unfold dropEntries
  dsimp only
  exact .same hs
theorem execTlbi_inv {o : RArgs} {s : State} (hs : s.Inv) : ResultInv (execTlbi o s) := by
  unfold execTlbi
  refine issue_inv (andNext_keeps (.bind getH_keeps fun _ => ?_)) .pure .pure .pure hs
  dsimp only
  refine .bind require_keeps fun _ => .bind performEarlier_keeps fun _ => .bind (.update fun _ hs_1 =>
    dropEntries_inv hs_1) fun _ => .get fun _ _ => ?_
  split
  · split
    · split
      · exact waitFor_keeps
      · exact .pure
    · split
      · exact waitFor_keeps
      · exact .pure
  · split
    · split
      · exact waitFor_keeps
      · exact .pure
    · split
      · exact waitFor_keeps
      · exact .pure
theorem msqWord_inv {line : Nat} {s : State} (hs : s.Inv) : (msqWord line s).2.Inv := by
  unfold msqWord
  dsimp only
  split
  · exact hs
  · exact takeFree_inv hs
theorem execMsq_inv {o : RArgs} {s : State} (hs : s.Inv) : ResultInv (execMsq o s) := by
  unfold execMsq
  refine issue_inv (andNext_keeps (.bind readS_keeps fun _ => .bind translateAs_keeps fun _ =>
    .bind require_keeps fun _ => .bind require_keeps fun _ => .get fun _ _ => .bind require_keeps fun _ =>
    .bind performEarlier_keeps fun _ => .bind (.update fun _ hs_2 => writebackLine_inv hs_2) fun _ =>
    .get fun _ hs_2 => ?_)) .pure .pure .pure hs
  dsimp only
  exact .bind (.set (msqWord_inv hs_2)) fun _ => writeD_keeps
theorem storeImage_inv {line : Nat} {im : Image} {s : State} (hs : s.Inv) : (storeImage line im s).Inv := by
  unfold storeImage
  dsimp only
  exact .same hs
theorem migrateLine_inv {k : KeyPair} {src dst : Nat} {s : State} (hs : s.Inv) : (migrateLine k src dst s).Inv := by
  unfold migrateLine
  dsimp only
  exact storeImage_inv (dropLine_inv (settleStripe_inv (settleStripe_inv (writebackLine_inv hs))))
theorem startMigration_inv {old new leafAt asn va : Nat} {e : Word} {s : State} (hs : s.Inv) :
    (startMigration old new leafAt asn va e s).Inv := by
  unfold startMigration
  extract_lets key lines s1 s2 s3
  clear_value lines
  have hs1 : s1.Inv := .foldl (fun _ _ h => breakLinks_inv h) hs
  clear_value s1
  have hs2 : s2.Inv := by
    unfold s2
    split
    · exact .foldl (fun _ _ h => migrateLine_inv h) hs1
    · exact hs1
  clear_value s2
  have hs3 : s3.Inv := by
    unfold s3
    split
    · exact (physWrite_inv hs2).of_ok_fst ‹_›
    · exact hs2
  exact dropEntries_inv (.same hs3)
theorem execMigrate_inv {o : RArgs} {s : State} (hs : s.Inv) : ResultInv (execMigrate o s) := by
  unfold execMigrate
  refine issue_inv (andNext_keeps (.bind getH_keeps fun _ => ?_)) .pure .pure .pure hs
  extract_lets va dst v root
  refine .bind acquiresDone_keeps fun _ => .bind require_keeps fun _ => .bind (.get fun _ hs_1 => ?_) fun _ => ?_
  · split
    · exact .bind (.set ((walk_inv hs_1).of_ok_fst ‹_›)) fun _ => .pure
    · exact waitFor_keeps
    · exact trapWith_keeps
    · exact .throw
  · split
    refine .bind require_keeps fun _ => ?_
    split
    extract_lets old jp jp1
    have hjp : ∀ x, Keeps (jp x) := fun _ => .bind (.update fun _ hs_1 => startMigration_inv hs_1) fun _ =>
      waitFor_keeps
    have hjp1 : ∀ x, Keeps (jp1 x) := by
      intro _
      unfold jp1
      split
      · exact commit_keeps
      · refine .bind require_keeps fun _ => .bind require_keeps fun _ => .bind require_keeps fun _ =>
          .bind commit_keeps fun _ => .get fun _ _ => ?_
        split
        · exact .bind waitFor_keeps fun _ => hjp ()
        · exact hjp ()
    refine .get fun _ _ => ?_
    split
    · exact .bind commit_keeps fun _ => .bind waitFor_keeps fun _ => hjp1 ()
    · exact hjp1 ()
theorem endWrite_inv {pa : Nat} {bad : Option (Nat × Nat)} {w : HeldWrite} {s : State} (hs : s.Inv) :
    (endWrite pa bad w s).Inv := by
  unfold endWrite
  dsimp only
  split
  · split
    · exact setHart_inv hs
    · exact hs
  · refine endLanding_inv ?_
    split
    · exact setHart_inv hs
    · exact hs
  · refine answer_inv ?_
    split
    · exact setHart_inv hs
    · exact hs
theorem forwardHeld_inv {new : Nat} {w : HeldWrite} {s : State} (hs : s.Inv) : (forwardHeld new w s).Inv := by
  unfold forwardHeld
  dsimp only
  split
  · exact endWrite_inv ((writeMasked_inv hs).of_ok_fst ‹_›)
  · exact endWrite_inv hs
theorem endMigration_inv {old : Nat} {s : State} (hs : s.Inv) : (endMigration old s).Inv := by
  unfold endMigration
  split
  · exact hs
  · dsimp only
    split
    · exact hs
    · exact .foldl (fun _ _ hs_1 => serveRead_inv hs_1) (.foldl (fun _ _ hs_1 =>
        forwardHeld_inv hs_1) (dropEntries_inv (.same hs)))
theorem execMigrationComplete_inv {o : GranuleArgs} {s : State} (hs : s.Inv) :
    ResultInv (execMigrationComplete o s) :=
  endMigration_inv hs
theorem changeKey_inv {slot : Nat} {new : Option KeyPair} {s : State} (hs : s.Inv) : (changeKey slot new s).Inv := by
  unfold changeKey
  dsimp only
  exact .same (.foldl (fun _ _ hs_1 => dropLine_inv (writebackLine_inv hs_1)) hs)
theorem execKeyld_inv {o : RArgs} {s : State} (hs : s.Inv) : ResultInv (execKeyld o s) := by
  unfold execKeyld
  refine issue_inv (andNext_keeps (.bind getH_keeps fun _ => ?_)) .pure .pure .pure hs
  dsimp only
  refine .bind require_keeps fun _ => .bind performEarlier_keeps fun _ => ?_
  split
  · exact .bind (.update fun _ hs_1 => changeKey_inv hs_1) fun _ => writeD_keeps
  · refine .bind require_keeps fun _ => .bind loadBytes_keeps fun _ => ?_
    split
    · exact writeD_keeps
    · exact .bind (.update fun _ hs_1 => changeKey_inv hs_1) fun _ => writeD_keeps
theorem execActbl_inv {o : RArgs} {s : State} (hs : s.Inv) : ResultInv (execActbl o s) := by
  unfold execActbl
  refine issue_inv (andNext_keeps (.bind getH_keeps fun _ => ?_)) .pure .pure .pure hs
  dsimp only
  exact .bind require_keeps fun _ => .bind require_keeps fun _ => .bind performEarlier_keeps fun _ =>
    .bind loadBytes_keeps fun _ => .update fun _ hs_1 => .same hs_1
theorem focus_inv {coord : Nat} {s : State} (hs : s.Inv) : (focus coord s).Inv := by
  unfold focus
  split
  · exact hs
  · dsimp only
    exact .same hs
theorem slotNamed_keeps {a : Word} : Keeps (slotNamed a) := by
  unfold slotNamed
  dsimp only
  exact .bind require_keeps fun _ => .get fun _ _ => .bind require_keeps fun _ => .pure
theorem writeImage_inv {requester off : Nat} {bs : List Byte} {ps : List (Access × Nat)} {at' : Nat} {s : State}
    (hs : s.Inv) :
    (writeImage requester off bs ps at' s).Inv := by
  induction ps generalizing at' s with
  | nil => exact hs
  | cons p ps ih =>
    unfold writeImage
    refine ih ?_
    split
    · exact hs
    · dsimp only
      split
      · exact (physWrite_inv hs).of_ok_fst ‹_›
      · split
        · exact setHart_inv hs
        · exact hs
theorem sendWithdrawals_inv {coord : Nat} {s : State} (hs : s.Inv) : (sendWithdrawals coord s).Inv :=
  .same hs
theorem holdChannels_inv {coord image : Nat} {s : State} (hs : s.Inv) : (holdChannels coord image s).Inv := by
  unfold holdChannels
  dsimp only
  exact .same hs
theorem capture_inv {bound : Bool} {r : PreemptReq} {coord off : Nat} {s : State} (hs : s.Inv) :
    (capture bound r coord off s).Inv := by
  unfold capture
  split
  · exact hs
  · split
    · exact hs
    · dsimp only
      exact focus_inv (.same (leaveGroups_inv (releasePins_inv (holdChannels_inv (.foldl (fun _ _ hs_1 =>
        writeImage_inv hs_1) (focus_inv hs))))))
theorem reachPoint_inv {s : State} (hs : s.Inv) : (reachPoint s).Inv := by
  unfold reachPoint
  dsimp only
  refine sendWithdrawals_inv (earlyCommit_inv ?_)
  split
  · exact .same (stopQuadrants_inv hs)
  · exact .same hs
theorem preemptPoint_inv {s : State} (hs : s.Inv) : (preemptPoint s).Inv := by
  unfold preemptPoint
  split
  · exact hs
  · split
    · exact hs
    · dsimp only
      split
      · exact reachPoint_inv hs
      · exact .same (.foldl (fun _ _ hs_1 => capture_inv hs_1) (reachPoint_inv hs))
theorem execPreempt_inv {o : RArgs} {s : State} (hs : s.Inv) : ResultInv (execPreempt o s) := by
  unfold execPreempt
  refine issue_inv (andNext_keeps (.bind getH_keeps fun _ => ?_)) .pure .pure .pure hs
  extract_lets va
  refine .bind slotNamed_keeps fun _ => .get fun _ _ => ?_
  split
  · exact .bind commit_keeps fun _ => .bind (.update fun _ hs_2 => .same hs_2) fun _ => writeD_keeps
  · split
    · exact .bind (.update fun _ hs_2 => .same hs_2) fun _ => writeD_keeps
    · extract_lets members jp
      have hjp : ∀ x, Keeps (jp x) := by
        intro _
        refine .bind require_keeps fun _ => .bind translateRange_keeps fun _ => ?_
        extract_lets jp1
        have hjp1 : ∀ x, Keeps (jp1 x) := by
          intro _
          refine .bind commit_keeps fun _ => .get fun _ _ => ?_
          split
          · exact writeD_keeps
          · extract_lets r jp2
            have hjp2 : ∀ x, Keeps (jp2 x) := fun _ => .bind (.update fun _ hs_3 => .foldl (fun _ _ hs_4 =>
              .same hs_4) hs_3) fun _ => waitFor_keeps
            split
            · exact .bind waitFor_keeps fun _ => hjp2 ()
            · exact hjp2 ()
        split
        · exact .bind trapWith_keeps fun _ => hjp1 ()
        · exact hjp1 ()
      split
      · exact .bind waitFor_keeps fun _ => hjp ()
      · exact hjp ()
theorem freeBank_inv {s : State} (hs : s.Inv) : (freeBank s).2.Inv := by
  unfold freeBank
  refine .foldl_snd (fun _ _ hs_1 => ?_) hs
  dsimp only
  exact takeFree_inv hs_1
theorem imageHart_inv {i : ImageRead} {stage : Nat} {away : Option Away} {gs : List Nat} {cerout : Word}
    {s : State} (hs : s.Inv) :
    (imageHart i stage away gs cerout s).2.Inv := by
  unfold imageHart
  dsimp only
  exact takeFree_inv (takeFree_inv (takeFree_inv (takeFree_inv (freeBank_inv hs))))
theorem restoreOp_inv {coord : Nat} {e : List Byte} {kept : Option (CountedOp × Option TupleReq)} {s : State}
    (hs : s.Inv) :
    (restoreOp coord e kept s).Inv := by
  unfold restoreOp
  split
  · exact hs
  · dsimp only
    split
    · exact setHart_inv hs
    · split
      · exact hs
      · split
        · exact setHart_inv hs
        · split
          · exact hs
          · exact setHart_inv hs
          · exact setHart_inv hs
          · split
            · exact setHart_inv hs
            · exact setHart_inv (.same ((translateFor_inv (.same hs)).of_ok_fst ‹_›))
theorem freeChannels_inv {coord : Nat} {known : Option Nat} {s : State} (hs : s.Inv) :
    (freeChannels coord known s).Inv := by
  unfold freeChannels
  dsimp only
  exact .same hs
theorem resumeOne_inv {i : ImageRead} {coord stage : Nat} {gs : List Nat} {s : State} (hs : s.Inv) :
    (resumeOne i coord stage gs s).Inv := by
  unfold resumeOne
  dsimp only
  split
  · refine .foldl (fun _ _ hs_1 => restoreOp_inv hs_1) ?_
    split
    · exact .same (.foldl (fun _ _ hs_1 =>
        joinGroup_inv hs_1) (freeChannels_inv (.same (setHart_inv (imageHart_inv hs)))))
    · exact .foldl (fun _ _ hs_1 => joinGroup_inv hs_1) (freeChannels_inv (.same (setHart_inv (imageHart_inv hs))))
  · refine .foldl (fun _ _ hs_1 => writeMseq_inv (setQuad_inv hs_1)) (.foldl (fun _ _ hs_1 => restoreOp_inv hs_1) ?_)
    split
    · exact .same (.foldl (fun _ _ hs_1 =>
        joinGroup_inv hs_1) (freeChannels_inv (.same (setHart_inv (imageHart_inv hs)))))
    · exact .foldl (fun _ _ hs_1 => joinGroup_inv hs_1) (freeChannels_inv (.same (setHart_inv (imageHart_inv hs))))
theorem readImage_keeps {va : Nat} {kind : Option Nat} : Keeps (readImage va kind) := by
  unfold readImage
  refine .bind loadBytes_keeps fun _ => ?_
  split
  · exact .pure
  · refine .bind loadBytes_keeps fun _ => ?_
    dsimp only
    refine .bind (.mapM fun _ => ?_) fun _ => .bind loadBytes_keeps fun _ => .bind translate_keeps fun _ => .pure
    split
    · exact .pure
    · exact loadBytes_keeps
theorem execResume_inv {o : RArgs} {s : State} (hs : s.Inv) : ResultInv (execResume o s) := by
  unfold execResume
  refine issue_inv (andNext_keeps (.bind getH_keeps fun _ => ?_)) .pure .pure .pure hs
  dsimp only
  refine .bind slotNamed_keeps fun _ => .bind commit_keeps fun _ => .bind loadBytes_keeps fun _ => ?_
  split
  · exact writeD_keeps
  · split
    · exact writeD_keeps
    · refine .bind (.mapM fun _ => .bind loadBytes_keeps fun _ => .pure) fun _ => ?_
      split
      · exact writeD_keeps
      · split
        · exact writeD_keeps
        · refine .get fun _ _ => ?_
          split
          · exact writeD_keeps
          · refine .bind (.mapM fun _ => readImage_keeps) fun _ => .bind (.update fun _ hs_2 =>
              .foldl (fun _ _ hs_3 => ?_) hs_2) fun _ => writeD_keeps
            split
            · exact resumeOne_inv hs_3
            · exact hs_3
end Sys2Proof.Machine
end

section
namespace Sys2Proof.Machine

/-! The slices' work on lines (R56 to R67, R87 to R92), and the device: reset, registers, mailbox commands and links
(R386 to R398, R423, R424). -/

theorem readRequest_inv {o : ReadArgs} {s : State} (hs : s.Inv) : (readRequest o s).Inv := by
  unfold readRequest
  split
  · exact answer_inv hs
  · split
    · exact answer_inv hs
    · exact serveRead_inv hs
theorem writeRequest_inv {o : WriteArgs} {s : State} {mask : List Byte} (hs : s.Inv) : (writeRequest o s mask).Inv := by
  unfold writeRequest
  split
  · exact answer_inv hs
  · split
    · exact hs
    · exact answer_inv hs
    · split
      · exact .same ((writeMasked_inv hs).of_ok_fst ‹_›)
      · exact answer_inv ((writeMasked_inv hs).of_ok_fst ‹_›)
theorem execMemoryReadRequest_inv {o : ReadArgs} {s : State} (hs : s.Inv) : ResultInv (execMemoryReadRequest o s) :=
  readRequest_inv hs
theorem execMemoryWriteRequest_inv {o : WriteArgs} {s : State} (hs : s.Inv) :
    ResultInv (execMemoryWriteRequest o s) :=
  writeRequest_inv hs
theorem countCorrected_inv {array : Nat} {marked : Bool} {s : State} (hs : s.Inv) :
    (countCorrected array marked s).Inv := by
  unfold countCorrected
  dsimp only
  repeat' split
  all_goals exact .same hs
theorem repairLine_inv {line : Nat} {second : Bool} {s : State} (hs : s.Inv) : (repairLine line second s).Inv := by
  unfold repairLine
  split
  · exact storeImage_inv (countCorrected_inv hs)
  · exact countUncorrectable_inv (storeImage_inv hs)
theorem execLineFill_inv {o : FillArgs} {s : State} (hs : s.Inv) : ResultInv (execLineFill o s) := by
  unfold execLineFill
  dsimp only
  change State.Inv _
  split
  · exact hs
  · split
    · exact hs
    · refine fillLine_inv ?_
      split
      · exact repairLine_inv hs
      · exact hs
theorem writebackEvent_inv {o : WritebackArgs} {s : State} (hs : s.Inv) : (writebackEvent o s).Inv := by
  unfold writebackEvent
  dsimp only
  split
  · exact hs
  · split
    · exact dropLine_inv (startWriteback_inv hs)
    · exact startWriteback_inv hs
theorem execLineWriteback_inv {o : WritebackArgs} {s : State} (hs : s.Inv) : ResultInv (execLineWriteback o s) :=
  writebackEvent_inv hs
theorem execParityDelta_inv {o : LineArgs} {s : State} (hs : s.Inv) : ResultInv (execParityDelta o s) :=
  applyDelta_inv hs
theorem execWritebackComplete_inv {o : LineArgs} {s : State} (hs : s.Inv) : ResultInv (execWritebackComplete o s) :=
  endWriteback_inv hs
theorem reconstructLine_inv {line key : Nat} {s : State} (hs : s.Inv) : (reconstructLine line key s).Inv := by
  unfold reconstructLine
  split
  · exact hs
  · split
    · exact startWriteback_inv hs
    · split
      · exact hs
      · exact fillLine_inv (breakLinks_inv hs)
theorem execReconstructionHold_inv {o : HoldArgs} {s : State} (hs : s.Inv) :
    ResultInv (execReconstructionHold o s) :=
  reconstructLine_inv hs
theorem setClove_inv {st : Nat} {s : State} (hs : s.Inv) : (setClove st s).Inv :=
  .same hs
theorem machineCheck_inv {s : State} (hs : s.Inv) : (machineCheck s).Inv := by
  unfold machineCheck
  dsimp only
  split
  · exact .same hs
  · split
    · exact .same hs
    · exact focus_inv (whenEntered_inv (fun _ hs_1 => takeTrap_inv hs_1) (focus_inv hs))
theorem loseStack_inv {x cause : Nat} {s : State} (hs : s.Inv) : (loseStack x cause s).Inv := by
  unfold loseStack
  split
  · exact hs
  · split
    · exact setClove_inv (.same hs)
    · dsimp only
      split
      · exact .same hs
      · exact machineCheck_inv (setClove_inv (.same hs))
theorem execStackLost_inv {o : StackArgs} {s : State} (hs : s.Inv) : ResultInv (execStackLost o s) := by
  unfold execStackLost
  change State.Inv _
  split
  · exact loseStack_inv hs
  · exact hs
theorem rebuildStripe_inv {s : State} (hs : s.Inv) : (rebuildStripe s).Inv := by
  unfold rebuildStripe
  split
  · exact hs
  · split
    · dsimp only
      split
      · exact hs
      · split
        · refine setClove_inv ?_
          split
          · exact .same hs
          · exact .same (breakLinks_inv (.same hs))
        · split
          · exact .same hs
          · exact .same (breakLinks_inv (.same hs))
    · exact hs
theorem execRebuildStripe_inv {s : State} (hs : s.Inv) : ResultInv (execRebuildStripe s) :=
  rebuildStripe_inv hs
theorem completeLoad_keeps {i : Nat} {o : CountedOp} {parts : List (Access × Nat)} {natural : Bool} {cls : Nat} :
    Keeps (completeLoad i o parts natural cls) := by
  unfold completeLoad
  extract_lets jp mine
  have hjp : ∀ x, Keeps (jp x) := fun _ => .bind loadNow_keeps fun _ => .bind (.bind getH_keeps fun _ =>
    .pure) fun _ => modH_keeps
  split
  · refine .bind getH_keeps fun _ => ?_
    dsimp only
    exact .bind bindLoads_keeps fun _ => hjp ()
  · exact hjp ()
theorem completeOp_keeps {i : Nat} : Keeps (completeOp i) := by
  unfold completeOp
  refine .get fun _ hs => ?_
  split
  · exact .pure
  · split
    · exact completeLoad_keeps
    · exact modH_keeps
    · split
      · split
        · exact .pure
        · exact .bind (.set ((popPort_inv hs).of_some_snd ‹_›)) fun _ => modH_keeps
      · exact .pure
    · exact .pure
    · exact .pure
theorem completeNow_inv {i : Nat} {s : State} (hs : s.Inv) : (completeNow i s).Inv := by
  unfold completeNow
  split
  · exact hs
  · split
    · exact (completeOp_keeps _ hs).of_ok ‹_›
    · exact hs
    · exact deliver_inv ((completeOp_keeps _ hs).of_error ‹_›)
theorem execCountedOpComplete_inv {o : OpArgs} {s : State} (hs : s.Inv) : ResultInv (execCountedOpComplete o s) :=
  completeNow_inv hs
theorem execPinAdmit_inv {o : CoreArgs} {s : State} (hs : s.Inv) : ResultInv (execPinAdmit o s) :=
  admitNext_inv hs
theorem loadBlock_inv {a : Nat} {bs : List Byte} {s : State} (hs : s.Inv) : (loadBlock a bs s).Inv := by
  unfold loadBlock
  split
  · exact (physWrite_inv hs).of_ok_fst ‹_›
  · exact hs
theorem launchFirmware_inv {o : ResetArgs} {s : State} (hs : s.Inv) : (launchFirmware o s).Inv := by
  unfold launchFirmware
  dsimp only
  exact writeReg_inv (writeReg_inv (.foldl (fun _ _ hs_1 =>
    loadBlock_inv hs_1) (writeReg_inv (writeReg_inv (.foldl (fun _ _ hs_1 => loadBlock_inv hs_1) hs)))))
/-- A part of a memory in its canonical form is in that form. -/
theorem Memory.wf_filter {m : List Host.Cell} (p : Host.Cell → Bool) (hm : Memory.wf m = true) :
    Memory.wf (m.filter p) = true := by
  rw [Memory.wf_iff] at hm ⊢
  obtain ⟨rising, listed⟩ := hm
  exact ⟨rising.filter p, fun c hc => listed c (List.mem_of_mem_filter hc)⟩
theorem resetMachine_inv {o : ResetArgs} {s : State} (hs : s.Inv) : (resetMachine o s).Inv := by
  unfold resetMachine
  extract_lets _ m _ _ s1 _
  have hs1 : s1.Inv := Memory.wf_filter _ hs
  clear_value s1
  split
  · exact .same hs1
  · extract_lets s2 s3
    have hs3 : s3.Inv := by
      unfold s3
      split
      · exact loseStack_inv (.same hs1)
      · exact .same hs1
    clear_value s3
    split
    · exact hs3
    · exact launchFirmware_inv (.same hs3)
theorem execReset_inv {o : ResetArgs} {s : State} (hs : s.Inv) : ResultInv (execReset o s) :=
  resetMachine_inv hs
theorem outOfReset_inv {f : State → State} {s : State} (hf : ∀ s : State, s.Inv → (f s).Inv) (hs : s.Inv) :
    ResultInv (outOfReset f s) := by
  unfold outOfReset
  change State.Inv _
  split
  · exact hs
  · exact hf _ hs
theorem barWrite_inv {off : Nat} {bs : List Byte} {s : State} (hs : s.Inv) : OptionInv (barWrite off bs s) := by
  unfold barWrite
  split
  · split
    · exact .next (writeReg_inv hs)
    · exact .nothing
  · split
    · exact .nothing
    · refine .next (.foldl_fst (fun _ _ hs_1 => ?_) hs)
      dsimp only
      exact mergeBytes_inv hs_1
  · exact .nothing
theorem registerWrite_inv {o : WriteArgs} {s : State} (hs : s.Inv) : (registerWrite o s).Inv := by
  unfold registerWrite
  dsimp only
  split
  · exact answer_inv hs
  · split
    · split
      · exact answer_inv ((barWrite_inv hs).of_some ‹_›)
      · exact answer_inv hs
    · split
      · split
        · exact answer_inv ((physWrite_inv hs).of_ok_fst ‹_›)
        · exact answer_inv hs
      · exact answer_inv hs
theorem execRegisterWrite_inv {o : WriteArgs} {s : State} (hs : s.Inv) : ResultInv (execRegisterWrite o s) :=
  registerWrite_inv hs
theorem finishCommand_inv {result : Nat} {reply : List Byte} {s : State} (hs : s.Inv) :
    (finishCommand result reply s).Inv :=
  Memory.wf_writeBytes _ _ _ hs
theorem runCommand_inv {code : Nat} {body : State → State} {s : State} (hbody : ∀ s : State, s.Inv → (body s).Inv)
    (hs : s.Inv) :
    (runCommand code body s).Inv := by
  unfold runCommand
  split
  · exact hs
  · dsimp only
    split
    · split
      · exact hbody _ (startCommand_inv hs)
      · exact startCommand_inv hs
    · split
      · exact hbody _ hs
      · exact hs
theorem execMbAttest_inv {x : MailboxArgs} {s : State} (hs : s.Inv) : ResultInv (execMbAttest x s) :=
  runCommand_inv (fun _ hs_1 => finishCommand_inv hs_1) hs
theorem passCommand_inv {code : Nat} {s : State} (hs : s.Inv) : (passCommand code s).Inv := by
  unfold passCommand
  split
  · exact hs
  · exact startCommand_inv hs
theorem execMbKeyLoad_inv {x : MailboxArgs} {s : State} (hs : s.Inv) : ResultInv (execMbKeyLoad x s) :=
  passCommand_inv hs
theorem execMbAccessEntry_inv {x : MailboxArgs} {s : State} (hs : s.Inv) : ResultInv (execMbAccessEntry x s) :=
  passCommand_inv hs
theorem execMbErrorCounts_inv {o : MailboxArgs} {s : State} (hs : s.Inv) : ResultInv (execMbErrorCounts o s) :=
  runCommand_inv (fun _ hs_1 => finishCommand_inv hs_1) hs
theorem execMbFirmwareStage_inv {x : MailboxArgs} {s : State} (hs : s.Inv) : ResultInv (execMbFirmwareStage x s) := by
  unfold execMbFirmwareStage
  refine runCommand_inv (fun _ hs_1 => ?_) hs
  dsimp only
  split
  · exact finishCommand_inv (.same hs_1)
  · exact finishCommand_inv hs_1
theorem execMbPowerCap_inv {x : MailboxArgs} {s : State} (hs : s.Inv) : ResultInv (execMbPowerCap x s) := by
  unfold execMbPowerCap
  refine runCommand_inv (fun _ hs_1 => ?_) hs
  dsimp only
  split
  · exact finishCommand_inv (.same hs_1)
  · exact finishCommand_inv hs_1
theorem execMbCertChain_inv {x : MailboxArgs} {s : State} (hs : s.Inv) : ResultInv (execMbCertChain x s) :=
  runCommand_inv (fun _ hs_1 => finishCommand_inv hs_1) hs
theorem execMbUnknownCommand_inv {o : MailboxArgs} {s : State} (hs : s.Inv) : ResultInv (execMbUnknownCommand o s) := by
  unfold execMbUnknownCommand
  change State.Inv _
  split
  · exact startCommand_inv hs
  · exact hs
theorem setLink_inv {i : Nat} {l : Link} {s : State} (hs : s.Inv) : (setLink i l s).Inv :=
  .same hs
theorem performPeer_inv {w : HeldWrite} {s : State} (hs : s.Inv) : (performPeer w s).1.Inv := by
  unfold performPeer
  dsimp only
  exact mergeBytes_inv hs
theorem landPeerWrite_inv {w : HeldWrite} {s : State} (hs : s.Inv) : (landPeerWrite w s).Inv := by
  unfold landPeerWrite
  dsimp only
  exact endWrite_inv (performPeer_inv hs)
theorem takeWrites_inv {i : Nat} {seqs : Nat → Bool} {s : State} (hs : s.Inv) : (takeWrites i seqs s).2.Inv := by
  unfold takeWrites
  dsimp only
  exact .same hs
theorem acknowledgeFlits_inv {i k : Nat} {s : State} (hs : s.Inv) : (acknowledgeFlits i k s).Inv := by
  unfold acknowledgeFlits
  dsimp only
  exact .foldl (fun _ _ hs_1 => landPeerWrite_inv hs_1) (setLink_inv (takeWrites_inv hs))
theorem acknowledge_inv {i ack : Nat} {s : State} (hs : s.Inv) : (acknowledge i ack s).Inv := by
  unfold acknowledge
  split
  · exact acknowledgeFlits_inv hs
  · exact hs
theorem refuseWrite_inv {w : HeldWrite} {s : State} (hs : s.Inv) : (refuseWrite w s).Inv :=
  endWrite_inv hs
theorem refuseWrites_inv {i : Nat} {seqs : Nat → Bool} {s : State} (hs : s.Inv) : (refuseWrites i seqs s).Inv := by
  unfold refuseWrites
  dsimp only
  exact .foldl (fun _ _ hs_1 => refuseWrite_inv hs_1) (takeWrites_inv hs)
theorem refuseLoads_inv {i : Nat} {seqs : Nat → Bool} {s : State} (hs : s.Inv) : (refuseLoads i seqs s).Inv := by
  unfold refuseLoads
  dsimp only
  exact .same hs
theorem applyMsg_inv {i : Nat} {m : PeerMsg} {s : State} (hs : s.Inv) : (applyMsg i m s).Inv := by
  unfold applyMsg
  dsimp only
  split
  · exact writeRequest_inv hs
  · exact readRequest_inv hs
  · exact refuseLoads_inv (refuseWrites_inv hs)
  · exact hs
theorem askRetry_inv {i : Nat} {s : State} (hs : s.Inv) : (askRetry i s).Inv := by
  unfold askRetry
  dsimp only
  exact setLink_inv hs
theorem dataFlit_inv {o : FlitArgs} {s : State} (hs : s.Inv) : (dataFlit o s).Inv := by
  unfold dataFlit
  dsimp only
  split
  · exact hs
  · split
    · exact askRetry_inv hs
    · exact acknowledge_inv (.foldl (fun _ _ hs_1 => applyMsg_inv hs_1) (setLink_inv hs))
theorem ackFlit_inv {kind : Nat} {o : FlitArgs} {s : State} (hs : s.Inv) : (ackFlit kind o s).Inv := by
  unfold ackFlit
  dsimp only
  split
  · exact hs
  · split
    · exact acknowledge_inv hs
    · exact askRetry_inv hs
theorem retryFlit_inv {o : FlitArgs} {s0 : State} (hs : s0.Inv) : (retryFlit o s0).Inv := by
  unfold retryFlit
  dsimp only
  split
  · exact hs
  · split
    · exact askRetry_inv hs
    · split
      · exact acknowledge_inv hs
      · exact setLink_inv (acknowledge_inv hs)
theorem execUlianeDataFlit_inv {o : FlitArgs} {s : State} (hs : s.Inv) : ResultInv (execUlianeDataFlit o s) :=
  dataFlit_inv hs
theorem execUlianeIdleFlit_inv {o : FlitArgs} {s : State} (hs : s.Inv) : ResultInv (execUlianeIdleFlit o s) :=
  ackFlit_inv hs
theorem execUlianeAckFlit_inv {o : FlitArgs} {s : State} (hs : s.Inv) : ResultInv (execUlianeAckFlit o s) :=
  ackFlit_inv hs
theorem execUlianeRetryFlit_inv {o : FlitArgs} {s : State} (hs : s.Inv) : ResultInv (execUlianeRetryFlit o s) :=
  retryFlit_inv hs
theorem dropLink_inv {i reached : Nat} {s : State} (hs : s.Inv) : (dropLink i reached s).Inv := by
  unfold dropLink
  dsimp only
  exact .same (setLink_inv (refuseLoads_inv (refuseWrites_inv (.foldl (fun _ _ hs_1 =>
    refuseWrite_inv (performPeer_inv hs_1)) (takeWrites_inv hs)))))
theorem execLinkDown_inv {o : LinkArgs} {s : State} (hs : s.Inv) : ResultInv (execLinkDown o s) := by
  unfold execLinkDown
  dsimp only
  change State.Inv _
  split
  · exact dropLink_inv hs
  · exact hs
theorem execUlianeLinkUp_inv {o : LinkArgs} {s : State} (hs : s.Inv) : ResultInv (execUlianeLinkUp o s) := by
  unfold execUlianeLinkUp
  change State.Inv _
  split
  · exact hs
  · exact .same (setLink_inv hs)
theorem execCxlSnoop_inv {o : LineArgs} {s : State} (hs : s.Inv) : ResultInv (execCxlSnoop o s) :=
  answer_inv hs
theorem unanswered_inv {f : State → State} {s : State} (hf : ∀ s : State, s.Inv → (f s).Inv) (hs : s.Inv) :
    (unanswered f s).Inv := by
  unfold unanswered
  dsimp only
  exact .same (hf _ (.same hs))
theorem execHostWindowNoAnswer_inv {o : HostArgs} {s : State} (hs : s.Inv) :
    ResultInv (execHostWindowNoAnswer o s) := by
  unfold execHostWindowNoAnswer
  change State.Inv _
  split
  · split
    · exact hs
    · split
      · split
        · exact wordTrap_inv hs
        · exact hs
      · exact hs
  · exact unanswered_inv (fun _ hs_1 => startStream_inv hs_1) hs
  · exact unanswered_inv (fun _ hs_1 => landElement_inv hs_1) hs
  · exact unanswered_inv (fun _ hs_1 => OptionInv.getD (loadWeights_inv hs_1) hs_1) hs
  · exact unanswered_inv (fun _ hs_1 => dispatchPacket_inv hs_1) hs
theorem execCorrectedError_inv {o : ErrorArgs} {s : State} (hs : s.Inv) : ResultInv (execCorrectedError o s) :=
  countCorrected_inv hs
theorem execPowerThrottle_inv {o : ThrottleArgs} {s : State} (hs : s.Inv) : ResultInv (execPowerThrottle o s) :=
  .same hs
end Sys2Proof.Machine
end

section
namespace Sys2Proof.Machine

/-! The frame table, geometry words and frame words. -/

theorem recordBytes_keeps {i : Nat} : Keeps (recordBytes i) := by
  unfold recordBytes
  refine .get fun _ hs => ?_
  dsimp only
  split
  · exact .bind (.set (.same ((physRead_inv hs).of_ok_fst ‹_›))) fun _ => .pure
  · exact .pure
  · exact .pure
theorem reportNode_keeps {i : Nat} : Keeps (reportNode i) := by
  unfold reportNode
  refine .update fun _ hs => ?_
  split
  · exact hs
  · exact countUncorrectable_inv (.same hs)
theorem storedNode_keeps {i : Nat} : Keeps (storedNode i) :=
  .bind recordBytes_keeps fun _ => .pure
theorem liveNode_keeps {i : Nat} : Keeps (liveNode i) := by
  unfold liveNode
  refine .get fun _ _ => ?_
  split
  · exact .pure
  · refine .bind recordBytes_keeps fun _ => ?_
    split
    extract_lets n jp
    have hjp : ∀ x, Keeps (jp x) := by
      intro _
      unfold jp
      split
      · exact .bind reportNode_keeps fun _ => .pure
      · exact .pure
    split
    · exact .pure
    · split
      · exact .bind .pure fun _ => hjp _
      · exact .bind storedNode_keeps fun _ => .bind .pure fun _ => hjp _
theorem liveTag_keeps {t : Nat} : Keeps (liveTag t) :=
  .bind liveNode_keeps fun _ => .pure
theorem checkTag_keeps {t : Nat} : Keeps (checkTag t) := by
  unfold checkTag
  extract_lets jp
  have hjp : ∀ x, Keeps (jp x) := by
    intro _
    refine .bind liveTag_keeps fun _ => ?_
    split
    · exact .pure
    · exact .throw
  split
  · exact .bind .throw fun _ => hjp ()
  · exact hjp ()
theorem toQ_keeps {t f : Nat} : Keeps (toQ t f) := by
  unfold toQ
  split
  · split
    · exact .throw
    · exact .pure
  · exact .throw
theorem toQs_keeps {t : Nat} {fs : List Nat} : Keeps (toQs t fs) := by
  induction fs with
  | nil => exact .pure
  | cons f fs ih =>
    unfold toQs
    refine .bind toQ_keeps fun _ => ?_
    dsimp only
    exact .bind ih fun _ => .pure
theorem inRange_keeps {t : Nat} {q : List Int} : Keeps (inRange t q) := by
  unfold inRange
  split
  · exact .pure
  · exact .throw
theorem stepUp_keeps {t : Nat} {point : Bool} {n : Node} {q : List Int} : Keeps (stepUp t point n q) := by
  unfold stepUp
  dsimp only
  exact .bind inRange_keeps fun _ => .pure
theorem stepDown_keeps {t : Nat} {point : Bool} {n : Node} {q : List Int} : Keeps (stepDown t point n q) := by
  unfold stepDown
  dsimp only
  exact .bind inRange_keeps fun _ => .bind inRange_keeps fun _ => .pure
theorem pathUp_keeps {fuel i : Nat} : Keeps (pathUp fuel i) := by
  induction fuel generalizing i with
  | zero => exact .pure
  | succ fuel ih =>
    unfold pathUp
    refine .bind storedNode_keeps fun _ => .get fun _ _ => ?_
    split
    · exact .pure
    · exact .bind ih fun _ => .pure
theorem meetNode_keeps {i t : Nat} : Keeps (meetNode i t) := by
  unfold meetNode
  refine .bind liveNode_keeps fun _ => ?_
  split
  · exact .pure
  · exact .throw
theorem climb_keeps {f : Node → List Int → Fr (List Int × Bool)} {t target n : Nat} {is : List Nat} {q : List Int}
    {x : Bool} (hf : ∀ m q, Keeps (f m q)) :
    Keeps (climb f t target n is q x) := by
  induction is generalizing n q x with
  | nil =>
    unfold climb
    exact .pure
  | cons i is ih =>
    cases n with
    | zero => exact .throw
    | succ n =>
      unfold climb
      refine .bind meetNode_keeps fun _ => .bind (hf _ _) fun _ => ?_
      dsimp only
      exact ih
theorem chain_keeps {v : List Nat} {a b : Nat} {point : Bool} : Keeps (chain v a b point) := by
  unfold chain
  extract_lets jp jp1
  have hjp : ∀ x, Keeps (jp x) := by
    intro _
    refine .bind checkTag_keeps fun _ => .bind checkTag_keeps fun _ => ?_
    extract_lets jp2
    have hjp2 : ∀ x, Keeps (jp2 x) := by
      intro _
      refine .bind toQs_keeps fun _ => ?_
      dsimp only
      refine .bind pathUp_keeps fun _ => .bind pathUp_keeps fun _ => ?_
      split
      · exact .bind (climb_keeps fun _ _ => stepUp_keeps) fun _ => .bind (.forM fun _ =>
          .bind meetNode_keeps fun _ => .pure) fun _ => .throw
      · exact .bind (climb_keeps fun _ _ => stepUp_keeps) fun _ => .bind meetNode_keeps fun _ =>
          climb_keeps fun _ _ => stepDown_keeps
    split
    · exact .bind .throw fun _ => hjp2 ()
    · exact hjp2 ()
  have hjp1 : ∀ x, Keeps (jp1 x) := by
    intro _
    unfold jp1
    split
    · exact .bind .throw fun _ => hjp ()
    · exact hjp ()
  split
  · exact .bind .throw fun _ => hjp1 ()
  · exact hjp1 ()
theorem liveRecords_keeps : Keeps liveRecords := by
  unfold liveRecords
  refine .get fun _ _ => ?_
  dsimp only
  exact .bind (.mapM fun _ => liveNode_keeps) fun _ => .pure
theorem writeNode_keeps {n : Node} : Keeps (writeNode n) := by
  unfold writeNode
  refine .update fun _ hs => ?_
  split
  · exact .same ((physWrite_inv hs).of_ok_fst ‹_›)
  · exact hs
theorem geomElems_inv {f : Nat → Fr (Nat × Nat)} {es : List Nat} {s : State} (hf : ∀ e, Keeps (f e)) (hs : s.Inv) :
    (geomElems f es s).2.2.Inv := by
  induction es generalizing s with
  | nil => exact hs
  | cons e es ih =>
    unfold geomElems
    split
    · exact ih ((hf e s hs).of_ok ‹_›)
    · exact (hf e s hs).of_error ‹_›
theorem geomBody_keeps {v dv : VType} {n : Nat} {o : VArgs} {srcs : List Group} {kinds : Nat → Nat → Bool}
    {op : Nat → Nat → Fr (Nat × Nat)} (hop : ∀ x y, Keeps (op x y)) :
    Keeps (geomBody v dv n o srcs kinds op) := by
  unfold geomBody
  refine .bind getH_keeps fun _ => ?_
  extract_lets d w es
  refine .bind acquiresDone_keeps fun _ => .bind ringsReady_keeps fun _ => .get fun _ hs => ?_
  extract_lets ins at' a b jp
  have hjp : ∀ x, Keeps (jp x) := by
    intro _
    unfold jp
    dsimp only
    refine .bind (.set (geomElems_inv (fun _ => hop _ _) hs)) fun _ => ?_
    split
    · exact putRows_keeps
    · exact .bind modH_keeps fun _ => Loop.stopAt_keeps
  split
  · exact .bind trapWith_keeps fun _ => hjp ()
  · exact hjp ()
theorem geomWord_inv {func : Nat} {two cross : Bool} {dst : VType → VType → Option VType}
    {kinds : Nat → Nat → Bool} {op : VType → Nat → Nat → Fr (Nat × Nat)} {o : VArgs} {s : State}
    (hop : ∀ x y z, Keeps (op x y z)) (hs : s.Inv) :
    ResultInv (geomWord func two cross dst kinds op o s) := by
  unfold geomWord
  dsimp only
  refine vWordOf_inv (fun _ => .bind acceptType_keeps fun _ => .bind getH_keeps fun _ => ?_) .pure hs
  split
  · exact trapWith_keeps
  · exact geomBody_keeps fun _ _ => hop _ _ _
theorem addSub_keeps {sub : Bool} {v : VType} {a b : Nat} : Keeps (addSub sub v a b) := by
  unfold addSub
  dsimp only
  split
  · exact .pure
  · exact .bind chain_keeps fun _ => .bind toQs_keeps fun _ => .pure
theorem convertTo_keeps {a u : Nat} : Keeps (convertTo a u) := by
  unfold convertTo
  split
  · exact .pure
  · refine .bind chain_keeps fun _ => ?_
    dsimp only
    exact .pure
theorem execGscale_inv {o : VArgs} {s : State} (hs : s.Inv) : ResultInv (execGscale o s) := by
  unfold execGscale
  refine geomWord_inv (fun _ _ _ => ?_) hs
  dsimp only
  exact .pure
theorem execGdot_inv {o : VArgs} {s : State} (hs : s.Inv) : ResultInv (execGdot o s) := by
  unfold execGdot
  refine geomWord_inv (fun _ _ _ => .bind convertTo_keeps fun _ => ?_) hs
  dsimp only
  exact .pure
theorem execGcross_inv {o : VArgs} {s : State} (hs : s.Inv) : ResultInv (execGcross o s) := by
  unfold execGcross
  refine geomWord_inv (fun _ _ _ => .bind convertTo_keeps fun _ => ?_) hs
  dsimp only
  exact .pure
theorem execGlen_inv {o : VArgs} {s : State} (hs : s.Inv) : ResultInv (execGlen o s) := by
  unfold execGlen
  refine geomWord_inv (fun _ _ _ => ?_) hs
  dsimp only
  exact .pure
theorem execGxfm_inv {o : VArgs} {s : State} (hs : s.Inv) : ResultInv (execGxfm o s) := by
  unfold execGxfm
  refine geomWord_inv (fun _ _ _ => ?_) hs
  dsimp only
  exact .pure
theorem tagsLive_keeps {ts : List Nat} : Keeps (tagsLive ts) := by
  induction ts with
  | nil => exact .pure
  | cons t ts ih =>
    unfold tagsLive
    exact .bind liveTag_keeps fun _ => .bind ih fun _ => .pure
theorem execGchk_inv {o : VArgs} {s : State} (hs : s.Inv) : ResultInv (execGchk o s) := by
  unfold execGchk
  dsimp only
  refine issue_inv (andNext_keeps (.bind acceptType_keeps fun _ => .bind acquiresDone_keeps fun _ =>
    .bind ringsReady_keeps fun _ => .get fun _ hs_1 => ?_)) (.bind getH_keeps fun _ => require_keeps) .pure .pure hs
  split
  · exact .set ((tagsLive_keeps _ hs_1).of_error ‹_›)
  · exact .bind (.set ((tagsLive_keeps _ hs_1).of_ok ‹_›)) fun _ => .bind writeMask_keeps fun _ =>
      .update fun _ hs_2 => popHeads_inv hs_2
theorem descend_keeps {fuel : Nat} {n : Node} {q : List Int} : Keeps (descend fuel n q) := by
  induction fuel generalizing n q with
  | zero => exact .pure
  | succ fuel ih =>
    unfold descend
    dsimp only
    split
    · refine .bind liveNode_keeps fun _ => ?_
      split
      · exact .pure
      · exact ih
    · exact .pure
theorem retag_keeps {a : Nat} : Keeps (retag a) := by
  unfold retag
  split
  · exact .pure
  · refine .bind checkTag_keeps fun _ => .bind toQs_keeps fun _ => ?_
    dsimp only
    refine .bind descend_keeps fun _ => ?_
    split <;> exact .pure
theorem execGcell_inv {o : VArgs} {s : State} (hs : s.Inv) : ResultInv (execGcell o s) := by
  unfold execGcell
  refine vWordOf_inv (fun _ => .bind acceptType_keeps fun _ => .bind getH_keeps fun _ => ?_) .pure hs
  dsimp only
  exact .bind require_keeps fun _ => .bind require_keeps fun _ => elementwiseIf_keeps
theorem readSpec_keeps {new : Bool} {va : Word} : Keeps (readSpec new va) :=
  .bind require_keeps fun _ => .bind loadBytes_keeps fun _ => .bind require_keeps fun _ => .pure
theorem resolve_keeps {α : Type} {f : Fr α} (hf : Keeps f) : Keeps (resolve f) := by
  unfold resolve
  refine .get fun _ hs => ?_
  split
  · exact .bind (.set ((hf _ hs).of_ok ‹_›)) fun _ => .pure
  · exact .bind (.set ((hf _ hs).of_error ‹_›)) fun _ => .throw
theorem frameWord_inv {func : Nat} {o : RArgs} {dest : DestKind} {reads : List (BitVec 5)} {role : Bool}
    {body : Act Unit} {s : State} (hbody : Keeps body) (hs : s.Inv) :
    ResultInv (frameWord func o dest reads role body s) := by
  unfold frameWord
  refine issue_inv (andNext_keeps (.get fun _ _ => .bind acquiresDone_keeps fun _ =>
    ?_)) .pure .pure (.get fun _ _ => .bind require_keeps fun _ => require_keeps) hs
  extract_lets jp
  have hjp : ∀ x, Keeps (jp x) := fun _ => .bind performEarlier_keeps fun _ => hbody
  split
  · exact .bind .throw fun _ => hjp ()
  · exact hjp ()
theorem execFnew_inv {o : RArgs} {s : State} (hs : s.Inv) : ResultInv (execFnew o s) := by
  unfold execFnew
  refine frameWord_inv (.bind readS_keeps fun _ => .bind readSpec_keeps fun _ =>
    .bind (resolve_keeps liveRecords_keeps) fun _ => ?_) hs
  extract_lets jp
  have hjp : ∀ x, Keeps (jp x) := by
    rintro ⟨tree, parent, depth⟩
    refine .get fun _ _ => ?_
    extract_lets idx
    clear_value idx
    split
    · exact .bind (resolve_keeps storedNode_keeps) fun _ => .bind (resolve_keeps writeNode_keeps) fun _ => writeD_keeps
    · exact writeD_keeps
  clear_value jp
  split
  · exact .bind require_keeps fun _ => .bind .pure fun _ => hjp _
  · refine .bind (resolve_keeps checkTag_keeps) fun _ => .bind require_keeps fun _ => ?_
    extract_lets jp1
    have hjp1 : ∀ x, Keeps (jp1 x) := fun _ => .bind .pure fun _ => hjp _
    split
    · exact .bind .throw fun _ => hjp1 ()
    · exact hjp1 ()
theorem readTag_keeps {r : BitVec 5} : Keeps (readTag r) :=
  .bind readS_keeps fun _ => .pure
theorem execFfree_inv {o : RArgs} {s : State} (hs : s.Inv) : ResultInv (execFfree o s) :=
  frameWord_inv (.bind readTag_keeps fun _ => .bind (resolve_keeps checkTag_keeps) fun _ =>
    .bind (resolve_keeps liveRecords_keeps) fun _ => .bind readTag_keeps fun _ => .bind require_keeps fun _ =>
    resolve_keeps writeNode_keeps) hs
theorem execFupd_inv {o : RArgs} {s : State} (hs : s.Inv) : ResultInv (execFupd o s) :=
  frameWord_inv (.bind readTag_keeps fun _ => .bind (resolve_keeps checkTag_keeps) fun _ =>
    .bind readS_keeps fun _ => .bind readSpec_keeps fun _ => .bind readTag_keeps fun _ =>
    .bind require_keeps fun _ => resolve_keeps writeNode_keeps) hs
theorem execFsplit_inv {o : RArgs} {s : State} (hs : s.Inv) : ResultInv (execFsplit o s) := by
  unfold execFsplit
  refine frameWord_inv (.bind readTag_keeps fun _ => .bind (resolve_keeps checkTag_keeps) fun _ =>
    .bind require_keeps fun _ => ?_) hs
  extract_lets jp
  have hjp : ∀ x, Keeps (jp x) := by
    intro _
    refine .bind (resolve_keeps liveRecords_keeps) fun _ => .get fun _ _ => ?_
    split
    · exact writeD_keeps
    · refine .bind (resolve_keeps (.mapM fun _ => storedNode_keeps)) fun _ => ?_
      dsimp only
      exact .bind (resolve_keeps (.forM fun _ => writeNode_keeps)) fun _ =>
        .bind (resolve_keeps writeNode_keeps) fun _ => writeD_keeps
  split
  · exact .bind .throw fun _ => hjp ()
  · exact hjp ()
theorem execFrepar_inv {o : RArgs} {s : State} (hs : s.Inv) : ResultInv (execFrepar o s) := by
  unfold execFrepar
  refine frameWord_inv (.bind readTag_keeps fun _ => .bind (resolve_keeps checkTag_keeps) fun _ =>
    .bind readTag_keeps fun _ => .bind (resolve_keeps checkTag_keeps) fun _ => ?_) hs
  extract_lets moved jp
  have hjp : ∀ x, Keeps (jp x) := by
    intro _
    refine .bind (resolve_keeps liveRecords_keeps) fun _ => ?_
    extract_lets sub fits nodes jp1
    have hjp1 : ∀ x, Keeps (jp1 x) := by
      intro _
      refine resolve_keeps (.forM fun _ => ?_)
      dsimp only
      exact writeNode_keeps
    refine .bind readTag_keeps fun _ => .bind require_keeps fun _ => ?_
    split
    · exact .bind .throw fun _ => hjp1 ()
    · exact hjp1 ()
  split
  · exact .bind .pure fun _ => hjp _
  · exact .bind readS_keeps fun _ => .bind readSpec_keeps fun _ => .bind .pure fun _ => hjp _
theorem execFfence_inv {o : RArgs} {s : State} (hs : s.Inv) : ResultInv (execFfence o s) :=
  issue_inv (andNext_keeps commit_keeps) .pure .pure .pure hs
end Sys2Proof.Machine
end

section
namespace Sys2Proof.Machine

/-! Hash tables (R262 to R266) and matrix words. -/

theorem hashRanges_keeps {kind : AccKind} {rs : List (Nat × Nat)} : Keeps (hashRanges kind rs) := by
  induction rs with
  | nil => exact .pure
  | cons r rs ih =>
    unfold hashRanges
    refine .bind translateRange_keeps fun _ => .get fun _ _ => ?_
    extract_lets c ok jp
    have hjp : ∀ x, Keeps (jp x) := fun _ => .bind ih fun _ => .pure
    split
    · exact .bind trapWith_keeps fun _ => hjp ()
    · exact hjp ()
theorem hashTable_keeps {kind : AccKind} {more : List (Nat × Nat)} : Keeps (hashTable kind more) := by
  unfold hashTable
  refine .bind getH_keeps fun _ => .bind hashRanges_keeps fun _ => .bind hashRanges_keeps fun _ => ?_
  split
  · exact admitPins_keeps
  · exact .pure
theorem hashType_keeps {v : VType} {oneRow : Bool} : Keeps (hashType v oneRow) :=
  acceptType_keeps
theorem hashKeys_keeps {es : List Nat} {key : Nat → Nat} : Keeps (hashKeys es key) := by
  unfold hashKeys
  split
  · exact trapWith_keeps
  · exact .pure
theorem hashWrite_keeps {va : Nat} {bs : List Byte} : Keeps (hashWrite va bs) :=
  .bind translateRange_keeps fun _ => .bind watermark_keeps fun _ => .bind bindLoads_keeps fun _ => writeNowParts_keeps
theorem hashInsert_keeps {key payload : Nat} : Keeps (hashInsert key payload) := by
  unfold hashInsert
  refine .bind getH_keeps fun _ => ?_
  dsimp only
  refine .bind loadBytes_keeps fun _ => ?_
  split
  · exact .pure
  · exact .bind hashWrite_keeps fun _ => .pure
theorem hashInserts_keeps {key payload : Nat → Nat} {es : List Nat} : Keeps (hashInserts key payload es) := by
  induction es with
  | nil => exact .pure
  | cons e es ih =>
    unfold hashInserts
    exact .bind hashInsert_keeps fun _ => .bind ih fun _ => .pure
theorem hashRole_keeps : Keeps hashRole :=
  .bind getH_keeps fun _ => require_keeps
theorem execHins_inv {o : VArgs} {s : State} (hs : s.Inv) : ResultInv (execHins o s) := by
  unfold execHins
  dsimp only
  exact issue_inv (andNext_keeps (.bind hashType_keeps fun _ => .bind ringsReady_keeps fun _ => .get fun _ _ =>
    .bind hashKeys_keeps fun _ => .bind hashTable_keeps fun _ => .bind (.forM fun _ => watermark_keeps) fun _ =>
    .bind commit_keeps fun _ => .bind hashInserts_keeps fun _ => .bind writeMask_keeps fun _ =>
    .bind (.update fun _ hs_2 => releasePins_inv hs_2) fun _ => .update fun _ hs_2 =>
    popHeads_inv hs_2)) (.bind getH_keeps fun _ => require_keeps) .pure hashRole_keeps hs
theorem execHclr_inv {o : VArgs} {s : State} (hs : s.Inv) : ResultInv (execHclr o s) :=
  issue_inv (andNext_keeps (.bind getH_keeps fun _ => .bind hashType_keeps fun _ => .bind hashTable_keeps fun _ =>
    .bind commit_keeps fun _ => .bind getH_keeps fun _ => .bind (.forM fun _ => hashWrite_keeps) fun _ =>
    .bind (.update fun _ hs_1 => releasePins_inv hs_1) fun _ => modH_keeps)) .pure .pure hashRole_keeps hs
theorem lookNeighbours_keeps {key out : Nat} {ns : List Nat} : Keeps (lookNeighbours key out ns) := by
  induction ns with
  | nil => exact .pure
  | cons n ns ih =>
    unfold lookNeighbours
    refine .bind getH_keeps fun _ => ?_
    dsimp only
    exact .bind loadBytes_keeps fun _ => .bind storeBytes_keeps fun _ => .bind ih fun _ => .pure
theorem lookQueries_keeps {f : Nat → Act Nat} {es : List Nat} (hf : ∀ e, Keeps (f e)) : Keeps (lookQueries f es) := by
  induction es with
  | nil => exact .pure
  | cons e es ih =>
    unfold lookQueries
    refine .bind (attempt_keeps (hf _)) fun _ => ?_
    split
    · exact .pure
    · refine .bind ih fun _ => ?_
      dsimp only
      exact .pure
theorem execHlook_inv {o : VArgs} {s : State} (hs : s.Inv) : ResultInv (execHlook o s) := by
  unfold execHlook
  refine vWordOf_inv (fun _ => .bind hashType_keeps fun _ => .bind getH_keeps fun _ => ?_) hashRole_keeps hs
  extract_lets ga d out
  refine .bind ringsReady_keeps fun _ => .get fun _ _ => ?_
  extract_lets w es jp
  have hjp : ∀ x, Keeps (jp x) := fun _ => .update fun _ hs_2 => releasePins_inv hs_2
  refine .bind hashKeys_keeps fun _ => .bind hashTable_keeps fun _ => .bind (lookQueries_keeps fun _ =>
    lookNeighbours_keeps) fun _ => ?_
  dsimp only
  split
  · exact .bind putRows_keeps fun _ => hjp ()
  · exact .bind Loop.stopAt_keeps fun _ => hjp ()
theorem errorTrap_keeps {q : Nat} : Keeps (errorTrap q) := by
  unfold errorTrap
  refine .get fun _ _ => ?_
  dsimp only
  exact require_keeps
theorem quadrantIdle_keeps {q : Nat} : Keeps (quadrantIdle q) := by
  unfold quadrantIdle
  refine .get fun _ _ => ?_
  split
  · exact waitFor_keeps
  · exact .pure
theorem descRead_keeps {va n : Nat} : Keeps (descRead va n) :=
  .bind require_keeps fun _ => loadBytes_keeps
theorem execMcfg_inv {o : RArgs} {s : State} (hs : s.Inv) : ResultInv (execMcfg o s) := by
  unfold execMcfg
  refine issue_inv (andNext_keeps (.bind getH_keeps fun _ => ?_)) .pure .pure .pure hs
  extract_lets q va mode
  refine .bind errorTrap_keeps fun _ => .bind quadrantIdle_keeps fun _ => .bind descRead_keeps fun _ =>
    .bind require_keeps fun _ => ?_
  extract_lets out n jp
  have hjp : ∀ x, Keeps (jp x) := by
    intro _
    unfold jp
    extract_lets jp1
    have hjp1 : ∀ x, Keeps (jp1 x) := by
      intro _
      unfold jp1
      split
      · exact trapWith_keeps
      · dsimp only
        exact .update fun _ hs_1 => setQuad_inv hs_1
    split
    · exact .bind descRead_keeps fun _ => .bind .pure fun _ => hjp1 _
    · exact .bind .pure fun _ => hjp1 _
  split
  · exact .bind descRead_keeps fun _ => .bind .pure fun _ => hjp _
  · exact .bind .pure fun _ => hjp _
theorem pinCopy_keeps {pages : List (Nat × Nat × Nat)} : Keeps (pinCopy pages) := by
  unfold pinCopy
  refine .bind require_keeps fun _ => .get fun _ _ => ?_
  extract_lets ci mine queued jp
  have hjp : ∀ x, Keeps (jp x) := by
    intro _
    refine .bind (.update fun _ hs_1 => admitNext_inv hs_1) fun _ => .get fun _ hs_1 => ?_
    split
    · exact waitFor_keeps
    · exact .pure
  split
  · refine .bind (.update fun _ hs_1 => ?_) fun _ => hjp ()
    dsimp only
    exact .same hs_1
  · exact hjp ()
theorem execMldb_inv {o : RArgs} {s : State} (hs : s.Inv) : ResultInv (execMldb o s) := by
  unfold execMldb
  refine issue_inv (andNext_keeps (.bind getH_keeps fun _ => ?_)) .pure .pure .pure hs
  extract_lets va b off len
  refine .bind require_keeps fun _ => .bind translateRange_keeps fun _ => ?_
  extract_lets jp
  have hjp : ∀ x, Keeps (jp x) := by
    intro _
    refine .bind pinCopy_keeps fun _ => .bind performOwn_keeps fun _ => .update fun _ hs_1 => ?_
    dsimp only
    exact .same hs_1
  split
  · exact .bind trapWith_keeps fun _ => hjp ()
  · exact hjp ()
theorem startCommandQ_keeps {cmd q : Nat} {a b : Word} : Keeps (startCommandQ cmd q a b) := by
  unfold startCommandQ
  refine .update fun _ hs => ?_
  dsimp only
  exact .same hs
theorem execMmac_inv {o : RArgs} {s : State} (hs : s.Inv) : ResultInv (execMmac o s) := by
  unfold execMmac
  refine issue_inv (andNext_keeps (.bind getH_keeps fun _ => ?_)) .pure .pure .pure hs
  dsimp only
  exact .bind errorTrap_keeps fun _ => .bind require_keeps fun _ => .bind quadrantIdle_keeps fun _ =>
    startCommandQ_keeps
theorem execMdrain_inv {o : RArgs} {s : State} (hs : s.Inv) : ResultInv (execMdrain o s) := by
  unfold execMdrain
  refine issue_inv (andNext_keeps (.get fun _ _ => ?_)) .pure .pure .pure hs
  dsimp only
  exact .bind errorTrap_keeps fun _ => .bind require_keeps fun _ => .bind quadrantIdle_keeps fun _ =>
    startCommandQ_keeps
theorem execMzero_inv {o : RArgs} {s : State} (hs : s.Inv) : ResultInv (execMzero o s) := by
  unfold execMzero
  refine issue_inv (andNext_keeps (.get fun _ _ => ?_)) .pure .pure .pure hs
  dsimp only
  exact .bind errorTrap_keeps fun _ => .bind require_keeps fun _ => .bind quadrantIdle_keeps fun _ =>
    startCommandQ_keeps
theorem execMwait_inv {o : RArgs} {s : State} (hs : s.Inv) : ResultInv (execMwait o s) := by
  unfold execMwait
  refine issue_inv (andNext_keeps (.get fun _ _ => ?_)) .pure .pure .pure hs
  dsimp only
  refine .bind require_keeps fun _ => .bind (.forM fun _ => errorTrap_keeps) fun _ => .bind (.forM fun _ =>
    quadrantIdle_keeps) fun _ => ?_
  split
  · exact waitFor_keeps
  · exact .pure
theorem execMsync_inv {o : RArgs} {s : State} (hs : s.Inv) : ResultInv (execMsync o s) := by
  unfold execMsync
  refine issue_inv (andNext_keeps (.get fun _ _ => ?_)) .pure .pure .pure hs
  dsimp only
  split
  · exact waitFor_keeps
  · exact .pure
theorem execMstep_inv {o : RArgs} {s : State} (hs : s.Inv) : ResultInv (execMstep o s) := by
  unfold execMstep
  refine issue_inv (andNext_keeps (.get fun _ hs_1 => ?_)) .pure .pure .pure hs
  extract_lets c q w jp t jp1
  have hjp : ∀ x, Keeps (jp x) := fun _ => .get fun _ _ => writeD_keeps
  have hjp1 : ∀ x, Keeps (jp1 x) := fun _ => .bind (.set (runToPoint_inv (seqRestart_inv hs_1))) fun _ => hjp ()
  split
  · split
    · exact .bind waitFor_keeps fun _ => hjp1 ()
    · exact hjp1 ()
  · exact hjp ()
theorem execWeightLoad_inv {o : ClusterArgs} {s : State} (hs : s.Inv) : ResultInv (execWeightLoad o s) :=
  OptionInv.getD (loadWeights_inv hs) hs
theorem quadrantStep_inv {o : ClusterArgs} {fits : Quadrant → Bool} {s : State} (hs : s.Inv) :
    ResultInv (quadrantStep o fits s) := by
  unfold quadrantStep
  dsimp only
  split
  · exact seqStep_inv hs
  · exact hs
theorem execSeqStop_inv {o : ClusterArgs} {s : State} (hs : s.Inv) : ResultInv (execSeqStop o s) := by
  unfold execSeqStop
  split
  · exact runToPoint_inv hs
  · exact hs
end Sys2Proof.Machine
end

section
namespace Sys2Proof.Machine

/-! Every instruction and event. A family's lemma serves each word of the family. -/

theorem execIdleTimeout_inv {s : State} (hs : s.Inv) : ResultInv (execIdleTimeout s) :=
  eventWhen_inv (fun _ hs_1 => .same hs_1) hs
theorem exec_inv {i : Instr} {s : State} (hs : s.Inv) : ResultInv (exec i s) := by
  cases i with
  | reset o => exact (execReset_inv hs : ResultInv (execReset o s))
  | memoryReadRequest o => exact (execMemoryReadRequest_inv hs : ResultInv (execMemoryReadRequest o s))
  | memoryWriteRequest o => exact (execMemoryWriteRequest_inv hs : ResultInv (execMemoryWriteRequest o s))
  | lineFill o => exact (execLineFill_inv hs : ResultInv (execLineFill o s))
  | lineWriteback o => exact (execLineWriteback_inv hs : ResultInv (execLineWriteback o s))
  | parityDelta o => exact (execParityDelta_inv hs : ResultInv (execParityDelta o s))
  | writebackComplete o => exact (execWritebackComplete_inv hs : ResultInv (execWritebackComplete o s))
  | reconstructionHold o => exact (execReconstructionHold_inv hs : ResultInv (execReconstructionHold o s))
  | stackLost o => exact (execStackLost_inv hs : ResultInv (execStackLost o s))
  | rebuildStripe => exact (execRebuildStripe_inv hs : ResultInv (execRebuildStripe s))
  | tupleRequestStep o => exact (execTupleRequestStep_inv hs : ResultInv (execTupleRequestStep o s))
  | tupleWithdraw o => exact (execTupleWithdraw_inv hs : ResultInv (execTupleWithdraw o s))
  | tupleReply o => exact (execTupleReply_inv hs : ResultInv (execTupleReply o s))
  | countedOpComplete o => exact (execCountedOpComplete_inv hs : ResultInv (execCountedOpComplete o s))
  | pinAdmit o => exact (execPinAdmit_inv hs : ResultInv (execPinAdmit o s))
  | watermarkRelease => exact (execWatermarkRelease_inv hs : ResultInv (execWatermarkRelease s))
  | engineStreamStart o => exact (execEngineStreamStart_inv hs : ResultInv (execEngineStreamStart o s))
  | landing o => exact (execLanding_inv hs : ResultInv (execLanding o s))
  | streamFail o => exact (execStreamFail_inv hs : ResultInv (execStreamFail o s))
  | userInterruptEntry => exact (eventWhen_inv (fun _ hs_1 =>
    takeUserInterrupt_inv hs_1) hs : ResultInv (execUserInterruptEntry s))
  | userFrameFaultEntry o => exact (eventWhen_inv (fun _ hs_1 =>
    deliver_inv hs_1) hs : ResultInv (execUserFrameFaultEntry o s))
  | trapEntry o => exact (eventWhen_inv (fun _ hs_1 => wordTrap_inv hs_1) hs : ResultInv (execTrapEntry o s))
  | pendingErrorTrap => exact (eventWhen_inv (fun _ hs_1 =>
    takePendingError_inv hs_1) hs : ResultInv (execPendingErrorTrap s))
  | wakeInterrupt => exact (eventWhen_inv (fun _ hs_1 => takeWake_inv hs_1) hs : ResultInv (execWakeInterrupt s))
  | mgmtInterrupt => exact (eventWhen_inv (fun _ hs_1 => takeMgmt_inv hs_1) hs : ResultInv (execMgmtInterrupt s))
  | preemptionPoint => exact (eventWhen_inv (fun _ hs_1 =>
    preemptPoint_inv hs_1) hs : ResultInv (execPreemptionPoint s))
  | stripAgeExpiry => exact (eventWhen_inv (fun _ hs_1 => ageCommit_inv hs_1) hs : ResultInv (execStripAgeExpiry s))
  | stripRewind o => exact (eventWhen_inv (fun _ hs_1 => containError_inv hs_1) hs : ResultInv (execStripRewind o s))
  | idleTimeout => exact (execIdleTimeout_inv hs : ResultInv (execIdleTimeout s))
  | dispatchPacket => exact (execDispatchPacket_inv hs : ResultInv (execDispatchPacket s))
  | dependenceRead o => exact (execDependenceRead_inv hs : ResultInv (execDependenceRead o s))
  | placeUnit o => exact (execPlaceUnit_inv hs : ResultInv (execPlaceUnit o s))
  | launchDoneAdd o => exact (execLaunchDoneAdd_inv hs : ResultInv (execLaunchDoneAdd o s))
  | qtail o => exact (outOfReset_inv (fun _ hs_1 => writeQtail_inv hs_1) hs : ResultInv (execQtail o s))
  | qctl o => exact (outOfReset_inv (fun _ hs_1 => writeQctl_inv hs_1) hs : ResultInv (execQctl o s))
  | ownwin o => exact (outOfReset_inv (fun _ hs_1 => writeOwnwin_inv hs_1) hs : ResultInv (execOwnwin o s))
  | mbdone o => exact (outOfReset_inv (fun _ hs_1 => writeMbdone_inv hs_1) hs : ResultInv (execMbdone o s))
  | mbAttest o => exact (execMbAttest_inv hs : ResultInv (execMbAttest o s))
  | mbKeyLoad o => exact (execMbKeyLoad_inv hs : ResultInv (execMbKeyLoad o s))
  | mbAccessEntry o => exact (execMbAccessEntry_inv hs : ResultInv (execMbAccessEntry o s))
  | mbErrorCounts o => exact (execMbErrorCounts_inv hs : ResultInv (execMbErrorCounts o s))
  | mbFirmwareStage o => exact (execMbFirmwareStage_inv hs : ResultInv (execMbFirmwareStage o s))
  | mbPowerCap o => exact (execMbPowerCap_inv hs : ResultInv (execMbPowerCap o s))
  | mbCertChain o => exact (execMbCertChain_inv hs : ResultInv (execMbCertChain o s))
  | mbUnknownCommand o => exact (execMbUnknownCommand_inv hs : ResultInv (execMbUnknownCommand o s))
  | registerWrite o => exact (execRegisterWrite_inv hs : ResultInv (execRegisterWrite o s))
  | frctl o => exact (execFrctl_inv hs : ResultInv (execFrctl o s))
  | bqpush o => exact (hartWrite_inv pushBq_keeps hs : ResultInv (execBqpush o s))
  | efcclr => exact (execEfcclr_inv hs : ResultInv (execEfcclr s))
  | mseqRestart o => exact (execMseqRestart_inv hs : ResultInv (execMseqRestart o s))
  | mseqAbandon o => exact (execMseqAbandon_inv hs : ResultInv (execMseqAbandon o s))
  | weightLoad o => exact (execWeightLoad_inv hs : ResultInv (execWeightLoad o s))
  | seqBLoad o => exact (quadrantStep_inv hs : ResultInv (execSeqBLoad o s))
  | seqARow o => exact (quadrantStep_inv hs : ResultInv (execSeqARow o s))
  | drainGroup o => exact (quadrantStep_inv hs : ResultInv (execDrainGroup o s))
  | seqZeroRows o => exact (quadrantStep_inv hs : ResultInv (execSeqZeroRows o s))
  | seqStop o => exact (execSeqStop_inv hs : ResultInv (execSeqStop o s))
  | ulianeDataFlit o => exact (execUlianeDataFlit_inv hs : ResultInv (execUlianeDataFlit o s))
  | ulianeIdleFlit o => exact (execUlianeIdleFlit_inv hs : ResultInv (execUlianeIdleFlit o s))
  | ulianeAckFlit o => exact (execUlianeAckFlit_inv hs : ResultInv (execUlianeAckFlit o s))
  | ulianeRetryFlit o => exact (execUlianeRetryFlit_inv hs : ResultInv (execUlianeRetryFlit o s))
  | linkDown o => exact (execLinkDown_inv hs : ResultInv (execLinkDown o s))
  | cxlSnoop o => exact (execCxlSnoop_inv hs : ResultInv (execCxlSnoop o s))
  | correctedError o => exact (execCorrectedError_inv hs : ResultInv (execCorrectedError o s))
  | powerThrottle o => exact (execPowerThrottle_inv hs : ResultInv (execPowerThrottle o s))
  | waitgeRecheck => exact (execWaitgeRecheck_inv hs : ResultInv (execWaitgeRecheck s))
  | add o => exact (binaryWord_inv hs : ResultInv (execAdd o s))
  | sub o => exact (binaryWord_inv hs : ResultInv (execSub o s))
  | and o => exact (binaryWord_inv hs : ResultInv (execAnd o s))
  | or o => exact (binaryWord_inv hs : ResultInv (execOr o s))
  | xor o => exact (binaryWord_inv hs : ResultInv (execXor o s))
  | andn o => exact (binaryWord_inv hs : ResultInv (execAndn o s))
  | shl o => exact (binaryWord_inv hs : ResultInv (execShl o s))
  | shr o => exact (binaryWord_inv hs : ResultInv (execShr o s))
  | sra o => exact (binaryWord_inv hs : ResultInv (execSra o s))
  | rotl o => exact (binaryWord_inv hs : ResultInv (execRotl o s))
  | min o => exact (binaryWord_inv hs : ResultInv (execMin o s))
  | max o => exact (binaryWord_inv hs : ResultInv (execMax o s))
  | minn o => exact (binaryWord_inv hs : ResultInv (execMinn o s))
  | maxn o => exact (binaryWord_inv hs : ResultInv (execMaxn o s))
  | mul o => exact (binaryWord_inv hs : ResultInv (execMul o s))
  | mulh o => exact (binaryWord_inv hs : ResultInv (execMulh o s))
  | mulhn o => exact (binaryWord_inv hs : ResultInv (execMulhn o s))
  | div o => exact (divideWord_inv hs : ResultInv (execDiv o s))
  | divn o => exact (divideWord_inv hs : ResultInv (execDivn o s))
  | rem o => exact (divideWord_inv hs : ResultInv (execRem o s))
  | remn o => exact (divideWord_inv hs : ResultInv (execRemn o s))
  | clz o => exact (unaryWord_inv hs : ResultInv (execClz o s))
  | ctz o => exact (unaryWord_inv hs : ResultInv (execCtz o s))
  | popc o => exact (unaryWord_inv hs : ResultInv (execPopc o s))
  | sextb o => exact (unaryWord_inv hs : ResultInv (execSextb o s))
  | sexth o => exact (unaryWord_inv hs : ResultInv (execSexth o s))
  | sextw o => exact (unaryWord_inv hs : ResultInv (execSextw o s))
  | zextb o => exact (unaryWord_inv hs : ResultInv (execZextb o s))
  | zexth o => exact (unaryWord_inv hs : ResultInv (execZexth o s))
  | zextw o => exact (unaryWord_inv hs : ResultInv (execZextw o s))
  | addi o => exact (immWord_inv hs : ResultInv (execAddi o s))
  | andi o => exact (immWord_inv hs : ResultInv (execAndi o s))
  | ori o => exact (immWord_inv hs : ResultInv (execOri o s))
  | xori o => exact (immWord_inv hs : ResultInv (execXori o s))
  | shli o => exact (immWord_inv hs : ResultInv (execShli o s))
  | shri o => exact (immWord_inv hs : ResultInv (execShri o s))
  | srai o => exact (immWord_inv hs : ResultInv (execSrai o s))
  | lih o => exact (execLih_inv hs : ResultInv (execLih o s))
  | addpc o => exact (execAddpc_inv hs : ResultInv (execAddpc o s))
  | cmp o => exact (execCmp_inv hs : ResultInv (execCmp o s))
  | cmpImm o => exact (execCmpImm_inv hs : ResultInv (execCmpImm o s))
  | fcmp o => exact (floatCompareWord_inv hs : ResultInv (execFcmp o s))
  | fcmpD o => exact (floatCompareWord_inv hs : ResultInv (execFcmpD o s))
  | pand o => exact (plogWord_inv hs : ResultInv (execPand o s))
  | por o => exact (plogWord_inv hs : ResultInv (execPor o s))
  | pxor o => exact (plogWord_inv hs : ResultInv (execPxor o s))
  | pandn o => exact (plogWord_inv hs : ResultInv (execPandn o s))
  | pmov o => exact (execPmov_inv hs : ResultInv (execPmov o s))
  | pnot o => exact (execPnot_inv hs : ResultInv (execPnot o s))
  | b o => exact (execB_inv hs : ResultInv (execB o s))
  | bp o => exact (execBp_inv hs : ResultInv (execBp o s))
  | call o => exact (execCall_inv hs : ResultInv (execCall o s))
  | callr o => exact (execCallr_inv hs : ResultInv (execCallr o s))
  | bqNz o => exact (execBqNz_inv hs : ResultInv (execBqNz o s))
  | bqZ o => exact (execBqZ_inv hs : ResultInv (execBqZ o s))
  | ldb o => exact (loadWord_inv hs : ResultInv (execLdb o s))
  | ldh o => exact (loadWord_inv hs : ResultInv (execLdh o s))
  | ldw o => exact (loadWord_inv hs : ResultInv (execLdw o s))
  | ldd o => exact (loadWord_inv hs : ResultInv (execLdd o s))
  | ldbn o => exact (loadWord_inv hs : ResultInv (execLdbn o s))
  | ldhn o => exact (loadWord_inv hs : ResultInv (execLdhn o s))
  | ldwn o => exact (loadWord_inv hs : ResultInv (execLdwn o s))
  | stb o => exact (storeWord_inv hs : ResultInv (execStb o s))
  | sth o => exact (storeWord_inv hs : ResultInv (execSth o s))
  | stw o => exact (storeWord_inv hs : ResultInv (execStw o s))
  | std o => exact (storeWord_inv hs : ResultInv (execStd o s))
  | ldacq o => exact (execLdacq_inv hs : ResultInv (execLdacq o s))
  | strel o => exact (execStrel_inv hs : ResultInv (execStrel o s))
  | ldl o => exact (execLdl_inv hs : ResultInv (execLdl o s))
  | stc o => exact (execStc_inv hs : ResultInv (execStc o s))
  | fadd o => exact (arithWord_inv hs : ResultInv (execFadd o s))
  | fsub o => exact (arithWord_inv hs : ResultInv (execFsub o s))
  | fmul o => exact (arithWord_inv hs : ResultInv (execFmul o s))
  | fdiv o => exact (arithWord_inv hs : ResultInv (execFdiv o s))
  | fsqrt o => exact (convertWord_inv hs : ResultInv (execFsqrt o s))
  | fmin o => exact (minMaxWord_inv hs : ResultInv (execFmin o s))
  | fmax o => exact (minMaxWord_inv hs : ResultInv (execFmax o s))
  | fma o => exact (arithWord_inv hs : ResultInv (execFma o s))
  | fnma o => exact (arithWord_inv hs : ResultInv (execFnma o s))
  | fcvti o => exact (convertWord_inv hs : ResultInv (execFcvti o s))
  | fcvtf o => exact (convertWord_inv hs : ResultInv (execFcvtf o s))
  | fcvtp o => exact (convertWord_inv hs : ResultInv (execFcvtp o s))
  | faddD o => exact (arithWord_inv hs : ResultInv (execFaddD o s))
  | fsubD o => exact (arithWord_inv hs : ResultInv (execFsubD o s))
  | fmulD o => exact (arithWord_inv hs : ResultInv (execFmulD o s))
  | fdivD o => exact (arithWord_inv hs : ResultInv (execFdivD o s))
  | fsqrtD o => exact (convertWord_inv hs : ResultInv (execFsqrtD o s))
  | fminD o => exact (minMaxWord_inv hs : ResultInv (execFminD o s))
  | fmaxD o => exact (minMaxWord_inv hs : ResultInv (execFmaxD o s))
  | fmaD o => exact (arithWord_inv hs : ResultInv (execFmaD o s))
  | fnmaD o => exact (arithWord_inv hs : ResultInv (execFnmaD o s))
  | fcvtiD o => exact (convertWord_inv hs : ResultInv (execFcvtiD o s))
  | fcvtfD o => exact (convertWord_inv hs : ResultInv (execFcvtfD o s))
  | fcvtpD o => exact (convertWord_inv hs : ResultInv (execFcvtpD o s))
  | csrr o => exact (execCsrr_inv hs : ResultInv (execCsrr o s))
  | csrw o => exact (execCsrw_inv hs : ResultInv (execCsrw o s))
  | csrx o => exact (execCsrx_inv hs : ResultInv (execCsrx o s))
  | svc o => exact (execSvc_inv hs : ResultInv (execSvc o s))
  | trap o => exact (execTrap_inv hs : ResultInv (execTrap o s))
  | tret o => exact (execTret_inv hs : ResultInv (execTret o s))
  | uiret o => exact (execUiret_inv hs : ResultInv (execUiret o s))
  | idle o => exact (execIdle_inv hs : ResultInv (execIdle o s))
  | nop o => exact (execNop_inv hs : ResultInv (execNop o s))
  | brk o => exact (execBrk_inv hs : ResultInv (execBrk o s))
  | exit o => exact (execExit_inv hs : ResultInv (execExit o s))
  | vadd o => exact (intWord_inv hs : ResultInv (execVadd o s))
  | vsub o => exact (intWord_inv hs : ResultInv (execVsub o s))
  | vmul o => exact (intWord_inv hs : ResultInv (execVmul o s))
  | vmulh o => exact (intWord_inv hs : ResultInv (execVmulh o s))
  | vmulhn o => exact (intWord_inv hs : ResultInv (execVmulhn o s))
  | vmin o => exact (intWord_inv hs : ResultInv (execVmin o s))
  | vmax o => exact (intWord_inv hs : ResultInv (execVmax o s))
  | vminn o => exact (intWord_inv hs : ResultInv (execVminn o s))
  | vmaxn o => exact (intWord_inv hs : ResultInv (execVmaxn o s))
  | vand o => exact (intWord_inv hs : ResultInv (execVand o s))
  | vor o => exact (intWord_inv hs : ResultInv (execVor o s))
  | vxor o => exact (intWord_inv hs : ResultInv (execVxor o s))
  | vandn o => exact (intWord_inv hs : ResultInv (execVandn o s))
  | vshl o => exact (intWord_inv hs : ResultInv (execVshl o s))
  | vshr o => exact (intWord_inv hs : ResultInv (execVshr o s))
  | vsra o => exact (intWord_inv hs : ResultInv (execVsra o s))
  | vsadd o => exact (intWord_inv hs : ResultInv (execVsadd o s))
  | vssub o => exact (intWord_inv hs : ResultInv (execVssub o s))
  | vsaddn o => exact (intWord_inv hs : ResultInv (execVsaddn o s))
  | vssubn o => exact (intWord_inv hs : ResultInv (execVssubn o s))
  | vabsd o => exact (intWord_inv hs : ResultInv (execVabsd o s))
  | vclz o => exact (unaryIntWord_inv hs : ResultInv (execVclz o s))
  | vpopc o => exact (unaryIntWord_inv hs : ResultInv (execVpopc o s))
  | vneg o => exact (unaryIntWord_inv hs : ResultInv (execVneg o s))
  | vfadd o => exact (addWord_inv hs : ResultInv (execVfadd o s))
  | vfsub o => exact (addWord_inv hs : ResultInv (execVfsub o s))
  | vfmul o => exact (fpWord_inv hs : ResultInv (execVfmul o s))
  | vfma o => exact (fmaWord_inv hs : ResultInv (execVfma o s))
  | vfms o => exact (fmaWord_inv hs : ResultInv (execVfms o s))
  | vfnma o => exact (fmaWord_inv hs : ResultInv (execVfnma o s))
  | vfdiv o => exact (fpWord_inv hs : ResultInv (execVfdiv o s))
  | vfsqrt o => exact (fpUnary_inv hs : ResultInv (execVfsqrt o s))
  | vfmin o => exact (execVfmin_inv hs : ResultInv (execVfmin o s))
  | vfmax o => exact (execVfmax_inv hs : ResultInv (execVfmax o s))
  | vfabs o => exact (fpUnary_inv hs : ResultInv (execVfabs o s))
  | vfneg o => exact (fpUnary_inv hs : ResultInv (execVfneg o s))
  | vfclass o => exact (fpUnary_inv hs : ResultInv (execVfclass o s))
  | vcmp o => exact (compareWord_inv hs : ResultInv (execVcmp o s))
  | vfcmp o => exact (execVfcmp_inv hs : ResultInv (execVfcmp o s))
  | kand o => exact (klogWord_inv hs : ResultInv (execKand o s))
  | kor o => exact (klogWord_inv hs : ResultInv (execKor o s))
  | kxor o => exact (klogWord_inv hs : ResultInv (execKxor o s))
  | kandn o => exact (klogWord_inv hs : ResultInv (execKandn o s))
  | knot o => exact (klogWord_inv hs : ResultInv (execKnot o s))
  | kmov o => exact (klogWord_inv hs : ResultInv (execKmov o s))
  | kpopc o => exact (kcountWord_inv hs : ResultInv (execKpopc o s))
  | kfirst o => exact (kcountWord_inv hs : ResultInv (execKfirst o s))
  | vmv o => exact (moveWord_inv hs : ResultInv (execVmv o s))
  | vmvX o => exact (execVmvX_inv hs : ResultInv (execVmvX o s))
  | vbcast o => exact (moveWord_inv hs : ResultInv (execVbcast o s))
  | vsel o => exact (execVsel_inv hs : ResultInv (execVsel o s))
  | vslideup o => exact (execVslideup_inv hs : ResultInv (execVslideup o s))
  | vslidedn o => exact (moveWord_inv hs : ResultInv (execVslidedn o s))
  | vgathr o => exact (execVgathr_inv hs : ResultInv (execVgathr o s))
  | vcompr o => exact (execVcompr_inv hs : ResultInv (execVcompr o s))
  | vexpnd o => exact (moveWord_inv hs : ResultInv (execVexpnd o s))
  | viota o => exact (execViota_inv hs : ResultInv (execViota o s))
  | vexts o => exact (execVexts_inv hs : ResultInv (execVexts o s))
  | vinss o => exact (execVinss_inv hs : ResultInv (execVinss o s))
  | vrowmv o => exact (moveWord_inv hs : ResultInv (execVrowmv o s))
  | vtrn o => exact (execVtrn_inv hs : ResultInv (execVtrn o s))
  | vcvt o => exact (execVcvt_inv hs : ResultInv (execVcvt o s))
  | vcbenc o => exact (execVcbenc_inv hs : ResultInv (execVcbenc o s))
  | vcbdec o => exact (execVcbdec_inv hs : ResultInv (execVcbdec o s))
  | vpack o => exact (execVpack_inv hs : ResultInv (execVpack o s))
  | vunpk o => exact (execVunpk_inv hs : ResultInv (execVunpk o s))
  | vredo o => exact (execVredo_inv hs : ResultInv (execVredo o s))
  | vredt o => exact (execVredt_inv hs : ResultInv (execVredt o s))
  | vredmax o => exact (reductionWord_inv hs : ResultInv (execVredmax o s))
  | vredmin o => exact (reductionWord_inv hs : ResultInv (execVredmin o s))
  | vredand o => exact (reductionWord_inv hs : ResultInv (execVredand o s))
  | vredor o => exact (reductionWord_inv hs : ResultInv (execVredor o s))
  | vdoto o => exact (execVdoto_inv hs : ResultInv (execVdoto o s))
  | vdott o => exact (execVdott_inv hs : ResultInv (execVdott o s))
  | vexp2 o => exact (specWord_inv hs : ResultInv (execVexp2 o s))
  | vlog2 o => exact (specWord_inv hs : ResultInv (execVlog2 o s))
  | vrcp o => exact (specWord_inv hs : ResultInv (execVrcp o s))
  | vrsq o => exact (specWord_inv hs : ResultInv (execVrsq o s))
  | vsin o => exact (specWord_inv hs : ResultInv (execVsin o s))
  | vcos o => exact (specWord_inv hs : ResultInv (execVcos o s))
  | vtanh o => exact (specWord_inv hs : ResultInv (execVtanh o s))
  | vsigm o => exact (specWord_inv hs : ResultInv (execVsigm o s))
  | vmrg o => exact (mergeWord_inv hs : ResultInv (execVmrg o s))
  | vmrgi o => exact (mergeWord_inv hs : ResultInv (execVmrgi o s))
  | vbsrch o => exact (execVbsrch_inv hs : ResultInv (execVbsrch o s))
  | vconf o => exact (execVconf_inv hs : ResultInv (execVconf o s))
  | vsetl o => exact (execVsetl_inv hs : ResultInv (execVsetl o s))
  | vclaim o => exact (execVclaim_inv hs : ResultInv (execVclaim o s))
  | vclaimp o => exact (execVclaimp_inv hs : ResultInv (execVclaimp o s))
  | vsett o => exact (execVsett_inv hs : ResultInv (execVsett o s))
  | vcbld o => exact (execVcbld_inv hs : ResultInv (execVcbld o s))
  | wthset o => exact (execWthset_inv hs : ResultInv (execWthset o s))
  | vld o => exact (loadWordV_inv (fun _ => loadAny_keeps) hs : ResultInv (execVld o s))
  | vst o => exact (storeWordV_inv (fun _ => storeAny_keeps .pure) hs : ResultInv (execVst o s))
  | vstn o => exact (execVstn_inv hs : ResultInv (execVstn o s))
  | vldcl o => exact (execVldcl_inv hs : ResultInv (execVldcl o s))
  | vstcl o => exact (execVstcl_inv hs : ResultInv (execVstcl o s))
  | vgll o => exact (loadWordV_inv (fun _ => loadBody_keeps) hs : ResultInv (execVgll o s))
  | vscc o => exact (execVscc_inv hs : ResultInv (execVscc o s))
  | vlda o => exact (loadWordV_inv (fun _ => loadAny_keeps) hs : ResultInv (execVlda o s))
  | vstl o => exact (storeWordV_inv (fun _ => storeAny_keeps .pure) hs : ResultInv (execVstl o s))
  | qdrain o => exact (execQdrain_inv hs : ResultInv (execQdrain o s))
  | fence o => exact (execFence_inv hs : ResultInv (execFence o s))
  | efence o => exact (execEfence_inv hs : ResultInv (execEfence o s))
  | waitge o => exact (execWaitge_inv hs : ResultInv (execWaitge o s))
  | waitdc o => exact (execWaitdc_inv hs : ResultInv (execWaitdc o s))
  | bar o => exact (execBar_inv hs : ResultInv (execBar o s))
  | hgive o => exact (execHgive_inv hs : ResultInv (execHgive o s))
  | htake o => exact (execHtake_inv hs : ResultInv (execHtake o s))
  | enq o => exact (execEnq_inv hs : ResultInv (execEnq o s))
  | deq o => exact (execDeq_inv hs : ResultInv (execDeq o s))
  | venq o => exact (execVenq_inv hs : ResultInv (execVenq o s))
  | vdeq o => exact (execVdeq_inv hs : ResultInv (execVdeq o s))
  | stream o => exact (execStream_inv hs : ResultInv (execStream o s))
  | charm o => exact (execCharm_inv hs : ResultInv (execCharm o s))
  | chstat o => exact (execChstat_inv hs : ResultInv (execChstat o s))
  | chclr o => exact (execChclr_inv hs : ResultInv (execChclr o s))
  | tdep o => exact (tupleWord_inv hs : ResultInv (execTdep o s))
  | tcpy o => exact (tupleWord_inv hs : ResultInv (execTcpy o s))
  | ttak o => exact (tupleWord_inv hs : ResultInv (execTtak o s))
  | tcpyn o => exact (tupleWord_inv hs : ResultInv (execTcpyn o s))
  | ttakn o => exact (tupleWord_inv hs : ResultInv (execTtakn o s))
  | treg o => exact (execTreg_inv hs : ResultInv (execTreg o s))
  | tfree o => exact (execTfree_inv hs : ResultInv (execTfree o s))
  | gsub o => exact (geomWord_inv (fun _ _ _ => addSub_keeps) hs : ResultInv (execGsub o s))
  | gadd o => exact (geomWord_inv (fun _ _ _ => addSub_keeps) hs : ResultInv (execGadd o s))
  | gscale o => exact (execGscale_inv hs : ResultInv (execGscale o s))
  | gdot o => exact (execGdot_inv hs : ResultInv (execGdot o s))
  | gcross o => exact (execGcross_inv hs : ResultInv (execGcross o s))
  | glen o => exact (execGlen_inv hs : ResultInv (execGlen o s))
  | gcvt o => exact (geomWord_inv (fun _ _ _ => convertTo_keeps) hs : ResultInv (execGcvt o s))
  | gxfm o => exact (execGxfm_inv hs : ResultInv (execGxfm o s))
  | gtag o => exact (geomWord_inv (fun _ _ _ => .pure) hs : ResultInv (execGtag o s))
  | gsettag o => exact (geomWord_inv (fun _ _ _ => .pure) hs : ResultInv (execGsettag o s))
  | gchk o => exact (execGchk_inv hs : ResultInv (execGchk o s))
  | gretag o => exact (geomWord_inv (fun _ _ _ => retag_keeps) hs : ResultInv (execGretag o s))
  | fnew o => exact (execFnew_inv hs : ResultInv (execFnew o s))
  | ffree o => exact (execFfree_inv hs : ResultInv (execFfree o s))
  | fupd o => exact (execFupd_inv hs : ResultInv (execFupd o s))
  | fsplit o => exact (execFsplit_inv hs : ResultInv (execFsplit o s))
  | frepar o => exact (execFrepar_inv hs : ResultInv (execFrepar o s))
  | ffence o => exact (execFfence_inv hs : ResultInv (execFfence o s))
  | gcell o => exact (execGcell_inv hs : ResultInv (execGcell o s))
  | hins o => exact (execHins_inv hs : ResultInv (execHins o s))
  | hlook o => exact (execHlook_inv hs : ResultInv (execHlook o s))
  | hclr o => exact (execHclr_inv hs : ResultInv (execHclr o s))
  | wfwd o => exact (execWfwd_inv hs : ResultInv (execWfwd o s))
  | winv o => exact (execWinv_inv hs : ResultInv (execWinv o s))
  | wtag o => exact (execWtag_inv hs : ResultInv (execWtag o s))
  | wsettag o => exact (execWsettag_inv hs : ResultInv (execWsettag o s))
  | mcfg o => exact (execMcfg_inv hs : ResultInv (execMcfg o s))
  | mldb o => exact (execMldb_inv hs : ResultInv (execMldb o s))
  | mmac o => exact (execMmac_inv hs : ResultInv (execMmac o s))
  | mdrain o => exact (execMdrain_inv hs : ResultInv (execMdrain o s))
  | mzero o => exact (execMzero_inv hs : ResultInv (execMzero o s))
  | mwait o => exact (execMwait_inv hs : ResultInv (execMwait o s))
  | msync o => exact (execMsync_inv hs : ResultInv (execMsync o s))
  | mstep o => exact (execMstep_inv hs : ResultInv (execMstep o s))
  | launch o => exact (execLaunch_inv hs : ResultInv (execLaunch o s))
  | spawn o => exact (execSpawn_inv hs : ResultInv (execSpawn o s))
  | steal o => exact (execSteal_inv hs : ResultInv (execSteal o s))
  | taskget o => exact (execTaskget_inv hs : ResultInv (execTaskget o s))
  | yield o => exact (execYield_inv hs : ResultInv (execYield o s))
  | tlbi o => exact (execTlbi_inv hs : ResultInv (execTlbi o s))
  | msq o => exact (execMsq_inv hs : ResultInv (execMsq o s))
  | migrate o => exact (execMigrate_inv hs : ResultInv (execMigrate o s))
  | keyld o => exact (execKeyld_inv hs : ResultInv (execKeyld o s))
  | actbl o => exact (execActbl_inv hs : ResultInv (execActbl o s))
  | preempt o => exact (execPreempt_inv hs : ResultInv (execPreempt o s))
  | resume o => exact (execResume_inv hs : ResultInv (execResume o s))
  | pfx o => exact (prefixWord_inv hs : ResultInv (execPfx o s))
  | pfxCopy o => exact (prefixWord_inv hs : ResultInv (execPfxCopy o s))
  | cAdd o => exact (compactWord_inv hs : ResultInv (execCAdd o s))
  | cSub o => exact (compactWord_inv hs : ResultInv (execCSub o s))
  | cAnd o => exact (compactWord_inv hs : ResultInv (execCAnd o s))
  | cOr o => exact (compactWord_inv hs : ResultInv (execCOr o s))
  | cXor o => exact (compactWord_inv hs : ResultInv (execCXor o s))
  | cShl o => exact (compactWord_inv hs : ResultInv (execCShl o s))
  | cShr o => exact (compactWord_inv hs : ResultInv (execCShr o s))
  | cAddi o => exact (execCAddi_inv hs : ResultInv (execCAddi o s))
  | cMov o => exact (execCMov_inv hs : ResultInv (execCMov o s))
  | cLdd o => exact (execCLdd_inv hs : ResultInv (execCLdd o s))
  | cStd o => exact (execCStd_inv hs : ResultInv (execCStd o s))
  | cBnz o => exact (execCBnz_inv hs : ResultInv (execCBnz o s))
  | cNop o => exact (execCNop_inv hs : ResultInv (execCNop o s))
  | migrationComplete o => exact (execMigrationComplete_inv hs : ResultInv (execMigrationComplete o s))
  | ulianeLinkUp o => exact (execUlianeLinkUp_inv hs : ResultInv (execUlianeLinkUp o s))
  | hostWindowNoAnswer o => exact (execHostWindowNoAnswer_inv hs : ResultInv (execHostWindowNoAnswer o s))
  | laneGroupArbitration o => exact (execLaneGroupArbitration_inv hs : ResultInv (execLaneGroupArbitration o s))
end Sys2Proof.Machine
end

section
namespace Sys2Proof.Machine

/-! The queue of words, the work of the machine's other agents between words, and a step. -/

theorem enterQueue_inv {s : State} (hs : s.Inv) : (enterQueue s).Inv := by
  unfold enterQueue
  split
  · split
    · split
      · exact .same hs
      · exact hs
    · exact hs
  · exact hs
theorem issued_inv {r : Result} (hr : ResultInv r) : ResultInv (issued r) := by
  unfold issued
  split
  · exact enterQueue_inv hr
  · exact hr
theorem runHead_inv {s : State} (hs : s.Inv) : OptionInv (runHead s) := by
  unfold runHead
  split
  · exact .nothing
  · split
    · exact .nothing
    · split
      · split
        · exact .nothing
        · split
          · exact .next (.same ((exec_inv (.same hs)).of_next ‹_›))
          · exact .next ((exec_inv (.same hs)).of_next ‹_›)
      · exact .nothing
theorem unqueue_inv {s : State} (hs : s.Inv) : OptionInv (unqueue s) := by
  unfold unqueue
  split
  · exact .nothing
  · split
    · dsimp only
      exact .next (.same hs)
    · exact .nothing
theorem holdFront_inv {s : State} (hs : s.Inv) : (holdFront s).Inv :=
  .same hs
theorem joinQueue_inv {i : Instr} {s : State} (hs : s.Inv) : ResultInv (joinQueue i s) := by
  unfold joinQueue
  split
  · dsimp only
    split
    · exact holdFront_inv hs
    · split
      · exact .same ((exec_inv (.same hs)).of_next ‹_›)
      · split
        · exact enterQueue_inv (.same ((exec_inv (.same hs)).of_next ‹_›))
        · exact holdFront_inv hs
  · exact exec_inv (.same hs)
theorem issueFront_inv {bs : List Byte} {i : Instr} {s : State} (hs : s.Inv) : ResultInv (issueFront bs i s) := by
  unfold issueFront
  split
  · exact issued_inv (exec_inv hs)
  · split
    · exact joinQueue_inv hs
    · exact holdFront_inv hs
theorem fetchHalf_keeps {va : Word} : Keeps (fetchHalf va) := by
  unfold fetchHalf
  refine .bind getH_keeps fun _ => .bind translateNow_keeps fun _ => .bind watermark_keeps fun _ => .get fun _ hs => ?_
  split
  · exact waitFor_keeps
  · exact trapWith_keeps
  · exact .throw
  · exact .bind (.set ((physRead_inv hs).of_ok_fst ‹_›)) fun _ => .pure
theorem fetchWord_keeps : Keeps fetchWord := by
  unfold fetchWord
  refine .bind getH_keeps fun _ => ?_
  extract_lets jp
  have hjp : ∀ x, Keeps (jp x) := by
    intro _
    refine .bind getH_keeps fun _ => ?_
    extract_lets pc
    refine .bind fetchHalf_keeps fun _ => ?_
    extract_lets jp1
    have hjp1 : ∀ x, Keeps (jp1 x) := fun _ => .bind modH_keeps fun _ => .pure
    split
    · exact .bind .pure fun _ => hjp1 _
    · exact .bind fetchHalf_keeps fun _ => hjp1 _
  split
  · exact .bind trapWith_keeps fun _ => hjp ()
  · exact hjp ()
theorem rotate_inv {s : State} (hs : s.Inv) : (rotate s).Inv := by
  unfold rotate
  split
  · exact focus_inv hs
  · exact hs
theorem workWriteback_inv {s : State} (hs : s.Inv) : OptionInv (workWriteback s) :=
  .map (fun _ => settleStripe_inv hs) _
theorem workMigration_inv {s : State} (hs : s.Inv) : OptionInv (workMigration s) :=
  .map (fun _ => endMigration_inv hs) _
theorem workReply_inv {s : State} (hs : s.Inv) : OptionInv (workReply s) :=
  .map (fun _ => landReply_inv hs) _
theorem workTuples_inv {s : State} (hs : s.Inv) : OptionInv (workTuples s) := by
  unfold workTuples
  split
  · exact .nothing
  · refine .next ?_
    split
    · exact tupleWithdraw_inv hs
    · exact tupleStep_inv hs
theorem workOps_inv {s : State} (hs : s.Inv) : OptionInv (workOps s) := by
  unfold workOps
  dsimp only
  split
  · exact .nothing
  · exact .map (fun _ => completeNow_inv hs) _
theorem workEngine_inv {e : Nat} {s : State} (hs : s.Inv) : OptionInv (workEngine e s) := by
  unfold workEngine
  dsimp only
  refine .map (fun _ => ?_) _
  split
  · exact landElement_inv (serve_inv hs)
  · split
    · exact startStream_inv hs
    · exact failStream_inv (serve_inv hs)
theorem workChannels_inv {s : State} (hs : s.Inv) : OptionInv (workChannels s) :=
  .foldl (fun _ _ _ hr => .or (workEngine_inv (hr.getD hs)) hr) .nothing
theorem workLinks_inv {s : State} (hs : s.Inv) : OptionInv (workLinks s) := by
  unfold workLinks
  refine .findSome fun _ => ?_
  split
  · exact .next (acknowledgeFlits_inv hs)
  · exact .nothing
theorem workLoader_inv {s : State} (hs : s.Inv) : OptionInv (workLoader s) :=
  .findSome fun _ => loadWeights_inv hs
theorem workQuads_inv {s : State} (hs : s.Inv) : OptionInv (workQuads s) := by
  unfold workQuads
  refine .findSome fun _ => .findSome fun _ => ?_
  split
  · exact .nothing
  · split
    · exact .nothing
    · exact .next ((seqStep_inv hs).of_fst ‹_›)
theorem workPins_inv {s : State} (hs : s.Inv) : OptionInv (workPins s) :=
  .map (fun _ => admitNext_inv hs) _
theorem placeUnits_inv {k : Nat} {s : State} (hs : s.Inv) : (placeUnits k s).Inv := by
  induction k generalizing s with
  | zero => exact hs
  | succ k ih =>
    unfold placeUnits
    split
    · exact hs
    · exact ih (placeLaunch_inv hs)
theorem workLaunches_inv {s : State} (hs : s.Inv) : OptionInv (workLaunches s) := by
  unfold workLaunches
  split
  · exact .next (finishLaunch_inv hs)
  · split
    · exact .nothing
    · exact .next (placeUnits_inv hs)
theorem workQueues_inv {s : State} (hs : s.Inv) : OptionInv (workQueues s) := by
  unfold workQueues
  dsimp only
  split
  · exact .nothing
  · exact .next (dispatchPacket_inv (.foldl (fun _ _ hs_1 => readDependence_inv hs_1) hs))
theorem works_inv {w : State → Option State} (hw : w ∈ works) {s : State} (hs : s.Inv) : OptionInv (w s) := by
  simp only [works, List.mem_cons, List.not_mem_nil, or_false] at hw
  rcases hw with rfl | rfl | rfl | rfl | rfl | rfl | rfl | rfl | rfl | rfl | rfl | rfl
  · exact workWriteback_inv hs
  · exact workMigration_inv hs
  · exact workReply_inv hs
  · exact workTuples_inv hs
  · exact workOps_inv hs
  · exact workChannels_inv hs
  · exact workLinks_inv hs
  · exact workLoader_inv hs
  · exact workQuads_inv hs
  · exact workPins_inv hs
  · exact workQueues_inv hs
  · exact workLaunches_inv hs
theorem backgroundWork_inv {s : State} (hs : s.Inv) : OptionInv (backgroundWork s) := by
  unfold backgroundWork
  have all : ∀ w ∈ works, ∀ s : State, s.Inv → OptionInv (w s) := fun _ hw _ hs => works_inv hw hs
  generalize works = agents at all ⊢
  exact .foldl (fun _ _ hw hr => .or (all _ hw _ (hr.getD hs)) hr) .nothing
theorem background_inv {s : State} (hs : s.Inv) : (background s).Inv :=
  rotate_inv (OptionInv.getD (backgroundWork_inv hs) hs)
theorem boundary_inv {s : State} (hs : s.Inv) : OptionInv (boundary s) := by
  unfold boundary
  split
  · exact .next (ageCommit_inv hs)
  · split
    · exact .nothing
    · split
      · exact .next (whenEntered_inv (fun _ hs_1 => takePendingError_inv hs_1) hs)
      · split
        · exact .next (background_inv (preemptPoint_inv hs))
        · split
          · exact .next (whenEntered_inv (fun _ hs_1 => takeMgmt_inv hs_1) hs)
          · split
            · exact .next (whenEntered_inv (fun _ hs_1 => takeWake_inv hs_1) hs)
            · split
              · exact .next (takeUserInterrupt_inv hs)
              · exact .nothing
theorem settle_inv {before : Nat} {r : Result} (hr : ResultInv r) : ResultInv (settle before r) := by
  unfold settle
  split
  · change State.Inv _
    split
    · exact background_inv hr
    · exact hr
  · exact hr
theorem emptyTurn_inv {s : State} (hs : s.Inv) : ResultInv (emptyTurn s) := by
  unfold emptyTurn
  split
  · exact focus_inv hs
  · exact rotate_inv ((backgroundWork_inv hs).of_some ‹_›)
  · exact trivial
theorem passTime_inv {n : Nat} {s : State} (hs : s.Inv) : (passTime n s).Inv :=
  .same hs
theorem wordBytes_inv {s : State} (hs : s.Inv) : AnswerInv (wordBytes s) := by
  unfold wordBytes
  split
  · exact hs
  · exact fetchWord_keeps _ hs
theorem wordTurn_inv {s : State} (hs : s.Inv) : ResultInv (wordTurn s) := by
  unfold wordTurn
  split
  · exact settle_inv (deliver_inv ((wordBytes_inv hs).of_error ‹_›))
  · split
    · exact settle_inv (issueFront_inv ((wordBytes_inv hs).of_ok ‹_›))
    · exact wordTrap_inv ((wordBytes_inv hs).of_ok ‹_›)
theorem hartTurn_inv {s : State} (hs : s.Inv) : ResultInv (hartTurn s) := by
  unfold hartTurn
  split
  · exact emptyTurn_inv hs
  · split
    · exact settle_inv ((runHead_inv hs).of_some ‹_›)
    · split
      · split
        · exact (unqueue_inv hs).of_some ‹_›
        · exact settle_inv (holdFront_inv hs)
      · split
        · exact (boundary_inv hs).of_some ‹_›
        · exact wordTurn_inv hs
theorem step_inv {s : State} (hs : s.Inv) : ResultInv (step s) := by
  unfold step
  split
  · exact exec_inv (.same hs)
  · exact passTime_inv (.same hs)
  · exact hartTurn_inv (focus_inv (.same hs))
  · exact hartTurn_inv hs

/-- Settles O60: every part of a step keeps memory in its canonical form, whatever the word, the event or the agent. -/
theorem stepKeepsMemoryCanonical : Obligations.StepKeepsMemoryCanonical := by
  unfold Obligations.StepKeepsMemoryCanonical
  exact fun _ _ hs e => (step_inv hs).of_next e
end Sys2Proof.Machine
end

section
namespace Sys2Proof
open Sys2Proof.Laws

/-! The encoding (R26 to R33), format by format: each of the 32-bit formats as data, with one law, from which both directions of
`decode` and `encode` follow. -/

/-- R27: a format of 32-bit words: what a word says of its operands and its selector (a func, a form or none), the word of a
major, a selector and operands, and how many selectors there are. -/
structure WordFormat (α : Type) where
  args : Nat → α
  sel : Nat → Nat
  word : (major sel : Nat) → α → Nat
  sels : Nat

/-- R27: a format's fields lie apart, and cover the word. -/
structure WordFormat.Lawful {α : Type} (F : WordFormat α) : Prop where
  read : ∀ {m n : Nat} (o : α), m < 64 → n < F.sels →
    F.word m n o < 2 ^ 32 ∧ F.word m n o % 2 = 1 ∧ F.word m n o / 2 % 64 = m ∧ F.sel (F.word m n o) = n ∧ F.args (F.word m n o) = o
  write : ∀ {w : Nat}, w % 2 = 1 → w < 2 ^ 32 → F.word (w / 2 % 64) (F.sel w) (F.args w) = w

theorem toNat_field (w lo n : Nat) : (field w lo n).toNat = w / 2 ^ lo % 2 ^ n := by simp [field]
theorem field_eq_iff {n : Nat} (w lo : Nat) (x : BitVec n) : field w lo n = x ↔ w / 2 ^ lo % 2 ^ n = x.toNat := by
  rw [← BitVec.toNat_inj, toNat_field]
theorem bitNat_bitAt (w lo : Nat) : bitNat (bitAt w lo) = w / 2 ^ lo % 2 := by
  unfold bitAt bitNat
  rcases Nat.mod_two_eq_zero_or_one (w / 2 ^ lo) with h | h <;> simp [h]
theorem bitNat_inj (b c : Bool) : bitNat b = bitNat c ↔ b = c := by cases b <;> cases c <;> decide
theorem bitAt_eq_iff (w lo : Nat) (b : Bool) : bitAt w lo = b ↔ w / 2 ^ lo % 2 = bitNat b := by
  rw [← bitNat_inj, bitNat_bitAt]

/-! The formats of R27. -/

def rFormat : WordFormat RArgs := ⟨rArgs, (· / 268435456 % 16), rWord, 16⟩
def iFormat : WordFormat IArgs := ⟨iArgs, (· / 536870912 % 8), iWord, 8⟩
def uFormat : WordFormat UArgs := ⟨uArgs, fun _ => 0, fun major _ => uWord major, 1⟩
def cFormat : WordFormat CArgs := ⟨cArgs, (· / 134217728 % 2), cWord, 2⟩
def bFormat : WordFormat BArgs := ⟨bArgs, fun _ => 0, fun major _ => bWord major, 1⟩
def bqFormat : WordFormat BqArgs := ⟨bqArgs, (· / 131072 % 8), bqWord, 8⟩
def jFormat : WordFormat JArgs := ⟨jArgs, (· / 2048 % 2), jWord, 2⟩
def lFormat : WordFormat LArgs := ⟨lArgs, (· / 131072 % 8), lWord, 8⟩
def aFormat : WordFormat AArgs := ⟨aArgs, (· / 268435456 % 16), aWord, 16⟩
def vFormat : WordFormat VArgs := ⟨vArgs, (· / 268435456 % 16), vWord, 16⟩
def vCmpFormat : WordFormat VCmpArgs := ⟨vCmpArgs, fun _ => 0, fun major _ => vCmpWord major, 1⟩
def mFormat : WordFormat MArgs := ⟨mArgs, fun _ => 0, fun major _ => mWord major, 1⟩
def pFormat : WordFormat PArgs := ⟨pArgs, (· / 131072), pWord, 2⟩

theorem rFormat_lawful : rFormat.Lawful where
  read o hm hn := by
    obtain ⟨d, a, b, guard, neg, stall⟩ := o
    have := bitNat_le neg
    simp only [rFormat, rWord, rArgs, RArgs.mk.injEq, field_eq_iff, bitAt_eq_iff] at *
    omega
  write h1 h2 := by
    simp only [rFormat, rWord, rArgs, toNat_field, bitNat_bitAt] at *
    omega
theorem iFormat_lawful : iFormat.Lawful where
  read o hm hn := by
    cases o
    simp only [iFormat, iWord, iArgs, IArgs.mk.injEq, field_eq_iff] at *
    omega
  write h1 h2 := by
    simp only [iFormat, iWord, iArgs, toNat_field] at *
    omega
theorem uFormat_lawful : uFormat.Lawful where
  read o hm hn := by
    cases o
    simp only [uFormat, uWord, uArgs, UArgs.mk.injEq, field_eq_iff] at *
    omega
  write h1 h2 := by
    simp only [uFormat, uWord, uArgs, toNat_field] at *
    omega
theorem cFormat_lawful : cFormat.Lawful where
  read o hm hn := by
    obtain ⟨d1, d2, a, b, guard, neg, cond⟩ := o
    have := bitNat_le neg
    simp only [cFormat, cWord, cArgs, CArgs.mk.injEq, field_eq_iff, bitAt_eq_iff] at *
    omega
  write h1 h2 := by
    simp only [cFormat, cWord, cArgs, toNat_field, bitNat_bitAt] at *
    omega
theorem bFormat_lawful : bFormat.Lawful where
  read o hm hn := by
    cases o
    simp only [bFormat, bWord, bArgs, BArgs.mk.injEq, field_eq_iff] at *
    omega
  write h1 h2 := by
    simp only [bFormat, bWord, bArgs, toNat_field] at *
    omega
theorem bqFormat_lawful : bqFormat.Lawful where
  read o hm hn := by
    cases o
    simp only [bqFormat, bqWord, bqArgs, BqArgs.mk.injEq, field_eq_iff] at *
    omega
  write h1 h2 := by
    simp only [bqFormat, bqWord, bqArgs, toNat_field] at *
    omega
theorem jFormat_lawful : jFormat.Lawful where
  read o hm hn := by
    obtain ⟨pred, neg, off⟩ := o
    have := bitNat_le neg
    simp only [jFormat, jWord, jArgs, JArgs.mk.injEq, field_eq_iff, bitAt_eq_iff] at *
    omega
  write h1 h2 := by
    simp only [jFormat, jWord, jArgs, toNat_field, bitNat_bitAt] at *
    omega
theorem lFormat_lawful : lFormat.Lawful where
  read o hm hn := by
    cases o
    simp only [lFormat, lWord, lArgs, LArgs.mk.injEq, field_eq_iff] at *
    omega
  write h1 h2 := by
    simp only [lFormat, lWord, lArgs, toNat_field] at *
    omega
theorem aFormat_lawful : aFormat.Lawful where
  read o hm hn := by
    cases o
    simp only [aFormat, aWord, aArgs, AArgs.mk.injEq, field_eq_iff] at *
    omega
  write h1 h2 := by
    simp only [aFormat, aWord, aArgs, toNat_field] at *
    omega
theorem vFormat_lawful : vFormat.Lawful where
  read o hm hn := by
    obtain ⟨d, a, b, mask, neg, t, x⟩ := o
    have := bitNat_le neg
    have := bitNat_le t
    have := bitNat_le x
    simp only [vFormat, vWord, vArgs, VArgs.mk.injEq, field_eq_iff, bitAt_eq_iff] at *
    omega
  write h1 h2 := by
    simp only [vFormat, vWord, vArgs, toNat_field, bitNat_bitAt] at *
    omega
theorem vCmpFormat_lawful : vCmpFormat.Lawful where
  read o hm hn := by
    obtain ⟨d, a, b, mask, neg, t, x, cond⟩ := o
    have := bitNat_le neg
    have := bitNat_le t
    have := bitNat_le x
    simp only [vCmpFormat, vCmpWord, vCmpArgs, VCmpArgs.mk.injEq, field_eq_iff, bitAt_eq_iff] at *
    omega
  write h1 h2 := by
    simp only [vCmpFormat, vCmpWord, vCmpArgs, toNat_field, bitNat_bitAt] at *
    omega
theorem mFormat_lawful : mFormat.Lawful where
  read o hm hn := by
    obtain ⟨d, a, b, mask, neg, cls, mode⟩ := o
    have := bitNat_le neg
    simp only [mFormat, mWord, mArgs, MArgs.mk.injEq, field_eq_iff, bitAt_eq_iff] at *
    omega
  write h1 h2 := by
    simp only [mFormat, mWord, mArgs, toNat_field, bitNat_bitAt] at *
    omega
theorem pFormat_lawful : pFormat.Lawful where
  read o hm hn := by
    obtain ⟨copy, guard, neg, isK⟩ := o
    have := bitNat_le neg
    have := bitNat_le isK
    simp only [pFormat, pWord, pArgs, PArgs.mk.injEq, field_eq_iff, bitAt_eq_iff] at *
    omega
  write h1 h2 := by
    simp only [pFormat, pWord, pArgs, toNat_field, bitNat_bitAt] at *
    omega

/-! The first direction: the word of each instruction has the instruction's form. -/

/-- A 32-bit word of this form. -/
def Encodes (w : Nat) (i : Instr) : Prop := w < 2 ^ 32 ∧ w % 2 = 1 ∧ formOf w = some i

/-- Where the opcode map puts a form, the form's words have it. -/
theorem WordFormat.Lawful.encodes {α : Type} {F : WordFormat α} (hF : F.Lawful) {major n : Nat} {f : α → Instr} {o : α}
    (hm : major < 64) (hn : n < F.sels)
    (row : ∀ w, w / 2 % 64 = major → F.sel w = n → F.args w = o → formOf w = some (f o)) :
    Encodes (F.word major n o) (f o) := by
  obtain ⟨hlt, hodd, h1, h2, h3⟩ := hF.read o hm hn
  exact ⟨hlt, hodd, row _ h1 h2 h3⟩
/-- A form that its major and its selector name. -/
theorem WordFormat.Lawful.encodes_func {α : Type} {F : WordFormat α} (hF : F.Lawful) {major n : Nat} {f : α → Instr} {o : α}
    (hm : major < 64 := by decide) (hn : n < F.sels := by decide)
    (row : ∀ w, w / 2 % 64 = major → F.sel w = n → F.args w = o → formOf w = some (f o) := by
      intro w hm hn ho
      rw [formOf, hm]
      exact congrArg₂ (pick _) hn ho) : Encodes (F.word major n o) (f o) :=
  hF.encodes hm hn row
/-- A form that its major names alone. -/
theorem WordFormat.Lawful.encodes_major {α : Type} {F : WordFormat α} (hF : F.Lawful) {major : Nat} {f : α → Instr} {o : α}
    (hm : major < 64 := by decide) (hn : 0 < F.sels := by decide)
    (row : ∀ w, w / 2 % 64 = major → formOf w = some (f (F.args w)) := by
      intro w hm
      rw [formOf, hm]
      rfl) : Encodes (F.word major 0 o) (f o) :=
  hF.encodes hm hn fun w hm _ ho => ho ▸ row w hm
/-- R32: VMV has two rows of the map: its func with the x bit clear, and with the x bit set. -/
theorem vmvX_iff (w : Nat) : (w / 134217728 % 32 == 1) = true ↔ w / 268435456 % 16 = 0 ∧ (vArgs w).x = true := by
  simp only [vArgs, bitAt, beq_iff_eq]
  omega
theorem formOf_move (w : Nat) (hm : w / 2 % 64 = 26) (hx : ¬(w / 268435456 % 16 = 0 ∧ (vArgs w).x = true)) :
    formOf w = pick [.vmv, .vbcast, .vsel, .vslideup, .vslidedn, .vgathr, .vcompr, .vexpnd, .viota, .vexts, .vinss,
      .vrowmv, .vtrn] (w / 268435456 % 16) (vArgs w) := by
  rw [formOf, hm]
  exact if_neg (mt (vmvX_iff w).1 hx)

theorem encodes_word {i : Instr} (hw : i.wf = true) (hs : i.size = 4) : Encodes i.word i := by
  cases i with
  | add o | sub o | and o | or o | xor o | andn o | shl o | shr o | sra o | rotl o | min o | max o | minn o | maxn o
  | mul o | mulh o | mulhn o | div o | divn o | rem o | remn o | clz o | ctz o | popc o | sextb o | sexth o | sextw o
  | zextb o | zexth o | zextw o | pand o | por o | pxor o | pandn o | pmov o | pnot o | fadd o | fsub o | fmul o
  | fdiv o | fsqrt o | fmin o | fmax o | fma o | fnma o | fcvti o | fcvtf o | fcvtp o | faddD o | fsubD o | fmulD o
  | fdivD o | fsqrtD o | fminD o | fmaxD o | fmaD o | fnmaD o | fcvtiD o | fcvtfD o | fcvtpD o | svc o | trap o
  | tret o | uiret o | idle o | nop o | brk o | exit o | vconf o | vsetl o | vclaim o | vclaimp o | vsett o | vcbld o
  | wthset o | qdrain o | fence o | efence o | waitge o | waitdc o | bar o | hgive o | htake o | enq o | deq o
  | venq o | vdeq o | stream o | charm o | chstat o | chclr o | tdep o | tcpy o | ttak o | tcpyn o | ttakn o | treg o
  | tfree o | fnew o | ffree o | fupd o | fsplit o | frepar o | ffence o | mcfg o | mldb o | mmac o | mdrain o
  | mzero o | mwait o | msync o | mstep o | launch o | spawn o | steal o | taskget o | yield o | tlbi o | msq o
  | migrate o | keyld o | actbl o | preempt o | resume o =>
    exact rFormat_lawful.encodes_func
  | addi o | andi o | ori o | xori o | shli o | shri o | srai o | callr o | csrr o | csrw o | csrx o =>
    exact iFormat_lawful.encodes_func
  | cmp o | cmpImm o | fcmp o | fcmpD o =>
    exact cFormat_lawful.encodes_func
  | bp o | call o =>
    exact jFormat_lawful.encodes_func
  | bqNz o | bqZ o =>
    exact bqFormat_lawful.encodes_func
  | ldb o | ldh o | ldw o | ldd o | ldbn o | ldhn o | ldwn o | stb o | sth o | stw o | std o =>
    exact lFormat_lawful.encodes_func
  | ldacq o | strel o | ldl o | stc o =>
    exact aFormat_lawful.encodes_func
  | pfx o | pfxCopy o =>
    exact pFormat_lawful.encodes_func
  | lih o | addpc o =>
    exact uFormat_lawful.encodes_major
  | b o =>
    exact bFormat_lawful.encodes_major
  | vcmp o | vfcmp o =>
    exact vCmpFormat_lawful.encodes_major
  | vld o | vst o | vstn o | vldcl o | vstcl o | vgll o | vscc o | vlda o | vstl o =>
    exact mFormat_lawful.encodes_major
  | vadd o | vsub o | vmul o | vmulh o | vmulhn o | vmin o | vmax o | vminn o | vmaxn o | vand o | vor o | vxor o
  | vandn o | vshl o | vshr o | vsra o | vsadd o | vssub o | vsaddn o | vssubn o | vabsd o | vclz o | vpopc o
  | vneg o | vfadd o | vfsub o | vfmul o | vfma o | vfms o | vfnma o | vfdiv o | vfsqrt o | vfmin o | vfmax o
  | vfabs o | vfneg o | vfclass o | kand o | kor o | kxor o | kandn o | knot o | kmov o | kpopc o | kfirst o | vcvt o
  | vcbenc o | vcbdec o | vpack o | vunpk o | vredo o | vredt o | vredmax o | vredmin o | vredand o | vredor o
  | vdoto o | vdott o | vexp2 o | vlog2 o | vrcp o | vrsq o | vsin o | vcos o | vtanh o | vsigm o | vmrg o | vmrgi o
  | vbsrch o | gsub o | gadd o | gscale o | gdot o | gcross o | glen o | gcvt o | gxfm o | gtag o | gsettag o
  | gchk o | gretag o | gcell o | hins o | hlook o | hclr o | wfwd o | winv o | wtag o | wsettag o =>
    exact vFormat_lawful.encodes_func
  | vmvX o =>
    refine vFormat_lawful.encodes (by decide) (by decide) fun w hm hn ho => ?_
    have hx : o.x = true := by
      simp only [Instr.wf, Bool.and_eq_true] at hw
      exact hw.1
    rw [formOf, hm]
    exact (if_pos ((vmvX_iff w).2 ⟨hn, (congrArg VArgs.x ho).trans hx⟩)).trans (congrArg (some <| Instr.vmvX ·) ho)
  | vmv o =>
    refine vFormat_lawful.encodes (by decide) (by decide) fun w hm hn ho => ?_
    have hx : o.x = false := by
      simp only [Instr.wf, Bool.and_eq_true, Bool.not_eq_true'] at hw
      exact hw.1
    rw [formOf_move w hm fun h => Bool.false_ne_true (((congrArg VArgs.x ho).trans hx).symm.trans h.2)]
    exact congrArg₂ (pick _) hn ho
  | vbcast o | vsel o | vslideup o | vslidedn o | vgathr o | vcompr o | vexpnd o | viota o | vexts o | vinss o
  | vrowmv o | vtrn o =>
    refine vFormat_lawful.encodes (by decide) (by decide) fun w hm hn ho => ?_
    rw [formOf_move w hm fun h => absurd (hn.symm.trans h.1) (by decide)]
    exact congrArg₂ (pick _) hn ho
  | _ => cases hs

/-! The compact forms (R28, R33). -/

theorem kWord_reads {op : Nat} (o : KArgs) (h : op < 32) :
    kWord op o < 2 ^ 16 ∧ kWord op o % 2 = 0 ∧ kWord op o / 2 % 32 = op ∧ kArgs (kWord op o) = o := by
  cases o
  simp only [kWord, kArgs, KArgs.mk.injEq, field_eq_iff]
  omega
theorem kWord_kArgs {w : Nat} (hw : w < 2 ^ 16 ∧ w % 2 = 0) : kWord (w / 2 % 32) (kArgs w) = w := by
  simp only [kWord, kArgs, toNat_field]
  omega

/-- A halfword of this form. -/
def EncodesHalf (w : Nat) (i : Instr) : Prop := w < 2 ^ 16 ∧ w % 2 = 0 ∧ compactFormOf w = some i

theorem compactFormOf_kWord {op : Nat} {i : Instr} (o : KArgs) (h : op < 32)
    (row : ∀ w, w / 2 % 32 = op → kArgs w = o → compactFormOf w = some i) : EncodesHalf (kWord op o) i := by
  obtain ⟨hlt, heven, hop, ho⟩ := kWord_reads o h
  exact ⟨hlt, heven, row _ hop ho⟩
theorem encodesHalf_word {i : Instr} (hs : i.size = 2) : EncodesHalf i.word i := by
  cases i with
  | cAdd o | cSub o | cAnd o | cOr o | cXor o | cShl o | cShr o | cAddi o | cMov o | cLdd o | cStd o | cBnz o | cNop o =>
    exact compactFormOf_kWord o (by decide) fun w hop ho => by
      rw [compactFormOf, hop, ho]
      rfl
  | _ => cases hs

/-! The second direction: an instruction's word is the word that has its form. -/

/-- R32: func values follow the order of a list of forms, starting at n. -/
def Numbered {α : Type} (word : Nat → α → Nat) (size : Nat) : Nat → List (α → Instr) → Prop
  | _, [] => True
  | n, f :: fs => (∀ o, (f o).word = word n o ∧ (f o).size = size) ∧ Numbered word size (n + 1) fs

theorem Numbered.pick {α : Type} {word : Nat → α → Nat} {size : Nat} {forms : List (α → Instr)} {o : α} {i : Instr}
    {n k : Nat} (h : Numbered word size k forms) (hi : pick forms n o = some i) :
    i.word = word (k + n) o ∧ i.size = size := by
  induction forms generalizing k n with
  | nil => simp [Sys2Proof.pick] at hi
  | cons f fs ih =>
    cases n with
    | zero =>
      obtain rfl : f o = i := by simpa [Sys2Proof.pick] using hi
      exact h.1 o
    | succ n =>
      rw [← Nat.succ_add_eq_add_succ]
      exact ih h.2 (by simpa [Sys2Proof.pick] using hi)
theorem WordFormat.Lawful.word_of_pick {α : Type} {F : WordFormat α} (hF : F.Lawful) {w major : Nat} {forms : List (α → Instr)}
    {i : Instr} (hw : w < 2 ^ 32 ∧ w % 2 = 1) (hm : w / 2 % 64 = major) (hi : pick forms (F.sel w) (F.args w) = some i)
    (h : Numbered (F.word major) 4 0 forms := by
      simp only [Numbered, and_true]
      and_intros <;> exact fun _ => ⟨rfl, rfl⟩) : i.word = w ∧ i.size = 4 := by
  subst hm
  obtain ⟨hword, hsize⟩ := h.pick hi
  rw [Nat.zero_add, hF.write hw.2 hw.1] at hword
  exact ⟨hword, hsize⟩

theorem word_of_formOf {w : Nat} {i : Instr} (hw : w < 2 ^ 32 ∧ w % 2 = 1) (h : formOf w = some i) :
    i.word = w ∧ i.size = 4 := by
  unfold formOf at h
  split at h
  case h_1 hm | h_2 hm | h_3 hm | h_9 hm | h_17 hm | h_18 hm | h_20 hm | h_32 hm | h_42 hm | h_43 hm | h_44 hm
      | h_46 hm | h_49 hm | h_50 hm | h_51 hm => exact rFormat_lawful.word_of_pick hw hm h
  case h_4 hm | h_12 hm | h_19 hm => exact iFormat_lawful.word_of_pick hw hm h
  case h_7 hm | h_8 hm => exact cFormat_lawful.word_of_pick hw hm h
  case h_11 hm => exact jFormat_lawful.word_of_pick hw hm h
  case h_13 hm => exact bqFormat_lawful.word_of_pick hw hm h
  case h_14 hm | h_15 hm => exact lFormat_lawful.word_of_pick hw hm h
  case h_16 hm => exact aFormat_lawful.word_of_pick hw hm h
  case h_21 hm | h_22 hm | h_23 hm | h_26 hm | h_28 hm | h_29 hm | h_30 hm | h_31 hm | h_45 hm | h_47 hm | h_48 hm => exact vFormat_lawful.word_of_pick hw hm h
  case h_52 hm => exact pFormat_lawful.word_of_pick hw hm h
  case h_5 hm | h_6 hm => exact uFormat_lawful.word_of_pick (forms := [_]) hw hm h
  case h_10 hm => exact bFormat_lawful.word_of_pick (forms := [_]) hw hm h
  case h_24 hm | h_25 hm => exact vCmpFormat_lawful.word_of_pick (forms := [_]) hw hm h
  case h_33 hm | h_34 hm | h_35 hm | h_36 hm | h_37 hm | h_38 hm | h_39 hm | h_40 hm | h_41 hm => exact mFormat_lawful.word_of_pick (forms := [_]) hw hm h
  case h_27 hm =>
    split at h
    next hx =>
      obtain ⟨hn, -⟩ := (vmvX_iff w).1 hx
      exact vFormat_lawful.word_of_pick (forms := [.vmvX]) hw hm ((congrArg₂ (pick _) hn rfl).trans h)
    next => exact vFormat_lawful.word_of_pick hw hm h
  case h_53 => cases h
theorem word_of_compactFormOf {w : Nat} {i : Instr} (hw : w < 2 ^ 16 ∧ w % 2 = 0) (h : compactFormOf w = some i) :
    i.word = w ∧ i.size = 2 := by
  have hk := kWord_kArgs hw
  unfold compactFormOf at h
  split at h
  next hop =>
    obtain rfl := Option.some.inj h
    rw [beq_iff_eq.1 hop] at hk
    exact ⟨hk, rfl⟩
  next =>
    have numbered : Numbered kWord 2 0 [.cAdd, .cSub, .cAnd, .cOr, .cXor, .cShl, .cShr, .cAddi, .cMov, .cLdd, .cStd, .cBnz] := by
      simp only [Numbered, and_true]
      and_intros <;> exact fun _ => ⟨rfl, rfl⟩
    obtain ⟨hword, hsize⟩ := numbered.pick h
    rw [Nat.zero_add, hk] at hword
    exact ⟨hword, hsize⟩

/-! Bytes (R4, R26). -/

theorem decode_even (b0 b1 : Byte) (rest : List Byte) (h : (b0.toNat + 256 * b1.toNat) % 2 = 0) :
    decode (b0 :: b1 :: rest) = (decodeHalf (b0.toNat + 256 * b1.toNat)).map fun i => (i, 2) :=
  if_pos (beq_iff_eq.2 h)
theorem decode_odd (b0 b1 b2 b3 : Byte) (rest : List Byte) (h : (b0.toNat + 256 * b1.toNat) % 2 = 1) :
    decode (b0 :: b1 :: b2 :: b3 :: rest) =
      (decodeWord (b0.toNat + 256 * b1.toNat + 65536 * (b2.toNat + 256 * b3.toNat))).map fun i => (i, 4) :=
  if_neg (by simp [h])
theorem decode_short (b0 b1 : Byte) (rest : List Byte) (h : (b0.toNat + 256 * b1.toNat) % 2 = 1) (hr : rest.length < 2) :
    decode (b0 :: b1 :: rest) = .error .truncated := by
  have odd : ¬((b0.toNat + 256 * b1.toNat) % 2 == 0) = true := by simp [h]
  match rest, hr with
  | [], _ => exact if_neg odd
  | [_], _ => exact if_neg odd

theorem decode_bytesOf_half {w : Nat} (rest : List Byte) (hw : w < 2 ^ 16 ∧ w % 2 = 0) :
    decode (bytesOf 2 w ++ rest) = (decodeHalf w).map fun i => (i, 2) := by
  have value : (BitVec.ofNat 8 w).toNat + 256 * (BitVec.ofNat 8 (w / 256)).toNat = w := by
    simp only [BitVec.toNat_ofNat]
    omega
  refine (decode_even _ _ _ ?_).trans (congrArg (fun w => (decodeHalf w).map _) value)
  rw [value]
  exact hw.2
theorem decode_bytesOf_word {w : Nat} (rest : List Byte) (hw : w < 2 ^ 32 ∧ w % 2 = 1) :
    decode (bytesOf 4 w ++ rest) = (decodeWord w).map fun i => (i, 4) := by
  refine (decode_odd _ _ _ _ _ ?_).trans (congrArg (fun w => (decodeWord w).map _) ?_)
  all_goals
    simp only [BitVec.toNat_ofNat]
    omega
theorem bytesOf_half (b0 b1 : Byte) : bytesOf 2 (b0.toNat + 256 * b1.toNat) = [b0, b1] := by
  simp only [bytesOf, List.cons.injEq, ← BitVec.toNat_inj, BitVec.toNat_ofNat, and_true]
  omega
theorem bytesOf_word (b0 b1 b2 b3 : Byte) :
    bytesOf 4 (b0.toNat + 256 * b1.toNat + 65536 * (b2.toNat + 256 * b3.toNat)) = [b0, b1, b2, b3] := by
  simp only [bytesOf, List.cons.injEq, ← BitVec.toNat_inj, BitVec.toNat_ofNat, and_true]
  omega

theorem accept_some {i : Instr} (hw : i.wf = true) : accept (some i) = .ok i := if_pos hw
theorem accept_ok {r : Option Instr} {i : Instr} (h : accept r = .ok i) : r = some i ∧ i.wf = true := by
  match r with
  | none => cases h
  | some j =>
    by_cases hw : j.wf = true
    · rw [accept_some hw] at h
      obtain rfl := Except.ok.inj h
      exact ⟨rfl, hw⟩
    · rw [accept, if_neg hw] at h
      cases h
theorem map_pair_ok {ε α β : Type} {y b : β} {x : α} {r : Except ε α} (h : r.map (fun i => (i, y)) = .ok (x, b)) :
    r = .ok x ∧ y = b := by
  cases r with
  | error e => cases h
  | ok z =>
    cases h
    exact ⟨rfl, rfl⟩

/-- R26: an instruction is a halfword, a word, or an event, which has no encoding. -/
theorem size_eq (i : Instr) : i.size = 0 ∨ i.size = 2 ∨ i.size = 4 := by
  unfold Instr.size
  split <;> decide

theorem decode_encode {i : Instr} (rest : List Byte) (hw : i.wf = true) (hs : i.size ≠ 0) :
    decode (encode i ++ rest) = .ok (i, i.size) := by
  unfold encode
  rcases size_eq i with h | h | h
  · exact absurd h hs
  · obtain ⟨hlt, heven, form⟩ := encodesHalf_word h
    rw [h, decode_bytesOf_half rest ⟨hlt, heven⟩, decodeHalf, form, accept_some hw]
    rfl
  · obtain ⟨hlt, hodd, form⟩ := encodes_word hw h
    rw [h, decode_bytesOf_word rest ⟨hlt, hodd⟩, decodeWord, form, accept_some hw]
    rfl

/-- What bytes that decode say of the instruction: it is well formed, and they begin with its encoding. -/
def Encoded (bs : List Byte) (i : Instr) (n : Nat) : Prop :=
  i.wf = true ∧ i.size = n ∧ n ≤ bs.length ∧ encode i = bs.take n

theorem encoded_half {b0 b1 : Byte} (rest : List Byte) {i : Instr} (heven : (b0.toNat + 256 * b1.toNat) % 2 = 0)
    (h : decodeHalf (b0.toNat + 256 * b1.toNat) = .ok i) : Encoded (b0 :: b1 :: rest) i 2 := by
  obtain ⟨form, hw⟩ := accept_ok h
  obtain ⟨word, size⟩ := word_of_compactFormOf (by omega) form
  refine ⟨hw, size, Nat.le_add_left 2 _, ?_⟩
  rw [encode, size, word, bytesOf_half]
  rfl
theorem encoded_word {b0 b1 b2 b3 : Byte} (rest : List Byte) {i : Instr} (hodd : (b0.toNat + 256 * b1.toNat) % 2 = 1)
    (h : decodeWord (b0.toNat + 256 * b1.toNat + 65536 * (b2.toNat + 256 * b3.toNat)) = .ok i) :
    Encoded (b0 :: b1 :: b2 :: b3 :: rest) i 4 := by
  obtain ⟨form, hw⟩ := accept_ok h
  obtain ⟨word, size⟩ := word_of_formOf (by omega) form
  refine ⟨hw, size, Nat.le_add_left 4 _, ?_⟩
  rw [encode, size, word, bytesOf_word]
  rfl
theorem encoded_of_decode {bs : List Byte} {i : Instr} {n : Nat} (h : decode bs = .ok (i, n)) : Encoded bs i n := by
  match bs with
  | [] | [_] => cases h
  | b0 :: b1 :: rest =>
    rcases Nat.mod_two_eq_zero_or_one (b0.toNat + 256 * b1.toNat) with heven | hodd
    · rw [decode_even b0 b1 rest heven] at h
      obtain ⟨form, rfl⟩ := map_pair_ok h
      exact encoded_half rest heven form
    · match rest with
      | b2 :: b3 :: rest =>
        rw [decode_odd b0 b1 b2 b3 rest hodd] at h
        obtain ⟨form, rfl⟩ := map_pair_ok h
        exact encoded_word rest hodd form
      | [] | [_] => cases (decode_short b0 b1 _ hodd (by simp)).symm.trans h

/-- Settles O57: the word of each form reads back as its form, and a form's word is the one word that has it. -/
theorem decodeInvertsEncode : Obligations.DecodeInvertsEncode :=
  ⟨fun _ rest hw hs => decode_encode rest hw hs, fun _ _ _ h => encoded_of_decode h⟩

/-! Words written out. -/

/-- A well-formed instruction with this word: the word decodes to it, and is its encoding. -/
theorem decode_written {w : Nat} {i : Instr} (h : i.wf = true ∧ i.size = 4 ∧ i.word = w) :
    decode (bytesOf 4 w) = .ok (i, 4) ∧ encode i = bytesOf 4 w := by
  obtain ⟨hw, size, rfl⟩ := h
  have bytes : encode i = bytesOf 4 i.word := by rw [encode, size]
  have back := decode_encode [] hw (size ▸ Nat.succ_ne_zero 3)
  rw [List.append_nil, bytes, size] at back
  exact ⟨back, bytes⟩
theorem decode_refused {w : Nat} (h : w < 2 ^ 32 ∧ w % 2 = 1 ∧ (decodeWord w).toBool = false) (i : Instr × Nat) :
    decode (bytesOf 4 w) ≠ .ok i := by
  obtain ⟨hlt, hodd, refused⟩ := h
  have bytes := decode_bytesOf_word [] ⟨hlt, hodd⟩
  intro e
  rw [List.append_nil, e] at bytes
  cases hd : decodeWord w with
  | error err =>
    rw [hd] at bytes
    cases bytes
  | ok j =>
    rw [hd] at refused
    cases refused

/-- Settles O56: each word written out is its instruction's, and each word refused has no well-formed form. -/
theorem decodedWords : Obligations.DecodedWords := by
  refine ⟨fun e he => decode_written ?_, fun w hw => decode_refused ?_, rfl, rfl, rfl⟩
  · revert e
    decide
  · revert w
    decide
end Sys2Proof
end

section
namespace Sys2Proof.Machine

/-! Guards and PFX (R30, R31, R45 to R48): a word whose guard does not hold, and a word behind a live PFX. -/

/-- R31: what the rows of a scalar word with a predicate guard say of it to the checks of R35. -/
structure Info.Guarded (i : Info) (g : BitVec 3) (neg : Bool) (stall : Nat) : Prop where
  major : decide (i.major < 0x14) = true
  level : i.level = .user
  address : i.address = false
  vector : i.vector = false
  guard : i.guard = .pred neg g.toNat
  size : i.size = 4
  stall : i.stall = stall

theorem issue_guarded_skips {i : Info} {body : Act Flow} {s : State} {g : BitVec 3} {neg : Bool} {stall : Nat} (hr : s.Ready)
    (hg : ¬s.guarded g neg) (h : i.Guarded g neg stall) : issue i body s = .next (s.past 4 stall) := by
  rw [issue_guardless i body s g neg hr (majorAllowed_scalar _ _ (of_decide_eq_true h.major)) h.level h.address h.vector
    h.guard hg, h.size, h.stall]

theorem majorAllowed_pfx (r : Role) : majorAllowed r 0x33 = true := by cases r <;> rfl
/-- R45: PFX goes live and advances. -/
theorem prefixWord_ready (copy : Bool) (o : PArgs) (s : State) (hr : s.Ready) :
    prefixWord copy o s = .next { s with h := { s.h.past 4 0 with
      pfx := some ⟨o.isK, o.neg, o.guard.toNat, if copy then some o.copy.toNat else none,
        pWord 0x33 (bitNat copy) o, s.h.pc⟩ } } := by
  unfold prefixWord
  rw [issue_ready _ _ _ _ _ _ hr (checks_plain _ _ (majorAllowed_pfx _) rfl rfl), if_pos (guardHolds_none _ hr.pfx)]
  rfl

/-- A hart that is ready but for a live PFX. -/
def State.Paired (s : State) : Prop := State.Ready { s with h := { s.h with pfx := none } }

/-- A word without checks of its own that may be the successor of the live PFX, and is no vector word. -/
structure Successor (i : Info) (s : State) : Prop where
  major : majorAllowed s.h.role i.major = true
  level : i.level = .user
  address : i.address = false
  pair : pairAllowed s.h i = true
  dest : (i.dest == .v) = false
  vector : i.vector = false

section
variable {s : State} {i : Info}

theorem State.Paired.land (hr : s.Paired) : s.h.land = s.h := Hart.land_of_empty _ hr.pend
theorem State.Paired.destReady (hr : s.Paired) (i : Info) : destReady s.h i = some s.h.clock := by
  have pend : s.h.pend = [] := hr.pend
  have counted (n : Nat) : s.h.countedOn n = false := Hart.countedOn_of_empty _ n hr.ops
  unfold Machine.destReady
  cases i.dest <;> simp [pend, counted]

/-- Past its checks, a word behind a live PFX that may be its successor has the verdict of both guards (R46). -/
theorem issueChecks_paired (hr : s.Paired) (hi : Successor i s) :
    issueChecks i (pure ()) (pure ()) (pure ()) s = .ok (s.h.guardHolds i.guard) s := by
  have land : ({ s with h := s.h.land } : State) = s := by rw [hr.land]
  have locked : s.h.lockedReady i.reads = s.h.clock := by simp [Hart.lockedReady, show s.h.pend = [] from hr.pend]
  have uncounted : s.h.ops.any (fun o => o.counter == 7) = false := by simp [show s.h.ops = [] from hr.ops]
  have privileged : decide (modeNum i.level ≤ modeNum s.h.mode) = true := by simp [hi.level, modeNum]
  have relanded : modH (fun h => ({ h with clock := h.lockedReady i.reads } : Hart).land) s = .ok () s := by
    simp only [modH_apply, locked, hr.land]
  unfold issueChecks
  simp only [act_bind, modH_apply, getH_apply, uncounted, Bool.false_eq_true, if_false, hi.major, require_true, act_pure, hi.pair,
    privileged, hi.address, hi.dest, Bool.and_false, Bool.false_and, Bool.not_false, hr.destReady i, hr.land,
    show wbit s.h.csr.schk 0 = false from hr.schk]
  cases s.h.guardHolds i.guard
  · rfl
  · simp only [Bool.not_true, Bool.false_eq_true, if_false, act_bind, relanded, getH_apply]
    rfl

/-- A hart with no latch and no failed channel issues its word from the checks on. -/
theorem issueAct_unlatched (body : Act Flow) (hr : s.Paired) :
    issueAct i (pure ()) (pure ()) (pure ()) body s =
      (issueChecks i (pure ()) (pure ()) (pure ()) >>= fun ok => if ok then runFirst i body else pure .seq) s := by
  unfold issueAct
  simp only [act_bind, getH_apply]
  rcases hw : s.h.waiting with _ | w
  case none =>
    refine (act_bind getH _ s).trans ?_
    simp only [getH_apply, show s.h.latch = none from hr.latch]
    exact act_bind _ _ s
  case some =>
    cases w with
    | failed va => exact absurd hw (hr.waits va)
    | _ =>
      refine (act_bind getH _ s).trans ?_
      simp only [getH_apply, show s.h.latch = none from hr.latch]
      exact act_bind _ _ s
/-- A word behind a live PFX that may be its successor runs where both guards hold, and else only advances. -/
theorem issueAct_paired (body : Act Flow) (hr : s.Paired) (hi : Successor i s) :
    issueAct i (pure ()) (pure ()) (pure ()) body s = if s.h.guardHolds i.guard then latched i s (body s) else .ok .seq s := by
  rw [issueAct_unlatched body hr, act_bind, issueChecks_paired hr hi]
  cases s.h.guardHolds i.guard
  · rfl
  · exact runFirst_eq i body s

/-- A word that has completed, or was suppressed, uses the live PFX up. -/
theorem finish_paired (h : Hart) (hi : Successor i s) :
    finish i .seq h = Hart.past { h with pfx := none } i.size i.stall := by
  simp [finish, Hart.past, Hart.leave, hi.vector]
theorem issue_paired_seq {body : Act Flow} {s1 : State} (hr : s.Paired) (hi : Successor i s)
    (hg : s.h.guardHolds i.guard = true) (hb : body s = .ok .seq s1) :
    issue i body s = .next (State.past i.size i.stall { s1 with h := { s1.h with pfx := none } }) := by
  simp only [issue, show s.h.live = true from hr.live, issueAct_paired body hr hi, hg, hb, latched_ok, finish_paired _ hi,
    if_true]
  rfl
theorem issue_paired_skip {body : Act Flow} (hr : s.Paired) (hi : Successor i s) (hg : s.h.guardHolds i.guard = false) :
    issue i body s = .next (State.past i.size i.stall { s with h := { s.h with pfx := none } }) := by
  simp only [issue, show s.h.live = true from hr.live, issueAct_paired body hr hi, hg, finish_paired _ hi,
    Bool.false_eq_true, if_false]
  rfl
end

/-- R46: the verdict of a word's own guard and of a lent p guard. -/
theorem guardHolds_paired (s : State) (g g' : BitVec 3) (neg neg' : Bool) (copy : Option Nat) (w : Nat) (at' : Word)
    (hp : s.h.pfx = some ⟨false, neg', g'.toNat, copy, w, at'⟩) :
    s.h.guardHolds (.pred neg g.toNat) = true ↔ s.guarded g neg ∧ s.guarded g' neg' := by
  simp only [Hart.guardHolds, hp, State.guarded, Bool.and_eq_true, Bool.or_eq_true, bne_iff_ne, Bool.false_eq_true, false_or,
    ← Bool.eq_not]

theorem Hart.setReg_withPfx (h : Hart) (n : Nat) (v : Word) (p : Option Prefix) :
    ({ h with pfx := p } : Hart).setReg n v = { h.setReg n v with pfx := p } := by
  unfold Hart.setReg Hart.setRegIn
  split
  · rfl
  · split <;> rfl
/-- R51, R47: a destination and its copy have taken a value. -/
def Hart.wroteBoth (h : Hart) (d c : BitVec 5) (v : Word) : Hart :=
  ((({ h with lastd := d } : Hart).setReg d.toNat v).setReg c.toNat v).raiseFlags 0
theorem result_wroteBoth (h : Hart) (d c : BitVec 5) (v : Word) (hc : h.copyReg = some c.toNat) :
    h.result d.toNat v 1 0 = h.wroteBoth d c v := by
  simp [Hart.result, hc, Hart.wroteBoth]
theorem Hart.wroteBoth_withPfx (h : Hart) (d c : BitVec 5) (v : Word) (p : Option Prefix) :
    ({ h with pfx := p } : Hart).wroteBoth d c v = { h.wroteBoth d c v with pfx := p } := by
  unfold Hart.wroteBoth
  rw [Hart.setReg_withPfx { h with lastd := d } d.toNat v p, Hart.setReg_withPfx _ c.toNat v p]
  rfl

section
variable {s : State} {g : BitVec 3} {neg : Bool} {c : BitVec 5} {w : Nat} {at' : Word}

/-- An ALU word behind a live p-guard PFX with a copy. -/
theorem binaryWord_paired {func : Nat} {f : Word → Word → Word} {o : RArgs} (hr : s.Paired)
    (hp : s.h.pfx = some ⟨false, neg, g.toNat, some c.toNat, w, at'⟩) :
    (s.guarded o.guard o.neg → s.guarded g neg → binaryWord 0 func f 1 o s = .next (State.past 4 o.stall.toNat { s with
      h := Hart.wroteBoth { s.h with pfx := none } o.d c (f (s.h.reg o.a.toNat) (s.h.reg o.b.toNat)) })) ∧
    (¬(s.guarded o.guard o.neg ∧ s.guarded g neg) →
      binaryWord 0 func f 1 o s = .next (State.past 4 o.stall.toNat { s with h := { s.h with pfx := none } })) := by
  have successor : Successor (rInfo 0 func o (.s o.d.toNat) [o.a, o.b]) s :=
    ⟨majorAllowed_scalar _ 0 (by decide), rfl, rfl, by simp [pairAllowed, hp, rInfo], rfl, rfl⟩
  have holds := guardHolds_paired s o.guard g o.neg neg (some c.toNat) w at' hp
  have copied := result_wroteBoth s.h o.d c (f (s.h.reg o.a.toNat) (s.h.reg o.b.toNat)) (by simp [Hart.copyReg, hp])
  refine ⟨fun own lent => ?_, fun failed => issue_paired_skip hr successor (Bool.eq_false_iff.2 (mt holds.1 failed))⟩
  rw [Hart.wroteBoth_withPfx, ← copied]
  refine issue_paired_seq hr successor (holds.2 ⟨own, lent⟩) (andNext_ok _ s
    { s with h := s.h.result o.d.toNat (f (s.h.reg o.a.toNat) (s.h.reg o.b.toNat)) 1 0 } ?_)
  rfl
end
/-- R48: a word that may not be the live PFX's successor traps. -/
theorem issueChecks_unpaired {s : State} {i : Info} (hr : s.Paired) (major : majorAllowed s.h.role i.major = true)
    (pair : pairAllowed s.h i = false) :
    issueChecks i (pure ()) (pure ()) (pure ()) s = .error (.trap cIllegalPair 0) s := by
  have uncounted : s.h.ops.any (fun o => o.counter == 7) = false := by simp [show s.h.ops = [] from hr.ops]
  unfold issueChecks
  simp only [act_bind, modH_apply, getH_apply, uncounted, Bool.false_eq_true, if_false, major, require_true, act_pure, pair,
    require_false, hr.land]
theorem whenEntered_congr {f g : State → State} {s : State} (h : f s = g s) : whenEntered f s = whenEntered g s := by
  unfold whenEntered
  rw [h]
/-- R50: a trap at decode behind a live PFX has its EPC at the PFX. -/
theorem wordTrap_paired {s : State} {p : Prefix} (hp : s.h.pfx = some p) (w : Nat) (v : Word) :
    wordTrap w cIllegalPair v s = State.trapped 0x02 (BitVec.ofNat 64 w) p.addr s := by
  unfold wordTrap State.trapped
  refine whenEntered_congr ?_
  simp only [hp]
  rfl
theorem execB_paired {o : BArgs} {s : State} {p : Prefix} (hr : s.Paired) (hp : s.h.pfx = some p) :
    execB o s = .next (State.trapped 0x02 (BitVec.ofNat 64 (Instr.word (.b o))) p.addr s) := by
  have checks := issueChecks_unpaired (i := { word := bWord 0x09 o, major := 0x09, reads := [o.a.toNat, o.b.toNat], pairable := false })
    hr (majorAllowed_scalar _ 9 (by decide)) (by simp [pairAllowed, hp])
  simp only [execB, issue, show s.h.live = true from hr.live, issueAct_unlatched _ hr, act_bind, checks, deliver,
    wordTrap_paired hp]
  rfl

/-- Settles O7, by the one rule of a suppressed word, PFX's rule, and the rules of a word behind a live PFX. -/
theorem guardsAndPrefixes : Obligations.GuardsAndPrefixes := by
  unfold Obligations.GuardsAndPrefixes
  refine ⟨⟨?_, ?_⟩, fun o s hr => ⟨prefixWord_ready false o s hr, prefixWord_ready true o s hr⟩, ?_⟩
  · simp only [List.forall_mem_cons, List.not_mem_nil, false_imp_iff, implies_true, and_true]
    and_intros
    all_goals
      intro o s hr hg
      exact issue_guarded_skips hr hg ⟨rfl, rfl, rfl, rfl, rfl, rfl, rfl⟩
  · simp only [List.forall_mem_cons, List.not_mem_nil, false_imp_iff, implies_true, and_true]
    and_intros
    all_goals
      intro o s hr hg
      exact issue_guarded_skips hr hg ⟨rfl, rfl, rfl, rfl, rfl, rfl, rfl⟩
  · refine fun s g neg c w at' hr hp => ⟨?_, fun o => execB_paired (p := ⟨false, neg, g.toNat, some c.toNat, w, at'⟩) hr hp⟩
    simp only [List.forall_mem_cons, List.not_mem_nil, false_imp_iff, implies_true, and_true]
    and_intros <;> exact fun o => binaryWord_paired hr hp
end Sys2Proof.Machine
end

section
namespace Sys2Proof.Machine

/-! Counted scalar loads (R40, R135): how many bytes a read request answers, the value they make, and the operation that
a counted load leaves outstanding. -/

theorem cutAt_sum {unit : Nat} (hu : 0 < unit) (fuel a n : Nat) (h : n + a % unit ≤ unit * fuel) :
    ((cutAt unit fuel a n).map Prod.snd).sum = n := by
  induction fuel generalizing a n with
  | zero =>
    simp only [cutAt, List.map_nil, List.sum_nil]
    omega
  | succ fuel ih =>
    have below := Nat.mod_lt a hu
    rw [Nat.mul_succ] at h
    by_cases h0 : n = 0
    · simp [cutAt, h0]
    · simp only [cutAt, if_neg h0, List.map_cons, List.sum_cons]
      rcases Nat.le_total n (unit - a % unit) with hle | hle
      · rw [Nat.min_eq_left hle, Nat.sub_self]
        cases fuel <;> simp [cutAt]
      · have next : (a + (unit - a % unit)) % unit = 0 := by
          have := Nat.div_add_mod a unit
          rw [show a + (unit - a % unit) = unit * (a / unit + 1) by rw [Nat.mul_add]; omega]
          exact Nat.mul_mod_right _ _
        rw [Nat.min_eq_right hle, ih _ _ (by omega)]
        omega
theorem sectors_sum (a n : Nat) : ((sectors a n).map Prod.snd).sum = n :=
  cutAt_sum (by decide) _ a n (by omega)

theorem readBytes_length (m : List Host.Cell) (a n : Nat) : (Memory.readBytes m a n).length = n := by
  induction n generalizing a with
  | zero => rfl
  | succ n ih => simp [Memory.readBytes, ih]
theorem checked_bytes (pa n : Nat) (bs : List Byte) (s : State) : (checked pa n bs s).2.1 = bs := by
  unfold checked
  split <;> rfl
theorem readPiece_length {c : Ctx} {pa n : Nat} {s s1 : State} {bs : List Byte} {bad : Bool}
    (h : readPiece c pa n s = .ok (s1, bs, bad)) : bs.length = n := by
  have ofChecked {m : List Host.Cell} {u : State} (h : checked pa n (Memory.readBytes m pa n) u = (s1, bs, bad)) :
      bs.length = n := by
    rw [← readBytes_length m pa n, ← checked_bytes pa n (Memory.readBytes m pa n) u, h]
  unfold readPiece at h
  split at h
  · cases h
  · split at h
    · cases h
      exact bytesOf_length _ _
    · exact ofChecked (Except.ok.inj h)
    · split at h
      · cases h
      · exact ofChecked (Except.ok.inj h)
    · exact ofChecked (Except.ok.inj h)
theorem readPieces_length {c : Ctx} {ps : List (Nat × Nat)} {s s1 : State} {bs : List Byte} {bad : Option Nat}
    (h : readPieces c ps s = .ok (s1, bs, bad)) : bs.length = (ps.map Prod.snd).sum := by
  induction ps generalizing s bs bad with
  | nil =>
    cases h
    rfl
  | cons p ps ih =>
    unfold readPieces at h
    split at h
    · cases h
    next first =>
      split at h
      · cases h
      next rest =>
        cases h
        rw [List.length_append, readPiece_length first, ih rest]
        rfl
/-- R69: a read request that is answered brings as many bytes as it asks for. -/
theorem physRead_length {c : Ctx} {pa n : Nat} {s s1 : State} {bs : List Byte} {bad : Option Nat}
    (h : physRead c pa n s = .ok (s1, bs, bad)) : bs.length = n := by
  unfold physRead at h
  split at h
  · split at h <;> cases h
  · rw [readPieces_length h, List.map_map]
    exact sectors_sum pa n

theorem signed_eq_toInt {w : Nat} (hw : 0 < w) (n : Nat) : signed w n = (BitVec.ofNat w n).toInt := by
  have two : 2 ^ (w - 1) * 2 = 2 ^ w := by rw [← Nat.pow_succ, Nat.succ_eq_add_one, Nat.sub_add_cancel hw]
  rw [signed, if_neg (Nat.ne_of_gt hw), BitVec.toInt_eq_toNat_cond, BitVec.toNat_ofNat]
  split <;> split <;> omega
/-- R135: a sign-extended load of k bytes. -/
theorem loadValue_signed {bs : List Byte} {k : Nat} (hk : 0 < k) (h : bs.length = k) :
    loadValue false bs = (BitVec.ofNat (8 * k) (natOfBytes bs)).signExtend 64 := by
  simp only [loadValue, Bool.false_eq_true, if_false, h, signed_eq_toInt (Nat.mul_pos (by decide : 0 < 8) hk)]
  rfl

theorem readValue_plain {va n : Nat} {natural : Bool} {s s1 : State} {bs : List Byte} (hr : s.Ready) (hp : s.Plain va n)
    (hb : physRead s.ctx va n s = .ok (s1, bs, none)) :
    readValue [(State.access va, n)] natural s = .ok (loadValue natural bs) s1 := by
  simp only [readValue, act_bind, readParts_plain va n s s1 bs hr hp hb, act_pure]
theorem counterOf_some {c : Nat} (hc : c < 6) : counterOf c = some c := if_pos hc
theorem counterRoom_room {c : Nat} {s : State} (hd : s.h.deps[c]?.getD 0 < 63) : counterRoom c s = .ok () s := by
  simp only [counterRoom, act_bind, getH_apply, show decide (63 ≤ s.h.deps[c]?.getD 0) = false by simpa using hd,
    Bool.and_false, Bool.false_eq_true, if_false, act_pure]

/-- R40, R51: a counted load whose read request has done `s1`: its operation is outstanding, its counter is one higher, and
LASTD is its destination. -/
def State.counts (s s1 : State) (va n : Nat) (natural : Bool) (o : LArgs) (v : Word) : State :=
  { s1 with h := { s1.h with
    ops := [{ kind := .load [(State.access va, n)] natural o.cls.toNat, counter := o.ctr.toNat
              dest := some o.d.toNat, copy := none, first := some v, flit := peerFlit [(State.access va, n)] s
              shadow := s.h.inHandler, order := s.h.words }]
    deps := s.h.deps.setIfInBounds o.ctr.toNat ((s.h.deps[o.ctr.toNat]?.getD 0) + 1)
    lastd := o.d } }
theorem loadWord_counted {code n : Nat} {natural : Bool} {o : LArgs} {s s1 : State} {bs : List Byte} (hr : s.Ready)
    (hrole : s.h.role ≠ .computer) (hc : o.ctr.toNat < 6) (hd : s.h.deps[o.ctr.toNat]?.getD 0 < 63)
    (hp : s.Plain (lAddress s.h o n) n) (hb : physRead s.ctx (lAddress s.h o n) n s = .ok (s1, bs, none)) :
    loadWord code n natural o s =
      .next ((s.counts s1 (lAddress s.h o n) n natural o (loadValue natural bs)).past 4 0) := by
  have hr1 : s1.Ready := ready_of_physRead _ _ _ _ _ _ _ hb hr
  have hva : lAddress s.h o n < 2 ^ 64 := (s.h.reg o.a.toNat + word (o.imm.toNat * n)).isLt
  have hart := (physRead_request _ _ _ _ _ _ _ hb).hart
  have shadow : s1.h.inHandler = s.h.inHandler := by rw [hart]
  have order : s1.h.words = s.h.words := by rw [hart]
  have deps : s1.h.deps = s.h.deps := by rw [hart]
  have checks : Checks (lInfo 0x0D code o (.s o.d.toNat) [o.a]) (pure ()) (pure ()) s :=
    ⟨majorAllowed_scalar _ 13 (by decide), rfl, by simp [lInfo, modeNum], by simp [lInfo, hrole], rfl⟩
  refine issue_seq _ _ _ _ _ s _ hr checks (guardHolds_none _ hr.pfx) (andNext_ok _ _ _ ?_) hr1.pfx rfl
  simp only [act_bind, getH_apply, counterOf_some hc, counterRoom_room hd,
    translateRange_plain _ n .read s hr hp hva (by decide), plainChecks_plain _ n n s hp, watermark_plain _ n s hp,
    loadCommits_plain _ _ n s hr hp, get_apply, List.map_cons, List.map_nil, accessOf_machine s _ _ _ hp.machine,
    readValue_plain hr hp hb, addOp, raiseCounter, modH_apply, if_pos hc]
  simp [hr1.ops, hp.kind, Hart.copyReg, hr1.pfx, State.counts, shadow, order, deps]

/-- A row of the scalar loads: its size, whether its value is natural, and its value. -/
def LoadRow (e : (LArgs → Instr) × Nat × Bool × (List Byte → Word)) : Prop :=
  ∃ code, (∀ o s, exec (e.1 o) s = loadWord code e.2.1 e.2.2.1 o s) ∧
    ∀ bs, bs.length = e.2.1 → loadValue e.2.2.1 bs = e.2.2.2 bs

/-- Settles O10, by the one rule of a counted load and the values of its seven rows. -/
theorem countedLoadsIssue : Obligations.CountedLoadsIssue := by
  intro e he o s s1 bs hr hrole hc hd va hp hb v
  have row : LoadRow e := by
    clear hp hb va
    revert e
    simp only [List.forall_mem_cons, List.not_mem_nil, false_imp_iff, implies_true, and_true]
    exact ⟨⟨0, fun _ _ => rfl, fun _ => loadValue_signed (by decide)⟩, ⟨1, fun _ _ => rfl, fun _ => loadValue_signed (by decide)⟩,
      ⟨2, fun _ _ => rfl, fun _ => loadValue_signed (by decide)⟩, ⟨3, fun _ _ => rfl, fun _ _ => rfl⟩,
      ⟨4, fun _ _ => rfl, fun _ _ => rfl⟩, ⟨5, fun _ _ => rfl, fun _ _ => rfl⟩, ⟨6, fun _ _ => rfl, fun _ _ => rfl⟩⟩
  obtain ⟨code, word, value⟩ := row
  refine ⟨?_, (physRead_request _ _ _ _ _ _ _ hb).hart⟩
  rw [word, loadWord_counted hr hrole hc hd hp hb, value bs (physRead_length hb)]
  rfl
end Sys2Proof.Machine
end

section
namespace Sys2Proof.Machine

/-! Turns (R26, R74, R335): what a hart's turn is in each of its cases, the vector queue's, and a machine-mode fetch. -/

/-- Log 1: where a turn ends, the others work. -/
theorem settle_next (s t : State) :
    settle s.h.clock (.next t) =
      .next (if t.h.waiting = none ∧ s.h.clock / 64 = t.h.clock / 64 then t else background t) := by
  unfold settle turnEnds turnCycles
  by_cases hw : t.h.waiting = none <;> by_cases hc : s.h.clock / 64 = t.h.clock / 64 <;> simp [hw, hc, Option.isSome_iff_ne_none]

/-! The vector queue. -/

theorem runHead_empty {s : State} (h : s.h.vq = []) : runHead s = none := by
  unfold runHead
  rw [h]
/-- R335: the queue's head completes, or it waits. -/
theorem runHead_queued {s t : State} {q : Queued} {rest : List Queued} {i : Instr} {n : Nat} (hq : s.h.vq = q :: rest)
    (hd : decode q.latch.bytes = .ok (i, n)) (he : exec i { s with h := s.h.withQueued q } = .next t) :
    runHead s = if t.h.waiting.isSome then none
      else if t.h.words = q.order + 1 then some { t with h := t.h.withFront s.h rest } else some t := by
  unfold runHead
  rw [hq]
  simp only [hd, he]

theorem enterQueue_of_unsettled {t : State}
    (h : t.h.waiting = none ∨ t.h.latch = none ∨ ∀ l, t.h.latch = some l → l.settled = none) : enterQueue t = t := by
  unfold enterQueue
  split
  next w l hw hl =>
    rcases h with h | h | h
    · cases hw.symm.trans h
    · cases hl.symm.trans h
    · rw [h l hl]
  next => rfl
/-- R335, R368: what a settled word that waits does: it joins the queue, or stays in hand. -/
theorem enterQueue_settled {t : State} {w : Wait} {l : Latch} {stall : Nat} {vector : Bool} (hw : t.h.waiting = some w)
    (hl : t.h.latch = some l) (hs : l.settled = some (stall, vector)) :
    enterQueue t = if (w == .ring || w == .port) && decide (t.h.vq.length < queueRoom) && !pressing t then
        { t with h := { t.h.leave with
          vq := t.h.vq ++ [⟨l, t.h.pc, t.h.pfx, t.h.words⟩]
          pc := t.h.pc + 4, pfx := none, clock := t.h.clock + stall, words := t.h.words + 1
          vcount := if vector then t.h.vcount + 1 else t.h.vcount } }
      else t := by
  unfold enterQueue
  rw [hw, hl]
  simp only [hs]

/-- R335: what a settled word that waits does with the queue: it stays in hand where it may not join, and else joins. -/
theorem enterQueue_cases {t : State} {w : Wait} {l : Latch} {stall : Nat} {vector : Bool} (hw : t.h.waiting = some w)
    (hl : t.h.latch = some l) (hs : l.settled = some (stall, vector)) :
    (¬(w = .ring ∨ w = .port) ∨ 16 ≤ t.h.vq.length → enterQueue t = t) ∧
    (w = .ring ∨ w = .port → t.h.vq.length < 16 → pressing t = false →
      let u := enterQueue t
      u.h.vq = t.h.vq ++ [⟨l, t.h.pc, t.h.pfx, t.h.words⟩] ∧ u.h.waiting = none ∧ u.h.latch = none ∧ u.h.pc = t.h.pc + 4 ∧
        u.h.words = t.h.words + 1 ∧ u.mem = t.mem ∧ u.h.s = t.h.s ∧ u.h.rows = t.h.rows) := by
  have ring : (w == .ring || w == .port) = true ↔ w = .ring ∨ w = .port := by simp
  rw [enterQueue_settled hw hl hs]
  refine ⟨fun h => if_neg fun joins => ?_, fun h room calm => ?_⟩
  · simp only [Bool.and_eq_true, ring, queueRoom] at joins
    obtain ⟨⟨rings, room⟩, -⟩ := joins
    exact h.elim (absurd rings) (Nat.not_le.2 (of_decide_eq_true room))
  · rw [if_pos (by simp [ring.2 h, queueRoom, room, calm])]
    exact ⟨rfl, rfl, rfl, rfl, rfl, rfl, rfl, rfl⟩

/-! Turns. -/

section
variable {s : State} (live : s.h.live = true)
include live

theorem hartTurn_head {s1 : State} (h : runHead s = some s1) : hartTurn s = settle s.h.clock (.next s1) := by
  simp [hartTurn, live, h]
theorem hartTurn_word (head : runHead s = none) (free : s.h.vq = [] ∨ pressing s = false) (between : boundary s = none) :
    hartTurn s = wordTurn s := by
  have open' : (!s.h.vq.isEmpty && pressing s) = false := by rcases free with h | h <;> simp [h]
  simp [hartTurn, live, head, open', between]
end

section
variable {s s1 : State} {bs : List Byte} {i : Instr} {n : Nat}

theorem wordTurn_decoded (hb : wordBytes s = .ok bs s1) (hd : decode bs = .ok (i, n)) :
    wordTurn s = settle s.h.clock (issueFront bs i s1) := by
  simp [wordTurn, hb, hd]
theorem wordTurn_illegal {e : DecodeError} (hb : wordBytes s = .ok bs s1) (hd : decode bs = .error e) :
    wordTurn s = .next (wordTrap (natOfBytes bs) cIllegal 0 s1) := by
  simp [wordTurn, hb, hd]
theorem wordTurn_fault {e : Exc} (hb : wordBytes s = .error e s1) :
    wordTurn s = settle s.h.clock (.next (deliver 0 e s1)) := by
  simp [wordTurn, hb]

/-- R25, R26: the bytes of the word in hand. -/
theorem wordBytes_latched {l : Latch} (h : s.h.latch = some l) : wordBytes s = .ok l.bytes s := by simp [wordBytes, h]
theorem wordBytes_unlatched (h : s.h.latch = none) : wordBytes s = fetchWord s := by simp [wordBytes, h]

/-- R335: a word that may go on behind the queue issues. -/
theorem issueFront_passes (h : s.h.vq = [] ∨ passesQueue (natOfBytes bs) = true) : issueFront bs i s = issued (exec i s) := by
  have passes : (s.h.vq.isEmpty || passesQueue (natOfBytes bs)) = true := by rcases h with h | h <;> simp [h]
  simp [issueFront, passes]
/-- R335: a word that may neither pass the queue nor join it waits. -/
theorem issueFront_holds (hq : s.h.vq ≠ []) (hp : passesQueue (natOfBytes bs) = false)
    (h : joinsQueue (natOfBytes bs) = false ∨ s.h.latch ≠ none ∨ 16 ≤ s.h.vq.length) :
    issueFront bs i s = .next (holdFront s) := by
  have stays : (joinsQueue (natOfBytes bs) && s.h.latch.isNone && decide (s.h.vq.length < queueRoom)) = false := by
    rcases h with h | h | h
    · simp [h]
    · simp [Option.isNone_iff_eq_none, h]
    · simp [queueRoom, Nat.not_lt.2 h]
  simp [issueFront, hq, hp, stays]
theorem settle_issued (r : Result) : settle n (issued r) = match r with
    | .next t => settle n (.next (enterQueue t))
    | .fault f => .fault f
    | .refused f => .refused f := by
  cases r <;> rfl
/-- R366: a trap with no PFX live. -/
theorem wordTrap_plain (w c : Nat) (v : Word) (hp : s.h.pfx = none) :
    wordTrap w c v s = State.trapped c (if decide (1 ≤ c) && decide (c ≤ 4) then word w else v) s.h.pc s := by
  unfold wordTrap State.trapped whenEntered
  simp only [hp]
end

/-! A machine-mode fetch (log 3). -/

theorem word_toNat (v : Word) : word v.toNat = v := BitVec.ofNat_toNat 64 v
theorem watermark_free {s : State} {va n : Nat} (h : blockingChannels s va n = []) : watermark va n s = .ok () s := by
  simp [watermark, act_bind, get_apply, h, act_pure]
theorem fetchWord_failed {s : State} {va : Nat} (h : s.h.waiting = some (.failed va)) :
    fetchWord s = .error (.trap 0x23 (BitVec.ofNat 64 va)) s := by
  simp only [fetchWord, act_bind, getH_apply, h]
  rfl

theorem translateNow_machine (va : Word) (s : State) : translateNow .machine va.toNat .fetch s =
    if untranslatedType va.toNat = 0 then .ok ⟨va.toNat, 0, false, 0, (0, 0, 0)⟩ s else .error (.trap cType va) s := by
  by_cases h : untranslatedType va.toNat = 0
  · simp [translateNow, act_bind, get_apply, translateKept, untranslated, h, Except.map]
    rfl
  · simp [translateNow, act_bind, get_apply, translateKept, untranslated, h, Except.map, word_toNat]
    rfl
theorem fetchHalf_device {s : State} {va : Word} (hm : s.h.mode = .machine) (ht : untranslatedType va.toNat ≠ 0) :
    fetchHalf va s = .error (.trap cType va) s := by
  simp only [fetchHalf, act_bind, getH_apply, hm, translateNow_machine, if_neg ht]
theorem fetchHalf_machine {s s1 : State} {va : Word} {bs : List Byte} (hm : s.h.mode = .machine)
    (ht : untranslatedType va.toNat = 0) (hc : blockingChannels s va.toNat 2 = [])
    (hb : physRead { s.ctx with moved := s.h.moved } va.toNat 2 s = .ok (s1, bs, none)) : fetchHalf va s = .ok bs s1 := by
  simp only [fetchHalf, act_bind, getH_apply, hm, translateNow_machine, if_pos ht, watermark_free hc, get_apply]
  rw [show physRead { ctxOf s.cur .machine 0 false with moved := s.h.moved } va.toNat 2 s = .ok (s1, bs, none) from hb]
  rfl
/-- The end of a fetch: the translations that it was given are done with. -/
def endFetch (bs : List Byte) : Act (List Byte) := do
  modH fun h => { h with given := [] }
  return bs
/-- R26: a word is a compact form, or two halfwords. -/
theorem fetchWord_unfailed {s : State} (hw : ∀ va, s.h.waiting ≠ some (.failed va)) :
    fetchWord s = (fetchHalf s.h.pc >>= fun lo =>
      if (lo.headD 0).toNat % 2 = 0 then endFetch (lo ++ []) else fetchHalf (s.h.pc + 2) >>= fun hi => endFetch (lo ++ hi)) s := by
  unfold fetchWord
  simp only [act_bind, getH_apply]
  rcases hs : s.h.waiting with _ | w
  case none => rfl
  case some =>
    cases w with
    | failed va => exact absurd hs (hw va)
    | _ => rfl
theorem getLsbD_zero_false (b : Byte) : b.getLsbD 0 = false ↔ b.toNat % 2 = 0 := by
  rw [BitVec.getLsbD, Nat.testBit_zero]
  simp
/-- R77: a fetch from a device's registers. -/
theorem fetchWord_device {s : State} (hm : s.h.mode = .machine) (hw : ∀ va, s.h.waiting ≠ some (.failed va))
    (ht : untranslatedType s.h.pc.toNat = 2) : fetchWord s = .error (.trap 0x13 s.h.pc) s := by
  rw [fetchWord_unfailed hw, act_bind, fetchHalf_device hm (ht ▸ by decide)]
  rfl
theorem fetchWord_machine {s s1 : State} {lo : List Byte} (hm : s.h.mode = .machine)
    (hw : ∀ va, s.h.waiting ≠ some (.failed va)) (ht : untranslatedType s.h.pc.toNat = 0)
    (hc : blockingChannels s s.h.pc.toNat 2 = [])
    (hlo : physRead { s.ctx with moved := s.h.moved } s.h.pc.toNat 2 s = .ok (s1, lo, none)) :
    ((lo.headD 0).getLsbD 0 = false → fetchWord s = .ok lo { s1 with h := { s1.h with given := [] } }) ∧
    ∀ s2 hi, (lo.headD 0).getLsbD 0 = true → untranslatedType (s.h.pc + 2).toNat = 0 → s.keepsHart s1 →
      blockingChannels s1 (s.h.pc + 2).toNat 2 = [] →
      physRead { s.ctx with moved := s.h.moved } (s.h.pc + 2).toNat 2 s1 = .ok (s2, hi, none) →
      fetchWord s = .ok (lo ++ hi) { s2 with h := { s2.h with given := [] } } := by
  rw [fetchWord_unfailed hw, act_bind, fetchHalf_machine hm ht hc hlo]
  refine ⟨fun compact => ?_, fun s2 hi wide ht2 kept hc2 hhi => ?_⟩
  · simp only [if_pos ((getLsbD_zero_false _).1 compact), List.append_nil]
    rfl
  · have odd : ¬(lo.headD 0).toNat % 2 = 0 := fun h => by
      rw [(getLsbD_zero_false _).2 h] at wide
      cases wide
    have mode : s1.h.mode = .machine := by rw [kept, ← hm]
    have cur : s1.cur = s.cur := (physRead_request _ _ _ _ _ _ _ hlo).cur
    have moved : s1.h.moved = s.h.moved := by rw [kept]
    have second : fetchHalf (s.h.pc + 2) s1 = .ok hi s2 := by
      refine fetchHalf_machine mode ht2 hc2 ?_
      rw [State.ctx, cur, moved]
      exact hhi
    simp only [if_neg odd, act_bind, second]
    rfl

/-- A hart at a word: it runs, its queue's head waits, nothing in the queue is kept back, and nothing comes before the word. -/
structure AtWord (s : State) : Prop where
  live : s.h.live = true
  head : runHead s = none
  free : s.h.vq = [] ∨ pressing s = false
  between : boundary s = none

section
variable {s s1 : State} {bs : List Byte} {i : Instr} {n : Nat} (at' : AtWord s)
include at'

theorem AtWord.turn : hartTurn s = wordTurn s := hartTurn_word at'.live at'.head at'.free at'.between
theorem AtWord.issues (hb : wordBytes s = .ok bs s1) (hd : decode bs = .ok (i, n))
    (h : s1.h.vq = [] ∨ passesQueue (natOfBytes bs) = true) :
    hartTurn s = (match exec i s1 with
      | .next t => settle s.h.clock (.next (enterQueue t))
      | .fault f => .fault f
      | .refused r => .refused r) := by
  rw [at'.turn, wordTurn_decoded hb hd, issueFront_passes h, settle_issued]
  cases exec i s1 <;> rfl
theorem AtWord.holds (hb : wordBytes s = .ok bs s1) (hd : decode bs = .ok (i, n)) (hq : s1.h.vq ≠ [])
    (hp : passesQueue (natOfBytes bs) = false)
    (h : joinsQueue (natOfBytes bs) = false ∨ s1.h.latch ≠ none ∨ 16 ≤ s1.h.vq.length) :
    hartTurn s = settle s.h.clock (.next (holdFront s1)) := by
  rw [at'.turn, wordTurn_decoded hb hd, issueFront_holds hq hp h]
theorem AtWord.illegal {e : DecodeError} (hb : wordBytes s = .ok bs s1) (hd : decode bs = .error e) (hp : s1.h.pfx = none) :
    hartTurn s = .next (State.trapped 0x01 (BitVec.ofNat 64 (natOfBytes bs)) s1.h.pc s1) := by
  rw [at'.turn, wordTurn_illegal hb hd, wordTrap_plain _ _ _ hp]
  rfl
theorem AtWord.faults {c : Nat} {v : Word} (hb : wordBytes s = .error (.trap c v) s1) (hc : 4 < c) (hp : s1.h.pfx = none) :
    hartTurn s = settle s.h.clock (.next (State.trapped c v s1.h.pc s1)) := by
  rw [at'.turn, wordTurn_fault hb, deliver, wordTrap_plain _ _ _ hp, show decide (c ≤ 4) = false by simpa using hc, Bool.and_false]
  rfl
end

/-- What a step is, by the agenda's head. -/
theorem step_agenda (s : State) (rest : List Turn) :
    (s.agenda = [] → step s = hartTurn s) ∧
    (∀ c, s.agenda = .hart c :: rest → step s = hartTurn (focus c { s with agenda := rest })) ∧
    (∀ i, s.agenda = .event i :: rest → step s = exec i { s with agenda := rest }) ∧
    ∀ n, s.agenda = .tick n :: rest →
      step s = .next { s with agenda := rest, h := { s.h with clock := s.h.clock + n } } := by
  refine ⟨fun h => ?_, fun c h => ?_, fun i h => ?_, fun n h => ?_⟩ <;> rw [step, h]
  rfl

/-- Settles O58, by what a turn is in each of its cases, what the vector queue does with a word, and a machine-mode fetch. -/
theorem stepRunsDecodedWord : Obligations.StepRunsDecodedWord := by
  unfold Obligations.StepRunsDecodedWord
  refine ⟨⟨fun s s1 live head => ?_, fun s => runHead_empty, fun s q rest i n t hq hd he => ?_,
      fun t => ⟨enterQueue_of_unsettled, fun w l stall vector => enterQueue_cases⟩, fun s live head free between => ?_⟩,
    fun s => fetchWord_device, fun s va => fetchWord_failed, fun s s1 lo => fetchWord_machine, step_agenda⟩
  · rw [hartTurn_head live head, settle_next]
  · rw [runHead_queued hq hd he]
    exact ⟨fun w => if_pos (Option.isSome_iff_ne_none.2 w), fun w last => by rw [w, if_neg (by decide), if_pos last]⟩
  · have at' : AtWord s := ⟨live, head, free, between⟩
    refine ⟨fun l => wordBytes_latched, wordBytes_unlatched, fun bs s1 i n hb hd => ⟨fun h => ?_, fun hq hp h => ?_⟩,
      fun bs s1 e => at'.illegal, fun c v s1 hb hc hp => ?_⟩
    · rw [at'.issues hb hd h]
      cases exec i s1 with
      | next t => exact settle_next s (enterQueue t)
      | _ => rfl
    · rw [at'.holds hb hd hq hp h]
      exact settle_next s (holdFront s1)
    · rw [at'.faults hb hc hp, settle_next]
end Sys2Proof.Machine
end

section
namespace Sys2Proof.Machine

/-! The PRIV words (R34, R48): where they run, and the ways they end on a ready hart. -/

theorem majorAllowed_priv (r : Role) : majorAllowed r 0x32 = true := by cases r <;> rfl
theorem modeNum_supervisor {m : Mode} (h : m ≠ .user) : modeNum .supervisor ≤ modeNum m := by
  cases m with
  | user => exact absurd rfl h
  | _ => decide
theorem State.Ready.paired {s : State} (hr : s.Ready) : s.Paired := by
  have same : ({ s with h := { s.h with pfx := none } } : State) = s := by rw [← hr.pfx]
  unfold State.Paired
  rwa [same]

section
variable {s t : State} {func : Nat} {o : RArgs} {level : Mode} {dest : DestKind} {reads : List (BitVec 5)}

/-- R35: a word below its level fails its checks before its guard is read. -/
theorem issueChecks_privileged {i : Info} (hr : s.Ready) (major : majorAllowed s.h.role i.major = true)
    (below : decide (modeNum i.level ≤ modeNum s.h.mode) = false) :
    issueChecks i (pure ()) (pure ()) (pure ()) s = .error (.trap cPrivileged 0) s := by
  have uncounted : s.h.ops.any (fun o => o.counter == 7) = false := by simp [hr.ops]
  unfold issueChecks
  simp only [act_bind, modH_apply, getH_apply, uncounted, Bool.false_eq_true, if_false, major, require_true, act_pure,
    pairAllowed_of_none _ i hr.pfx, Hart.copyReg_of_none _ hr.pfx, Option.isSome_none, Bool.false_and, below, require_false,
    Hart.land_of_empty _ hr.pend]
theorem privWord_privileged (body : Act Flow) (hr : s.Ready) (below : modeNum s.h.mode < modeNum level) :
    issue (privInfo func o level dest reads) body s =
      .next (State.trapped 0x03 (word (rWord 0x32 func o)) s.h.pc s) := by
  have checks := issueChecks_privileged (i := privInfo func o level dest reads) hr (majorAllowed_priv _)
    (decide_eq_false (Nat.not_le.2 below))
  simp only [issue, hr.live, issueAct_unlatched body hr.paired, act_bind, checks, deliver, wordTrap_plain _ _ _ hr.pfx]
  rfl

theorem checks_priv (hl : modeNum level ≤ modeNum s.h.mode) :
    Checks (privInfo func o level dest reads) (pure ()) (pure ()) s := ⟨majorAllowed_priv _, rfl, hl, rfl, rfl⟩
theorem privWord_seq {body : Act Unit} (hr : s.Ready) (hg : s.guarded o.guard o.neg)
    (hl : modeNum level ≤ modeNum s.h.mode) (hb : body s = .ok () t) (hp : t.h.pfx = none) :
    issue (privInfo func o level dest reads) (andNext body) s = .next (t.past 4 o.stall.toNat) :=
  issue_seq _ _ _ _ _ s t hr (checks_priv hl) (guardHolds_pred s _ _ hr hg) (andNext_ok _ _ _ hb) hp rfl
theorem privWord_trap {body : Act Unit} {c : Nat} {v : Word} (hr : s.Ready) (hg : s.guarded o.guard o.neg)
    (hl : modeNum level ≤ modeNum s.h.mode) (hb : body s = .error (.trap c v) t) (hp : t.h.pfx = none) :
    issue (privInfo func o level dest reads) (andNext body) s = .next (State.trapped c
      (if decide (1 ≤ c) && decide (c ≤ 4) then word (rWord 0x32 func o) else v) t.h.pc t) :=
  (issue_error _ _ _ _ _ s t _ hr (checks_priv hl) (guardHolds_pred s _ _ hr hg) (andNext_error _ _ _ _ hb) nofun).trans
    (congrArg Host.Outcome.next (wordTrap_plain _ c v hp))
theorem privWord_congr {body body' : Act Unit} (hr : s.Ready) (hl : modeNum level ≤ modeNum s.h.mode) (h : body s = body' s) :
    issue (privInfo func o level dest reads) (andNext body) s = issue (privInfo func o level dest reads) (andNext body') s := by
  rw [issue_ready _ _ _ _ _ s hr (checks_priv hl), issue_ready _ _ _ _ _ s hr (checks_priv hl)]
  simp only [andNext, act_bind, h]
/-- R25: a PRIV word that waits keeps what it read at issue. -/
theorem privWord_waits {body : Act Unit} {w : Wait} {i : Instr} (hi : i.word = rWord 0x32 func o) (hr : s.Ready)
    (hg : s.guarded o.guard o.neg) (hl : modeNum level ≤ modeNum s.h.mode) (hb : body s = .error (.wait w) t) :
    issue (privInfo func o level dest reads) (andNext body) s = .next (s.waits i w t) := by
  refine (issue_wait _ _ _ _ _ s t w hr (checks_priv hl) (guardHolds_pred s _ _ hr hg) (andNext_error _ _ _ _ hb)).trans ?_
  have stops : waitStops (privInfo func o level dest reads) s.h.vstart w t = (w != .stop) := by cases w <;> rfl
  have held : ((!(privInfo func o level dest reads).vector && t.h.given.isEmpty &&
      (w == .register || w == .tuple || w == .engine)) = true) ↔
      t.h.given = [] ∧ (w = .register ∨ w = .tuple ∨ w = .engine) := by
    simp [privInfo, rInfo, or_assoc]
  simp only [deliver, latchWait, State.waits, stops, hi, held]
  rfl
end

/-! What PRIV words do: the accesses that come before, the write of sD, the fields that they read. -/

/-- R137: with no counted operation and no request on its way, every earlier access performs at once. -/
theorem performEarlier_idle {why : Nat} {s : State} (loaded : s.loaded) (ops : s.h.ops = []) (before : unstepped s = false)
    (after : unstepped (earlyCommit why s) = false) : performEarlier why s = .ok () (earlyCommit why s) := by
  simp [performEarlier, performOwn, act_bind, act_pure, weightsRead_loaded _ _ s loaded, get_apply, before,
    bindLoads_ready _ s ops, commit_apply, after]
theorem earlyCommit_pfx (why : Nat) (s : State) : (earlyCommit why s).h.pfx = s.h.pfx := by
  rw [(earlyCommit_committed why s).hart]
theorem earlyCommit_pend (why : Nat) (s : State) : (earlyCommit why s).h.pend = s.h.pend := by
  rw [(earlyCommit_committed why s).hart]
theorem Request.pfx {s t : State} (a : Request s t) : t.h.pfx = s.h.pfx := by rw [a.hart]
theorem Request.pend {s t : State} (a : Request s t) : t.h.pend = s.h.pend := by rw [a.hart]
theorem writeD_clear (d : BitVec 5) (v : Word) {s : State} (hx : s.h.pfx = none) (hp : s.h.pend = []) :
    writeD d v 1 0 false s = .ok () (s.wrote d v 1 0) := by
  simp only [writeD, modH_apply, result_wrote _ _ _ _ _ _ hx hp, State.wrote]
theorem changeKey_request (slot : Nat) (new : Option KeyPair) (s : State) : Request s (changeKey slot new s) := by
  have leave (u : State) (l : Nat) : Request u (dropLine l (writebackLine l u)) :=
    (writebackLine_request l u).trans (dropLine_request l _)
  exact (Request.fold _ leave ((s.hbm.cache.filter fun e => e.2.key == slot).map (·.1)) s).trans (.device ⟨_, _, _, rfl⟩)
theorem act_bind_ok {α β : Type} {x : Act α} {f : α → Act β} {s t : State} {a : α} (h : x s = .ok a t) :
    (x >>= f) s = f a t := by
  rw [act_bind, h]
theorem readS_apply (r : BitVec 5) (s : State) : readS r s = .ok (s.h.reg r.toNat) s := rfl
theorem require_of {ok : Bool} (h : ok = true) (c : Nat) (v : Word) (s : State) : require ok c v s = .ok () s := by
  rw [h, require_true]
theorem require_not {ok : Bool} (h : ok = false) (c : Nat) (v : Word) (s : State) :
    require ok c v s = .error (.trap c v) s := by
  rw [h, require_false]
theorem wbit_eq (w : Word) (i : Nat) : wbit w i = w.getLsbD i := by
  simp [wbit, bit, BitVec.getLsbD, Nat.testBit_eq_decide_div_mod_eq, Bool.beq_eq_decide_eq]
theorem wbits_top (w : Word) (n : Nat) (hn : n ≤ 63) : wbits w 63 n = w.toNat / 2 ^ n := by
  have hw : w.toNat / 2 ^ n < 2 ^ (63 + 1 - n) := by
    rw [Nat.div_lt_iff_lt_mul (by positivity), ← Nat.pow_add, show 63 + 1 - n + n = 64 by omega]
    exact w.isLt
  exact Nat.mod_eq_of_lt hw
theorem wbits_top_zero (w : Word) (n : Nat) (hn : n ≤ 63) : (wbits w 63 n == 0) = decide (w.toNat < 2 ^ n) := by
  rw [wbits_top w n hn, Bool.beq_eq_decide_eq]
  exact decide_eq_decide.2 (Nat.div_eq_zero_iff_lt (by positivity))

theorem wbits_low (w : Word) (n : Nat) : wbits w n 0 = w.toNat % 2 ^ (n + 1) := by simp [wbits, bits]

/-- A ready hart whose PRIV word is past its checks, with no earlier access that it must wait for. -/
structure State.PrivReady (s : State) (o : RArgs) : Prop extends s.Ready where
  mode : s.h.mode ≠ .user
  guarded : s.guarded o.guard o.neg
  loaded : s.loaded
  before : unstepped s = false
  after : unstepped (earlyCommit 2 s) = false

theorem State.PrivReady.performs {s : State} {o : RArgs} (hr : s.PrivReady o) :
    performEarlier 2 s = .ok () (earlyCommit 2 s) := performEarlier_idle hr.loaded hr.ops hr.before hr.after
theorem State.PrivReady.commits {s : State} {o : RArgs} (hr : s.PrivReady o) : (earlyCommit 2 s).Ready :=
  (earlyCommit_committed 2 s).ready hr.toReady

/-! TLBI (R83). -/

section
variable {o : RArgs} {s : State}

/-- R83: the entries that TLBI selects, by the fields of its operands. -/
def tlbiHits (x y : Word) (e : Nat × Nat × Nat) : Bool :=
  (y.getLsbD 8 || e.1 == wbits y 7 0) &&
    (y.getLsbD 9 || (decide (e.2.1 ≤ x.toNat % 2 ^ 55) && decide (x.toNat % 2 ^ 55 < e.2.1 + e.2.2)))
theorem entryMatches_tlbi (x y : Word) :
    entryMatches (if wbit y 8 then none else some (wbits y 7 0)) (if wbit y 9 then none else some (x.toNat % 2 ^ 55)) =
      tlbiHits x y := by
  funext e
  simp only [entryMatches, tlbiHits, wbit_eq]
  have swap : (some (wbits y 7 0) == some e.1) = (e.1 == wbits y 7 0) := by simp [Bool.beq_comm]
  cases y.getLsbD 8 <;> cases y.getLsbD 9 <;> simp [swap]

theorem execTlbi_reserved (hr : s.PrivReady o) (hy : 2 ^ 10 ≤ (s.h.reg o.b.toNat).toNat) :
    execTlbi o s = .next (State.trapped 0x01 (word (rWord 0x32 0 o)) s.h.pc s) := by
  have reserved : (wbits (s.h.reg o.b.toNat) 63 10 == 0) = false := by
    rw [wbits_top_zero _ _ (by decide), decide_eq_false (Nat.not_lt.2 hy)]
  refine privWord_trap hr.toReady hr.guarded (modeNum_supervisor hr.mode) (c := 0x01) (v := 0) ?_ hr.pfx
  simp only [act_bind, getH_apply, require_not reserved]
  rfl
theorem execTlbi_drops (hr : s.PrivReady o) (hy : (s.h.reg o.b.toNat).toNat < 2 ^ 10) :
    let hit := tlbiHits (s.h.reg o.a.toNat) (s.h.reg o.b.toNat)
    let t := dropEntries hit (earlyCommit 2 s)
    (entriesQuiet hit t = true → execTlbi o s = .next (t.past 4 o.stall.toNat)) ∧
    (entriesQuiet hit t = false → execTlbi o s = .next (s.waits (.tlbi o) .order t)) := by
  have legal : (wbits (s.h.reg o.b.toNat) 63 10 == 0) = true := by rw [wbits_top_zero _ _ (by decide), decide_eq_true hy]
  refine ⟨fun quiet => ?_, fun busy => ?_⟩
  · refine privWord_seq hr.toReady hr.guarded (modeNum_supervisor hr.mode) ?_ hr.commits.pfx
    simp only [act_bind, getH_apply, require_of legal, hr.performs, modify_apply, get_apply, entryMatches_tlbi, quiet]
    rfl
  · refine privWord_waits (i := .tlbi o) rfl hr.toReady hr.guarded (modeNum_supervisor hr.mode) ?_
    simp only [act_bind, getH_apply, require_of legal, hr.performs, modify_apply, get_apply, entryMatches_tlbi, busy]
    rfl
end

/-! MSQ (R94). -/

section
variable {o : RArgs} {s s1 : State} {v : Xlat}

/-- R69: MSQ's initiator is its cluster, or the machine's where the hart is in machine mode. -/
theorem initiator_ctxOf (coord : Nat) (m : Mode) (key : Nat) (z : Bool) :
    (ctxOf coord m key z).initiator = if m = .machine then 0x3F0 else coordCluster coord := rfl

theorem execMsq_typed (hr : s.PrivReady o) (hx : translateAs .supervisor (s.h.reg o.a.toNat).toNat .read s = .ok v s1)
    (hp : s1.h.pfx = none) (ht : v.typ = 4) :
    execMsq o s = .next (State.trapped 0x13 (s.h.reg o.a.toNat) s1.h.pc s1) := by
  refine privWord_trap (c := 0x13) hr.toReady hr.guarded (modeNum_supervisor hr.mode) ?_ hp
  simp only [act_bind, readS_apply, hx, ht]
  rfl
theorem execMsq_refused (hr : s.PrivReady o) (hx : translateAs .supervisor (s.h.reg o.a.toNat).toNat .read s = .ok v s1)
    (hp : s1.h.pfx = none) (ht : v.typ ≠ 4) (ha : ¬(targetOf v.pa = .hbm ∧
      accessAllowed s1 (if s1.h.mode = .machine then 0x3F0 else coordCluster s1.cur) v.pa true false = true)) :
    execMsq o s = .next (State.trapped 0x14 (s.h.reg o.a.toNat) s1.h.pc s1) := by
  have typed : (v.typ != 4) = true := bne_iff_ne.2 ht
  refine privWord_trap (c := 0x14) hr.toReady hr.guarded (modeNum_supervisor hr.mode) ?_ hp
  simp only [act_bind, readS_apply, hx, require_of typed]
  by_cases hh : targetOf v.pa = .hbm
  · have denied := Bool.eq_false_iff.2 fun h => ha ⟨hh, h⟩
    simp only [hh, beq_self_eq_true, require_true, get_apply, initiator_ctxOf, denied]
    rfl
  · simp only [beq_eq_false_iff_ne.2 hh, require_not]
    rfl

/-- R94: the word that MSQ answers, of a line whose stored image has this tag. -/
def msqValue (line tag : Nat) (t : State) : Nat :=
  t.hbm.place line * 2 ^ 24 + (if cached t line then 2 ^ 14 else 0) + homeSlice line * 256 + tagSectors tag * 16 + tag % 16
theorem msqWord_stored {line : Nat} {t : State} {im : Image} (h : t.hbm.stored line = some im) :
    msqWord line t = (word (msqValue line im.tag t), t) := by
  simp only [msqWord, h, msqValue, bitNat]
  cases cached t line <;> rfl
theorem msqWord_lost {line : Nat} {t : State} (h : t.hbm.stored line = none) :
    msqWord line t = (word (msqValue line (wbits (Config.freeValue t.freeCount) 3 0) t),
      { t with freeCount := t.freeCount + 1 }) := by
  simp only [msqWord, h, msqValue, takeFree, bitNat]
  cases cached t line <;> rfl

/-- R94: MSQ of a line that may be read writes it back and answers its word. -/
theorem execMsq_answers (hr : s.PrivReady o) (hx : translateAs .supervisor (s.h.reg o.a.toNat).toNat .read s = .ok v s1)
    (hp : s1.h.pfx = none) (he : s1.h.pend = []) (performs : performEarlier 2 s1 = .ok () (earlyCommit 2 s1)) (ht : v.typ ≠ 4)
    (hh : targetOf v.pa = .hbm)
    (ha : accessAllowed s1 (if s1.h.mode = .machine then 0x3F0 else coordCluster s1.cur) v.pa true false = true)
    {w : Word} {t : State} (hw : msqWord (lineOf v.pa) (writebackLine (lineOf v.pa) (earlyCommit 2 s1)) = (w, t))
    (hart : t.h = (writebackLine (lineOf v.pa) (earlyCommit 2 s1)).h) :
    execMsq o s = .next ((t.wrote o.d w 1 0).past 4 o.stall.toNat) := by
  have typed : (v.typ != 4) = true := bne_iff_ne.2 ht
  have back := writebackLine_request (lineOf v.pa) (earlyCommit 2 s1)
  have clear : t.h.pfx = none := by rw [hart, back.pfx, earlyCommit_pfx, hp]
  have still : t.h.pend = [] := by rw [hart, back.pend, earlyCommit_pend, he]
  refine privWord_seq hr.toReady hr.guarded (modeNum_supervisor hr.mode) ?_ ((State.wrote_pfx ..).trans clear)
  simp only [act_bind, readS_apply, hx, require_of typed, hh, beq_self_eq_true, require_true, get_apply, initiator_ctxOf, ha,
    performs, modify_apply, hw, set_apply, writeD_clear _ _ clear still]
end

/-! MIGRATE (R84). -/

/-- The granule that a leaf maps an address to. -/
def leafGranule (e : Word) (lvl va : Nat) : Nat := ((leafRange e lvl va).2.2 + (va - (leafRange e lvl va).1)) / 65536

/-- R84: the walk of a MIGRATE has found a leaf that its page may be written through. -/
structure State.Migrates (s : State) (o : RArgs) (s1 : State) (e : Word) (lvl : Nat) : Prop extends s.PrivReady o where
  canonical : canonical (s.h.reg o.a.toNat).toNat = true
  clear : s1.h.pfx = none
  walked : walk s.h.walker (wbits s.h.csr.ptroot 63 28) ((s.h.reg o.a.toNat).toNat % 2 ^ 55) true s = .ok (s1, e, lvl)
  rights : rightsOk e .write .supervisor = true

section
variable {o : RArgs} {s s1 : State} {e : Word} {lvl : Nat}

/-- R84: MIGRATE past its walk: the granule moves already, is at its place, or is checked and moves. -/
def migrateLeaf (x y e : Word) (root lvl : Nat) : Act Unit := do
  let v := x.toNat % 2 ^ 55
  let old := leafGranule e lvl v
  if inMigration (← get) old then
    commit 2
    waitFor .migration
  if old = wbits y 51 16 then commit 2 else
  require (lvl == 3 && wbits e 6 4 == 0) cPageFormat x
  require (decide (wbits e 15 13 ≤ 1)) cType x
  require (wbits y 15 0 == 0 && decide (y.toNat < 0xF000000000)) cAccess y
  commit 2
  if inMigration (← get) (granuleOf y.toNat) then waitFor .migration
  modify fun s => startMigration old (granuleOf y.toNat) (leafAddress s.h.walker root v s) (wbits s.h.csr.ptroot 7 0) v e s
  waitFor .migration

/-- MIGRATE, of a walk that has ended at a leaf, is what it does with the leaf. -/
theorem execMigrate_walked (hm : s.Migrates o s1 e lvl) :
    execMigrate o s = issue (privInfo 2 o .supervisor .none [o.a, o.b]) (andNext fun _ =>
      migrateLeaf (s.h.reg o.a.toNat) (s.h.reg o.b.toNat) e (wbits s.h.csr.ptroot 63 28) lvl s1) s := by
  refine privWord_congr hm.toReady (modeNum_supervisor hm.mode) ?_
  simp only [act_bind, getH_apply, acquiresDone_ready _ hm.toReady, require_of hm.canonical, get_apply, hm.walked, set_apply,
    act_pure, if_neg hm.mode, require_of hm.rights]
  rfl
section
variable (hm : s.Migrates o s1 e lvl)
include hm

theorem execMigrate_moving (h : inMigration s1 (leafGranule e lvl ((s.h.reg o.a.toNat).toNat % 2 ^ 55)) = true) :
    execMigrate o s = .next (s.waits (.migrate o) .migration (earlyCommit 2 s1)) := by
  rw [execMigrate_walked hm]
  refine privWord_waits (i := .migrate o) rfl hm.toReady hm.guarded (modeNum_supervisor hm.mode) ?_
  simp only [migrateLeaf, act_bind, get_apply, h, commit_apply, if_true]
  rfl

variable (still : inMigration s1 (leafGranule e lvl ((s.h.reg o.a.toNat).toNat % 2 ^ 55)) = false)
include still

theorem execMigrate_placed (h : leafGranule e lvl ((s.h.reg o.a.toNat).toNat % 2 ^ 55) = wbits (s.h.reg o.b.toNat) 51 16) :
    execMigrate o s = .next ((earlyCommit 2 s1).past 4 o.stall.toNat) := by
  rw [execMigrate_walked hm]
  refine privWord_seq hm.toReady hm.guarded (modeNum_supervisor hm.mode) ?_ ((earlyCommit_pfx 2 s1).trans hm.clear)
  rw [h] at still
  simp only [migrateLeaf, act_bind, get_apply, still, Bool.false_eq_true, if_false, h, if_true]
  rfl

variable (away : leafGranule e lvl ((s.h.reg o.a.toNat).toNat % 2 ^ 55) ≠ wbits (s.h.reg o.b.toNat) 51 16)
include away

theorem execMigrate_unformed (h : ¬(lvl = 3 ∧ wbits e 6 4 = 0)) :
    execMigrate o s = .next (State.trapped 0x11 (s.h.reg o.a.toNat) s1.h.pc s1) := by
  have unformed : (lvl == 3 && wbits e 6 4 == 0) = false := by simpa using h
  rw [execMigrate_walked hm]
  refine privWord_trap (c := 0x11) hm.toReady hm.guarded (modeNum_supervisor hm.mode) ?_ hm.clear
  simp only [migrateLeaf, act_bind, get_apply, still, Bool.false_eq_true, if_false, away, require_not unformed]
  rfl

variable (formed : (lvl == 3 && wbits e 6 4 == 0) = true)
include formed

theorem execMigrate_mistyped (h : 1 < wbits e 15 13) :
    execMigrate o s = .next (State.trapped 0x13 (s.h.reg o.a.toNat) s1.h.pc s1) := by
  rw [execMigrate_walked hm]
  refine privWord_trap (c := 0x13) hm.toReady hm.guarded (modeNum_supervisor hm.mode) ?_ hm.clear
  simp only [migrateLeaf, act_bind, get_apply, still, Bool.false_eq_true, if_false, away, require_of formed,
    require_not (decide_eq_false (Nat.not_le.2 h))]
  rfl

variable (typed : wbits e 15 13 ≤ 1)
include typed

theorem execMigrate_misplaced (h : ¬((s.h.reg o.b.toNat).toNat % 65536 = 0 ∧ (s.h.reg o.b.toNat).toNat < 0xF000000000)) :
    execMigrate o s = .next (State.trapped 0x14 (s.h.reg o.b.toNat) s1.h.pc s1) := by
  have misplaced : (wbits (s.h.reg o.b.toNat) 15 0 == 0 && decide ((s.h.reg o.b.toNat).toNat < 0xF000000000)) = false := by
    simpa [wbits_low] using h
  rw [execMigrate_walked hm]
  refine privWord_trap (c := 0x14) hm.toReady hm.guarded (modeNum_supervisor hm.mode) ?_ hm.clear
  simp only [migrateLeaf, act_bind, get_apply, still, Bool.false_eq_true, if_false, away, require_of formed,
    require_of (decide_eq_true typed), require_not misplaced]
  rfl
/-- R84: the granule is marked and copied, and the word waits for the migration's end. -/
theorem execMigrate_starts (aligned : (s.h.reg o.b.toNat).toNat % 65536 = 0) (inside : (s.h.reg o.b.toNat).toNat < 0xF000000000)
    (h : inMigration (earlyCommit 2 s1) ((s.h.reg o.b.toNat).toNat / 65536) = false) :
    let t := earlyCommit 2 s1
    let va := (s.h.reg o.a.toNat).toNat % 2 ^ 55
    execMigrate o s = .next (s.waits (.migrate o) .migration
      (startMigration (leafGranule e lvl va) ((s.h.reg o.b.toNat).toNat / 65536)
        (leafAddress t.h.walker (wbits s.h.csr.ptroot 63 28) va t) (wbits t.h.csr.ptroot 7 0) va e t)) := by
  have placed : (wbits (s.h.reg o.b.toNat) 15 0 == 0 && decide ((s.h.reg o.b.toNat).toNat < 0xF000000000)) = true := by
    simp [wbits_low, aligned, inside]
  have free : inMigration (earlyCommit 2 s1) (granuleOf (s.h.reg o.b.toNat).toNat) = false := h
  intro t va
  rw [execMigrate_walked hm]
  refine privWord_waits (i := .migrate o) rfl hm.toReady hm.guarded (modeNum_supervisor hm.mode) ?_
  simp only [migrateLeaf, act_bind, get_apply, still, Bool.false_eq_true, if_false, away, require_of formed,
    require_of (decide_eq_true typed), require_of placed, commit_apply, free, modify_apply]
  rfl
end
end

/-! KEYLD and ACTBL (R392, R393). -/

section
variable {o : RArgs} {s s1 : State}

/-- R392: the slot that KEYLD's sB names. -/
theorem keySlot (y : Word) : wbits y 11 0 = y.toNat % 4096 := wbits_low y 11
theorem execKeyld_reserved (hr : s.PrivReady o) (hm : s.h.mode = .machine)
    (h : 2 ^ 13 ≤ (s.h.reg o.b.toNat).toNat ∨ (s.h.reg o.b.toNat).toNat % 4096 = 0) :
    execKeyld o s = .next (State.trapped 0x01 (word (rWord 0x32 3 o)) s.h.pc s) := by
  have reserved : (wbits (s.h.reg o.b.toNat) 63 13 == 0 && wbits (s.h.reg o.b.toNat) 11 0 != 0) = false := by
    rw [wbits_top_zero _ _ (by decide), keySlot]
    rcases h with h | h
    · rw [decide_eq_false (Nat.not_lt.2 h), Bool.false_and]
    · simp [h]
  refine privWord_trap hr.toReady hr.guarded (le_of_eq (by rw [hm])) (c := 0x01) (v := 0) ?_ hr.pfx
  simp only [act_bind, getH_apply, require_not reserved]
  rfl

/-- R392: a KEYLD whose slot and control bits are legal. -/
structure State.KeyReady (s : State) (o : RArgs) : Prop extends s.PrivReady o where
  machine : s.h.mode = .machine
  reserved : (s.h.reg o.b.toNat).toNat < 2 ^ 13
  slot : (s.h.reg o.b.toNat).toNat % 4096 ≠ 0
theorem State.KeyReady.level (hr : s.KeyReady o) : modeNum .machine ≤ modeNum s.h.mode := le_of_eq (by rw [hr.machine])
theorem State.KeyReady.legal (hr : s.KeyReady o) :
    (wbits (s.h.reg o.b.toNat) 63 13 == 0 && (s.h.reg o.b.toNat).toNat % 4096 != 0) = true := by
  rw [wbits_top_zero _ _ (by decide), decide_eq_true hr.reserved]
  exact bne_iff_ne.2 hr.slot
theorem wbit_twelve {y : Word} (h : y.toNat < 2 ^ 13) : wbit y 12 = decide (4096 ≤ y.toNat) := by
  simp only [wbit, bit]
  rw [Bool.beq_eq_decide_eq]
  exact decide_eq_decide.2 (by omega)

theorem execKeyld_empties (hr : s.KeyReady o) (h : 4096 ≤ (s.h.reg o.b.toNat).toNat) :
    execKeyld o s = .next (((changeKey ((s.h.reg o.b.toNat).toNat % 4096) none (earlyCommit 2 s)).wrote o.d 0 1 0).past 4
      o.stall.toNat) := by
  have changed := (changeKey_request ((s.h.reg o.b.toNat).toNat % 4096) none (earlyCommit 2 s)).ready hr.commits
  have empties : wbit (s.h.reg o.b.toNat) 12 = true := (wbit_twelve hr.reserved).trans (decide_eq_true h)
  refine privWord_seq hr.toReady hr.guarded hr.level ?_ ((State.wrote_pfx ..).trans changed.pfx)
  simp only [act_bind, getH_apply, keySlot, require_of hr.legal, hr.performs, empties, if_true, modify_apply,
    writeD_ready _ _ _ _ _ changed]
/-- R392: a KEYLD that fills its slot has read its blob. -/
structure State.BlobRead (s : State) (o : RArgs) (blob : List Byte) (s1 : State) : Prop extends s.KeyReady o where
  fills : (s.h.reg o.b.toNat).toNat < 4096
  aligned : (s.h.reg o.a.toNat).toNat % 8 = 0
  read : loadBytes (some 0) (s.h.reg o.a.toNat).toNat 72 8 (earlyCommit 2 s) = .ok blob s1
  clear : s1.h.pfx = none
  landed : s1.h.pend = []
theorem State.BlobRead.control {blob : List Byte} (hr : s.BlobRead o blob s1) : wbit (s.h.reg o.b.toNat) 12 = false :=
  (wbit_twelve hr.reserved).trans (decide_eq_false (Nat.not_le.2 hr.fills))
/-- R392: what KEYLD does with what its blob holds. -/
def fillKey (d : BitVec 5) (slot : Nat) : Option (List Byte) → Act Unit
  | none => writeD d 1
  | some ks => do
    modify (changeKey slot (some ⟨BitVec.ofNat 256 (leAt ks 0 32), BitVec.ofNat 256 (leAt ks 32 32)⟩))
    writeD d 0
/-- KEYLD, of a blob that it has read, is what it does with the blob. -/
theorem execKeyld_read {blob : List Byte} (hr : s.BlobRead o blob s1) :
    execKeyld o s = issue (privInfo 3 o .machine (.s o.d.toNat) [o.a, o.b]) (andNext fun _ =>
      fillKey o.d ((s.h.reg o.b.toNat).toNat % 4096) (unwrap Config.wrappingKey blob) s1) s := by
  refine privWord_congr hr.toReady hr.level ?_
  refine (act_bind_ok (getH_apply s)).trans ?_
  simp only [keySlot, hr.control]
  refine (act_bind_ok (require_of hr.legal _ _ s)).trans ((act_bind_ok hr.performs).trans ?_)
  refine (act_bind_ok (require_of (beq_iff_eq.2 hr.aligned) _ _ _)).trans ((act_bind_ok hr.read).trans ?_)
  generalize unwrap Config.wrappingKey blob = r
  cases r <;> rfl
theorem execKeyld_wrapped {blob : List Byte} (hr : s.BlobRead o blob s1) (hu : unwrap Config.wrappingKey blob = none) :
    execKeyld o s = .next ((s1.wrote o.d 1 1 0).past 4 o.stall.toNat) := by
  rw [execKeyld_read hr, hu]
  exact privWord_seq hr.toReady hr.guarded hr.level (writeD_clear _ _ hr.clear hr.landed) ((State.wrote_pfx ..).trans hr.clear)
theorem execKeyld_unwrapped {blob : List Byte} (hr : s.BlobRead o blob s1) {ks : List Byte}
    (hu : unwrap Config.wrappingKey blob = some ks) :
    execKeyld o s = .next (((changeKey ((s.h.reg o.b.toNat).toNat % 4096)
      (some ⟨BitVec.ofNat 256 (leAt ks 0 32), BitVec.ofNat 256 (leAt ks 32 32)⟩) s1).wrote o.d 0 1 0).past 4
        o.stall.toNat) := by
  have changed := changeKey_request ((s.h.reg o.b.toNat).toNat % 4096)
    (some ⟨BitVec.ofNat 256 (leAt ks 0 32), BitVec.ofNat 256 (leAt ks 32 32)⟩) s1
  have clear := changed.pfx.trans hr.clear
  rw [execKeyld_read hr, hu]
  refine privWord_seq hr.toReady hr.guarded hr.level ?_ ((State.wrote_pfx ..).trans clear)
  exact writeD_clear _ _ clear (changed.pend.trans hr.landed)

/-- R393: the selectors that ACTBL takes: reserved bits clear, and a listed initiator. -/
def actblSelects (x : Word) : Prop :=
  wbits x 15 10 = 0 ∧ wbits x 63 19 = 0 ∧ (wbits x 9 0 < 0x58 ∨ (0x100 ≤ wbits x 9 0 ∧ wbits x 9 0 < 0x200))
theorem actblSelects_iff (x : Word) :
    (wbits x 15 10 == 0 && wbits x 63 19 == 0 && initiatorListed (wbits x 9 0)) = true ↔ actblSelects x := by
  simp [actblSelects, initiatorListed, and_assoc]
theorem execActbl_refused (hr : s.PrivReady o) (hm : s.h.mode = .machine) (h : ¬actblSelects (s.h.reg o.a.toNat)) :
    execActbl o s = .next (State.trapped 0x01 (word (rWord 0x32 4 o)) s.h.pc s) := by
  have refused := Bool.eq_false_iff.2 (mt (actblSelects_iff _).1 h)
  refine privWord_trap hr.toReady hr.guarded (le_of_eq (by rw [hm])) (c := 0x01) (v := 0) ?_ hr.pfx
  simp only [act_bind, getH_apply, require_not refused]
  rfl
/-- R393: one entry of the access table is written, its reserved bits cleared. -/
theorem execActbl_writes (hr : s.PrivReady o) (hm : s.h.mode = .machine) (h : actblSelects (s.h.reg o.a.toNat))
    (ha : (s.h.reg o.b.toNat).toNat % 16 = 0) {bs : List Byte}
    (hl : loadBytes (some 0) (s.h.reg o.b.toNat).toNat 16 16 (earlyCommit 2 s) = .ok bs s1) (hx : s1.h.pfx = none) :
    let x := s.h.reg o.a.toNat
    let n := leAt bs 0 16
    execActbl o s = .next (State.past 4 o.stall.toNat { s1 with dev := { s1.dev with
      access := put (8 * wbits x 9 0 + wbits x 18 16)
        (BitVec.ofNat 128 (bits n 99 64 * 2 ^ 64 + bits n 63 61 * 2 ^ 61 + bits n 35 0)) s1.dev.access } }) := by
  refine privWord_seq hr.toReady hr.guarded (le_of_eq (by rw [hm])) ?_ hx
  simp only [act_bind, getH_apply, require_of ((actblSelects_iff _).2 h), require_of (beq_iff_eq.2 ha), hr.performs, hl,
    modify_apply]
end

end Sys2Proof.Machine
end

section
namespace Sys2Proof.Machine

/-! What a write within one sector of HBM does (R68, R87, R88): it answers nobody and holds no write back, and its bytes read as
written. -/

/-- The replies made, and the writes held back. -/
def State.traffic (s : State) : List Reply × List HeldWrite := (s.replies, s.dev.heldWrites)

theorem traffic_fold {α : Type} {f : State → α → State} (h : ∀ s x, (f s x).traffic = s.traffic) (l : List α) (s : State) :
    (l.foldl f s).traffic = s.traffic := by
  induction l generalizing s with
  | nil => rfl
  | cons x l ih => exact (ih _).trans (h s x)
theorem reportFailed_traffic (pa n : Nat) (s : State) : (reportFailed pa n s).traffic = s.traffic := by
  refine traffic_fold (fun u p => ?_) _ s
  dsimp only
  split <;> rfl
theorem reportTag_traffic (line : Nat) (im : Image) (s : State) : (reportTag line im s).traffic = s.traffic := by
  unfold reportTag
  split <;> rfl
theorem installLine_traffic (line : Nat) (secs : List (List Byte × Option Flaw)) (s : State) :
    (installLine line secs s).traffic = s.traffic := by
  unfold installLine
  refine traffic_fold ?_ _ s
  rintro u ⟨sec, n⟩
  rfl
theorem applyDelta_traffic (line : Nat) (s : State) : (applyDelta line s).traffic = s.traffic := by
  unfold applyDelta
  split <;> rfl
theorem settleStripe_traffic (st : Nat) (s : State) : (settleStripe st s).traffic = s.traffic :=
  traffic_fold (fun u l => applyDelta_traffic l u) _ s
theorem settleFor_traffic (line : Nat) (s : State) : (settleFor line s).traffic = s.traffic := by
  unfold settleFor
  split
  · exact settleStripe_traffic _ s
  · rfl
theorem startWriteback_traffic (line : Nat) (s : State) : (startWriteback line s).traffic = s.traffic := by
  unfold startWriteback
  split
  · rfl
  · split
    · rfl
    · split
      · rfl
      · exact reportFailed_traffic _ _ s
theorem writebackLine_traffic (line : Nat) (s : State) : (writebackLine line s).traffic = s.traffic := by
  unfold writebackLine
  refine (settleStripe_traffic _ _).trans ((startWriteback_traffic _ _).trans ?_)
  split
  · exact settleStripe_traffic _ s
  · rfl
theorem dropLine_traffic (line : Nat) (s : State) : (dropLine line s).traffic = s.traffic := rfl
theorem makeRoom_traffic (line : Nat) (s : State) : (makeRoom line s).traffic = s.traffic := by
  unfold makeRoom
  split
  · rfl
  · dsimp only
    split
    · rfl
    · exact (dropLine_traffic _ _).trans (writebackLine_traffic _ _)
theorem fillLine_traffic (key line : Nat) (s : State) : (fillLine key line s).traffic = s.traffic := by
  unfold fillLine
  split
  · rfl
  · have room := makeRoom_traffic line s
    generalize makeRoom line s = u at room
    dsimp only
    split
    · exact (installLine_traffic _ _ _).trans room
    · split
      · exact room
      · exact (reportTag_traffic _ _ _).trans ((installLine_traffic _ _ _).trans room)
    · exact room

theorem mergeBytes_traffic (c : Ctx) (pa : Nat) (bs : List Byte) (s : State) :
    (mergeBytes c pa bs s).1.traffic = s.traffic := by
  unfold mergeBytes
  split
  · exact reportFailed_traffic _ _ s
  · rfl
theorem mergeBytes_reads (c : Ctx) (pa : Nat) (bs : List Byte) {s : State} (hs : s.Inv) {j : Nat} (hj : j < bs.length) :
    Memory.read (mergeBytes c pa bs s).1.mem (pa + j) = bs.getD j 0 := by
  have written {u : State} (hu : u.Inv) : Memory.read (Memory.writeBytes pa bs u.mem) (pa + j) = bs.getD j 0 := by
    rw [Memory.read_writeBytes pa _ bs u.mem hu, if_pos ⟨Nat.le_add_right .., Nat.add_lt_add_left hj _⟩,
      Nat.add_sub_cancel_left]
  unfold mergeBytes
  split
  · exact written ((reportFailed_request _ _ _).canonical hs)
  · exact written hs

/-- R68, R85: a write within one sector of HBM that is neither refused nor held back performs. -/
theorem physWrite_hbm {c : Ctx} {pa : Nat} {bs : List Byte} {s : State} (hb : bs ≠ []) (hs : pa % 32 + bs.length ≤ 32)
    (hh : targetOf pa = .hbm) (allowed : checkRequest c pa bs.length false true s = none) (free : divert c pa bs [] s = none) :
    ∃ t bad, physWrite c pa bs s = .ok (t, bad) ∧ t.traffic = s.traffic ∧
      (s.Inv → ∀ j < bs.length, Memory.read t.mem (pa + j) = bs.getD j 0) := by
  have hn := List.length_pos_of_ne_nil hb
  have fits : registerMisfit [(pa, bs.length)] pa bs.length = false := registerMisfit_one pa _ (by simp [hh])
  let u := fillLine c.key (lineOf pa) (settleFor (lineOf pa) s)
  let dirtied : State := { u with hbm := { u.hbm with
    cache := put (lineOf pa) { dirty := true, z := c.z, key := c.key } u.hbm.cache } }
  have fill : Request s dirtied :=
    ((settleFor_request _ _).trans (fillLine_request _ _ _)).trans (.device ⟨_, _, _, rfl⟩)
  have quiet : dirtied.traffic = s.traffic := (fillLine_traffic _ _ _).trans (settleFor_traffic _ _)
  refine ⟨(mergeBytes c pa bs dirtied).1, if (mergeBytes c pa bs dirtied).2 then some (pa / 32 * 32) else none, ?_,
    (mergeBytes_traffic _ _ _ _).trans quiet, fun inv j hj => mergeBytes_reads _ _ _ (fill.canonical inv) hj⟩
  simp only [physWrite, sectors_one pa _ hn hs, refusal, List.findSome?, allowed, fits, writePieces, writePiece, free, hh,
    List.take_length, Option.map_none, Bool.false_eq_true, if_false]
  rfl

/-! The end of a migration (R84, R85). -/

/-- R84, R85: the granule is migrating no more, these writes stay held, and what the harts and the loader have still to read
comes from the new granule, where an image has moved too. -/
def State.redirected (old : Nat) (m : Migration) (lines : List Nat) (held : List HeldWrite) (s : State) : State := { s with
  dev := { s.dev with
    heldWrites := held, migrating := cut old s.dev.migrating
    away := s.dev.away.map fun e =>
      (e.1, if granuleOf e.2.image = old then { e.2 with image := m.dest * 65536 + e.2.image % 65536 } else e.2) }
  h := redirectHart old m.dest lines s.h
  harts := s.harts.map fun e => (e.1, redirectHart old m.dest lines e.2)
  clusters := s.clusters.map fun e => (e.1, { e.2 with
    loader := e.2.loader.map fun w => { w with parts := redirectParts old m.dest w.parts } }) }

section
variable {old : Nat} {m : Migration} {s : State}

theorem endMigration_none (h : look old s.dev.migrating = none) : endMigration old s = s := by simp [endMigration, h]
theorem endMigration_used (h : look old s.dev.migrating = some m)
    (used : migrationQuiet old (entryMatches (some m.asn) (some m.va)) s = false) : endMigration old s = s := by
  simp [endMigration, h, used]

variable (h : look old s.dev.migrating = some m) (quiet : migrationQuiet old (entryMatches (some m.asn) (some m.va)) s = true)
  (reads : ∀ r ∈ s.dev.heldReads, r.waits / 65536 ≠ old)
include h quiet reads

theorem endMigration_unheld (writes : ∀ w ∈ s.dev.heldWrites, w.pa / 65536 ≠ old) :
    endMigration old s = dropEntries (entryMatches (some m.asn) (some m.va)) (s.redirected old m [] s.dev.heldWrites) := by
  have noWrites : s.dev.heldWrites.partition (fun w => granuleOf w.pa == old) = ([], s.dev.heldWrites) := by
    simpa [List.partition_eq_filter_filter, granuleOf] using writes
  have noReads : s.dev.heldReads.partition (fun r => granuleOf r.waits == old) = ([], s.dev.heldReads) := by
    simpa [List.partition_eq_filter_filter, granuleOf] using reads
  simp only [endMigration, h, quiet, noWrites, noReads]
  rfl
theorem endMigration_held {w : HeldWrite} (only : s.dev.heldWrites = [w]) (at' : w.pa / 65536 = old) :
    endMigration old s = forwardHeld m.dest w
      (dropEntries (entryMatches (some m.asn) (some m.va)) (s.redirected old m [lineOf w.pa] [])) := by
  have oneWrite : s.dev.heldWrites.partition (fun w => granuleOf w.pa == old) = ([w], []) := by
    simp [List.partition_eq_filter_filter, granuleOf, only, at']
  have noReads : s.dev.heldReads.partition (fun r => granuleOf r.waits == old) = ([], s.dev.heldReads) := by
    simpa [List.partition_eq_filter_filter, granuleOf] using reads
  simp only [endMigration, h, quiet, oneWrite, noReads]
  rfl
end

theorem dropEntries_cores {uses : Nat × Nat × Nat → Bool} {s : State} {c : Nat × CoreState} (hc : c ∈ (dropEntries uses s).cores)
    {n : TlbEntry} (hn : n ∈ c.2.tlb) : uses (n.asn, n.va, n.size) = false := by
  obtain ⟨e, -, rfl⟩ := List.mem_map.1 hc
  simpa using (List.mem_filter.1 hn).2
theorem dropEntries_clusters {uses : Nat × Nat × Nat → Bool} {s : State} {c : Nat × Cluster}
    (hc : c ∈ (dropEntries uses s).clusters) {n : TlbEntry} (hn : n ∈ c.2.tlb) : uses (n.asn, n.va, n.size) = false := by
  obtain ⟨e, -, rfl⟩ := List.mem_map.1 hc
  simpa using (List.mem_filter.1 hn).2

/-- R85: no redirected part lies in the old granule. -/
theorem redirectParts_leaves {old new : Nat} (hne : new ≠ old) {parts : List (Access × Nat)} {p : Access × Nat}
    (hp : p ∈ redirectParts old new parts) : p.1.pa / 65536 ≠ old := by
  obtain ⟨⟨a, n⟩, -, rfl⟩ := List.mem_map.1 hp
  by_cases ha : granuleOf a.pa = old
  · simp only [ha, if_true]
    omega
  · simp only [if_neg ha]
    exact ha
/-- R85: an unbound load of a redirected hart reads nothing of the old granule. -/
theorem redirectHart_loads {old new : Nat} (hne : new ≠ old) {lines : List Nat} {h : Hart} {q : CountedOp}
    (hq : q ∈ (redirectHart old new lines h).ops) (unbound : q.value = none) {parts : List (Access × Nat)} {natural : Bool}
    {cls : Nat} (hk : q.kind = .load parts natural cls) {p : Access × Nat} (hp : p ∈ parts) : p.1.pa / 65536 ≠ old := by
  obtain ⟨o, -, rfl⟩ := List.mem_map.1 hq
  revert unbound hk
  split
  · intro _ hk
    obtain ⟨rfl, -, -⟩ := OpKind.load.inj hk
    exact redirectParts_leaves hne hp
  next other =>
    intro unbound hk
    exact (other _ _ _ hk unbound).elim

/-- R87: an answer changes nothing but the replies and, to a peer, its link. -/
theorem answer_replies (initiator tag : Nat) (bytes : Option (List Byte)) (poison : Bool) (s : State) :
    (answer initiator tag bytes poison s).replies =
      s.replies ++ [{ initiator := initiator, tag := tag, bytes := bytes, poison := poison }] := by
  unfold answer
  dsimp only
  repeat' split
  all_goals rfl
theorem answer_keeps (initiator tag : Nat) (bytes : Option (List Byte)) (poison : Bool) (s : State) :
    (answer initiator tag bytes poison s).mem = s.mem ∧
      (answer initiator tag bytes poison s).dev.heldWrites = s.dev.heldWrites := by
  unfold answer
  dsimp only
  repeat' split
  all_goals exact ⟨rfl, rfl⟩
/-- R85: a requester's write that has ended, with or without a flawed sector, is acknowledged. -/
theorem endWrite_acknowledges {w : HeldWrite} {i n : Nat} (hc : w.coord = none) (ha : w.ack = some (i, n)) (pa : Nat)
    (bad : Option Nat) (s : State) :
    endWrite pa (bad.map fun p => (cUncorrectable, p)) w s = answer i n (some []) false s := by
  cases bad <;> simp [endWrite, hc, ha]

/-- R85: a held write of one sector is made at its place in the new granule, and acknowledged. -/
theorem forwardHeld_one {new : Nat} {w : HeldWrite} {i n : Nat} {s : State} (inv : s.Inv) (mask : w.mask = []) (hc : w.coord = none)
    (ha : w.ack = some (i, n)) (hb : w.bytes ≠ []) (hs : w.pa % 32 + w.bytes.length ≤ 32) (inside : new < 0xF00000)
    (still : look new s.dev.migrating = none) (alone : s.dev.heldWrites = []) (key : (keyOf s w.key).isSome = true) :
    (forwardHeld new w s).dev.heldWrites = [] ∧
      (forwardHeld new w s).replies = s.replies ++ [{ initiator := i, tag := n, bytes := some [] }] ∧
      ∀ j < w.bytes.length, Memory.read (forwardHeld new w s).mem (new * 65536 + w.pa % 65536 + j) = w.bytes.getD j 0 := by
  have hh : targetOf (new * 65536 + w.pa % 65536) = .hbm := targetOf_hbm _ (by omega)
  have granule : granuleOf (new * 65536 + w.pa % 65536) = new := by simp only [granuleOf]; omega
  have allowed : checkRequest { key := w.key, z := w.z } (new * 65536 + w.pa % 65536) w.bytes.length false true s = none := by
    simp [checkRequest, hh, accessAllowed, Option.isSome_iff_ne_none.1 key]
  have free : divert { key := w.key, z := w.z } (new * 65536 + w.pa % 65536) w.bytes [] s = none := by
    simp [divert, holdPlace, hh, migratingAt, granule, still, heldOver, alone]
  obtain ⟨t, bad, written, traffic, bytes⟩ := physWrite_hbm hb (by omega) hh allowed free
  have forwarded : forwardHeld new w s = answer i n (some []) false t := by
    simp only [forwardHeld, writeMasked, mask, List.isEmpty_nil, if_true, written, endWrite_acknowledges hc ha]
  obtain ⟨replies, held⟩ := Prod.mk.inj traffic
  obtain ⟨mem, kept⟩ := answer_keeps i n (some []) false t
  rw [forwarded, answer_replies, mem, kept, held, replies]
  exact ⟨alone, rfl, bytes inv⟩

/-- Settles O49, by the rules of the PRIV words on a ready hart and of a migration's end. -/
theorem privWords : Obligations.PrivWords := by
  refine ⟨?_, ?_, ?_, ?_⟩
  · simp only [List.forall_mem_cons, List.not_mem_nil, false_imp_iff, implies_true, and_true]
    and_intros
    all_goals
      intro o s hr hm
      exact privWord_privileged _ hr (by rw [hm]; decide)
  · simp only [List.forall_mem_cons, List.not_mem_nil, false_imp_iff, implies_true, and_true]
    and_intros
    all_goals
      intro o s hr hm
      exact privWord_privileged _ hr (by rw [hm]; decide)
  · intro o s ready mode guarded loaded before after
    have hr : s.PrivReady o := ⟨ready, mode, guarded, loaded, before, after⟩
    intro x y u ill waits done
    refine ⟨execTlbi_reserved hr, execTlbi_drops hr, ?_, ?_, ?_⟩
    · intro v s1 hx hp he ho loaded1 before1 after1 ok
      have performs := performEarlier_idle loaded1 ho before1 after1
      refine ⟨execMsq_typed hr hx hp, execMsq_refused hr hx hp, fun ht hh ha => ⟨fun im him => ?_, fun lost => ?_⟩⟩
      · exact execMsq_answers hr hx hp he performs ht hh ha (msqWord_stored him) rfl
      · exact execMsq_answers hr hx hp he performs ht hh ha (msqWord_lost lost) rfl
    · intro s1 e lvl hc hp va root hw rights range old new moving t
      have hm : s.Migrates o s1 e lvl := ⟨hr, hc, hp, hw, rights⟩
      refine ⟨execMigrate_moving hm, execMigrate_placed hm, execMigrate_unformed hm, ?_, ?_, ?_⟩
      · exact fun still away hl hf => execMigrate_mistyped hm still away (by simp [hl, hf])
      · exact fun still away hl hf => execMigrate_misplaced hm still away (by simp [hl, hf])
      · exact fun still away hl hf => execMigrate_starts hm still away (by simp [hl, hf])
    · intro hm slot
      refine ⟨execKeyld_reserved hr hm, fun reserved hs => execKeyld_empties ⟨hr, hm, reserved, hs⟩, ?_,
        execActbl_refused hr hm, ?_⟩
      · intro s1 blob fills hs aligned read clear landed
        have blobRead : s.BlobRead o blob s1 :=
          ⟨⟨hr, hm, fills.trans (by decide), hs⟩, fills, aligned, read, clear, landed⟩
        exact ⟨execKeyld_wrapped blobRead, fun ks => execKeyld_unwrapped blobRead⟩
      · exact fun s1 bs h1 h2 h3 aligned read clear => execActbl_writes hr hm ⟨h1, h2, h3⟩ aligned read clear
  · intro o s old
    have run (t : State) (h : endMigration old s = t) : exec (.migrationComplete o) s = .next t := congrArg Host.Outcome.next h
    refine ⟨fun h => run _ (endMigration_none h), fun m h => ?_⟩
    intro uses
    refine ⟨fun used => run _ (endMigration_used h used), fun quiet writes reads => ?_, ?_⟩
    · refine ⟨_, run _ (endMigration_unheld h quiet reads writes), rfl, rfl, rfl, rfl, rfl, ?_, ?_, ?_⟩
      · exact fun c hc n hn => dropEntries_cores hc hn
      · exact fun c hc n hn => dropEntries_clusters hc hn
      · exact fun q hq unbound parts natural cls hk p hp hne => redirectHart_loads hne hq unbound hk hp
    · intro w i n quiet only reads at' mask hc ha hb hs inside still key inv
      refine ⟨_, run _ (endMigration_held h quiet reads only at'), ?_⟩
      refine forwardHeld_one (s := dropEntries uses (s.redirected old m [lineOf w.pa] [])) inv mask hc ha hb hs inside ?_ rfl key
      exact (look_cut old m.dest s.dev.migrating).trans (by split <;> [rfl; exact still])
end Sys2Proof.Machine
end

section
namespace Sys2Proof.Machine

/-! The memory requests of requesters that are no hart (R71, R85, R87, R387), and a failed sector's report (R67). -/

/-- R387: what the offsets of BAR0 past the buffers name. -/
theorem barTarget_above {off : Nat} (h : 0x12000 ≤ off) : barTarget off =
    if off < 0x12008 then .reg .mbdb
    else if 0x20000 ≤ off ∧ off < 0x20008 then .reg .hwkey
    else if 0x20008 ≤ off ∧ off < 0x20010 then .reg .clovest
    else .reserved := by
  have queues : ¬off < 0x1000 := by omega
  have buffers : ¬off < 0x12000 := by omega
  simp [barTarget, queues, buffers, h]
/-- R423, R387: the host's read of a register is its value from the byte named on. -/
theorem barRead_register {off n : Nat} {r : DevReg} {s : State} (h : barTarget off = .reg r) (aligned : off % n = 0)
    (size : n = 1 ∨ n = 2 ∨ n = 4 ∨ n = 8) : barRead off n s = some (bytesOf n (readReg s r / 2 ^ (8 * (off % 8)))) := by
  have fits : regAligned off n = true := by
    rcases size with rfl | rfl | rfl | rfl <;> simp [regAligned, aligned]
  simp only [barRead, h, fits, if_true]

/-- R87: a requester that is no peer gets its answer with no flit. -/
theorem answer_local {initiator : Nat} (h : initiator < 0x100) (tag : Nat) (bytes : Option (List Byte)) (poison : Bool)
    (s : State) : answer initiator tag bytes poison s =
      { s with replies := s.replies ++ [{ initiator := initiator, tag := tag, bytes := bytes, poison := poison }] } := by
  simp [answer, h]

/-- R85: a new request has waited for no line. -/
theorem requestCtx_unmoved (initiator : Nat) (s : State) :
    { requestCtx initiator s with moved := [] } = requestCtx initiator s := rfl

section
variable {o : ReadArgs} {s : State}

theorem readRequest_bar (h : o.bar = true) : readRequest o s = answer 0x50 o.tag (barRead o.pa o.len s) false s := by
  simp [readRequest, h]
theorem readRequest_unreachable (h : o.bar = false) (away : requestReaches o.initiator o.pa o.len s = false) :
    readRequest o s = answer o.initiator o.tag none false s := by simp [readRequest, h, away]

variable (h : o.bar = false) (near : requestReaches o.initiator o.pa o.len s = true)
include h near

theorem readRequest_served {s1 : State} {bs : List Byte} {bad : Option Nat}
    (read : physRead (requestCtx o.initiator s) o.pa o.len s = .ok (s1, bs, bad)) :
    readRequest o s = answer o.initiator o.tag (some bs) bad.isSome s1 := by
  simp [readRequest, h, near, serveRead, requestCtx_unmoved, read]
theorem readRequest_kept {a : Nat} (held : physRead (requestCtx o.initiator s) o.pa o.len s = .error (0, a)) :
    readRequest o s = { s with dev := { s.dev with heldReads := s.dev.heldReads ++
      [{ initiator := o.initiator, tag := o.tag, pa := o.pa, n := o.len, waits := a }] } } := by
  simp [readRequest, h, near, serveRead, requestCtx_unmoved, held]
theorem readRequest_refused {e a : Nat} (refused : physRead (requestCtx o.initiator s) o.pa o.len s = .error (e, a)) (he : e ≠ 0) :
    readRequest o s = answer o.initiator o.tag none false s := by
  obtain ⟨k, rfl⟩ := Nat.exists_eq_succ_of_ne_zero he
  simp [readRequest, h, near, serveRead, requestCtx_unmoved, refused]
end

/-- R85: a write held over a line of HBM meets every access within the sector. -/
theorem heldOver_of_mem {s : State} {w : HeldWrite} (hw : w ∈ s.dev.heldWrites) {pa n : Nat} (line : w.pa / 128 = pa / 128)
    (hn : 0 < n) : heldOver s pa n = true := by
  refine List.any_eq_true.2 ⟨w, hw, ?_⟩
  have last : pa / 128 ≤ (pa + n - 1) / 128 := Nat.div_le_div_right (by omega)
  simp [line, last]
/-- R85: a read within one sector of a line with a held write waits at its own address. -/
theorem physRead_held {c : Ctx} {pa n : Nat} {s : State} (unmoved : c.moved = []) (hn : 0 < n) (hs : pa % 32 + n ≤ 32)
    (inside : pa < 0xF000000000) (allowed : accessAllowed s c.initiator pa true false = true)
    (key : (keyOf s c.key).isSome = true) (held : heldOver s pa n = true) : physRead c pa n s = .error (0, pa) := by
  have hh := targetOf_hbm pa inside
  have check : checkRequest c pa n true false s = some 0 := by
    simp [checkRequest, hh, allowed, Option.isSome_iff_ne_none.1 key, held]
  have at' : movedTo c.moved pa = pa := by rw [unmoved]; rfl
  simp [physRead, sectors_one pa n hn hs, registerMisfit_one pa n (by simp [hh]), readPieces, at', readPiece, check]

section
variable {o : WriteArgs} {s : State}

theorem writeRequest_unreachable (away : requestReaches o.initiator o.pa o.bytes.length s = false) :
    writeRequest o s = answer o.initiator o.tag none false s := by simp [writeRequest, away]

variable (near : requestReaches o.initiator o.pa o.bytes.length s = true)
include near

theorem writeRequest_performed {s1 : State} {bad : Option Nat}
    (written : physWrite (requestCtx o.initiator s) o.pa o.bytes s = .ok (s1, bad))
    (performed : s1.dev.heldWrites = s.dev.heldWrites) :
    writeRequest o s = answer o.initiator o.tag (some []) false s1 := by
  simp [writeRequest, near, writeMasked, written, performed]
theorem writeRequest_refused {e a : Nat}
    (refused : physWrite (requestCtx o.initiator s) o.pa o.bytes s = .error (e, a)) (he : e ≠ 0) :
    writeRequest o s = answer o.initiator o.tag none false s := by
  obtain ⟨k, rfl⟩ := Nat.exists_eq_succ_of_ne_zero he
  simp [writeRequest, near, writeMasked, refused]
/-- R85: a write that is held keeps its requester. -/
theorem writeRequest_held {bad : Option Nat} {w : HeldWrite} {d : Device}
    (written : physWrite (requestCtx o.initiator s) o.pa o.bytes s = .ok ({ s with dev := d }, bad))
    (held : d.heldWrites = s.dev.heldWrites ++ [w]) :
    writeRequest o s = { s with dev := { d with heldWrites := s.dev.heldWrites ++
      [{ w with ack := some (o.initiator, o.tag) }] } } := by
  have stamped : (d.heldWrites.mapIdx fun i v => if s.dev.heldWrites.length ≤ i then
      { v with ack := if i + 1 == d.heldWrites.length then some (o.initiator, o.tag) else none } else v) =
      s.dev.heldWrites ++ [{ w with ack := some (o.initiator, o.tag) }] := by
    rw [held, List.mapIdx_append]
    congr 1
    · exact List.ext_getElem (by simp) fun i hi _ => by simp at hi; simp [hi]
    · simp
  simp [writeRequest, near, writeMasked, written, stampHeld, held] at stamped ⊢
  exact stamped
end

/-- R85: a write within one sector of a migrating granule is held at its address. -/
theorem physWrite_migrating {c : Ctx} {pa : Nat} {bs : List Byte} {s : State} {m : Migration}
    (moving : look (pa / 65536) s.dev.migrating = some m) (follows : c.direct = false) (hb : bs ≠ [])
    (hs : pa % 32 + bs.length ≤ 32) (inside : pa < 0xF000000000) (allowed : accessAllowed s c.initiator pa false true = true)
    (key : (keyOf s c.key).isSome = true) : physWrite c pa bs s = .ok (holdWrite c pa bs [] none s, none) := by
  have hh := targetOf_hbm pa inside
  have check : checkRequest c pa bs.length false true s = none := by
    simp [checkRequest, hh, allowed, Option.isSome_iff_ne_none.1 key]
  have held : divert c pa bs [] s = some (holdWrite c pa bs [] none s) := by
    simp [divert, holdPlace, hh, follows, migratingAt, granuleOf, moving]
  simp [physWrite, sectors_one pa _ (List.length_pos_of_ne_nil hb) hs, refusal, check, registerMisfit_one pa _ (by simp [hh]),
    writePieces, writePiece, held]

/-- R67: a byte's failed sector is counted against its array, and becomes poison. -/
theorem reportFailed_failed {pa : Nat} {s : State} (h : look (pa / 32 * 32) s.flaws = some .failed) :
    reportFailed pa 1 s =
      countUncorrectable (arrayOf (pa / 32 * 32)) { s with flaws := put (pa / 32 * 32) .poison s.flaws } := by
  simp [reportFailed, sectors_one pa 1 Nat.one_pos (by omega), h]
theorem reportFailed_sound {pa : Nat} {s : State} (h : look (pa / 32 * 32) s.flaws ≠ some .failed) : reportFailed pa 1 s = s := by
  simp [reportFailed, sectors_one pa 1 Nat.one_pos (by omega), h]

end Sys2Proof.Machine
end

section
namespace Sys2Proof.Machine

/-! What a writeback and an eviction of other lines keep of a line, and what the parts of a fill change (R54, R56, R86, R92). -/

/-- R67: a report changes the flaws and the counts of uncorrectable errors. -/
theorem reportFailed_changes (pa n : Nat) (s : State) : ∃ f e, reportFailed pa n s =
    { s with flaws := f, dev := { s.dev with mgmt := { s.dev.mgmt with uncorrectable := e } } } := by
  unfold reportFailed
  generalize sectors pa n = l
  induction l generalizing s with
  | nil => exact ⟨_, _, rfl⟩
  | cons p l ih =>
    rw [List.foldl_cons]
    dsimp only
    split
    · obtain ⟨f, e, h⟩ := ih (countUncorrectable (arrayOf (p.1 / 32 * 32))
        { s with flaws := put (p.1 / 32 * 32) .poison s.flaws })
      exact ⟨f, e, h⟩
    · exact ih s
theorem reportFailed_hbm (pa n : Nat) (s : State) : (reportFailed pa n s).hbm = s.hbm := by
  obtain ⟨f, e, h⟩ := reportFailed_changes pa n s
  rw [h]
theorem reportFailed_mem (pa n : Nat) (s : State) : (reportFailed pa n s).mem = s.mem := by
  obtain ⟨f, e, h⟩ := reportFailed_changes pa n s
  rw [h]
/-- A line's sectors change memory and its flaws. -/
theorem installLine_changes (line : Nat) (secs : List (List Byte × Option Flaw)) (s : State) :
    ∃ m f, installLine line secs s = { s with mem := m, flaws := f } := by
  unfold installLine
  generalize secs.zipIdx = l
  induction l generalizing s with
  | nil => exact ⟨_, _, rfl⟩
  | cons p l ih =>
    rw [List.foldl_cons]
    obtain ⟨m, f, h⟩ := ih { s with
      mem := Memory.writeBytes (line + 32 * p.2) p.1.1 s.mem
      flaws := match p.1.2 with
        | some f => put (line + 32 * p.2) f s.flaws
        | none => cut (line + 32 * p.2) s.flaws }
    exact ⟨m, f, h⟩
theorem installLine_hbm (line : Nat) (secs : List (List Byte × Option Flaw)) (s : State) :
    (installLine line secs s).hbm = s.hbm := by
  obtain ⟨m, f, h⟩ := installLine_changes line secs s
  rw [h]
theorem installLine_dev (line : Nat) (secs : List (List Byte × Option Flaw)) (s : State) :
    (installLine line secs s).dev = s.dev := by
  obtain ⟨m, f, h⟩ := installLine_changes line secs s
  rw [h]
/-- R62: a line that cannot be had is poison, each of its sectors. -/
theorem installLine_poison (line : Nat) (s : State) {n : Nat} (hn : n < 4) :
    look (line + 32 * n) (installLine line (List.replicate 4 (poisonBytes, some .poison)) s).flaws = some .poison := by
  have flaws : (installLine line (List.replicate 4 (poisonBytes, some .poison)) s).flaws =
    put (line + 32 * 3) .poison (put (line + 32 * 2) .poison
      (put (line + 32 * 1) .poison (put (line + 32 * 0) .poison s.flaws))) := rfl
  rw [flaws]
  by_cases h3 : n = 3
  · rw [h3, look_put_self]
  rw [look_put_ne _ _ _ _ (by omega)]
  by_cases h2 : n = 2
  · rw [h2, look_put_self]
  rw [look_put_ne _ _ _ _ (by omega)]
  by_cases h1 : n = 1
  · rw [h1, look_put_self]
  rw [look_put_ne _ _ _ _ (by omega), show n = 0 by omega, look_put_self]
/-- R92: the tags of the table, and that of an unrecoverable line, are not reported. -/
theorem reportTag_listed {line : Nat} {im : Image} (h : im.tag < 9 ∨ 15 ≤ im.tag) (s : State) : reportTag line im s = s := by
  unfold reportTag
  rw [if_neg]
  simp
  omega
theorem reportTag_changes (line : Nat) (im : Image) (s : State) :
    ∃ e, reportTag line im s = { s with dev := { s.dev with mgmt := { s.dev.mgmt with uncorrectable := e } } } := by
  unfold reportTag
  split
  · exact ⟨_, rfl⟩
  · exact ⟨_, rfl⟩
/-- R92: a tag that the table does not give makes the line poison. -/
theorem decodeImage_poison (k : KeyPair) (line : Nat) {im : Image} (h : 9 ≤ im.tag) :
    decodeImage k line im = List.replicate 4 (poisonBytes, some .poison) := if_pos h

/-- What writebacks and evictions of other lines keep of a line: which stacks are lost and how far the rebuild is (R59, R61), the
line's stored image and its place in the cache, the keys (R65), the counts of corrected errors (R390) and, where broken, the
line's links (R88). -/
structure Spares (line : Nat) (s t : State) : Prop where
  lost : t.hbm.lost = s.hbm.lost
  prog : t.hbm.prog = s.hbm.prog
  cloveState : t.hbm.cloveState = s.hbm.cloveState
  image : look line t.hbm.images = look line s.hbm.images
  record : look line t.hbm.cache = look line s.hbm.cache
  boots : t.dev.mgmt.boots = s.dev.mgmt.boots
  keys : t.dev.keys = s.dev.keys
  counts : t.dev.mgmt.counts = s.dev.mgmt.counts
  link : s.h.link ≠ some line → t.h.link ≠ some line
  vlink : line ∉ s.h.vlink → line ∉ t.h.vlink

section
variable {line : Nat} {s t u : State}

theorem Spares.refl (line : Nat) (s : State) : Spares line s s := ⟨rfl, rfl, rfl, rfl, rfl, rfl, rfl, rfl, id, id⟩
theorem Spares.trans (a : Spares line s t) (b : Spares line t u) : Spares line s u :=
  ⟨b.lost.trans a.lost, b.prog.trans a.prog, b.cloveState.trans a.cloveState, b.image.trans a.image, b.record.trans a.record,
    b.boots.trans a.boots, b.keys.trans a.keys, b.counts.trans a.counts, b.link ∘ a.link, b.vlink ∘ a.vlink⟩
theorem Spares.fold {α : Type} {f : State → α → State} (h : ∀ s x, Spares line s (f s x)) (l : List α) (s : State) :
    Spares line s (l.foldl f s) := by
  induction l generalizing s with
  | nil => exact .refl line s
  | cons x l ih => exact (h s x).trans (ih _)
/-- R94: where a line lies follows from the stacks lost and from the rebuild alone. -/
theorem Hbm.place_congr {a b : Hbm} (lost : a.lost = b.lost) (prog : a.prog = b.prog) (state : a.cloveState = b.cloveState)
    (line : Nat) : a.place line = b.place line := by
  unfold Hbm.place Hbm.remapped
  rw [lost, prog, state]
theorem Spares.place (a : Spares line s t) (l : Nat) : t.hbm.place l = s.hbm.place l :=
  Hbm.place_congr a.lost a.prog a.cloveState l
theorem Spares.keyOf (a : Spares line s t) (slot : Nat) : keyOf t slot = Machine.keyOf s slot := by
  simp only [Machine.keyOf, a.boots, a.keys]
theorem Spares.cached (a : Spares line s t) : cached t line = Machine.cached s line := by
  simp only [Machine.cached, a.record]
end

section
variable {line old : Nat} (h : old ≠ line) (s : State)

theorem reportFailed_spares (line pa n : Nat) (s : State) : Spares line s (reportFailed pa n s) := by
  obtain ⟨f, e, h⟩ := reportFailed_changes pa n s
  rw [h]
  exact ⟨rfl, rfl, rfl, rfl, rfl, rfl, rfl, rfl, id, id⟩
theorem applyDelta_spares (line l : Nat) (s : State) : Spares line s (applyDelta l s) := by
  unfold applyDelta
  split
  · exact .refl line s
  · exact ⟨rfl, rfl, rfl, rfl, rfl, rfl, rfl, rfl, id, id⟩
theorem settleStripe_spares (line st : Nat) (s : State) : Spares line s (settleStripe st s) :=
  (Spares.fold (fun s l => applyDelta_spares line l s) _ s).trans ⟨rfl, rfl, rfl, rfl, rfl, rfl, rfl, rfl, id, id⟩
include h
theorem startWriteback_spares : Spares line s (startWriteback old s) := by
  unfold startWriteback
  split
  · exact .refl line s
  · split
    · exact .refl line s
    · split
      · exact .refl line s
      · refine (reportFailed_spares line old 128 s).trans ?_
        dsimp only
        have record (r : CacheRec) (c : List (Nat × CacheRec)) : look line (put old r c) = look line c := look_put_ne _ _ _ _ h
        have image (im : Image) (l : List (Nat × Image)) : look line (put old im l) = look line l := look_put_ne _ _ _ _ h
        split
        · exact ⟨rfl, rfl, rfl, rfl, record _ _, rfl, rfl, rfl, id, id⟩
        · exact ⟨rfl, rfl, rfl, rfl, record _ _, rfl, rfl, rfl, id, id⟩
        · split
          · exact ⟨rfl, rfl, rfl, image _ _, record _ _, rfl, rfl, rfl, id, id⟩
          · exact ⟨rfl, rfl, rfl, image _ _, record _ _, rfl, rfl, rfl, id, id⟩
theorem writebackLine_spares : Spares line s (writebackLine old s) := by
  unfold writebackLine
  refine .trans ?_ ((startWriteback_spares h _).trans (settleStripe_spares line _ _))
  split
  · exact settleStripe_spares line _ s
  · exact .refl line s
omit h in
/-- R88: breaking links makes none. -/
theorem breakLinks_spares (line l : Nat) (by' : Option Nat) (s : State) : Spares line s (breakLinks l by' s) := by
  refine ⟨rfl, rfl, rfl, rfl, rfl, rfl, rfl, rfl, fun hl => ?_, fun hv => ?_⟩
  · unfold breakLinks
    dsimp only
    split
    · exact hl
    · dsimp only
      split <;> [exact nofun; exact hl]
  · unfold breakLinks
    dsimp only
    split
    · exact hv
    · exact fun hm => hv (List.mem_filter.1 hm).1
theorem dropLine_spares : Spares line s (dropLine old s) :=
  .trans (t := { s with hbm := { s.hbm with cache := cut old s.hbm.cache } })
    ⟨rfl, rfl, rfl, rfl, look_cut_ne _ _ _ h, rfl, rfl, rfl, id, id⟩ (breakLinks_spares line old none _)
end

/-- A key that a list holds is one of its keys. -/
theorem mem_keys_look {β : Type} {k : Nat} {l : List (Nat × β)} (h : k ∈ l.map (·.1)) : (look k l).isSome = true := by
  induction l with
  | nil => exact absurd h (List.not_mem_nil)
  | cons e l ih =>
    simp only [look]
    split
    · rfl
    · exact ih (by simpa [show k ≠ e.1 from fun x => ‹¬e.1 = k› x.symm] using h)
/-- R86: the line that makes room is one that the cache holds. -/
theorem makeRoom_spares {line : Nat} {s : State} (missing : cached s line = false) : Spares line s (makeRoom line s) := by
  unfold makeRoom
  split
  · exact .refl line s
  · extract_lets set' old
    split
    · exact .refl line s
    · next full =>
      have victim : old ∈ set' := by
        have within : Config.victimWay s.hbm.evictions % 16 < set'.length := by omega
        simp only [old, List.getD_eq_getElem _ _ within]
        exact List.getElem_mem within
      have held : cached s old = true := mem_keys_look (List.mem_filter.1 victim).1
      have other : old ≠ line := fun e => by rw [e, missing] at held; exact nomatch held
      exact .trans (t := { s with hbm := { s.hbm with evictions := s.hbm.evictions + 1 } })
        ⟨rfl, rfl, rfl, rfl, rfl, rfl, rfl, rfl, id, id⟩ ((writebackLine_spares other _).trans (dropLine_spares other _))
theorem makeRoom_spare {s : State} (h : s.hbm.cache.length < 16) (line : Nat) : makeRoom line s = s := if_pos h

end Sys2Proof.Machine
end

section
namespace Sys2Proof.Machine

/-! Fills (R58, R62, R89, R92): what a fill does with a missing line, and which lines it brings in. -/

theorem lineOf_lineOf (a : Nat) : lineOf (lineOf a) = lineOf a := by
  unfold lineOf
  omega
/-- A line of HBM's errors are its stack's. -/
theorem arrayOf_line {a : Nat} (h : lineOf a < 0xF000000000) : arrayOf (lineOf a) = dataStack (lineOf a) := by
  have same : lineOf a / 128 * 128 = lineOf a := lineOf_lineOf a
  rw [arrayOf, if_pos h, same]

theorem Hbm.place_inService {hb : Hbm} (h : hb.lost = []) (line : Nat) : hb.place line = 0 := by simp only [Hbm.place, h]
theorem Hbm.stored_unrecoverable {hb : Hbm} {line : Nat} (h : hb.place line = 3) : hb.stored line = none := by
  simp only [Hbm.stored, h]
theorem Hbm.stored_lost {hb : Hbm} {line : Nat} (h : hb.place line = 1) : hb.stored line = some (hb.rebuilt line) := by
  simp only [Hbm.stored, h]
theorem Hbm.stored_inPlace {hb : Hbm} {line : Nat} (h : hb.place line = 0) : hb.stored line = some (hb.image line) := by
  simp only [Hbm.stored, h]
theorem Hbm.image_written {hb : Hbm} {line : Nat} {im : Image} (h : look line hb.images = some im) : hb.image line = im := by
  simp [Hbm.image, lookD, h]

/-- R93: a line in the cache under a key, its bytes to come. -/
def State.takesLine (line key : Nat) (s : State) : State :=
  { s with hbm := { s.hbm with cache := put line { key := key } s.hbm.cache } }
theorem cached_takesLine (line key : Nat) (s : State) : cached (s.takesLine line key) line = true := by
  simp [cached, State.takesLine]

section
variable {key line : Nat} {s : State} (missing : cached s line = false)
include missing

/-- R62: an unrecoverable line is poison. -/
theorem fillLine_unrecoverable (lost : s.hbm.place line = 3) : fillLine key line s =
    installLine line (List.replicate 4 (poisonBytes, some .poison)) ((makeRoom line s).takesLine line key) := by
  have stored := Hbm.stored_unrecoverable (((makeRoom_spares missing).place line).trans lost)
  simp [fillLine, missing, stored, State.takesLine]
/-- R424: a line that was never written reads as it did. -/
theorem fillLine_unwritten (there : s.hbm.place line = 0) {k : KeyPair} (hk : keyOf s key = some k)
    (image : look line s.hbm.images = none) : fillLine key line s = (makeRoom line s).takesLine line key := by
  have room := makeRoom_spares missing
  have there' := (room.place line).trans there
  simp [fillLine, missing, Hbm.stored_inPlace there', (room.keyOf key).trans hk, there', room.image.trans image, State.takesLine]
/-- R92: a line's stored image is decoded. -/
theorem fillLine_written (there : s.hbm.place line = 0) {k : KeyPair} (hk : keyOf s key = some k) {im : Image}
    (image : look line s.hbm.images = some im) : fillLine key line s =
      reportTag line im (installLine line (decodeImage k line im) ((makeRoom line s).takesLine line key)) := by
  have room := makeRoom_spares missing
  have there' := (room.place line).trans there
  have image' := room.image.trans image
  simp [fillLine, missing, Hbm.stored_inPlace there', (room.keyOf key).trans hk, there', image', Hbm.image_written image',
    State.takesLine]
/-- R60, R92: a line of the lost stack is decoded from its stripe. -/
theorem fillLine_lost (lost : s.hbm.place line = 1) {k : KeyPair} (hk : keyOf s key = some k) : fillLine key line s =
    reportTag line ((makeRoom line s).hbm.rebuilt line)
      (installLine line (decodeImage k line ((makeRoom line s).hbm.rebuilt line)) ((makeRoom line s).takesLine line key)) := by
  have room := makeRoom_spares missing
  have lost' := (room.place line).trans lost
  simp [fillLine, missing, Hbm.stored_lost lost', (room.keyOf key).trans hk, lost', State.takesLine]

variable (there : s.hbm.place line = 0) {k : KeyPair} (hk : keyOf s key = some k) {im : Image}
  (image : look line s.hbm.images = some im)
include there hk image

/-- What the fill of a line with a stored image leaves: the line cached, its image, and the counts of corrected errors. -/
theorem fillLine_leaves : cached (fillLine key line s) line = true ∧ look line (fillLine key line s).hbm.images = some im ∧
    (fillLine key line s).dev.mgmt.counts = s.dev.mgmt.counts := by
  have room := makeRoom_spares missing
  rw [fillLine_written missing there hk image]
  generalize makeRoom line s = u at room
  obtain ⟨m, f, installed⟩ := installLine_changes line (decodeImage k line im) (u.takesLine line key)
  obtain ⟨e, reported⟩ := reportTag_changes line im (installLine line (decodeImage k line im) (u.takesLine line key))
  rw [reported, installed]
  exact ⟨cached_takesLine line key u, room.image.trans image, room.counts⟩
/-- R92: an image of the unrecoverable tag fills the line with poison, and is not counted again. -/
theorem fillLine_poison (tag : 15 ≤ im.tag) : (∀ n < 4, look (line + 32 * n) (fillLine key line s).flaws = some .poison) ∧
    (s.hbm.cache.length < 16 → (fillLine key line s).dev = s.dev) := by
  rw [fillLine_written missing there hk image, reportTag_listed (.inr tag), decodeImage_poison k line (by omega)]
  refine ⟨fun n hn => installLine_poison _ _ hn, fun spare => ?_⟩
  rw [installLine_dev, makeRoom_spare spare]
  rfl
end

/-- R58, R62: what a repair changes. -/
theorem storeImage_inPlace {line : Nat} (im : Image) {s : State} (h : s.hbm.place line = 0) : ∃ p, storeImage line im s =
    { s with hbm := { s.hbm with images := put line im s.hbm.images, parity := p } } := by
  unfold storeImage
  simp only [h]
  split
  · exact ⟨_, rfl⟩
  · exact ⟨_, rfl⟩
/-- R386: an error that is not marked is counted for its array. -/
theorem countCorrected_counts (array : Nat) (s : State) : ∃ d, countCorrected array false s = { s with dev := d } ∧
    d.mgmt.counts = put array (lookD 0 array s.dev.mgmt.counts + 1) s.dev.mgmt.counts ∧ d.mgmt.boots = s.dev.mgmt.boots ∧
      d.keys = s.dev.keys := by
  unfold countCorrected
  simp only [Bool.false_and, Bool.false_eq_true, if_false]
  split
  · exact ⟨_, rfl, rfl, rfl, rfl⟩
  · exact ⟨_, rfl, rfl, rfl, rfl⟩

section
variable {key line : Nat} {s : State} (missing : cached s line = false) (lost : s.hbm.lost = []) {k : KeyPair}
  (hk : keyOf s key = some k)
include missing lost hk

/-- R58: an uncorrectable error that the stripe repairs. -/
theorem fillLine_repaired :
    let t := fillLine key line (repairLine line false s)
    cached t line = true ∧ look line t.hbm.images = some (s.hbm.rebuilt line) ∧
      look (dataStack line) t.dev.mgmt.counts = some (lookD 0 (dataStack line) s.dev.mgmt.counts + 1) := by
  have there := Hbm.place_inService lost line
  obtain ⟨d, counted, counts, boots, keys⟩ := countCorrected_counts (dataStack line) s
  obtain ⟨p, stored⟩ := storeImage_inPlace (s := { s with dev := d }) (s.hbm.rebuilt line) there
  have repaired : repairLine line false s = { s with
      dev := d, hbm := { s.hbm with images := put line (s.hbm.rebuilt line) s.hbm.images, parity := p } } := by
    simp only [repairLine, lost, List.isEmpty_nil, Bool.not_false, Bool.and_self, if_true, counted, stored]
  have image : look line (repairLine line false s).hbm.images = some (s.hbm.rebuilt line) := by
    rw [repaired]
    exact look_put_self _ _ _
  have missing' : cached (repairLine line false s) line = false := by rw [repaired]; exact missing
  have there' : (repairLine line false s).hbm.place line = 0 := by rw [repaired]; exact there
  have hk' : keyOf (repairLine line false s) key = some k := by
    rw [repaired, ← hk]
    simp only [keyOf, boots, keys]
  obtain ⟨held, same, kept⟩ := fillLine_leaves missing' there' hk' image
  refine ⟨held, same, ?_⟩
  rw [kept, repaired]
  exact counts ▸ look_put_self _ _ _
/-- R62, R390: a second error makes the line poison, and its stack counts it. -/
theorem fillLine_unrepaired :
    let t := fillLine key line (repairLine line true s)
    cached t line = true ∧ (s.hbm.cache.length < 16 →
      look (arrayOf line) t.dev.mgmt.uncorrectable = some (lookD 0 (arrayOf line) s.dev.mgmt.uncorrectable + 1)) ∧
      ∀ n < 4, look (line + 32 * n) t.flaws = some .poison := by
  have there := Hbm.place_inService lost line
  obtain ⟨p, stored⟩ := storeImage_inPlace (s := s) { tag := 15 } there
  have poisoned : repairLine line true s = countUncorrectable (arrayOf line) { s with
      hbm := { s.hbm with images := put line { tag := 15 } s.hbm.images, parity := p } } := by
    simp only [repairLine, Bool.not_true, Bool.and_false, Bool.false_eq_true, if_false, stored]
  have image : look line (repairLine line true s).hbm.images = some { tag := 15 } := by
    rw [poisoned]
    exact look_put_self _ _ _
  have missing' : cached (repairLine line true s) line = false := by rw [poisoned]; exact missing
  have there' : (repairLine line true s).hbm.place line = 0 := by rw [poisoned]; exact there
  have hk' : keyOf (repairLine line true s) key = some k := by rw [poisoned]; exact hk
  obtain ⟨poison, same⟩ := fillLine_poison missing' there' hk' image (Nat.le_refl 15)
  refine ⟨(fillLine_leaves missing' there' hk' image).1, fun spare => ?_, poison⟩
  rw [same (by rw [poisoned]; exact spare), poisoned]
  exact look_put_self _ _ _
end

/-- R89: which lines neither an access on its way nor a prefetch brings in. -/
theorem mayFill_false_iff (line : Nat) (s : State) : mayFill line s = false ↔ lineWanted line s = false ∧
    ((∃ x ∈ lineTypes line s, x = 2 ∨ x = 3) ∨
      ((∀ x ∈ lineTypes line s, 1 < x) ∧ ¬(s.h.live = true ∧ s.h.mode = .machine))) := by
  simp only [mayFill, Bool.or_eq_false_iff, Bool.and_eq_false_iff, Bool.not_eq_false', List.any_eq_true, List.any_eq_false,
    Bool.or_eq_true, beq_iff_eq, decide_eq_true_eq, Nat.not_le, beq_eq_false_iff_ne, ne_eq, not_and_or, Bool.not_eq_true]

section
variable {o : FillArgs} {s : State}

theorem lineFill_ignored (h : cached s (lineOf o.line) = true ∨ mayFill (lineOf o.line) s = false ∨ keyOf s o.key = none) :
    exec (.lineFill o) s = .next s := by
  rw [exec_lineFill, execLineFill, if_pos]
  rcases h with h | h | h <;> simp [h]
/-- R57: a rebuild waits for its stripe. -/
theorem lineFill_waits (h : o.error = true ∨ s.hbm.place (lineOf o.line) = 1)
    (pending : s.hbm.stripePending (stripeOf (lineOf o.line)) = true) : exec (.lineFill o) s = .next s := by
  rw [exec_lineFill, execLineFill]
  split
  · rfl
  · rw [if_pos]
    rcases h with h | h <;> simp [h, pending]

variable (inside : lineOf o.line < 0xF000000000) (missing : cached s (lineOf o.line) = false)
  (may : mayFill (lineOf o.line) s = true) {k : KeyPair} (hk : keyOf s o.key = some k)
include inside missing may hk

theorem lineFill_fills
    (free : (o.error = false ∧ s.hbm.place (lineOf o.line) ≠ 1) ∨ s.hbm.stripePending (stripeOf (lineOf o.line)) = false) :
    exec (.lineFill o) s = .next (fillLine o.key (lineOf o.line)
      (if o.error then repairLine (lineOf o.line) o.second s else s)) := by
  rw [exec_lineFill, execLineFill, if_neg (by simp [targetOf_hbm _ inside, missing, may, hk]), if_neg]
  rcases free with ⟨he, hp⟩ | h
  · simp [he, hp]
  · simp [h]
theorem lineFill_unrecoverable (sound : o.error = false) (lost : s.hbm.place (lineOf o.line) = 3) :
    exec (.lineFill o) s = .next (installLine (lineOf o.line) (List.replicate 4 (poisonBytes, some .poison))
      ((makeRoom (lineOf o.line) s).takesLine (lineOf o.line) o.key)) := by
  rw [lineFill_fills inside missing may hk (.inl ⟨sound, by rw [lost]; decide⟩), sound, if_neg Bool.false_ne_true,
    fillLine_unrecoverable missing lost]
theorem lineFill_lost (sound : o.error = false) (lost : s.hbm.place (lineOf o.line) = 1)
    (free : s.hbm.stripePending (stripeOf (lineOf o.line)) = false)
    (tag : ((makeRoom (lineOf o.line) s).hbm.rebuilt (lineOf o.line)).tag < 9) :
    exec (.lineFill o) s = .next (installLine (lineOf o.line)
      (decodeImage k (lineOf o.line) ((makeRoom (lineOf o.line) s).hbm.rebuilt (lineOf o.line)))
      ((makeRoom (lineOf o.line) s).takesLine (lineOf o.line) o.key)) := by
  rw [lineFill_fills inside missing may hk (.inr free), sound, if_neg Bool.false_ne_true, fillLine_lost missing lost hk,
    reportTag_listed (.inl tag)]

variable (lost : s.hbm.lost = [])
include lost

theorem lineFill_sound (sound : o.error = false) : exec (.lineFill o) s = .next (fillLine o.key (lineOf o.line) s) := by
  rw [lineFill_fills inside missing may hk (.inl ⟨sound, by rw [Hbm.place_inService lost]; decide⟩), sound,
    if_neg Bool.false_ne_true]
theorem lineFill_unwritten (sound : o.error = false)
    (image : look (lineOf o.line) (makeRoom (lineOf o.line) s).hbm.images = none) :
    exec (.lineFill o) s = .next ((makeRoom (lineOf o.line) s).takesLine (lineOf o.line) o.key) := by
  rw [lineFill_sound inside missing may hk lost sound, fillLine_unwritten missing (Hbm.place_inService lost _) hk
    ((makeRoom_spares missing).image.symm.trans image)]
theorem lineFill_written (sound : o.error = false) {im : Image}
    (image : look (lineOf o.line) (makeRoom (lineOf o.line) s).hbm.images = some im) (tag : im.tag < 9) :
    exec (.lineFill o) s = .next (installLine (lineOf o.line) (decodeImage k (lineOf o.line) im)
      ((makeRoom (lineOf o.line) s).takesLine (lineOf o.line) o.key)) := by
  rw [lineFill_sound inside missing may hk lost sound, fillLine_written missing (Hbm.place_inService lost _) hk
    ((makeRoom_spares missing).image.symm.trans image), reportTag_listed (.inl tag)]
omit lost in
theorem lineFill_erring (erring : o.error = true) {twice : Bool} (second : o.second = twice)
    (free : s.hbm.stripePending (stripeOf (lineOf o.line)) = false) :
    exec (.lineFill o) s = .next (fillLine o.key (lineOf o.line) (repairLine (lineOf o.line) twice s)) := by
  rw [lineFill_fills inside missing may hk (.inr free), erring, if_pos rfl, second]
end

end Sys2Proof.Machine
end

section
namespace Sys2Proof.Machine

/-! Writebacks and their parity (R56, R57, R60, R88), lost stacks and the rebuild (R59 to R63). -/

/-- R92: the image that the writeback of a dirty line forms. -/
def imageNow (k : KeyPair) (line : Nat) (r : CacheRec) (s : State) : Image :=
  imageOf k line r.z (Memory.readBytes s.mem line 128) fun a => look a (reportFailed line 128 s).flaws

theorem imageNow_reported (k : KeyPair) (line : Nat) (r : CacheRec) (s : State) : imageNow k line r s =
    imageOf k line r.z (Memory.readBytes (reportFailed line 128 s).mem line 128) fun a => look a (reportFailed line 128 s).flaws := by
  rw [imageNow, reportFailed_mem]
theorem cached_of_look {line : Nat} {s : State} {r : CacheRec} (h : look line s.hbm.cache = some r) : cached s line = true := by
  simp [cached, h]

section
variable {line : Nat} {s : State}

theorem startWriteback_missing (h : cached s line = false) : startWriteback line s = s := by
  have none : look line s.hbm.cache = none := by simpa [cached] using h
  simp only [startWriteback, none]

variable {r : CacheRec} (held : look line s.hbm.cache = some r)
include held

theorem startWriteback_clean (clean : r.dirty = false) : startWriteback line s = s := by
  simp only [startWriteback, held, clean, Bool.not_false, if_true]
theorem startWriteback_keyless (h : keyOf s r.key = none) : startWriteback line s = s := by
  simp only [startWriteback, held, h]
  split <;> rfl

variable (dirty : r.dirty = true) {k : KeyPair} (hk : keyOf s r.key = some k)
include dirty hk

/-- R56: the image takes its place, and the delta is sent. -/
theorem startWriteback_stores (lost : s.hbm.lost = []) (normal : s.hbm.cloveState = 0) :
    startWriteback line s = { reportFailed line 128 s with hbm := { s.hbm with
      cache := put line { r with dirty := false } s.hbm.cache, images := put line (imageNow k line r s) s.hbm.images
      deltas := s.hbm.deltas ++ [(line, xorImage (s.hbm.image line) (imageNow k line r s))]
      pending := if s.hbm.pending.contains line then s.hbm.pending else s.hbm.pending ++ [line] } } := by
  have there (c : List (Nat × CacheRec)) : ({ s.hbm with cache := c } : Hbm).place line = 0 := Hbm.place_inService lost line
  have live (c : List (Nat × CacheRec)) (i : List (Nat × Image)) :
      ({ s.hbm with cache := c, images := i } : Hbm).parityLive (stripeOf line) = true := by
    simp [Hbm.parityLive, Hbm.remapped, lost, normal]
  simp only [startWriteback, held, dirty, hk, reportFailed_hbm, reportFailed_mem, there, live, Bool.not_true, Bool.false_eq_true,
    if_true, if_false]
  rfl
/-- R60: a line of the lost stack goes to the parity alone. -/
theorem startWriteback_parityOnly (lost : s.hbm.place line = 1) :
    startWriteback line s = { reportFailed line 128 s with hbm := { s.hbm with
      cache := put line { r with dirty := false } s.hbm.cache
      parity := put (stripeOf line) (((stripeLines (stripeOf line)).filter (· != line)).foldl
        (fun a l => xorImage a (s.hbm.image l)) (imageNow k line r s)) s.hbm.parity } } := by
  have there (c : List (Nat × CacheRec)) : ({ s.hbm with cache := c } : Hbm).place line = 1 := lost
  simp only [startWriteback, held, dirty, hk, reportFailed_hbm, reportFailed_mem, there, Bool.not_true, Bool.false_eq_true,
    if_false]
  rfl
end

section
variable {o : WritebackArgs} {s : State} (free : s.hbm.place (lineOf o.line) ≠ 1)
include free

/-- R88: a line that is evicted leaves the cache, unless it is dirty still. -/
theorem lineWriteback_clean {t : State} {r : CacheRec} (started : startWriteback (lineOf o.line) s = t)
    (held : look (lineOf o.line) t.hbm.cache = some r) (clean : r.dirty = false) :
    exec (.lineWriteback o) s = .next (if o.evict then dropLine (lineOf o.line) t else t) := by
  simp [exec_lineWriteback, execLineWriteback, writebackEvent, free, started, held, clean]
theorem lineWriteback_stays (started : startWriteback (lineOf o.line) s = s)
    (stays : ∀ r, look (lineOf o.line) s.hbm.cache = some r → r.dirty = true) : exec (.lineWriteback o) s = .next s := by
  have dirty : ((look (lineOf o.line) s.hbm.cache).map fun r => r.dirty).getD true = true := by
    cases h : look (lineOf o.line) s.hbm.cache with
    | none => rfl
    | some r => exact stays r h
  simp [exec_lineWriteback, execLineWriteback, writebackEvent, free, started, dirty]
end

section
variable {line : Nat} {s : State}

theorem applyDelta_none (h : look line s.hbm.deltas = none) : applyDelta line s = s := by simp only [applyDelta, h]
theorem applyDelta_sent {d : Image} (h : look line s.hbm.deltas = some d) : applyDelta line s = { s with hbm := { s.hbm with
    deltas := s.hbm.deltas.eraseP fun e => e.1 == line
    parity := put (stripeOf line) (xorImage (s.hbm.parityOf (stripeOf line)) d) s.hbm.parity } } := by
  simp only [applyDelta, h]
theorem endWriteback_applied (h : look line s.hbm.deltas = none) :
    endWriteback line s = { s with hbm := { s.hbm with pending := s.hbm.pending.filter (· != line) } } := by
  simp [endWriteback, h]
theorem endWriteback_sent {d : Image} (h : look line s.hbm.deltas = some d) : endWriteback line s = s := by
  simp [endWriteback, h]
end

section
variable {line key : Nat} {s : State}

theorem breakLinks_breaks (line : Nat) (s : State) :
    (breakLinks line none s).h.link ≠ some line ∧ line ∉ (breakLinks line none s).h.vlink := by
  constructor
  · simp [breakLinks]
  · simp [breakLinks]
theorem reconstructLine_idle (h : s.hbm.place line ≠ 1 ∨ s.hbm.stripePending (stripeOf line) = true) :
    reconstructLine line key s = s := by
  rw [reconstructLine, if_pos]
  simpa using h

variable (lost : s.hbm.place line = 1) (free : s.hbm.stripePending (stripeOf line) = false)
include lost free

theorem reconstructLine_cached (held : cached s line = true) : reconstructLine line key s = startWriteback line s := by
  simp [reconstructLine, lost, free, held]
/-- R57, R88: a missing line is rebuilt into the cache, its links broken. -/
theorem reconstructLine_missing (missing : cached s line = false) {k : KeyPair} (hk : keyOf s key = some k)
    (tag : ((makeRoom line (breakLinks line none s)).hbm.rebuilt line).tag < 9) : reconstructLine line key s =
      installLine line (decodeImage k line ((makeRoom line (breakLinks line none s)).hbm.rebuilt line))
        ((makeRoom line (breakLinks line none s)).takesLine line key) := by
  have filled : reconstructLine line key s = fillLine key line (breakLinks line none s) := by
    simp [reconstructLine, lost, free, missing, hk]
  rw [filled, fillLine_lost (s := breakLinks line none s) missing lost hk, reportTag_listed (.inl tag)]
end

section
variable {x cause : Nat} {s : State}

theorem loseStack_again (h : x ∈ s.hbm.lost) : loseStack x cause s = s := by simp [loseStack, h]
theorem loseStack_first (h : s.hbm.lost = []) : loseStack x cause s =
    setClove 1 { s with hbm := { s.hbm with lost := [x], prog := 0, cause := cause } } := by simp [loseStack, h]
theorem machineCheck_absent (h : hartAt s s.dev.mgmt.mgtgt.toNat = none) : machineCheck s = raiseMsix 2 s := by
  simp only [machineCheck, h]
/-- R62: with a second stack lost, memory has failed. -/
theorem loseStack_second {y : Nat} (h : s.hbm.lost = [y]) (other : y ≠ x) (once : s.hbm.cloveState ≠ 3)
    (absent : hartAt s s.dev.mgmt.mgtgt.toNat = none) :
    loseStack x cause s = raiseMsix 2 (setClove 3 { s with hbm := { s.hbm with lost := [y, x] } }) := by
  have fails : loseStack x cause s = machineCheck (setClove 3 { s with hbm := { s.hbm with lost := [y, x] } }) := by
    simp [loseStack, h, other.symm, once]
  exact fails.trans (machineCheck_absent absent)

theorem stackLost_loses (o : StackArgs) (inside : o.stack < 16) (h : 1 ≤ o.cause) (h' : o.cause ≤ 4) (s : State) :
    exec (.stackLost o) s = .next (loseStack o.stack o.cause s) := by
  rw [exec_stackLost, execStackLost, if_pos ⟨h, h'⟩, Nat.mod_eq_of_lt inside]
end

/-- R61: the lost stack's line of a stripe in the place of its parity. -/
def State.remapsStripe (x : Nat) (s : State) : State :=
  match (stripeLines s.hbm.prog).find? fun l => dataStack l == x with
  | none => s
  | some l => breakLinks l none { s with hbm := { s.hbm with images := put l (s.hbm.rebuilt l) s.hbm.images } }

section
variable {s : State}

theorem rebuildStripe_idle (h : s.hbm.cloveState ≠ 1) : rebuildStripe s = s := if_pos h

variable (degraded : s.hbm.cloveState = 1) {x : Nat} (lost : s.hbm.lost = [x])
include degraded lost

theorem rebuildStripe_waits (pending : s.hbm.stripePending s.hbm.prog = true) : rebuildStripe s = s := by
  simp [rebuildStripe, degraded, lost, pending]

theorem rebuildStripe_remaps (free : s.hbm.stripePending s.hbm.prog = false) :
    let t : State := { s.remapsStripe x with hbm := { (s.remapsStripe x).hbm with prog := s.hbm.prog + 1 } }
    rebuildStripe s = if s.hbm.prog + 1 = 2 ^ 29 then setClove 2 t else t := by
  rw [rebuildStripe, if_neg (not_not.2 degraded)]
  split
  · next y only =>
    obtain rfl : y = x := List.head_eq_of_cons_eq (only.symm.trans lost)
    rw [if_neg (Bool.eq_false_iff.1 free)]
    rfl
  · next others => exact absurd lost (others x)
end

section
variable {s : State} {x : Nat}

theorem remapsStripe_none (h : ((stripeLines s.hbm.prog).find? fun l => dataStack l == x) = none) : s.remapsStripe x = s := by
  simp only [State.remapsStripe, h]
theorem remapsStripe_some {l : Nat} (h : ((stripeLines s.hbm.prog).find? fun l => dataStack l == x) = some l) :
    s.remapsStripe x =
      breakLinks l none { s with hbm := { s.hbm with images := put l (s.hbm.rebuilt l) s.hbm.images } } := by
  simp only [State.remapsStripe, h]
/-- R61: remapping a stripe leaves the memory seen and the device. -/
theorem remapsStripe_leaves (s : State) (x : Nat) : (s.remapsStripe x).mem = s.mem ∧ (s.remapsStripe x).dev = s.dev := by
  unfold State.remapsStripe
  split
  · exact ⟨rfl, rfl⟩
  · exact ⟨rfl, rfl⟩
end

end Sys2Proof.Machine
end

section
namespace Sys2Proof.Machine

/-- Settles O51, by the rules of each event of memory. -/
theorem memoryEvents : Obligations.MemoryEvents := by
  unfold Obligations.MemoryEvents
  refine ⟨fun o s => ?_, fun s off n aligned size => ?_, fun i tag bs bad s hi => answer_local hi tag bs bad s, fun o s => ?_,
    fun s pa => ?_, fun o s => ?_, fun o s lost normal => ?_, fun o s => ?_, fun o s k => ?_, fun o s inside => ?_, fun s => ?_⟩
  · intro c reply
    have run {t : State} (h : readRequest o s = t) : exec (.memoryReadRequest o) s = .next t := congrArg Host.Outcome.next h
    refine ⟨fun h => run (readRequest_bar h), fun h away => run (readRequest_unreachable h away), fun h near => ⟨?_, ?_, ?_⟩⟩
    · exact fun s1 bs bad read => run (readRequest_served h near read)
    · intro w hw line some sector inside allowed key
      exact run (readRequest_kept h near (physRead_held rfl (Nat.pos_of_ne_zero some) sector inside allowed key
        (heldOver_of_mem hw line (Nat.pos_of_ne_zero some))))
    · exact fun e a refused he => run (readRequest_refused h near refused he)
  · refine ⟨fun h h' => ?_, fun h h' => ?_, fun h h' => ?_, fun h h' => ?_⟩
    · refine barRead_register (r := .clovest) ?_ aligned size
      rw [barTarget_above (by omega), if_neg (by omega), if_neg (by omega), if_pos ⟨h, h'⟩]
    · refine barRead_register (r := .mbdb) ?_ aligned size
      rw [barTarget_above h, if_pos h']
    · refine barRead_register (r := .hwkey) ?_ aligned size
      rw [barTarget_above (by omega), if_neg (by omega), if_pos ⟨h, h'⟩]
    · have gap : barTarget off = .reserved := by
        rw [barTarget_above (by omega), if_neg (by omega), if_neg (by omega), if_neg (by omega)]
      simp only [barRead, gap]
  · intro c reply
    have run {t : State} (h : writeRequest o s = t) : exec (.memoryWriteRequest o) s = .next t := congrArg Host.Outcome.next h
    refine ⟨fun away => run (writeRequest_unreachable away), fun near => ⟨?_, ?_, ?_⟩⟩
    · exact fun s1 bad written performed => run (writeRequest_performed near written performed)
    · intro m moving some sector inside allowed key
      exact run (writeRequest_held near (physWrite_migrating moving rfl some sector inside allowed key) rfl)
    · exact fun e a refused he => run (writeRequest_refused near refused he)
  · intro sec t
    refine ⟨fun failed => ?_, reportFailed_sound⟩
    have reported : t = countUncorrectable (arrayOf sec) { s with flaws := put sec .poison s.flaws } := reportFailed_failed failed
    rw [reported]
    exact ⟨look_put_self _ _ _, rfl, rfl⟩
  · intro line u s1
    refine ⟨mayFill_false_iff line s, lineFill_ignored, fun inside missing may k hk => ⟨?_, ?_, fun lost => ⟨?_, ?_, ?_, ?_, ?_⟩⟩⟩
    · exact fun sound lost => lineFill_unrecoverable inside missing may hk sound lost
    · exact fun sound lost => ⟨lineFill_waits (.inr lost), lineFill_lost inside missing may hk sound lost⟩
    · exact fun sound image => lineFill_unwritten inside missing may hk lost sound image
    · exact fun im sound image tag => lineFill_written inside missing may hk lost sound image tag
    · exact fun erring => lineFill_waits (.inl erring)
    · exact fun erring free once =>
        ⟨_, lineFill_erring inside missing may hk erring once free, fillLine_repaired missing lost hk⟩
    · intro erring free twice
      have stack : arrayOf line = dataStack line := arrayOf_line inside
      exact ⟨_, lineFill_erring inside missing may hk erring twice free, stack ▸ fillLine_unrepaired missing lost hk⟩
  · intro line
    have free : s.hbm.place line ≠ 1 := by rw [Hbm.place_inService lost]; decide
    refine ⟨fun missing => ?_, fun r held => ⟨fun clean => ?_, fun dirty key => ?_, fun k dirty hk => ?_⟩⟩
    · exact lineWriteback_stays free (startWriteback_missing missing) fun r held =>
        absurd (cached_of_look held) (Bool.eq_false_iff.1 missing)
    · exact lineWriteback_clean free (startWriteback_clean held clean) held clean
    · refine lineWriteback_stays free (startWriteback_keyless held key) fun r' held' => ?_
      obtain rfl : r = r' := Option.some.inj (held.symm.trans held')
      exact dirty
    · exact lineWriteback_clean free (startWriteback_stores held dirty hk lost normal) (look_put_self _ _ _) rfl
  · intro line st
    have applied {t : State} (h : applyDelta line s = t) : exec (.parityDelta o) s = .next t := congrArg Host.Outcome.next h
    have acknowledged {t : State} (h : endWriteback line s = t) : exec (.writebackComplete o) s = .next t :=
      congrArg Host.Outcome.next h
    exact ⟨fun none => ⟨applied (applyDelta_none none), acknowledged (endWriteback_applied none)⟩,
      fun d sent => ⟨applied (applyDelta_sent sent), acknowledged (endWriteback_sent sent)⟩⟩
  · intro line
    have run {t : State} (h : reconstructLine line o.key s = t) : exec (.reconstructionHold o) s = .next t :=
      congrArg Host.Outcome.next h
    refine ⟨fun h => run (reconstructLine_idle (.inl h)), fun _ h => run (reconstructLine_idle (.inr h)), ?_, ?_⟩
    · intro lost free missing hk t
      have broken := breakLinks_breaks line s
      have room : Spares line (breakLinks line none s) t := makeRoom_spares missing
      exact ⟨fun tag => run (reconstructLine_missing lost free missing hk tag), room.link broken.1, room.vlink broken.2⟩
    · intro r kr lost free held dirty hk u im
      refine run ?_
      rw [reconstructLine_cached lost free (cached_of_look held), startWriteback_parityOnly held dirty hk lost,
        imageNow_reported]
  · refine ⟨fun h => ?_, fun h h' => ⟨fun again => ?_, fun none => ?_, fun y one other once absent => ?_⟩⟩
    · rw [exec_stackLost, execStackLost, if_neg h]
    · rw [stackLost_loses o inside h h', loseStack_again again]
    · rw [stackLost_loses o inside h h', loseStack_first none]
      rfl
    · rw [stackLost_loses o inside h h', loseStack_second one other once absent]
      rfl
  · have run {t : State} (h : rebuildStripe s = t) : exec .rebuildStripe s = .next t := congrArg Host.Outcome.next h
    refine ⟨fun h => run (rebuildStripe_idle h), fun x degraded lost => ?_⟩
    intro st
    have remaps := rebuildStripe_remaps degraded lost
    have leaves := remapsStripe_leaves s x
    refine ⟨fun pending => run (rebuildStripe_waits degraded lost pending), fun free more => ⟨fun none => run ?_, fun l found => ?_⟩,
      fun free last => ?_⟩
    · rw [remaps free, if_neg more, remapsStripe_none none]
    · refine ⟨_, run ((remaps free).trans (if_neg more)), ?_⟩
      rw [remapsStripe_some found]
      exact ⟨rfl, look_put_self _ _ _, degraded, (breakLinks_breaks l _).1, rfl, rfl⟩
    · refine ⟨_, run ((remaps free).trans (if_pos last)), rfl, rfl,
        congrArg (fun d : Device => d.msix ++ [1]) leaves.2, leaves.1⟩
end Sys2Proof.Machine
end

section
namespace Sys2Proof.Machine

/-! What reset leaves (R424). -/

/-- R70: an empty window allows nothing. -/
theorem windowAllows_zero (granule : Nat) (rd wr : Bool) : windowAllows 0 granule rd wr = false := rfl

/-- R70: where every window is empty, the management controller alone is admitted. -/
theorem accessAllowed_emptyTable {s : State} (h : s.dev.access = []) (i pa : Nat) (rd wr : Bool) :
    accessAllowed s i pa rd wr = (i == 0x3F0) := by
  have closed : ((List.range 8).any fun w => windowAllows (lookD 0 (8 * i + w) s.dev.access) (pa / 65536) rd wr) = false := by
    rw [h]
    exact List.any_eq_false.2 fun _ _ => Bool.eq_false_iff.1 (windowAllows_zero _ _ _)
  rw [accessAllowed, closed, Bool.or_false]
/-- R325: a queue that nothing has written is as reset leaves it. -/
theorem queueOf_reset (q : Nat) : queueOf State.reset q = {} := rfl
/-- R396: a link that never came up. -/
theorem linkOf_reset_down (i : Nat) : (linkOf State.reset i).up = false := by
  unfold linkOf
  by_cases hi : i < 18 <;> simp [State.reset, hi]

/-- Settles O59, field by field: reset leaves each register's own reset value, and empty tables answer for every key. -/
theorem resetValues : Obligations.ResetValues := by
  unfold Obligations.ResetValues
  refine ⟨rfl, rfl, rfl, rfl, fun _ _ => rfl, fun q => ?_, rfl, by decide, rfl, rfl, rfl, rfl, fun k hk => ?_,
    accessAllowed_emptyTable rfl, fun c w hw => ?_, rfl, rfl, linkOf_reset_down, rfl, rfl, rfl⟩
  · rw [queueOf_reset]
    exact ⟨rfl, rfl, rfl, rfl, rfl, rfl, rfl⟩
  · exact if_neg hk.ne'
  · exact Vector.getElem?_replicate_of_lt hw
end Sys2Proof.Machine
end

section
namespace Sys2Proof.Machine

/-! The traps of scalar memory words (R34, R72 to R77, R135, R136): a crew computer's, a failed translation's, and an
A-format word's at an unaligned address. -/

/-- What R35 needs to know of a scalar memory word: any hart but a crew computer may run it, in every mode, and nothing guards
it. -/
structure ScalarMemory (i : Info) : Prop where
  major : i.major < 0x14
  guard : i.guard = .none
  level : i.level = .user
  address : i.address = true

theorem lInfo_scalarMemory {major size : Nat} {o : LArgs} {dest : DestKind} {reads : List (BitVec 5)} (h : major < 0x14) :
    ScalarMemory (lInfo major size o dest reads) := ⟨h, rfl, rfl, rfl⟩
theorem aInfo_scalarMemory {func : Nat} {o : AArgs} {dest : DestKind} {reads : List (BitVec 5)} :
    ScalarMemory (aInfo func o dest reads) := ⟨(by decide : 0x0F < 0x14), rfl, rfl, rfl⟩

section
variable {i : Info} {s : State}

theorem ScalarMemory.checks (hi : ScalarMemory i) (hrole : s.h.role ≠ .computer) : Checks i (pure ()) (pure ()) s :=
  ⟨majorAllowed_scalar _ _ hi.major, rfl, by simp [hi.level, modeNum], by simp [hrole], rfl⟩

/-- R34, R35: a crew computer's scalar memory word fails its checks. -/
theorem issueChecks_role (hi : ScalarMemory i) (hr : s.Ready) (hrole : s.h.role = .computer) :
    issueChecks i (pure ()) (pure ()) (pure ()) s = .error (.trap cRole 0) s := by
  have uncounted : s.h.ops.any (fun o => o.counter == 7) = false := by simp [hr.ops]
  have level : decide (modeNum i.level ≤ modeNum s.h.mode) = true := by simp [hi.level, modeNum]
  have refused : (!(i.address && s.h.role == .computer)) = false := by simp [hi.address, hrole]
  unfold issueChecks
  simp only [act_bind, modH_apply, getH_apply, uncounted, Bool.false_eq_true, if_false,
    majorAllowed_scalar s.h.role _ hi.major, require_true, act_pure, pairAllowed_of_none _ i hr.pfx,
    Hart.copyReg_of_none _ hr.pfx, Option.isSome_none, Bool.false_and, level, refused, require_false,
    Hart.land_of_empty _ hr.pend]
/-- R34: a crew computer's scalar memory word takes ROLE, with the word as TVAL (R8). -/
theorem issue_role {body : Act Flow} (hi : ScalarMemory i) (hr : s.Ready) (hrole : s.h.role = .computer) :
    issue i body s = .next (State.trapped 0x04 (word i.word) s.h.pc s) := by
  simp only [issue, hr.live, issueAct_unlatched body hr.paired, act_bind, issueChecks_role hi hr hrole, deliver,
    wordTrap_plain _ _ _ hr.pfx]
  rfl
/-- R366: a scalar memory word whose work traps before it has changed anything. -/
theorem issue_traps {body : Act Unit} {c : Nat} {v : Word} (hi : ScalarMemory i) (hr : s.Ready)
    (hrole : s.h.role ≠ .computer) (hb : body s = .error (.trap c v) s) (hc : 4 < c) :
    issue i (andNext body) s = .next (State.trapped c v s.h.pc s) := by
  have guard : s.h.guardHolds i.guard = true := by rw [hi.guard, guardHolds_none _ hr.pfx]
  have access : (decide (1 ≤ c) && decide (c ≤ 4)) = false := by simp [hc]
  rw [issue_error _ _ _ _ _ s s _ hr (hi.checks hrole) guard (andNext_error _ _ _ _ hb) nofun, deliver,
    wordTrap_plain _ _ _ hr.pfx, access]
  rfl
end

/-! A translation that fails (R72 to R77). -/

section
variable {s : State} {va n c : Nat} {kind : AccKind}

theorem act_bind_error {α β : Type} {x : Act α} {f : α → Act β} {s t : State} {e : Exc} (h : x s = .error e t) :
    (x >>= f) s = .error e t := by
  rw [act_bind, h]

theorem translate_fails (hr : s.Ready) (hf : translateKept s.h.mode va kind s = .error (.cause c)) :
    translate va kind s = .error (.trap c (word va)) s := by
  simp only [translate, translateAs, translateNow, act_bind, getH_apply, acquiresDone_ready s hr, get_apply, hf]
  rfl
/-- R74: the part of an access that is translated first begins at its first byte. -/
theorem cutAt_head {unit fuel : Nat} (hn : n ≠ 0) : ∃ k ps, cutAt unit (fuel + 1) va n = (va, k) :: ps :=
  ⟨_, _, if_neg hn⟩
theorem translateRange_fails (hr : s.Ready) (hn : n ≠ 0) (hva : va < 2 ^ 64)
    (hf : translateKept s.h.mode va kind s = .error (.cause c)) :
    translateRange va n kind s = .error (.trap c (word va)) s := by
  obtain ⟨k, ps, cut⟩ := cutAt_head (unit := 65536) (fuel := n / 65536 + 1) (va := va) hn
  simp only [translateRange, cut, List.map_cons, Nat.mod_eq_of_lt hva]
  exact act_bind_error (translate_fails hr hf)
end

section
variable {s : State} {c n code : Nat} {o : LArgs}

theorem lAddress_lt (h : Hart) (o : LArgs) (n : Nat) : lAddress h o n < 2 ^ 64 := BitVec.isLt _

theorem counterRoom_uncounted (s : State) : counterRoom (7 : BitVec 3).toNat s = .ok () s := rfl

theorem loadWord_faults {natural : Bool} (hr : s.Ready) (hrole : s.h.role ≠ .computer) (hctr : o.ctr = 7) (hn : n ≠ 0)
    (hf : translateKept s.h.mode (lAddress s.h o n) .read s = .error (.cause c)) (hc : 4 < c) :
    loadWord code n natural o s = .next (State.trapped c (word (lAddress s.h o n)) s.h.pc s) := by
  refine issue_traps (lInfo_scalarMemory (by decide)) hr hrole ?_ hc
  rw [hctr]
  exact (act_bind_ok (getH_apply s)).trans
    (act_bind_error (act_bind_error (translateRange_fails hr hn (lAddress_lt _ _ _) hf)))
theorem storeWord_faults (hr : s.Ready) (hrole : s.h.role ≠ .computer) (hctr : o.ctr = 7) (hn : n ≠ 0)
    (hf : translateKept s.h.mode (lAddress s.h o n) .write s = .error (.cause c)) (hc : 4 < c) :
    storeWord code n o s = .next (State.trapped c (word (lAddress s.h o n)) s.h.pc s) := by
  refine issue_traps (lInfo_scalarMemory (by decide)) hr hrole ?_ hc
  rw [hctr]
  have length : (bytesOf n (s.h.reg o.d.toNat).toNat).length ≠ 0 := by rwa [bytesOf_length]
  exact (act_bind_ok (getH_apply s)).trans ((act_bind_ok (counterRoom_uncounted s)).trans
    (act_bind_error (act_bind_error (translateRange_fails hr length (lAddress_lt _ _ _) hf))))
end

/-- R366: the word of a scalar load or store, with its size and access, traps where its first byte's translation fails. -/
def FaultRow (e : (LArgs → Instr) × Nat × AccKind) : Prop :=
  ∀ (o : LArgs) (s : State) (c : Nat), s.Ready → s.h.role ≠ .computer → o.ctr = 7 →
    translateKept s.h.mode (lAddress s.h o e.2.1) e.2.2 s = .error (.cause c) → 4 < c →
    exec (e.1 o) s = .next (State.trapped c (word (lAddress s.h o e.2.1)) s.h.pc s)
theorem faultRow_load {mk : LArgs → Instr} {code n : Nat} {natural : Bool}
    (hw : ∀ o s, exec (mk o) s = loadWord code n natural o s) (hn : n ≠ 0) : FaultRow (mk, n, .read) :=
  fun o s _ hr hrole hctr hf hc => (hw o s).trans (loadWord_faults hr hrole hctr hn hf hc)
theorem faultRow_store {mk : LArgs → Instr} {code n : Nat} (hw : ∀ o s, exec (mk o) s = storeWord code n o s)
    (hn : n ≠ 0) : FaultRow (mk, n, .write) :=
  fun o s _ hr hrole hctr hf hc => (hw o s).trans (storeWord_faults hr hrole hctr hn hf hc)

/-! The A format's alignment (R136). -/

section
variable {s : State} {va n : Nat} {kind : AccKind}

/-- R72, R80: no untranslated access is to a TUPLE page. -/
theorem untranslatedType_ne_tuple (pa : Nat) : (untranslatedType pa == 4) = false := by
  unfold untranslatedType
  split
  · split <;> rfl
  · rfl
theorem aChecked_unaligned (hr : s.Ready) (hm : s.h.mode = .machine) (hk : kind ≠ .fetch) (hva : va % n ≠ 0) :
    aChecked va n kind s = .error (.trap cAlign (word va)) s := by
  have unaligned : (va % n == 0) = false := by simpa using hva
  simp only [aChecked, act_bind, translate_machine va kind s hr hm hk, untranslatedType_ne_tuple, unaligned, require_false,
    Bool.false_eq_true, if_false]
theorem aTranslate_unaligned (hr : s.Ready) (hm : s.h.mode = .machine) (hk : kind ≠ .fetch) (hva : va % n ≠ 0) :
    aTranslate va n kind s = .error (.trap cAlign (word va)) s := act_bind_error (aChecked_unaligned hr hm hk hva)
end

/-- R136: an A-format word whose work ends in ALIGN. -/
theorem aWord_unaligned {s : State} {func : Nat} {o : AArgs} {dest : DestKind} {reads : List (BitVec 5)} {v : Word}
    {rest : Hart → Act Unit} (hr : s.Ready) (hrole : s.h.role ≠ .computer)
    (hb : rest s.h s = .error (.trap cAlign v) s) :
    issue (aInfo func o dest reads) (andNext (getH >>= rest)) s = .next (State.trapped 0x16 v s.h.pc s) :=
  issue_traps aInfo_scalarMemory hr hrole ((act_bind_ok (getH_apply s)).trans hb) (by decide)

/-- Settles O15: a failed translation or alignment check comes before any change, and the check of ROLE before either. -/
theorem accessFaultsTrap : Obligations.AccessFaultsTrap := by
  unfold Obligations.AccessFaultsTrap
  refine ⟨fun e he => ?_, ?_, ?_, ?_⟩
  · have row : FaultRow e := by
      revert e
      simp only [List.forall_mem_cons, List.not_mem_nil, false_imp_iff, implies_true, and_true]
      and_intros
      iterate 7 exact faultRow_load (fun _ _ => rfl) (by decide)
      iterate 4 exact faultRow_store (fun _ _ => rfl) (by decide)
    exact fun o s c hr hrole hctr _ => row o s c hr hrole hctr
  · simp only [List.forall_mem_cons, List.not_mem_nil, false_imp_iff, implies_true, and_true]
    and_intros <;> intro o s hr hrole hm hva
    · exact aWord_unaligned hr hrole (act_bind_error (aTranslate_unaligned hr hm (kind := .read) nofun hva))
    · exact aWord_unaligned hr hrole (act_bind_error (aTranslate_unaligned hr hm (kind := .write) nofun hva))
    · exact aWord_unaligned hr hrole (act_bind_error (aTranslate_unaligned hr hm (kind := .read) nofun hva))
    · exact aWord_unaligned hr hrole (act_bind_error (aChecked_unaligned hr hm (kind := .write) nofun hva))
  · simp only [List.forall_mem_cons, List.not_mem_nil, false_imp_iff, implies_true, and_true]
    and_intros <;> exact fun _ _ => issue_role (lInfo_scalarMemory (by decide))
  · simp only [List.forall_mem_cons, List.not_mem_nil, false_imp_iff, implies_true, and_true]
    and_intros <;> exact fun _ _ => issue_role aInfo_scalarMemory
end Sys2Proof.Machine
end

section
namespace Sys2Proof.Machine

/-! TUPLE words (R95 to R107): what a ready hart's word does before its own effect. -/

/-- What R35 needs to know of a TUPLE word with these operands. -/
structure TupleSpaceWord (i : Info) (o : RArgs) : Prop where
  major : i.major = 0x2B
  guard : i.guard = .pred o.neg o.guard.toNat
  size : i.size = 4
  stall : i.stall = o.stall.toNat
  address : i.address = false
  vector : i.vector = false

section
variable {i : Info} {o : RArgs} {s t : State}

theorem TupleSpaceWord.allowed (hi : TupleSpaceWord i o) (hrole : s.h.role ≠ .control) :
    majorAllowed s.h.role i.major = true := by
  rw [hi.major]
  exact majorAllowed_vector _ _ hrole (by decide)
theorem TupleSpaceWord.checks (hi : TupleSpaceWord i o) (hrole : s.h.role ≠ .control)
    (level : modeNum i.level ≤ modeNum s.h.mode) : Checks i (pure ()) (pure ()) s :=
  ⟨hi.allowed hrole, rfl, level, by simp [hi.address], rfl⟩
theorem TupleSpaceWord.holds (hi : TupleSpaceWord i o) (hr : s.Ready) (hg : s.guarded o.guard o.neg) :
    s.h.guardHolds i.guard = true := by
  rw [hi.guard]
  exact guardHolds_pred s _ _ hr hg
/-- R35: a TUPLE word below its level traps, whatever its guard. -/
theorem issue_tupleSpace_privileged {body : Act Flow} (hi : TupleSpaceWord i o) (hr : s.Ready) (hrole : s.h.role ≠ .control)
    (below : modeNum s.h.mode < modeNum i.level) : issue i body s = .next (State.trapped 0x03 (word i.word) s.h.pc s) := by
  have checks := issueChecks_privileged hr (hi.allowed hrole) (decide_eq_false (Nat.not_le.2 below))
  simp only [issue, hr.live, issueAct_unlatched body hr.paired, act_bind, checks, deliver, wordTrap_plain _ _ _ hr.pfx]
  rfl

/-- A TUPLE word past its checks does what its work does from this state. -/
theorem issue_tupleSpace_congr {body body' : Act Unit} (hi : TupleSpaceWord i o) (hr : s.Ready) (hrole : s.h.role ≠ .control)
    (level : modeNum i.level ≤ modeNum s.h.mode) (h : body s = body' s) :
    issue i (andNext body) s = issue i (andNext body') s := by
  rw [issue_ready _ _ _ _ _ s hr (hi.checks hrole level), issue_ready _ _ _ _ _ s hr (hi.checks hrole level)]
  simp only [andNext, act_bind, h]

variable {body : Act Unit} (hi : TupleSpaceWord i o) (hr : s.Ready) (hrole : s.h.role ≠ .control)
  (hg : s.guarded o.guard o.neg) (level : modeNum i.level ≤ modeNum s.h.mode)
include hi hr hrole hg level

theorem issue_tupleSpace_seq (hb : body s = .ok () t) (hp : t.h.pfx = none) :
    issue i (andNext body) s = .next (t.past 4 o.stall.toNat) := by
  rw [← hi.size, ← hi.stall]
  exact issue_seq _ _ _ _ _ s t hr (hi.checks hrole level) (hi.holds hr hg) (andNext_ok _ _ _ hb) hp hi.vector
theorem issue_tupleSpace_trap {c : Nat} {v : Word} (hb : body s = .error (.trap c v) t) (hp : t.h.pfx = none) (hc : 4 < c) :
    issue i (andNext body) s = .next (State.trapped c v t.h.pc t) := by
  have access : (decide (1 ≤ c) && decide (c ≤ 4)) = false := by simp [hc]
  rw [issue_error _ _ _ _ _ s t _ hr (hi.checks hrole level) (hi.holds hr hg) (andNext_error _ _ _ _ hb) nofun, deliver,
    wordTrap_plain _ _ _ hp, access]
  rfl
end

theorem tupleSpaceWord_rInfo {func : Nat} {o : RArgs} {dest : DestKind} {reads : List (BitVec 5)} {level : Mode} :
    TupleSpaceWord { rInfo 0x2B func o dest reads with level := level } o := ⟨rfl, rfl, rfl, rfl, rfl, rfl⟩

theorem tupleSpaceWord_tupleInfo {func : Nat} {o : RArgs} {reads : List (BitVec 5)} :
    TupleSpaceWord (tupleInfo func o reads) o := ⟨rfl, rfl, rfl, rfl, rfl, rfl⟩

/-- R95: a handle's region number is its low byte. -/
theorem handleRegion_eq (handle : Word) : handleRegion handle = handle.toNat % 256 := wbits_low handle 7
/-- R99: a handle's base translates to a TUPLE page. -/
theorem handlePa_typed {handle : Word} {s s1 : State} {x : Xlat}
    (hx : translateKept s.h.mode (handleBase handle) .rmw s = .ok (s1, x)) (ht : x.typ = 4) :
    handlePa handle s = .ok x.pa s1 := by
  simp only [handlePa, translateNow, act_bind, getH_apply, get_apply, hx, set_apply, act_pure, ht]
  rfl

/-! Tuple operations (R98 to R104). -/

theorem isOwn_one {h : Hart} {n : Nat} (hs : h.role = .solo) (hn : n * 2 ^ h.span < 32) : (⟨n, 1⟩ : Group).isOwn h = true := by
  have home : homeOf h n = some (.own (n * 2 ^ h.span)) := by simp [homeOf, hs, hn]
  simp [Group.isOwn, home]
theorem blockingRoom_idle {s : State} (ho : s.h.ops = []) : blockingRoom s = .ok () s := by
  simp [blockingRoom, act_bind, get_apply, ho, act_pure]
/-- R40, R42: a counter that has room, or a number that names no counter. -/
theorem counterRoom_below {c : Nat} {s : State} (hd : c < 6 → s.h.deps[c]?.getD 0 < 63) : counterRoom c s = .ok () s := by
  by_cases hc : c < 6
  · exact counterRoom_room (hd hc)
  · simp only [counterRoom, act_bind, getH_apply, decide_eq_false hc, Bool.false_and, Bool.false_eq_true, if_false, act_pure]

/-- R98: whether a tuple operation's pattern field is concrete. -/
def concreteField (h : Hart) (func i : Nat) : Bool := func == 0 || h.kbit (wbits h.csr.tupctl 6 4) 0 i
/-- R98: VT0 and vl name a legal tuple, whose first field is concrete. -/
def TupleForm (h : Hart) (func : Nat) : Prop :=
  (h.slot false).sew = 64 ∧ h.vl ≠ 0 ∧ h.vl ≤ 8 ∧ (func = 0 ∨ h.kbit (wbits h.csr.tupctl 6 4) 0 0 = true)
theorem tupleForm_iff (h : Hart) (func : Nat) :
    ((h.slot false).sew == 64 && h.vl != 0 && decide (h.vl ≤ 8) &&
      ((List.range h.vl).map (concreteField h func)).headD true) = true ↔ TupleForm h func := by
  cases hv : h.vl with
  | zero => simp [TupleForm, hv]
  | succ n => simp [TupleForm, hv, concreteField, List.range_succ_eq_map, and_assoc]

/-- R100: the request that a tuple operation sends from `t`, its base at `pa`; `s` is the state at issue. -/
def tupleRequest (func : Nat) (o : RArgs) (s t : State) (pa : Nat) : TupleReq :=
  let fields := (List.range s.h.vl).map fun i => word (getElem (groupRow t ⟨o.a.toNat, 1⟩ 0).bits 64 i)
  let handle := s.h.reg o.b.toNat
  { num := t.tuples.next, coord := s.cur, func := func, region := handle.toNat % 256, pa := pa
    slice := tupleHome (fields.headD 0) (handle.toNat % 256), fields := fields
    mask := (List.range s.h.vl).map (concreteField s.h func), handle := handle, vreg := o.a.toNat
    tail := (s.h.slot false).tailZero, maxvl := s.h.maxIn (s.h.slot false), machine := s.h.mode == .machine }
/-- R100, R40, R51: a request is on its way to its home slice, and its operation outstanding on a counter. -/
def State.sent (func : Nat) (d : BitVec 5) (counter : Nat) (q : TupleReq) (t : State) : State :=
  { t with
    tuples := { t.tuples with next := t.tuples.next + 1, requests := t.tuples.requests ++ [q] }
    h := { t.h with
      deps := if counter < 6 then t.h.deps.setIfInBounds counter (t.h.deps[counter]?.getD 0 + 1) else t.h.deps
      ops := [{ kind := .tuple t.tuples.next func q.vreg, counter := counter, dest := some d.toNat, copy := none
                shadow := t.h.inHandler, order := t.h.words }]
      lastd := d } }
theorem sendRequest_idle {func counter : Nat} {d : BitVec 5} {q : TupleReq} {t : State} (ho : t.h.ops = [])
    (hp : t.h.pfx = none) :
    sendRequest func d counter q t = .ok () (t.sent func d counter { q with num := t.tuples.next }) := by
  by_cases hc : counter < 6 <;>
    simp [sendRequest, addOp, raiseCounter, act_bind, get_apply, modify_apply, modH_apply, hc, ho, Hart.copyReg, hp, State.sent]

/-- What both arms of a branch do before they go on. -/
theorem ite_bind_ok {α : Type} {c : Prop} [Decidable c] {x y : Act Unit} {f : Unit → Act α} {s t : State}
    (hx : x s = .ok () t) (hy : y s = .ok () t) : (if c then x >>= f else y >>= f) s = f () t := by
  split
  · exact act_bind_ok hx
  · exact act_bind_ok hy

theorem State.Solo.not_control {s : State} (hs : s.Solo) : s.h.role ≠ .control := by
  rw [hs.solo]
  decide
theorem State.Solo.not_computer {s : State} (hs : s.Solo) : (s.h.role != .computer) = true := by
  rw [hs.solo]
  rfl
theorem loaded_of_solo {s : State} (h : s.h.role = .solo) : s.loaded := fun hc => nomatch h.symm.trans hc

section
variable {func : Nat} {o : RArgs} {s s1 : State} {x : Xlat} (hs : s.Solo) (hg : s.guarded o.guard o.neg)
  (ha : o.a.toNat * 2 ^ s.h.span < 32)
include hs hg ha

theorem tupleWord_illFormed (hf : ¬TupleForm s.h func) :
    tupleWord func o s = .next (State.trapped 0x25 (word s.h.vl) s.h.pc s) := by
  have form := Bool.eq_false_iff.2 (mt (tupleForm_iff s.h func).1 hf)
  unfold tupleWord
  refine issue_tupleSpace_trap tupleSpaceWord_tupleInfo hs.toReady hs.not_control hg (Nat.zero_le _) (c := 0x25) ?_ hs.pfx
    (by decide)
  refine (act_bind_ok (get_apply s)).trans ?_
  refine (act_bind_ok (require_of hs.not_computer _ _ s)).trans ?_
  refine (act_bind_ok (require_of (isOwn_one hs.solo ha) _ _ s)).trans ?_
  exact act_bind_error (require_not form _ _ s)

variable (hf : TupleForm s.h func)
include hf

theorem tupleWord_reserved (hh : wbits (s.h.reg o.b.toNat) 15 8 ≠ 0) :
    tupleWord func o s = .next (State.trapped 0x26 (s.h.reg o.b.toNat) s.h.pc s) := by
  unfold tupleWord
  refine issue_tupleSpace_trap tupleSpaceWord_tupleInfo hs.toReady hs.not_control hg (Nat.zero_le _) (c := 0x26) ?_ hs.pfx
    (by decide)
  refine (act_bind_ok (get_apply s)).trans ?_
  refine (act_bind_ok (require_of hs.not_computer _ _ s)).trans ?_
  refine (act_bind_ok (require_of (isOwn_one hs.solo ha) _ _ s)).trans ?_
  refine (act_bind_ok (require_of ((tupleForm_iff s.h func).2 hf) _ _ s)).trans ?_
  exact act_bind_error (require_not (beq_eq_false_iff_ne.2 hh) _ _ s)

/-- R98 to R104: a legal tuple operation commits the strip and sends its request. -/
theorem tupleWord_sends (hh : wbits (s.h.reg o.b.toNat) 15 8 = 0)
    (hx : translateKept s.h.mode (handleBase (s.h.reg o.b.toNat)) .rmw s = .ok (s1, x)) (ht : x.typ = 4)
    (hp : s1.h.pfx = none) (ho : s1.h.ops = []) (solo : s1.h.role = .solo) (before : unstepped s1 = false)
    (after : unstepped (earlyCommit 2 s1) = false)
    (room : wbits s.h.csr.tupctl 2 0 < 6 → s1.h.deps[wbits s.h.csr.tupctl 2 0]?.getD 0 < 63) :
    let t := earlyCommit 2 s1
    tupleWord func o s = .next ((t.sent func o.d (wbits s.h.csr.tupctl 2 0)
      (tupleRequest func o s t x.pa)).past 4 o.stall.toNat) := by
  intro t
  have performs := performEarlier_idle (loaded_of_solo solo) ho before after
  have ops : t.h.ops = [] := (earlyCommit_committed 2 s1).idle ho
  have pfx : t.h.pfx = none := (earlyCommit_pfx 2 s1).trans hp
  simp only [tupleRequest, ← handleRegion_eq]
  unfold tupleWord
  refine issue_tupleSpace_seq tupleSpaceWord_tupleInfo hs.toReady hs.not_control hg (Nat.zero_le _) ?_ pfx
  refine (act_bind_ok (get_apply s)).trans ?_
  refine (act_bind_ok (require_of hs.not_computer _ _ s)).trans ?_
  refine (act_bind_ok (require_of (isOwn_one hs.solo ha) _ _ s)).trans ?_
  refine (act_bind_ok (require_of ((tupleForm_iff s.h func).2 hf) _ _ s)).trans ?_
  refine (act_bind_ok (require_of (beq_iff_eq.2 hh) _ _ s)).trans ?_
  refine (act_bind_ok (acquiresDone_ready s hs.toReady)).trans ?_
  refine (act_bind_ok (handlePa_typed hx ht)).trans ?_
  refine (act_bind_ok (counterRoom_below room)).trans ?_
  refine (ite_bind_ok (y := pure ()) (blockingRoom_idle ho) (act_pure () s1)).trans ?_
  refine (ite_bind_ok performs (commit_apply 2 s1)).trans ?_
  refine (act_bind_ok (get_apply t)).trans ?_
  exact sendRequest_idle ops pfx
end

/-! TREG (R106). -/

theorem zeroPage_request (p : Nat × Nat × Bool) (s : State) : Request s (zeroPage p s) := by
  refine .fold _ (fun u l => ?_) _ s
  split
  · exact physWrite_request _ _ _ _ _ _ ‹_›
  · exact .refl u

/-- R106: what TREG does with the pages that it has walked. -/
def tregPages (va : Word) (d : BitVec 5) (pages : List (Nat × Nat × Bool)) : Act Unit := do
  let s ← get
  match pages.findIdx? fun p => (keyOf s p.2.1).isNone with
  | some i => trapWith cAccess (va + word (65536 * i))
  | none => pure ()
  commit 2
  let s ← get
  match (List.range 256).find? fun r => (regionOf s r).isNone with
  | none => writeD d (word (2 ^ 64 - 1))
  | some r =>
    modify fun s =>
      let s1 := pages.foldl (fun s p => zeroPage p s) s
      { s1 with tuples := { s1.tuples with regions := s1.tuples.regions ++ [⟨r, pages⟩] } }
    writeD d (va ||| word r)

section
variable {o : RArgs} {s : State} (hr : s.Ready) (hrole : s.h.role ≠ .control) (hg : s.guarded o.guard o.neg)
  (hm : s.h.mode ≠ .user)
include hr hrole hg hm

theorem execTreg_unaligned (ha : (s.h.reg o.a.toNat).toNat % 65536 ≠ 0) :
    execTreg o s = .next (State.trapped 0x25 (s.h.reg o.a.toNat) s.h.pc s) := by
  have aligned : (wbits (s.h.reg o.a.toNat) 15 0 == 0) = false := by
    rw [wbits_low]
    exact beq_eq_false_iff_ne.2 ha
  unfold execTreg
  refine issue_tupleSpace_trap tupleSpaceWord_rInfo hr hrole hg (modeNum_supervisor hm) (c := 0x25) ?_ hr.pfx (by decide)
  exact (act_bind_ok (getH_apply s)).trans (act_bind_error (require_not aligned _ _ s))

variable (ha : (s.h.reg o.a.toNat).toNat % 65536 = 0)
include ha

theorem execTreg_unsized (hn : s.h.reg o.b.toNat = 0 ∨ 4096 < (s.h.reg o.b.toNat).toNat) :
    execTreg o s = .next (State.trapped 0x25 (s.h.reg o.b.toNat) s.h.pc s) := by
  have aligned : (wbits (s.h.reg o.a.toNat) 15 0 == 0) = true := by rw [wbits_low, beq_iff_eq]; exact ha
  have sized : (s.h.reg o.b.toNat != 0 && decide ((s.h.reg o.b.toNat).toNat ≤ 4096)) = false := by
    rcases hn with hn | hn
    · simp [hn]
    · rw [decide_eq_false (Nat.not_le.2 hn), Bool.and_false]
  unfold execTreg
  refine issue_tupleSpace_trap tupleSpaceWord_rInfo hr hrole hg (modeNum_supervisor hm) (c := 0x25) ?_ hr.pfx (by decide)
  refine (act_bind_ok (getH_apply s)).trans ?_
  exact (act_bind_ok (require_of aligned _ _ s)).trans (act_bind_error (require_not sized _ _ s))

variable {s1 : State} {pages : List (Nat × Nat × Bool)} (hn : s.h.reg o.b.toNat ≠ 0) (hn' : (s.h.reg o.b.toNat).toNat ≤ 4096)
  (hw : regionPages (s.h.reg o.a.toNat).toNat (s.h.reg o.b.toNat).toNat s = .ok pages s1) (hp : s1.h.pfx = none)

omit hg in
include hn hn' hw in
/-- TREG with legal operands is what it does with its pages. -/
theorem execTreg_walked : execTreg o s = issue { tupleInfo 5 o [o.a, o.b] with level := .supervisor }
    (andNext fun _ => tregPages (s.h.reg o.a.toNat) o.d pages s1) s := by
  have aligned : (wbits (s.h.reg o.a.toNat) 15 0 == 0) = true := by rw [wbits_low, beq_iff_eq]; exact ha
  have sized : (s.h.reg o.b.toNat != 0 && decide ((s.h.reg o.b.toNat).toNat ≤ 4096)) = true := by
    rw [bne_iff_ne.2 hn, decide_eq_true hn', Bool.and_true]
  unfold execTreg
  refine issue_tupleSpace_congr tupleSpaceWord_rInfo hr hrole (modeNum_supervisor hm) ?_
  refine (act_bind_ok (getH_apply s)).trans ?_
  refine (act_bind_ok (require_of aligned _ _ s)).trans ?_
  refine (act_bind_ok (require_of sized _ _ s)).trans ?_
  refine (act_bind_ok hw).trans ?_
  rfl

include hn hn' hw hp

/-- R106, R65: a page under an EMPTY key slot faults before any effect. -/
theorem execTreg_keyless {i : Nat} (hi : pages.findIdx? (fun p => (keyOf s1 p.2.1).isNone) = some i) :
    execTreg o s = .next (State.trapped 0x14 (s.h.reg o.a.toNat + word (65536 * i)) s1.h.pc s1) := by
  rw [execTreg_walked hr hrole hm ha hn hn' hw]
  refine issue_tupleSpace_trap tupleSpaceWord_rInfo hr hrole hg (modeNum_supervisor hm) (c := 0x14) ?_ hp (by decide)
  refine (act_bind_ok (get_apply s1)).trans ?_
  rw [hi]
  exact act_bind_error rfl

variable (hk : pages.findIdx? (fun p => (keyOf s1 p.2.1).isNone) = none) (he : s1.h.pend = [])
include hk he

/-- R106: with 256 live regions TREG answers −1. -/
theorem execTreg_full (hf : (List.range 256).find? (fun r => (regionOf (earlyCommit 2 s1) r).isNone) = none) :
    execTreg o s = .next (((earlyCommit 2 s1).wrote o.d (BitVec.allOnes 64) 1 0).past 4 o.stall.toNat) := by
  have pfx := (earlyCommit_pfx 2 s1).trans hp
  have pend := (earlyCommit_pend 2 s1).trans he
  rw [execTreg_walked hr hrole hm ha hn hn' hw]
  refine issue_tupleSpace_seq tupleSpaceWord_rInfo hr hrole hg (modeNum_supervisor hm) ?_ ((State.wrote_pfx ..).trans pfx)
  refine (act_bind_ok (get_apply s1)).trans ?_
  rw [hk]
  refine (act_bind_ok (commit_apply 2 s1)).trans ((act_bind_ok (get_apply _)).trans ?_)
  rw [hf]
  exact writeD_clear _ _ pfx pend

/-- R106: the pages are zeroed and the region is live; its handle is the base with its number. -/
theorem execTreg_makes {r : Nat} (hf : (List.range 256).find? (fun r => (regionOf (earlyCommit 2 s1) r).isNone) = some r) :
    let u := pages.foldl (fun u p => zeroPage p u) (earlyCommit 2 s1)
    execTreg o s = .next ((State.wrote o.d (s.h.reg o.a.toNat ||| word r) 1 0
      { u with tuples := { u.tuples with regions := u.tuples.regions ++ [⟨r, pages⟩] } }).past 4 o.stall.toNat) := by
  intro u
  have zeroed : Request (earlyCommit 2 s1) u := .fold _ (fun u p => zeroPage_request p u) _ _
  have pfx : u.h.pfx = none := zeroed.pfx.trans ((earlyCommit_pfx 2 s1).trans hp)
  have pend : u.h.pend = [] := zeroed.pend.trans ((earlyCommit_pend 2 s1).trans he)
  rw [execTreg_walked hr hrole hm ha hn hn' hw]
  refine issue_tupleSpace_seq tupleSpaceWord_rInfo hr hrole hg (modeNum_supervisor hm) ?_ ((State.wrote_pfx ..).trans pfx)
  refine (act_bind_ok (get_apply s1)).trans ?_
  rw [hk]
  refine (act_bind_ok (commit_apply 2 s1)).trans ((act_bind_ok (get_apply _)).trans ?_)
  rw [hf]
  refine (act_bind_ok (modify_apply _ _)).trans ?_
  exact writeD_clear _ _ pfx pend
end

/-! TFREE (R107). -/

/-- What a bind in `Except` answers comes from both of its parts. -/
theorem except_bind_ok {ε α β : Type} {x : Except ε α} {f : α → Except ε β} {b : β} (h : (x >>= f) = .ok b) :
    ∃ a, x = .ok a ∧ f a = .ok b := by
  cases x with
  | error e => cases h
  | ok a => exact ⟨a, rfl, h⟩
/-- What is answered past a check that may refuse. -/
theorem except_guard_ok {ε α : Type} {c : Prop} [Decidable c] {e : ε} {x : Except ε α} {a : α}
    (h : (if c then .error e else x) = .ok a) : x = .ok a := by
  split at h
  · cases h
  · exact h

theorem readEntry_cur {w : Walker} {pa : Nat} {s t : State} {e : Word} (h : readEntry w pa s = .ok (t, e)) : t.cur = s.cur := by
  unfold readEntry at h
  split at h <;> cases h
  exact (physRead_request _ _ _ _ _ _ _ ‹_›).cur
/-- A walk is made for the current hart, which stays current. -/
theorem walk_cur {w : Walker} {root va lvl : Nat} {write : Bool} {s t : State} {e : Word}
    (h : walk w root va write s = .ok (t, e, lvl)) : t.cur = s.cur := by
  unfold walk at h
  extract_lets fmt mark at h
  have marked : ∀ a e s, (mark a e s).1.cur = s.cur := by
    intro a e s
    unfold mark
    extract_lets e'
    clear_value e'
    split
    · rfl
    · split
      · rfl
      · split
        · exact (physWrite_request _ _ _ _ _ _ ‹_›).cur
        · rfl
  clear_value mark
  obtain ⟨⟨s1, e1⟩, read1, h⟩ := except_bind_ok h
  obtain ⟨⟨s2, e2⟩, read2, h⟩ := except_bind_ok (except_guard_ok (except_guard_ok h))
  have second := (readEntry_cur read2).trans (readEntry_cur read1)
  replace h := except_guard_ok h
  extract_lets a3 at h
  split at h
  · cases except_guard_ok h
    exact (marked _ _ _).trans second
  · obtain ⟨⟨s3, e3⟩, read3, h⟩ := except_bind_ok (except_guard_ok h)
    cases except_guard_ok (except_guard_ok h)
    exact (marked _ _ _).trans ((readEntry_cur read3).trans second)
theorem keepEntry_cur (coord : Nat) (e : TlbEntry) (s : State) : (keepEntry coord e s).cur = s.cur := by
  unfold keepEntry
  dsimp only
  split <;> rfl
theorem findEntry_cur {coord v : Nat} {w : Walker} {root : Word} {wr : Bool} {s t : State} {e : TlbEntry}
    (h : findEntry coord w root v wr s = .ok (t, e)) : t.cur = s.cur := by
  unfold findEntry at h
  dsimp only at h
  split at h
  · cases h
    rfl
  · split at h
    · cases h
      exact keepEntry_cur _ _ _
    · split at h
      · cases h
      · cases h
        exact (keepEntry_cur _ _ _).trans (walk_cur ‹_›)
/-- What a map over `Except` answers. -/
theorem except_map_ok {ε α β : Type} {x : Except ε α} {f : α → β} {b : β} (h : x.map f = .ok b) : ∃ a, f a = b := by
  cases x with
  | error e => cases h
  | ok a => exact ⟨a, Except.ok.inj h⟩
/-- R82: a translation leaves the current hart current. -/
theorem translateKept_cur {mode : Mode} {va : Nat} {kind : AccKind} {s t : State} {x : Xlat}
    (h : translateKept mode va kind s = .ok (t, x)) : t.cur = s.cur := by
  unfold translateKept at h
  dsimp only at h
  split at h
  · obtain ⟨_, same⟩ := except_map_ok h
    cases same
    rfl
  · replace h := except_guard_ok h
    split at h
    · obtain ⟨_, same⟩ := except_map_ok h
      cases same
      rfl
    · split at h
      next => cases h
      next found =>
        obtain ⟨_, same⟩ := except_map_ok h
        cases same
        exact (findEntry_cur found :)

theorem foldl_sendReply_h {α : Type} (f : α → TupleReply) (l : List α) (s : State) :
    (l.foldl (fun u c => sendReply (f c) u) s).h = s.h := by
  induction l generalizing s with
  | nil => rfl
  | cons c l ih => exact ih _
theorem freeRegion_h (g : Region) (s : State) : (freeRegion g s).h = s.h :=
  foldl_sendReply_h (fun q => { req := q, status := 1 }) _ _

section
variable {o : RArgs} {s s1 : State} {x : Xlat} (hr : s.Ready) (hrole : s.h.role ≠ .control) (hg : s.guarded o.guard o.neg)
  (hm : s.h.mode ≠ .user)

include hr hrole hg hm in
theorem execTfree_reserved (hh : wbits (s.h.reg o.a.toNat) 15 8 ≠ 0) :
    execTfree o s = .next (State.trapped 0x26 (s.h.reg o.a.toNat) s.h.pc s) := by
  unfold execTfree
  refine issue_tupleSpace_trap tupleSpaceWord_rInfo hr hrole hg (modeNum_supervisor hm) (c := 0x26) ?_ hr.pfx (by decide)
  exact (act_bind_ok (readS_apply o.a s)).trans (act_bind_error (require_not (beq_eq_false_iff_ne.2 hh) _ _ s))

/-- R107: what TFREE does with the region that its handle names, past the commit. -/
def tfreeRegion (handle : Word) (pa : Nat) : Act Unit := do
  let s ← get
  let fail := fun (c : Nat) => modH fun h => h.addErr ⟨c, handle, h.words⟩
  match regionHere s (handleRegion handle) pa with
  | none => fail cTupleRegion
  | some g =>
    match checkRequest (arrivalCtx (s.h.mode == .machine) s.cur (pageOf g pa)) pa 8 true true s with
    | some 0 => waitFor (.hold pa)
    | some c => fail c
    | none => modify (freeRegion g)

variable {t : State} {handle : Word} {pa : Nat} {g : Region}

theorem tfreeRegion_dead (hd : regionHere t (handleRegion handle) pa = none) :
    tfreeRegion handle pa t = .ok () { t with h := t.h.addErr ⟨0x26, handle, t.h.words⟩ } := by
  simp only [tfreeRegion, act_bind, get_apply, hd, modH_apply]
  rfl
theorem tfreeRegion_refused {c : Nat} (hl : regionHere t (handleRegion handle) pa = some g) (hc : c ≠ 0)
    (hv : checkRequest (arrivalCtx (t.h.mode == .machine) t.cur (pageOf g pa)) pa 8 true true t = some c) :
    tfreeRegion handle pa t = .ok () { t with h := t.h.addErr ⟨c, handle, t.h.words⟩ } := by
  obtain ⟨n, rfl⟩ := Nat.exists_eq_succ_of_ne_zero hc
  simp only [tfreeRegion, act_bind, get_apply, hl, hv, modH_apply]
theorem tfreeRegion_frees (hl : regionHere t (handleRegion handle) pa = some g)
    (hv : checkRequest (arrivalCtx (t.h.mode == .machine) t.cur (pageOf g pa)) pa 8 true true t = none) :
    tfreeRegion handle pa t = .ok () (freeRegion g t) := by
  simp only [tfreeRegion, act_bind, get_apply, hl, hv, modify_apply]

variable (hh : wbits (s.h.reg o.a.toNat) 15 8 = 0)
  (hx : translateKept s.h.mode (handleBase (s.h.reg o.a.toNat)) .rmw s = .ok (s1, x)) (ht : x.typ = 4)
include hr hrole hg hm hh hx ht

/-- TFREE of a handle whose base translates ends as its work on the region does. -/
theorem execTfree_ends {u : State} (hp : u.h.pfx = none)
    (hb : tfreeRegion (s.h.reg o.a.toNat) x.pa (earlyCommit 2 s1) = .ok () u) :
    execTfree o s = .next (u.past 4 o.stall.toNat) := by
  unfold execTfree
  refine issue_tupleSpace_seq tupleSpaceWord_rInfo hr hrole hg (modeNum_supervisor hm) ?_ hp
  refine (act_bind_ok (readS_apply o.a s)).trans ?_
  refine (act_bind_ok (require_of (beq_iff_eq.2 hh) _ _ s)).trans ?_
  refine (act_bind_ok (handlePa_typed hx ht)).trans ?_
  refine (act_bind_ok (commit_apply 2 s1)).trans ?_
  exact hb

end

/-- R106: the index of the first page under an EMPTY key slot. -/
theorem findIdx_keyless {s : State} {pages : List (Nat × Nat × Bool)} {i : Nat} {p : Nat × Nat × Bool} (hi : pages[i]? = some p)
    (hp : keyOf s p.2.1 = none) (before : ∀ j < i, ∀ p', pages[j]? = some p' → keyOf s p'.2.1 ≠ none) :
    pages.findIdx? (fun p => (keyOf s p.2.1).isNone) = some i := by
  obtain ⟨hlt, rfl⟩ := List.getElem?_eq_some_iff.1 hi
  rw [List.findIdx?_eq_some_iff_getElem]
  refine ⟨hlt, by simp [hp], fun j hj => ?_⟩
  have := before j hj _ (List.getElem?_eq_getElem (hj.trans hlt))
  simpa using this
theorem findIdx_keyed {s : State} {pages : List (Nat × Nat × Bool)} (h : ∀ p ∈ pages, keyOf s p.2.1 ≠ none) :
    pages.findIdx? (fun p => (keyOf s p.2.1).isNone) = none := by
  rw [List.findIdx?_eq_none_iff]
  intro p hp
  exact Option.isNone_eq_false_iff.2 (Option.isSome_iff_ne_none.2 (h p hp))
/-- R106: the lowest number of no live region. -/
theorem find_freeRegion {s : State} {r : Nat} (hr : r < 256) (free : regionOf s r = none)
    (live : ∀ k < r, (regionOf s k).isSome = true) :
    (List.range 256).find? (fun r => (regionOf s r).isNone) = some r := by
  rw [List.find?_range_eq_some]
  refine ⟨by simp [free], List.mem_range.2 hr, fun k hk => ?_⟩
  simp [live k hk]
theorem find_noRegion {s : State} (live : ∀ r < 256, (regionOf s r).isSome = true) :
    (List.range 256).find? (fun r => (regionOf s r).isNone) = none := by
  rw [List.find?_range_eq_none]
  intro r hr
  simp [live r hr]

/-- Settles O40: each word's checks come in order, and past them its one effect. -/
theorem tupleWords : Obligations.TupleWords := by
  unfold Obligations.TupleWords
  refine ⟨fun e he o s s1 x hs hg ha => ?_, fun o s hr hrole hm => ?_, fun o s s1 pages hr hrole hg hm => ?_,
    fun o s s1 x hr hrole hg hm => ?_⟩
  · have row : ∀ o s, exec (e.1 o) s = tupleWord e.2 o s := by
      revert e
      simp only [List.forall_mem_cons, List.not_mem_nil, false_imp_iff, implies_true, and_true]
      and_intros <;> exact fun _ _ => rfl
    rw [row]
    refine ⟨tupleWord_illFormed hs hg ha, tupleWord_reserved hs hg ha, fun hf hh hx ht hp ho solo before after deps room => ?_⟩
    refine tupleWord_sends hs hg ha hf hh hx ht hp ho solo before after fun hc => ?_
    rw [deps]
    rcases room with ⟨-, room⟩ | seven
    · exact room
    · omega
  · have below : modeNum s.h.mode < modeNum .supervisor := by rw [hm]; decide
    exact ⟨issue_tupleSpace_privileged tupleSpaceWord_rInfo hr hrole below,
      issue_tupleSpace_privileged tupleSpaceWord_rInfo hr hrole below⟩
  · refine ⟨execTreg_unaligned hr hrole hg hm, fun ha => execTreg_unsized hr hrole hg hm ha, fun ha hn hn' hw hp he => ?_⟩
    refine ⟨fun i p hi hk before => ?_, fun hk live => ?_, fun r hr256 hk free live => ?_⟩
    · exact execTreg_keyless hr hrole hg hm ha hn hn' hw hp (findIdx_keyless hi hk before)
    · exact execTreg_full hr hrole hg hm ha hn hn' hw hp (findIdx_keyed hk) he (find_noRegion live)
    · exact execTreg_makes hr hrole hg hm ha hn hn' hw hp (findIdx_keyed hk) he (find_freeRegion hr256 free live)
  · refine ⟨execTfree_reserved hr hrole hg hm, fun hh hx ht hp mode => ?_⟩
    have ends := fun u => execTfree_ends hr hrole hg hm hh hx ht (u := u)
    have pfx := (earlyCommit_pfx 2 s1).trans hp
    have committed := earlyCommit_committed 2 s1
    have mode' : s.h.mode = (earlyCommit 2 s1).h.mode := by rw [committed.hart, mode]
    have cur : s.cur = (earlyCommit 2 s1).cur := by rw [committed.cur, translateKept_cur hx]
    rw [mode', cur, ← handleRegion_eq]
    refine ⟨fun dead => ends _ pfx (tfreeRegion_dead dead), fun g live => ⟨fun c hc hv => ?_, fun hv => ?_⟩⟩
    · exact ends _ pfx (tfreeRegion_refused live hc hv)
    · exact ends _ ((congrArg _ (freeRegion_h g _)).trans pfx) (tfreeRegion_frees live hv)

end Sys2Proof.Machine
end

section
namespace Sys2Proof.Machine

/-! The step of a home slice (R99 to R101): order by arrival, matching, and what the step leaves alone. -/

/-- Arrival order is insertion sort by arrival numbers. -/
theorem byArrival_eq {α : Type} (f : α → Nat) (xs : List α) : byArrival f xs = xs.insertionSort (fun a b => f a ≤ f b) := by
  have put' (x : α) (l : List α) : putByArrival f x l = l.orderedInsert (fun a b => f a ≤ f b) x := by
    induction l with
    | nil => rfl
    | cons y ys ih => simp only [putByArrival, List.orderedInsert_cons, ih]
  have same : putByArrival f = fun x l => l.orderedInsert (fun a b => f a ≤ f b) x := by
    funext x l
    exact put' x l
  rw [byArrival, same]
  rfl
theorem byArrival_perm {α : Type} (f : α → Nat) (xs : List α) : (byArrival f xs).Perm xs := by
  rw [byArrival_eq]
  exact List.perm_insertionSort _ xs
theorem byArrival_pairwise {α : Type} (f : α → Nat) (xs : List α) : (byArrival f xs).Pairwise (fun a b => f a ≤ f b) := by
  rw [byArrival_eq]
  have total : Std.Total (fun a b => f a ≤ f b) := ⟨fun a b => Nat.le_total (f a) (f b)⟩
  have trans : IsTrans α (fun a b => f a ≤ f b) := ⟨fun _ _ _ => Nat.le_trans⟩
  exact List.pairwise_insertionSort _ xs
/-- The first by arrival number has the smallest. -/
theorem byArrival_head {α : Type} (f : α → Nat) (xs : List α) (h : xs ≠ []) :
    ∃ x, (byArrival f xs).head? = some x ∧ x ∈ xs ∧ ∀ y ∈ xs, f x ≤ f y := by
  have perm := byArrival_perm f xs
  have sorted := byArrival_pairwise f xs
  cases e : byArrival f xs with
  | nil => exact absurd (e ▸ perm).nil_eq.symm h
  | cons x l =>
    rw [e] at perm sorted
    refine ⟨x, rfl, perm.mem_iff.1 List.mem_cons_self, fun y hy => ?_⟩
    rcases List.mem_cons.1 (perm.mem_iff.2 hy) with rfl | later
    · exact Nat.le_refl _
    · exact List.rel_of_pairwise_cons sorted later

/-- R98: a field past the mask is concrete. -/
theorem mask_extended (m : List Bool) (n i : Nat) (h : i < n) : (m ++ List.replicate n true)[i]? = some (m[i]?.getD true) := by
  by_cases hm : i < m.length
  · rw [List.getElem?_append_left hm, List.getElem?_eq_getElem hm]
    rfl
  · have out := Nat.le_of_not_lt hm
    have rest : i - m.length < n := by omega
    rw [List.getElem?_append_right out, List.getElem?_eq_none out, List.getElem?_replicate_of_lt rest]
    rfl
/-- R100: a pattern matches the tuples of its length whose fields are its own where it is concrete. -/
theorem fieldsMatch_iff (m : List Bool) (p x : List Word) : fieldsMatch m p x = true ↔
    p.length = x.length ∧ ∀ i < p.length, m[i]?.getD true = true → p[i]? = x[i]? := by
  rw [fieldsMatch, Bool.and_eq_true, beq_iff_eq]
  refine and_congr_right fun len => ?_
  rw [List.all_eq_true, List.forall_mem_iff_forall_getElem]
  have size : ((p.zip x).zip (m ++ List.replicate p.length true)).length = p.length := by simp [len]
  simp only [size]
  refine forall₂_congr fun i hi => ?_
  have mask := mask_extended m p.length i hi
  have hx : i < x.length := len ▸ hi
  have hm : i < (m ++ List.replicate p.length true).length := by simp; omega
  rw [List.getElem?_eq_getElem hm, Option.some_inj] at mask
  rw [List.getElem?_eq_getElem hi, List.getElem?_eq_getElem hx, List.getElem_zip, List.getElem_zip, mask]
  cases m[i]?.getD true <;> simp

/-! What the step of a home slice leaves alone. -/

/-- What a home slice's step may change: what a request may, and the tuple space but for its regions. -/
structure SliceStep (s t : State) : Prop where
  hart : t.h = { s.h with link := t.h.link, vlink := t.h.vlink }
  regions : t.tuples.regions = s.tuples.regions
  cur : t.cur = s.cur

theorem SliceStep.refl (s : State) : SliceStep s s := ⟨rfl, rfl, rfl⟩
theorem SliceStep.trans {s t u : State} (a : SliceStep s t) (b : SliceStep t u) : SliceStep s u :=
  ⟨by rw [b.hart, a.hart], b.regions.trans a.regions, b.cur.trans a.cur⟩
theorem SliceStep.reply {s t : State} (r : TupleReply) (a : SliceStep s t) : SliceStep s (sendReply r t) :=
  ⟨a.hart, a.regions, a.cur⟩
theorem SliceStep.replies {s t : State} (f : TupleReq → TupleReply) (l : List TupleReq) (a : SliceStep s t) :
    SliceStep s (l.foldl (fun u c => sendReply (f c) u) t) := by
  induction l generalizing t with
  | nil => exact a
  | cons c l ih => exact ih (a.reply (f c))
/-- A change of the tuples, requests and numbers. -/
theorem SliceStep.space {s t : State} {p : TupleSpace} (a : SliceStep s t) (h : p.regions = t.tuples.regions) :
    SliceStep s { t with tuples := p } := ⟨a.hart, h.trans a.regions, a.cur⟩
theorem Request.sliceStep {s t : State} (a : Request s t) : SliceStep s t :=
  ⟨a.hart, congrArg TupleSpace.regions a.tuples, a.cur⟩

theorem readTuple_request {g : Region} {x : Tuple} {s t : State} {fs : List Word} {bad : Bool}
    (h : readTuple g x s = .ok (t, fs, bad)) : Request s t := by
  unfold readTuple at h
  split at h <;> cases h
  exact physRead_request _ _ _ _ _ _ _ ‹_›
theorem storedMatch_request {q : TupleReq} {g : Region} {ts : List Tuple} {s t : State}
    {r : Option (Tuple × List Word × Bool)} (h : storedMatch q g ts s = .ok (t, r)) : Request s t := by
  induction ts generalizing s with
  | nil =>
    cases h
    exact .refl _
  | cons x xs ih =>
    unfold storedMatch at h
    split at h
    · cases h
    next s1 fs bad read =>
      have first := readTuple_request read
      split at h
      · cases h
        exact first
      · exact first.trans (ih h)
theorem depositStep_slice {q : TupleReq} {g : Region} {s t : State} (h : depositStep q g s = .ok t) : SliceStep s t := by
  unfold depositStep at h
  dsimp only at h
  split at h
  · cases h
    exact .reply _ (.reply _ (.replies _ _ (.refl s)))
  · cases h
    exact .reply _ (.replies _ _ (.refl s))
  · split at h <;> cases h
    exact .reply _ (.replies _ _ (.space (physWrite_request _ _ _ _ _ _ ‹_›).sliceStep rfl))
theorem patternStep_slice {q : TupleReq} {g : Region} {s t : State} (h : patternStep q g s = .ok t) : SliceStep s t := by
  unfold patternStep at h
  split at h
  · cases h
  next s1 x fs bad found =>
    have read := (storedMatch_request found).sliceStep
    cases h
    refine .reply _ ?_
    split
    · exact .space read rfl
    · exact read
  next s1 found =>
    have read := (storedMatch_request found).sliceStep
    split at h
    · cases h
      exact .reply _ read
    · split at h <;> cases h
      · exact .reply _ read
      · exact .space read rfl
theorem requestStep_slice {q : TupleReq} {s t : State} (h : requestStep q s = .ok t) : SliceStep s t := by
  unfold requestStep at h
  split at h
  · cases h
  · split at h
    · cases h
    · split at h
      · exact depositStep_slice h
      · exact patternStep_slice h
theorem tupleStep_slice (slice : Nat) (s : State) : SliceStep s (tupleStep slice s) := by
  unfold tupleStep
  split
  · exact .refl s
  · split
    · exact requestStep_slice ‹_›
    · exact .refl s
    · exact .reply _ (.refl s)
theorem tupleWithdraw_keeps (num : Nat) (s : State) :
    (tupleWithdraw num s).h = s.h ∧ (tupleWithdraw num s).mem = s.mem ∧
      (tupleWithdraw num s).tuples.tuples = s.tuples.tuples := by
  unfold tupleWithdraw
  split <;> exact ⟨rfl, rfl, rfl⟩

/-! The stored match of a pattern (R100, R101). -/

section
variable {q : TupleReq} {g : Region} {ts : List Tuple} {s : State}

theorem mem_storedFor {u : Tuple} :
    u ∈ storedFor s q ↔ u ∈ s.tuples.tuples.filter fun t => t.region == q.region && t.slice == q.slice :=
  (byArrival_perm _ _).mem_iff
/-- What a stored match answers is one of the tuples it compares, and its fields match. -/
theorem storedMatch_some {s1 : State} {t : Tuple} {fs : List Word} {bad : Bool}
    (h : storedMatch q g ts s = .ok (s1, some (t, fs, bad))) : t ∈ ts ∧ fieldsMatch q.mask q.fields fs = true := by
  induction ts generalizing s with
  | nil => cases h
  | cons x xs ih =>
    unfold storedMatch at h
    split at h
    · cases h
    · split at h
      next matched =>
        cases h
        exact ⟨List.mem_cons_self, matched⟩
      · exact (ih h).imp_left (List.mem_cons_of_mem x)

/-- R101: a stored tuple that the pattern matches, in a state that reading it does not change. -/
def StoredHit (q : TupleReq) (g : Region) (s : State) (u : Tuple) : Prop :=
  ∃ fs bad, readTuple g u s = .ok (s, fs, bad) ∧ fieldsMatch q.mask q.fields fs = true

variable (readable : ∀ u ∈ ts, ∃ fs bad, readTuple g u s = .ok (s, fs, bad))
include readable

theorem storedMatch_none (unmatched : ∀ u ∈ ts, ¬StoredHit q g s u) : storedMatch q g ts s = .ok (s, none) := by
  induction ts with
  | nil => rfl
  | cons x xs ih =>
    rw [List.forall_mem_cons] at readable unmatched
    obtain ⟨⟨fs, bad, read⟩, later⟩ := readable
    obtain ⟨missed, rest⟩ := unmatched
    have differs : fieldsMatch q.mask q.fields fs ≠ true := fun m => missed ⟨fs, bad, read, m⟩
    simp only [storedMatch, read, if_neg differs, ih later rest]
/-- R101: in arrival order, the match with the smallest arrival number is the first. -/
theorem storedMatch_first (sorted : ts.Pairwise (fun a b => a.arrival ≤ b.arrival)) {t : Tuple} {fs : List Word} {bad : Bool}
    (ht : t ∈ ts) (read : readTuple g t s = .ok (s, fs, bad)) (matched : fieldsMatch q.mask q.fields fs = true)
    (first : ∀ u ∈ ts, StoredHit q g s u → u = t ∨ t.arrival < u.arrival) :
    storedMatch q g ts s = .ok (s, some (t, fs, bad)) := by
  induction ts with
  | nil => exact absurd ht List.not_mem_nil
  | cons x xs ih =>
    rw [List.forall_mem_cons] at readable first
    obtain ⟨⟨fs', bad', readx⟩, later⟩ := readable
    obtain ⟨firstx, rest⟩ := first
    rw [List.pairwise_cons] at sorted
    obtain ⟨before, sorted⟩ := sorted
    by_cases hit : fieldsMatch q.mask q.fields fs' = true
    · have same : x = t := by
        rcases firstx ⟨fs', bad', readx, hit⟩ with same | lower
        · exact same
        · rcases List.mem_cons.1 ht with same | mem
          · exact same.symm
          · exact absurd (before t mem) (Nat.not_le.2 lower)
      subst same
      rw [read] at readx
      cases readx
      simp only [storedMatch, read, if_pos hit]
    · have other : t ≠ x := by
        rintro rfl
        rw [read] at readx
        cases readx
        exact hit matched
      simp only [storedMatch, readx, if_neg hit]
      exact ih later sorted ((List.mem_cons.1 ht).resolve_left other) rest
end

/-! The step on the slice's oldest request (R99, R101). -/

section
variable {o : SliceArgs} {q : TupleReq} {s t : State} {g : Region}
  (hq : s.tuples.requests.find? (fun q => q.slice == o.slice && !q.parked) = some q)

section
include hq

theorem tupleRequestStep_taken (h : requestStep q s = .ok t) : exec (.tupleRequestStep o) s = .next t := by
  simp only [exec_tupleRequestStep, execTupleRequestStep, tupleStep, hq, h]
theorem tupleRequestStep_refused {c : Nat} (hc : c ≠ 0) (h : requestStep q s = .error c) :
    exec (.tupleRequestStep o) s = .next (sendReply { req := q, fault := some c } s) := by
  obtain ⟨n, rfl⟩ := Nat.exists_eq_succ_of_ne_zero hc
  simp only [exec_tupleRequestStep, execTupleRequestStep, tupleStep, hq, h]
end

theorem requestStep_dead (hg : regionHere s q.region q.pa = none) : requestStep q s = .error 0x26 := by
  simp only [requestStep, hg]
  rfl

section
variable (hg : regionHere s q.region q.pa = some g)
include hg

theorem requestStep_checked {c : Nat}
    (hv : checkRequest (arrivalCtx q.machine q.coord (pageOf g q.pa)) q.pa 8 true true s = some c) :
    requestStep q s = .error c := by
  simp only [requestStep, hg, hv]

variable (hv : checkRequest (arrivalCtx q.machine q.coord (pageOf g q.pa)) q.pa 8 true true s = none)
include hv

theorem requestStep_deposit (hf : q.func = 0) : requestStep q s = depositStep q g s := by
  simp only [requestStep, hg, hv, hf, if_true]
theorem requestStep_pattern (hf : q.func ≠ 0) : requestStep q s = patternStep q g s := by
  simp only [requestStep, hg, hv, hf, if_false]
end

theorem parkedFor_congr {u : State} (h : u.tuples.requests = s.tuples.requests) {func : Nat} :
    parkedFor u q func = parkedFor s q func := by
  simp only [parkedFor, h]
theorem parkedFor_head {func : Nat} (h : (s.tuples.requests.filter fun c => c.parked && c.func == func &&
    c.region == q.region && c.slice == q.slice && fieldsMatch c.mask c.fields q.fields) = []) :
    (parkedFor s q func).head? = none := by
  rw [parkedFor, h]
  rfl
/-- R101: every parked copy that a deposit matches is served, in arrival order. -/
def serveCopies (q : TupleReq) (cs : List TupleReq) (s : State) : State :=
  cs.foldl (fun u c => sendReply { req := c, served := some q.fields } u) s

theorem depositStep_serves {c : TupleReq} (hc : (parkedFor s q 2).head? = some c) :
    depositStep q g s = .ok (sendReply { req := q }
      (sendReply { req := c, served := some q.fields } (serveCopies q (parkedFor s q 1) s))) := by
  simp only [depositStep, hc]
  rfl

section
variable (hc : (parkedFor s q 2).head? = none)
include hc

theorem depositStep_full (hf : freeSlot s g q.slice = none) :
    depositStep q g s = .ok (sendReply { req := q, status := 2 } (serveCopies q (parkedFor s q 1) s)) := by
  simp only [depositStep, hc, hf]
  rfl

variable {pa : Nat} (hf : freeSlot s g q.slice = some pa)
include hf

theorem depositStep_stores {s1 : State} {bad : Option Nat}
    (hw : physWrite (slotCtx (pageOf g pa)) pa (q.fields.flatMap fun f => bytesOf 8 f.toNat) s = .ok (s1, bad)) :
    depositStep q g s = .ok (sendReply { req := q } (serveCopies q (parkedFor s q 1) { s1 with tuples := { s1.tuples with
      tuples := s1.tuples.tuples ++ [⟨q.region, q.slice, pa, q.fields.length, s1.tuples.arrivals⟩]
      arrivals := s1.tuples.arrivals + 1 } })) := by
  have requests : s1.tuples.requests = s.tuples.requests := by rw [(physWrite_request _ _ _ _ _ _ hw).tuples]
  rw [← parkedFor_congr requests]
  simp only [depositStep, hc, hf, hw]
  rfl
theorem depositStep_denied {c at' : Nat}
    (hw : physWrite (slotCtx (pageOf g pa)) pa (q.fields.flatMap fun f => bytesOf 8 f.toNat) s = .error (c, at')) :
    depositStep q g s = .error c := by
  simp only [depositStep, hc, hf, hw]
end

section
variable {s1 : State}

/-- R101: the stored match is served, and a take removes it. -/
theorem patternStep_serves {x : Tuple} {fs : List Word} {bad : Bool}
    (h : storedMatch q g (storedFor s q) s = .ok (s1, some (x, fs, bad))) :
    patternStep q g s = .ok (sendReply { req := q, served := some fs, poison := bad } (if q.func = 2 ∨ q.func = 4 then
      { s1 with tuples := { s1.tuples with tuples := s1.tuples.tuples.filter fun u => u.pa != x.pa } } else s1)) := by
  simp only [patternStep, h, Bool.or_eq_true, decide_eq_true_eq]
theorem patternStep_denied {c : Nat} (h : storedMatch q g (storedFor s q) s = .error c) : patternStep q g s = .error c := by
  simp only [patternStep, h]

variable (h : storedMatch q g (storedFor s q) s = .ok (s1, none))
include h

theorem patternStep_empty (hf : 3 ≤ q.func) : patternStep q g s = .ok (sendReply { req := q, status := 1 } s1) := by
  simp only [patternStep, h, hf, if_true]

variable (hf : q.func < 3)
include hf

theorem patternStep_parkFull (hn : 4096 ≤ s1.tuples.requests.countP fun c => c.parked && c.slice == q.slice) :
    patternStep q g s = .ok (sendReply { req := q, status := 3 } s1) := by
  rw [List.countP_eq_length_filter] at hn
  simp only [patternStep, h, if_neg (Nat.not_le.2 hf), if_pos hn]
theorem patternStep_parks (hn : (s1.tuples.requests.countP fun c => c.parked && c.slice == q.slice) < 4096) :
    patternStep q g s = .ok { s1 with tuples := { s1.tuples with
      requests := (s1.tuples.requests.filter fun c => c.num != q.num) ++ [{ q with parked := true, arrival := s1.tuples.arrivals }]
      arrivals := s1.tuples.arrivals + 1 } } := by
  rw [List.countP_eq_length_filter] at hn
  simp only [patternStep, h, if_neg (Nat.not_le.2 hf), if_neg (Nat.not_le.2 hn)]
end
end

/-! Replies (R102, R104, R105). -/

/-- What an operation that ends changes of its hart. -/
def Hart.EndsOp (h t : Hart) : Prop :=
  t = { h with ops := t.ops, deps := t.deps, errs := t.errs, rows := t.rows, s := t.s, shadow := t.shadow }

theorem Hart.EndsOp.trans {h t u : Hart} (a : h.EndsOp t) (b : t.EndsOp u) : h.EndsOp u := by
  unfold Hart.EndsOp at *
  rw [b, a]
theorem setRegIn_endsOp (shadow : Bool) (h : Hart) (n : Nat) (v : Word) : h.EndsOp (h.setRegIn shadow n v) := by
  unfold Hart.EndsOp Hart.setRegIn
  split
  · rfl
  · split <;> rfl
theorem endOp_endsOp (h : Hart) (o : CountedOp) : h.EndsOp (endOp h o) := by
  unfold Hart.EndsOp endOp
  rw [lowerCounter_eq]
theorem opResult_endsOp (o : CountedOp) (v : Word) (h : Hart) : h.EndsOp (opResult o v h) := by
  unfold opResult
  generalize o.dest.toList ++ o.copy.toList = regs
  induction regs generalizing h with
  | nil => rfl
  | cons n regs ih =>
    exact Hart.EndsOp.trans (setRegIn_endsOp _ h n v) (ih _)
theorem completeTuple_endsOp (r : TupleReply) (o : CountedOp) (h : Hart) : h.EndsOp (completeTuple r o h) := by
  have ends := endOp_endsOp h o
  unfold completeTuple
  dsimp only
  split
  · exact ends
  · split
    · exact ends.trans rfl
    · exact ends.trans rfl
    · refine Hart.EndsOp.trans ?_ (opResult_endsOp _ _ _)
      split
      · split
        · refine ends.trans ?_
          unfold Hart.EndsOp
          rw [setOwnRow_rows]
        · exact ends
      · exact ends

section
variable {r : TupleReply} {s : State} (hr : r.req.coord = s.cur)
include hr

/-- R102: where an operation of the current hart's is outstanding, a reply that the hart's image does not keep ends it, or sends
its request again. -/
theorem landReply_lands {o : CountedOp} (kept : keptFor s r = false) (ho : s.h.ops.find? (tupleOp r.req.num) = some o) :
    landReply r s = if r.gone && r.req.saving then
        sendAgain r.req { s with tuples := { s.tuples with replies := s.tuples.replies.erase r } }
      else { s with tuples := { s.tuples with replies := s.tuples.replies.erase r }, h := completeTuple r o s.h } := by
  simp only [landReply, kept, Bool.false_eq_true, if_false, hartAt, hr, if_true, ho, setHart]
theorem landReply_idle (ho : s.h.ops.find? (tupleOp r.req.num) = none) :
    landReply r s = if keptFor s r then s else
      { s with tuples := { s.tuples with replies := s.tuples.replies.erase r } } := by
  simp only [landReply, hartAt, hr, if_true, ho]
/-- R102: a reply to the current hart changes its registers, counters and errors, and the tuple space. -/
theorem landReply_endsOp : (landReply r s).mem = s.mem ∧ s.h.EndsOp (landReply r s).h := by
  cases ho : s.h.ops.find? (tupleOp r.req.num) with
  | none =>
    rw [landReply_idle hr ho]
    split <;> exact ⟨rfl, rfl⟩
  | some o =>
    cases kept : keptFor s r with
    | true =>
      rw [landReply, kept, if_pos rfl]
      exact ⟨rfl, rfl⟩
    | false =>
      rw [landReply_lands hr kept ho]
      split
      · exact ⟨rfl, rfl⟩
      · exact ⟨rfl, completeTuple_endsOp r o s.h⟩
end

/-- TUPLE_REPLY lands a reply to the current hart, or does nothing. -/
theorem execTupleReply_cases (o : OpArgs) (s : State) : execTupleReply o s = .next s ∨
    ∃ r, r.req.coord = s.cur ∧ execTupleReply o s = .next (landReply r s) := by
  unfold execTupleReply
  split
  · split
    next r found =>
      have mine := List.find?_some found
      rw [Bool.and_eq_true, beq_iff_eq] at mine
      exact .inr ⟨r, mine.1, rfl⟩
    · exact .inl rfl
  · exact .inl rfl

section
variable {r : TupleReply} {o : CountedOp} {h : Hart}

theorem endOp_counted (hc : o.counter < 6) : endOp h o = { h with
    ops := h.ops.erase o, deps := h.deps.setIfInBounds o.counter (h.deps[o.counter]?.getD 0 - 1) } := by
  simp only [endOp, lowerCounter, if_neg (Nat.not_le.2 hc)]
theorem opResult_dest {d : Nat} {v : Word} (hd : o.dest = some d) (hc : o.copy = none) :
    opResult o v h = h.setRegIn o.shadow d v := by
  simp only [opResult, hd, hc, Option.toList_some, Option.toList_none, List.append_nil, List.foldl_cons, List.foldl_nil]

theorem completeTuple_gone (hg : r.gone = true) : completeTuple r o h = endOp h o := by
  simp only [completeTuple, hg, if_true]

variable (hg : r.gone = false)
include hg

theorem completeTuple_fault {c : Nat} (hf : r.fault = some c) :
    completeTuple r o h = (endOp h o).addErr ⟨c, r.req.handle, o.order⟩ := by
  simp only [completeTuple, hg, Bool.false_eq_true, if_false, hf]

variable (hf : r.fault = none)
include hf

theorem completeTuple_poison (hp : r.poison = true) :
    completeTuple r o h = (endOp h o).addErr ⟨0x30, r.req.handle, o.order⟩ := by
  simp only [completeTuple, hg, Bool.false_eq_true, if_false, hf, hp]
  rfl

variable (hp : r.poison = false) {d : Nat} (hd : o.dest = some d) (hc : o.copy = none)
include hp hd hc

theorem completeTuple_unserved (hs : r.served = none) :
    completeTuple r o h = (endOp h o).setRegIn o.shadow d (word r.status) := by
  simp only [completeTuple, hg, Bool.false_eq_true, if_false, hf, hp, hs, opResult_dest hd hc]
theorem completeTuple_served {fs : List Word} {row : Nat} (hs : r.served = some fs)
    (home : homeOf (endOp h o) r.req.vreg = some (.own row)) :
    completeTuple r o h = ((endOp h o).setOwnRow row (servedRow r.req fs ((endOp h o).ownRow row))).setRegIn o.shadow d
      (word r.status) := by
  simp only [completeTuple, hg, Bool.false_eq_true, if_false, hf, hp, hs, home, opResult_dest hd hc]
end

/-- Settles O41: the step's checks and its one effect, by the order of arrival; and each way a reply ends its operation. -/
theorem tupleSlices : Obligations.TupleSlices := by
  unfold Obligations.TupleSlices
  refine ⟨fun s o => ?_, fun s o => ?_, fun s o => ?_, fieldsMatch_iff, fun s o q hq => ⟨fun dead => ?_, fun g live => ?_⟩,
    fun s o q hq => ?_, fun s o p n f v r hp kind counter copy mine reply kept => ?_⟩
  · have step := tupleStep_slice o.slice s
    exact ⟨_, rfl, step.hart, step.regions, step.cur⟩
  · exact ⟨_, rfl, tupleWithdraw_keeps o.request s⟩
  · rcases execTupleReply_cases o s with idle | ⟨r, mine, lands⟩
    · exact ⟨s, idle, rfl, rfl, rfl, rfl, rfl, rfl, rfl⟩
    · obtain ⟨mem, hart⟩ := landReply_endsOp (r := r) mine
      refine ⟨_, lands, mem, ?_⟩
      rw [hart]
      exact ⟨rfl, rfl, rfl, rfl, rfl, rfl⟩
  · exact tupleRequestStep_refused hq (by decide) (requestStep_dead dead)
  · have taken : ∀ {t : State}, requestStep q s = .ok t → exec (.tupleRequestStep o) s = .next t := tupleRequestStep_taken hq
    have refused : ∀ {c : Nat}, c ≠ 0 → requestStep q s = .error c →
      exec (.tupleRequestStep o) s = .next (sendReply { req := q, fault := some c } s) := tupleRequestStep_refused hq
    refine ⟨fun c hc hv => refused hc (requestStep_checked live hv), fun hv deposit => ?_, fun hv pattern => ?_⟩
    · have step := requestStep_deposit live hv deposit
      refine ⟨parkedFor s q 1, byArrival_perm _ _, byArrival_pairwise _ _, fun taker => ?_, fun noTaker full => ?_,
        fun pa noTaker free => ⟨fun s2 bad written => ?_, fun c at' hc denied => ?_⟩⟩
      · obtain ⟨c, head, mem, least⟩ := byArrival_head (fun c : TupleReq => c.arrival) _ taker
        exact ⟨c, mem, least, taken (step.trans (depositStep_serves head))⟩
      · exact taken (step.trans (depositStep_full (parkedFor_head noTaker) full))
      · exact taken (step.trans (depositStep_stores (parkedFor_head noTaker) free written))
      · exact refused hc (step.trans (depositStep_denied (parkedFor_head noTaker) free denied))
    · have step := requestStep_pattern live hv pattern
      have unserved := fun s1 (missed : storedMatch q g (storedFor s q) s = .ok (s1, none)) =>
        And.intro (fun hf => taken (step.trans (patternStep_empty missed hf)))
          (And.intro (fun hf hn => taken (step.trans (patternStep_parkFull missed hf hn)))
            fun hf hn => taken (step.trans (patternStep_parks missed hf hn)))
      refine ⟨fun readable => ⟨fun t ht fs bad read matched first => ?_, fun missed => ?_⟩, fun s1 t fs bad found => ?_,
        unserved, fun c hc denied => ?_⟩
      · exact taken (step.trans (patternStep_serves (storedMatch_first (fun u hu => readable u (mem_storedFor.1 hu))
          (byArrival_pairwise _ _) (mem_storedFor.2 ht) read matched fun u hu => first u (mem_storedFor.1 hu))))
      · exact unserved s (storedMatch_none (fun u hu => readable u (mem_storedFor.1 hu))
          fun u hu => missed u (mem_storedFor.1 hu))
      · obtain ⟨mem, matched⟩ := storedMatch_some found
        exact ⟨mem_storedFor.1 mem, matched, taken (step.trans (patternStep_serves found))⟩
      · exact refused hc (step.trans (patternStep_denied denied))
  · simp only [exec_tupleWithdraw, execTupleWithdraw, tupleWithdraw, hq]
  · have same := List.find?_some reply
    rw [Bool.and_eq_true, beq_iff_eq, tupleOp, kind, beq_iff_eq] at same
    obtain ⟨coord, num⟩ := same
    have lands : exec (.tupleReply o) s = .next (landReply r s) := by
      simp only [exec_tupleReply, execTupleReply, hp, reply]
    rw [lands, landReply_lands coord kept (num ▸ mine)]
    refine ⟨fun gone saving => ?_, fun gone saving => ?_, fun c live fault => ?_, fun live sound poison => ?_,
      fun d row fs live sound clean dest => ⟨fun unserved => ?_, fun served home => ?_⟩⟩
    · rw [gone, saving, completeTuple_gone gone, endOp_counted counter]
      rfl
    · rw [gone, saving]
      rfl
    · rw [live, completeTuple_fault live fault, endOp_counted counter]
      rfl
    · rw [live, completeTuple_poison live sound poison, endOp_counted counter]
      rfl
    · rw [live, completeTuple_unserved live sound clean dest copy unserved, endOp_counted counter]
      rfl
    · rw [← endOp_counted counter] at home
      rw [live, completeTuple_served live sound clean dest copy served home, endOp_counted counter]
      rfl

end Sys2Proof.Machine
end

section
namespace Sys2Proof.Machine

/-! ENGINE words (R119): how a ready hart's word ends once its guard holds. -/

/-- What R35 needs to know of an ENGINE word with these operands, its address check passed. -/
structure EngineWord (i : Info) (func : Nat) (o : RArgs) (s : State) : Prop where
  word : i.word = rWord 0x2A func o
  major : i.major = 0x2A
  guard : i.guard = .pred o.neg o.guard.toNat
  size : i.size = 4
  stall : i.stall = o.stall.toNat
  level : i.level = .user
  vector : i.vector = false
  linked : i.linked = false
  settles : i.settles = false
  role : (i.address && s.h.role == .computer) = false

theorem engineWord_info {func : Nat} {o : RArgs} {dest : DestKind} {reads : List (BitVec 5)} {s : State} :
    EngineWord (engineInfo func o dest reads) func o s := ⟨rfl, rfl, rfl, rfl, rfl, rfl, rfl, rfl, rfl, rfl⟩
/-- R34: a crew computer may not issue an ENGINE word that names an address. -/
theorem engineWord_address {func : Nat} {o : RArgs} {dest : DestKind} {reads : List (BitVec 5)} {s : State}
    (hrole : s.h.role ≠ .computer) :
    EngineWord { engineInfo func o dest reads with address := true } func o s :=
  ⟨rfl, rfl, rfl, rfl, rfl, rfl, rfl, rfl, rfl, beq_eq_false_iff_ne.2 hrole⟩

theorem majorAllowed_engine (r : Role) : majorAllowed r 0x2A = true := by cases r <;> rfl

section
variable {i : Info} {func : Nat} {o : RArgs} {s t : State} {body : Act Unit} (hi : EngineWord i func o s) (hr : s.Ready)
  (hg : s.guarded o.guard o.neg)
include hi

theorem EngineWord.checks : Checks i (pure ()) (pure ()) s :=
  ⟨hi.major ▸ majorAllowed_engine _, rfl, hi.level ▸ Nat.zero_le _, hi.role, rfl⟩

/-- An ENGINE word past its checks does what its work does from this state. -/
theorem issue_engine_congr {body' : Act Unit} (hr : s.Ready) (h : body s = body' s) :
    issue i (andNext body) s = issue i (andNext body') s := by
  rw [issue_ready _ _ _ _ _ s hr hi.checks, issue_ready _ _ _ _ _ s hr hi.checks]
  simp only [andNext, act_bind, h]

include hr hg
theorem EngineWord.holds : s.h.guardHolds i.guard = true := hi.guard ▸ guardHolds_pred s _ _ hr hg

theorem issue_engine_seq (hb : body s = .ok () t) (hp : t.h.pfx = none) :
    issue i (andNext body) s = .next (t.past 4 o.stall.toNat) := by
  rw [← hi.size, ← hi.stall]
  exact issue_seq _ _ _ _ _ s t hr hi.checks (hi.holds hr hg) (andNext_ok _ _ _ hb) hp hi.vector
theorem issue_engine_trap {c : Nat} {v : Word} (hb : body s = .error (.trap c v) t) (hp : t.h.pfx = none) (hc : 4 < c) :
    issue i (andNext body) s = .next (State.trapped c v t.h.pc t) := by
  have access : (decide (1 ≤ c) && decide (c ≤ 4)) = false := by simp [hc]
  rw [issue_error _ _ _ _ _ s t _ hr hi.checks (hi.holds hr hg) (andNext_error _ _ _ _ hb) nofun, deliver,
    wordTrap_plain _ _ _ hp, access]
  rfl
/-- R25, R378: an ENGINE word that waits keeps what it read at issue, unless it is held there. -/
theorem issue_engine_waits {w : Wait} {instr : Instr} (hw : instr.word = rWord 0x2A func o)
    (hb : body s = .error (.wait w) t) : issue i (andNext body) s = .next (s.waits instr w t) := by
  refine (issue_wait _ _ _ _ _ s t w hr hi.checks (hi.holds hr hg) (andNext_error _ _ _ _ hb)).trans ?_
  have stops : waitStops i s.h.vstart w t = (w != .stop) := by
    cases w <;> simp only [waitStops, hi.linked, hi.vector] <;> rfl
  have held : ((!i.vector && t.h.given.isEmpty && (w == .register || w == .tuple || w == .engine)) = true) ↔
      t.h.given = [] ∧ (w = .register ∨ w = .tuple ∨ w = .engine) := by
    simp [hi.vector, or_assoc]
  simp only [deliver, latchWait, State.waits, stops, held, hi.size, hi.word, hi.settles, hw]
  rfl
end

/-! A core's channels (R109): the word in hand's core, and what an early commit leaves of them. -/

theorem channelNow_apply (ch : Nat) (s : State) : channelNow ch s = .ok (channelOf s (coreIndex s.cur) ch) s := rfl
theorem setChannelNow_apply (ch : Nat) (c : Channel) (s : State) :
    setChannelNow ch c s = .ok () (setChannel (coreIndex s.cur) ch c s) := rfl
theorem earlyCommit_cur (why : Nat) (s : State) : (earlyCommit why s).cur = s.cur := (earlyCommit_committed why s).cur
theorem earlyCommit_pc (why : Nat) (s : State) : (earlyCommit why s).h.pc = s.h.pc := by
  rw [(earlyCommit_committed why s).hart]
theorem earlyCommit_inHandler (why : Nat) (s : State) : (earlyCommit why s).h.inHandler = s.h.inHandler := by
  rw [(earlyCommit_committed why s).hart]
theorem channelOf_earlyCommit (why core ch : Nat) (s : State) :
    channelOf (earlyCommit why s) core ch = channelOf s core ch := by
  simp only [channelOf, coreOf, (earlyCommit_committed why s).cores]
theorem setChannelNow_earlyCommit (why ch : Nat) (c : Channel) (s : State) :
    setChannelNow ch c (earlyCommit why s) = .ok () (setChannel (coreIndex s.cur) ch c (earlyCommit why s)) := by
  rw [setChannelNow_apply, earlyCommit_cur]
/-- R109: a core has sixteen channels; a number above names an idle one. -/
theorem channelOf_above {s : State} {core ch : Nat} (h : 16 ≤ ch) : channelOf s core ch = {} := by
  simp [channelOf, Nat.not_lt.2 h]
theorem channelOf_setChannel {core ch : Nat} (h : ch < 16) (c : Channel) (s : State) :
    channelOf (setChannel core ch c s) core ch = c := by
  simp [channelOf, setChannel, h]

/-! CHARM (R121). -/

/-- R120, R121: a well-formed control word of CHARM. -/
def CharmForm (ctl : Word) : Prop := wbits ctl 63 44 = 0 ∧ wbits ctl 42 40 ≠ 7 ∧ wbits ctl 39 0 ≠ 0
theorem charmForm_iff {ctl : Word} :
    (wbits ctl 63 44 == 0 && wbits ctl 42 40 != 7 && wbits ctl 39 0 != 0) = true ↔ CharmForm ctl := by
  simp [CharmForm, and_assoc]
theorem overlapsChannel_false {c : Channel} {base size : Nat} : overlapsChannel c base size = false ↔
    (c.state = .idle ∨ ¬(base < c.base + c.expected * 2 ^ c.esize ∧ c.base < base + size)) := by
  by_cases h : c.state = .idle <;> simp [overlapsChannel, h]
/-- R121: a range of so many bytes ends in its half of the address space and overlaps none of the channels. -/
def RangeFree (cs : List Channel) (base size : Nat) : Prop :=
  base % 2 ^ 55 + size ≤ 2 ^ 55 ∧
    ∀ c ∈ cs, c.state = .idle ∨ ¬(base < c.base + c.expected * 2 ^ c.esize ∧ c.base < base + size)
theorem rangeFree_iff {cs : List Channel} {base size : Nat} :
    (!cs.any (fun c => overlapsChannel c base size) && decide (base % 2 ^ 55 + size ≤ 2 ^ 55)) = true ↔
      RangeFree cs base size := by
  rw [Bool.and_eq_true, Bool.not_eq_true', List.any_eq_false, decide_eq_true_iff, and_comm]
  simp only [Bool.not_eq_true, overlapsChannel_false, RangeFree]
theorem aligned_iff {base n : Nat} :
    (base % n == 0 && canonical base) = true ↔ base % n = 0 ∧ canonical base = true := by
  rw [Bool.and_eq_true, beq_iff_eq]

section
variable {o : RArgs} {s : State} (hr : s.Ready) (hg : s.guarded o.guard o.neg) (hrole : s.h.role ≠ .computer)
include hr hg hrole

theorem execCharm_busy (hc : (channelOf s (coreIndex s.cur) o.d.toNat).state ≠ .idle) :
    execCharm o s = .next (State.trapped 0x21 (word o.d.toNat) s.h.pc s) := by
  unfold execCharm
  refine issue_engine_trap (engineWord_address hrole) hr hg (c := 0x21) ?_ hr.pfx (by decide)
  refine (act_bind_ok (getH_apply s)).trans ?_
  refine (act_bind_ok (channelNow_apply _ s)).trans ?_
  exact act_bind_error (require_not (beq_eq_false_iff_ne.2 hc) _ _ s)

variable (idle : (channelOf s (coreIndex s.cur) o.d.toNat).state = .idle)
include idle

theorem execCharm_illFormed (hf : ¬CharmForm (s.h.reg o.b.toNat)) :
    execCharm o s = .next (State.trapped 0x22 (s.h.reg o.b.toNat) s.h.pc s) := by
  unfold execCharm
  refine issue_engine_trap (engineWord_address hrole) hr hg (c := 0x22) ?_ hr.pfx (by decide)
  refine (act_bind_ok (getH_apply s)).trans ?_
  refine (act_bind_ok (channelNow_apply _ s)).trans ?_
  refine (act_bind_ok (require_of (beq_iff_eq.2 idle) _ _ s)).trans ?_
  exact act_bind_error (require_not (Bool.eq_false_iff.2 (mt charmForm_iff.1 hf)) _ _ s)

variable (form : CharmForm (s.h.reg o.b.toNat))
  {base size : Nat} (hb : (s.h.reg o.a.toNat).toNat = base)
  (hs : wbits (s.h.reg o.b.toNat) 39 0 * 2 ^ wbits (s.h.reg o.b.toNat) 42 40 = size)
include form hb hs

theorem execCharm_illegal (hl : ¬((base % 2 ^ wbits (s.h.reg o.b.toNat) 42 40 = 0 ∧ canonical base = true) ∧
      RangeFree (coreOf s (coreIndex s.cur)).channels.toList base size)) :
    execCharm o s = .next (State.trapped 0x22 (s.h.reg o.a.toNat) s.h.pc s) := by
  subst hb hs
  unfold execCharm
  refine issue_engine_trap (engineWord_address hrole) hr hg (c := 0x22) ?_ hr.pfx (by decide)
  refine (act_bind_ok (getH_apply s)).trans ?_
  refine (act_bind_ok (channelNow_apply _ s)).trans ?_
  refine (act_bind_ok (require_of (beq_iff_eq.2 idle) _ _ s)).trans ?_
  refine (act_bind_ok (require_of (charmForm_iff.2 form) _ _ s)).trans ?_
  by_cases aligned : (s.h.reg o.a.toNat).toNat % 2 ^ wbits (s.h.reg o.b.toNat) 42 40 = 0 ∧
      canonical (s.h.reg o.a.toNat).toNat = true
  · refine (act_bind_ok (require_of (aligned_iff.2 aligned) _ _ s)).trans ?_
    refine (act_bind_ok (get_apply s)).trans ?_
    exact act_bind_error (require_not (Bool.eq_false_iff.2 fun free => hl ⟨aligned, rangeFree_iff.1 free⟩) _ _ s)
  · exact act_bind_error (require_not (Bool.eq_false_iff.2 (mt aligned_iff.1 aligned)) _ _ s)

theorem execCharm_arms (aligned : base % 2 ^ wbits (s.h.reg o.b.toNat) 42 40 = 0 ∧ canonical base = true)
    (free : RangeFree (coreOf s (coreIndex s.cur)).channels.toList base size) :
    execCharm o s = .next ((setChannel (coreIndex s.cur) o.d.toNat
      { state := .armed, owner := coordSlot s.cur, base := base, esize := wbits (s.h.reg o.b.toNat) 42 40
        expected := wbits (s.h.reg o.b.toNat) 39 0, uie := wbit (s.h.reg o.b.toNat) 43 } (earlyCommit 2 s)).past 4
      o.stall.toNat) := by
  subst hb hs
  unfold execCharm
  refine issue_engine_seq (engineWord_address hrole) hr hg ?_ ((earlyCommit_pfx 2 s).trans hr.pfx)
  refine (act_bind_ok (getH_apply s)).trans ?_
  refine (act_bind_ok (channelNow_apply _ s)).trans ?_
  refine (act_bind_ok (require_of (beq_iff_eq.2 idle) _ _ s)).trans ?_
  refine (act_bind_ok (require_of (charmForm_iff.2 form) _ _ s)).trans ?_
  refine (act_bind_ok (require_of (aligned_iff.2 aligned) _ _ s)).trans ?_
  refine (act_bind_ok (get_apply s)).trans ?_
  refine (act_bind_ok (require_of (rangeFree_iff.2 free) _ _ s)).trans ?_
  refine (act_bind_ok (commit_apply 2 s)).trans ?_
  exact setChannelNow_earlyCommit 2 _ _ s
end

/-! STREAM (R122): the routine's entry (R115, R116), then the stream. -/

theorem routineEntry_vendor {n : Nat} (hn : n < 16) (s : State) :
    routineEntry n s = .ok (if n ≤ 4 then some (0, decide (n ≠ 0)) else none) s := by
  unfold routineEntry
  by_cases h : n ≤ 4
  · rw [if_pos h, if_pos h]
    cases n <;> rfl
  · rw [if_neg h, if_neg h, if_pos hn]
    rfl
/-- R115: an entry of the routine table that is read. -/
theorem routineEntry_table {n : Nat} {s s1 : State} {bs : List Byte} (hn : 16 ≤ n)
    (hb : physRead { initiator := 0x10 + engineOf (coreIndex s.cur) } (s.h.csr.cerout.toNat + 16 * n) 16 s =
      .ok (s1, bs, none)) :
    routineEntry n s = .ok (if (leAt bs 8 4 = 1 ∨ leAt bs 8 4 = 3) ∧ leAt bs 12 4 = 0 ∧ leAt bs 0 8 % 4 = 0 then
      some (leAt bs 0 8, decide (leAt bs 8 4 = 3)) else none) s1 := by
  unfold routineEntry
  rw [if_neg (by omega), if_neg (by omega)]
  simp only [act_bind, get_apply, hb, set_apply]
  split
  next valid =>
    rcases valid.1 with flags | flags <;> rw [flags] <;> rfl
  next => rfl
/-- R115: a routine's entry is read by a request of the engine, if at all. -/
theorem routineEntry_request {n : Nat} {s s1 : State} {entry : Option (Nat × Bool)}
    (h : routineEntry n s = .ok entry s1) : Request s s1 := by
  by_cases hn : n < 16
  · rw [routineEntry_vendor hn] at h
    cases h
    exact .refl s
  · unfold routineEntry at h
    rw [if_neg (by omega), if_neg hn] at h
    simp only [act_bind, get_apply] at h
    generalize read : physRead _ _ _ s = answer at h
    rcases answer with ⟨_ | _, at'⟩ | ⟨u, bs, _ | bad⟩
    · cases h
    · cases h
      exact .refl s
    · simp only [act_bind, set_apply] at h
      split at h <;> cases h <;> exact physRead_request _ _ _ _ _ _ _ read
    · cases h
      exact physRead_request _ _ _ _ _ _ _ read

/-- R122: a channel that the hart may issue a stream into, unless it has failed. -/
def Channel.Mine (c : Channel) (s : State) : Prop := c.owner = coordSlot s.cur ∧ c.held = false ∧ c.state ≠ .idle
theorem mine_iff {c : Channel} {s : State} :
    (c.owner == coordSlot s.cur && !c.held && c.state != .idle) = true ↔ c.Mine s := by
  simp [Channel.Mine, and_assoc]
/-- R120, R122: a well-formed control word of STREAM on a channel, with its routine's entry. -/
def StreamForm (ctl : Word) (c : Channel) (entry : Option (Nat × Bool)) : Prop :=
  wbits ctl 63 48 = 0 ∧ wbits ctl 15 11 = 0 ∧ wbits ctl 10 8 = c.esize ∧ entry.isSome = true
theorem streamForm_iff {ctl : Word} {c : Channel} {entry : Option (Nat × Bool)} :
    (wbits ctl 63 48 == 0 && wbits ctl 15 11 == 0 && wbits ctl 10 8 == c.esize && entry.isSome) = true ↔
      StreamForm ctl c entry := by
  simp [StreamForm, and_assoc]
/-- R111, R122: the stream of n elements that STREAM issues into a channel. -/
def streamOf (o : RArgs) (s : State) (c : Channel) (n : Nat) (entry : Option (Nat × Bool)) : Stream :=
  { src := (s.h.reg o.a.toNat).toNat, first := c.issued, n := n, routine := wbits (s.h.reg o.b.toNat) 7 0
    param := wbits (s.h.reg o.b.toNat) 47 16, scouted := (entry.map (·.2)).getD false, dist := wbits s.h.csr.scout 11 0
    root := s.h.csr.ptroot, mode := s.h.mode, entry := (entry.map (·.1)).getD 0 }

section
variable {o : RArgs} {s : State} (hr : s.Ready) (hg : s.guarded o.guard o.neg) (hrole : s.h.role ≠ .computer)
  {c : Channel} (hc : channelOf s (coreIndex s.cur) o.d.toNat = c)
include hr hg hrole hc

theorem execStream_foreign (foreign : ¬c.Mine s) :
    execStream o s = .next (State.trapped 0x21 (word o.d.toNat) s.h.pc s) := by
  subst hc
  unfold execStream
  refine issue_engine_trap (engineWord_address hrole) hr hg (c := 0x21) ?_ hr.pfx (by decide)
  refine (act_bind_ok (get_apply s)).trans ?_
  refine (act_bind_ok (channelNow_apply _ s)).trans ?_
  exact act_bind_error (require_not (Bool.eq_false_iff.2 (mt mine_iff.1 foreign)) _ _ s)

variable (mine : c.Mine s)
include mine

theorem execStream_failed (failed : c.state = .failed) :
    execStream o s = .next (State.trapped 0x23 (word o.d.toNat) s.h.pc s) := by
  subst hc
  unfold execStream
  refine issue_engine_trap (engineWord_address hrole) hr hg (c := 0x23) ?_ hr.pfx (by decide)
  refine (act_bind_ok (get_apply s)).trans ?_
  refine (act_bind_ok (channelNow_apply _ s)).trans ?_
  refine (act_bind_ok (require_of (mine_iff.2 mine) _ _ s)).trans ?_
  exact act_bind_error (require_not (bne_eq_false_iff_eq.2 failed) _ _ s)

variable (sound : c.state ≠ .failed) {s1 : State} {entry : Option (Nat × Bool)}
  (he : routineEntry (wbits (s.h.reg o.b.toNat) 7 0) s = .ok entry s1)
include sound he

omit hr hg hrole hc in
/-- R122: on a channel that it may use, STREAM goes on with its routine's entry. -/
theorem streamChecks_pass {v : Word} {f : Option (Nat × Bool) → Act Unit} :
    (do require (c.owner == coordSlot s.cur && !c.held && c.state != .idle) cChannelBusy v
        require (c.state != .failed) cChannelFailed v
        let entry ← routineEntry (wbits (s.h.reg o.b.toNat) 7 0)
        f entry : Act Unit) s = f entry s1 :=
  (act_bind_ok (require_of (mine_iff.2 mine) _ _ s)).trans
    ((act_bind_ok (require_of (bne_iff_ne.2 sound) _ _ s)).trans (act_bind_ok he))

variable (hp : s1.h.pfx = none)
include hp

theorem execStream_illFormed (hf : ¬StreamForm (s.h.reg o.b.toNat) c entry) :
    execStream o s = .next (State.trapped 0x22 (s.h.reg o.b.toNat) s1.h.pc s1) := by
  subst hc
  unfold execStream
  refine issue_engine_trap (engineWord_address hrole) hr hg (c := 0x22) ?_ hp (by decide)
  refine (act_bind_ok (get_apply s)).trans ?_
  refine (act_bind_ok (channelNow_apply _ s)).trans ?_
  refine (streamChecks_pass mine sound he).trans ?_
  exact act_bind_error (require_not (Bool.eq_false_iff.2 (mt streamForm_iff.1 hf)) _ _ s1)

variable (form : StreamForm (s.h.reg o.b.toNat) c entry) {n : Nat} (hn : s.h.vl * (s.h.slot false).rows = n)
include form hn

theorem execStream_overcommits (beyond : c.expected < c.issued + n) :
    execStream o s = .next (State.trapped 0x24 (word (c.expected - c.issued)) s1.h.pc s1) := by
  subst hc hn
  unfold execStream
  refine issue_engine_trap (engineWord_address hrole) hr hg (c := 0x24) ?_ hp (by decide)
  refine (act_bind_ok (get_apply s)).trans ?_
  refine (act_bind_ok (channelNow_apply _ s)).trans ?_
  refine (streamChecks_pass mine sound he).trans ?_
  refine (act_bind_ok (require_of (streamForm_iff.2 form) _ _ s1)).trans ?_
  exact act_bind_error (require_not (decide_eq_false (Nat.not_le.2 beyond)) _ _ s1)

variable (fits : c.issued + n ≤ c.expected)
include fits

theorem execStream_empty (empty : n = 0) :
    execStream o s = .next ((earlyCommit 2 s1).past 4 o.stall.toNat) := by
  subst hc hn
  unfold execStream
  refine issue_engine_seq (engineWord_address hrole) hr hg ?_ ((earlyCommit_pfx 2 s1).trans hp)
  refine (act_bind_ok (get_apply s)).trans ?_
  refine (act_bind_ok (channelNow_apply _ s)).trans ?_
  refine (streamChecks_pass mine sound he).trans ?_
  refine (act_bind_ok (require_of (streamForm_iff.2 form) _ _ s1)).trans ?_
  refine (act_bind_ok (require_of (decide_eq_true fits) _ _ s1)).trans ?_
  exact (congrFun (if_pos empty) s1).trans (commit_apply 2 s1)

variable (some : n ≠ 0)
include some

omit hp in
/-- R108: a seventeenth stream waits at issue. -/
theorem execStream_waits (full : 16 ≤ c.streams.length) :
    execStream o s = .next (s.waits (.stream o) .engine s1) := by
  subst hc hn
  unfold execStream
  refine issue_engine_waits (engineWord_address hrole) hr hg rfl ?_
  refine (act_bind_ok (get_apply s)).trans ?_
  refine (act_bind_ok (channelNow_apply _ s)).trans ?_
  refine (streamChecks_pass mine sound he).trans ?_
  refine (act_bind_ok (require_of (streamForm_iff.2 form) _ _ s1)).trans ?_
  refine (act_bind_ok (require_of (decide_eq_true fits) _ _ s1)).trans ?_
  refine (congrFun (if_neg some) s1).trans ?_
  exact (congrFun (if_pos full) s1).trans (act_bind_error rfl)

theorem execStream_queues (room : c.streams.length < 16) (loaded : s1.loaded) (ops : s1.h.ops = [])
    (before : unstepped s1 = false) (after : unstepped (earlyCommit 2 s1) = false) :
    execStream o s = .next ((setChannel (coreIndex s.cur) o.d.toNat { c with
      state := .running, issued := c.issued + n, streams := c.streams ++ [streamOf o s c n entry] }
        (earlyCommit 2 s1)).past 4 o.stall.toNat) := by
  rw [← (routineEntry_request he).cur]
  subst hc hn
  unfold execStream
  refine issue_engine_seq (engineWord_address hrole) hr hg ?_ ((earlyCommit_pfx 2 s1).trans hp)
  refine (act_bind_ok (get_apply s)).trans ?_
  refine (act_bind_ok (channelNow_apply _ s)).trans ?_
  refine (streamChecks_pass mine sound he).trans ?_
  refine (act_bind_ok (require_of (streamForm_iff.2 form) _ _ s1)).trans ?_
  refine (act_bind_ok (require_of (decide_eq_true fits) _ _ s1)).trans ?_
  refine (congrFun (if_neg some) s1).trans ?_
  refine (congrFun (if_neg (Nat.not_le.2 room)) s1).trans ?_
  refine (act_bind_ok (performEarlier_idle loaded ops before after)).trans ?_
  exact setChannelNow_earlyCommit 2 _ _ s1
end

/-! CHSTAT (R123). -/

theorem bitNat_mul (b : Bool) (n : Nat) : bitNat b * n = if b then n else 0 := by
  cases b
  · exact Nat.zero_mul n
  · exact Nat.one_mul n
theorem ite_state {c : Channel} {x : ChanState} (m n : Nat) :
    (if c.state == x then m else n) = if c.state = x then m else n := if_congr beq_iff_eq rfl rfl
theorem chstatWord_eq (c : Channel) : chstatWord c = word (stateNum c.state * 2 ^ 61 + (if c.uip then 2 ^ 60 else 0) +
    (if c.state = .failed then c.fcause else 0) * 2 ^ 57 + (if c.state = .idle then 0 else c.landed) % 2 ^ 40) := by
  rw [chstatWord, bitNat_mul, ite_state, ite_state]
/-- R40, R51: a counted CHSTAT is outstanding on counter k, with destination d. -/
def State.chstats (o : RArgs) (t : State) : State :=
  { t with h := { t.h with
    ops := [{ kind := .chstat o.a.toNat, counter := o.b.toNat, dest := some o.d.toNat, copy := none
              shadow := t.h.inHandler, order := t.h.words }]
    deps := t.h.deps.setIfInBounds o.b.toNat ((t.h.deps[o.b.toNat]?.getD 0) + 1), lastd := o.d } }
theorem addOp_chstat {o : RArgs} {t : State} (hc : o.b.toNat < 6) (ho : t.h.ops = []) (hp : t.h.pfx = none) :
    addOp (.chstat o.a.toNat) o.b.toNat (some o.d.toNat) t = .ok () (t.chstats o) := by
  simp [addOp, raiseCounter, act_bind, modH_apply, hc, ho, Hart.copyReg, hp, State.chstats]

section
variable {o : RArgs} {s : State} (hr : s.Ready) (hg : s.guarded o.guard o.neg)
include hr hg

theorem execChstat_reads (hb : o.b = 7) : execChstat o s = .next (((earlyCommit 2 s).wrote o.d
    (chstatWord (channelOf (earlyCommit 2 s) (coreIndex s.cur) o.a.toNat)) 1 0).past 4 o.stall.toNat) := by
  have ready := (earlyCommit_committed 2 s).ready hr
  rw [← earlyCommit_cur 2 s]
  unfold execChstat
  refine issue_engine_seq engineWord_info hr hg ?_ ((State.wrote_pfx ..).trans ready.pfx)
  rw [hb]
  refine (act_bind_ok (counterRoom_uncounted s)).trans ?_
  refine (act_bind_ok (commit_apply 2 s)).trans ?_
  refine (act_bind_ok (channelNow_apply _ _)).trans ?_
  exact writeD_ready _ _ _ _ _ ready

theorem execChstat_counts (hc : o.b.toNat < 6) (room : s.h.deps[o.b.toNat]?.getD 0 < 63) :
    execChstat o s = .next (((earlyCommit 2 s).chstats o).past 4 o.stall.toNat) := by
  have ready := (earlyCommit_committed 2 s).ready hr
  unfold execChstat
  refine issue_engine_seq engineWord_info hr hg ?_ ready.pfx
  refine (act_bind_ok (counterRoom_room room)).trans ?_
  refine (act_bind_ok (commit_apply 2 s)).trans ?_
  rw [counterOf_some hc]
  exact addOp_chstat hc ready.ops ready.pfx
end

/-! CHCLR (R124). -/

/-- R124: a running channel that CHCLR fails: cause 4, and no completion interrupt. -/
theorem failChannel_cleared (c : Channel) :
    failChannel c 4 = { c with state := .failed, fcause := 4, streams := [], ahead := [] } := by
  simp [failChannel]
theorem failAt_cur (core ch cause : Nat) (s : State) : (failAt core ch cause s).cur = s.cur := rfl
theorem failAt_mem (core ch cause : Nat) (s : State) : (failAt core ch cause s).mem = s.mem := rfl
theorem channelOf_failAt {core ch : Nat} (h : ch < 16) (cause : Nat) (s : State) :
    channelOf (failAt core ch cause s) core ch = failChannel (channelOf s core ch) cause :=
  channelOf_setChannel h _ _
theorem channelOf_running {s : State} {core ch : Nat} (h : (channelOf s core ch).state = .running) : ch < 16 := by
  by_contra above
  rw [channelOf_above (Nat.not_lt.1 above)] at h
  cases h

section
variable {ch : Nat} {s : State}

theorem clearChannel_running (h : (channelOf s (coreIndex s.cur) ch).state = .running) :
    clearChannel ch s = .error (.wait .stop) (setChannel (coreIndex s.cur) ch
      { failChannel (channelOf s (coreIndex s.cur) ch) 4 with clearing := true } (failAt (coreIndex s.cur) ch 4 s)) := by
  unfold clearChannel
  refine (act_bind_ok (channelNow_apply ch s)).trans ?_
  refine (act_bind_ok (get_apply s)).trans ?_
  refine (congrFun (if_pos (beq_iff_eq.2 h)) s).trans ?_
  refine (act_bind_ok (modify_apply _ s)).trans ?_
  refine (act_bind_ok (channelNow_apply ch _)).trans ?_
  rw [failAt_cur, channelOf_failAt (channelOf_running h)]
  exact act_bind_ok (setChannelNow_apply _ _ _)

variable (h : (channelOf s (coreIndex s.cur) ch).state ≠ .running)
include h
theorem clearChannel_held (held : landingHeld (coreIndex s.cur) ch s = true) :
    clearChannel ch s = .error (.wait .stop) s := by
  unfold clearChannel
  refine (act_bind_ok (channelNow_apply ch s)).trans ?_
  refine (act_bind_ok (get_apply s)).trans ?_
  refine (congrFun (if_neg (mt beq_iff_eq.1 h)) s).trans ?_
  exact congrFun (if_pos held) s
theorem clearChannel_stopped (stopped : landingHeld (coreIndex s.cur) ch s = false) :
    clearChannel ch s = .ok () (setChannel (coreIndex s.cur) ch (channelOf s (coreIndex s.cur) ch).toIdle s) := by
  unfold clearChannel
  refine (act_bind_ok (channelNow_apply ch s)).trans ?_
  refine (act_bind_ok (get_apply s)).trans ?_
  refine (congrFun (if_neg (mt beq_iff_eq.1 h)) s).trans ?_
  exact (congrFun (if_neg (Bool.eq_false_iff.1 stopped)) s).trans (setChannelNow_apply _ _ _)
end

/-- R124: a channel that a hart may clear. -/
def Channel.Clearable (c : Channel) (s : State) : Prop := s.h.mode = .user → c.owner = coordSlot s.cur ∧ c.held = false
theorem clearable_iff {c : Channel} {s : State} :
    (s.h.mode != .user || (c.owner == coordSlot s.cur && !c.held)) = true ↔ c.Clearable s := by
  by_cases user : s.h.mode = .user <;> simp [Channel.Clearable, user]

section
variable {o : RArgs} {s : State} (hr : s.Ready) (hg : s.guarded o.guard o.neg)
include hr hg

theorem execChclr_idle (idle : (channelOf s (coreIndex s.cur) o.d.toNat).state = .idle) :
    execChclr o s = .next ((earlyCommit 2 s).past 4 o.stall.toNat) := by
  unfold execChclr
  refine issue_engine_seq engineWord_info hr hg ?_ ((earlyCommit_pfx 2 s).trans hr.pfx)
  refine (act_bind_ok (get_apply s)).trans ?_
  refine (act_bind_ok (channelNow_apply _ s)).trans ?_
  refine (act_bind_ok (commit_apply 2 s)).trans ?_
  exact congrFun (if_pos (beq_iff_eq.2 idle)) _

variable (used : (channelOf s (coreIndex s.cur) o.d.toNat).state ≠ .idle)
include used

theorem execChclr_foreign (foreign : ¬(channelOf s (coreIndex s.cur) o.d.toNat).Clearable s) :
    execChclr o s = .next (State.trapped 0x21 (word o.d.toNat) s.h.pc (earlyCommit 2 s)) := by
  rw [← earlyCommit_pc 2 s]
  unfold execChclr
  refine issue_engine_trap engineWord_info hr hg (c := 0x21) ?_ ((earlyCommit_pfx 2 s).trans hr.pfx) (by decide)
  refine (act_bind_ok (get_apply s)).trans ?_
  refine (act_bind_ok (channelNow_apply _ s)).trans ?_
  refine (act_bind_ok (commit_apply 2 s)).trans ?_
  refine (congrFun (if_neg (mt beq_iff_eq.1 used)) _).trans ?_
  exact act_bind_error (require_not (Bool.eq_false_iff.2 (mt clearable_iff.1 foreign)) _ _ _)

variable (mine : (channelOf s (coreIndex s.cur) o.d.toNat).Clearable s)
include mine

omit hg in
/-- R124: past the commit, CHCLR of a hart that may clear the channel clears it. -/
theorem execChclr_clears : execChclr o s =
    issue (engineInfo 7 o .none []) (andNext fun _ => clearChannel o.d.toNat (earlyCommit 2 s)) s := by
  unfold execChclr
  refine issue_engine_congr engineWord_info hr ?_
  refine (act_bind_ok (get_apply s)).trans ?_
  refine (act_bind_ok (channelNow_apply _ s)).trans ?_
  refine (act_bind_ok (commit_apply 2 s)).trans ?_
  refine (congrFun (if_neg (mt beq_iff_eq.1 used)) _).trans ?_
  exact act_bind_ok (require_of (clearable_iff.2 mine) _ _ _)

omit used in
theorem execChclr_fails (running : (channelOf s (coreIndex s.cur) o.d.toNat).state = .running) :
    let t := earlyCommit 2 s
    execChclr o s = .next (s.waits (.chclr o) .stop (setChannel (coreIndex s.cur) o.d.toNat
      { failChannel (channelOf s (coreIndex s.cur) o.d.toNat) 4 with clearing := true }
      (failAt (coreIndex s.cur) o.d.toNat 4 t))) := by
  intro t
  rw [execChclr_clears hr (by rw [running]; decide) mine]
  rw [← channelOf_earlyCommit 2, ← earlyCommit_cur 2 s] at running ⊢
  exact issue_engine_waits engineWord_info hr hg rfl (clearChannel_running running)

variable (stopped : (channelOf s (coreIndex s.cur) o.d.toNat).state ≠ .running)
include stopped

theorem execChclr_holds (held : landingHeld (coreIndex s.cur) o.d.toNat (earlyCommit 2 s) = true) :
    execChclr o s = .next (s.waits (.chclr o) .stop (earlyCommit 2 s)) := by
  rw [execChclr_clears hr used mine]
  rw [← channelOf_earlyCommit 2, ← earlyCommit_cur 2 s] at stopped
  rw [← earlyCommit_cur 2 s] at held
  exact issue_engine_waits engineWord_info hr hg rfl (clearChannel_held stopped held)
theorem execChclr_idles (landed : landingHeld (coreIndex s.cur) o.d.toNat (earlyCommit 2 s) = false) :
    execChclr o s = .next ((setChannel (coreIndex s.cur) o.d.toNat (channelOf s (coreIndex s.cur) o.d.toNat).toIdle
      (earlyCommit 2 s)).past 4 o.stall.toNat) := by
  rw [execChclr_clears hr used mine]
  rw [← earlyCommit_cur 2 s] at landed
  rw [← channelOf_earlyCommit 2, ← earlyCommit_cur 2 s] at stopped ⊢
  exact issue_engine_seq engineWord_info hr hg (clearChannel_stopped stopped landed) ((earlyCommit_pfx 2 s).trans hr.pfx)
end

/-- Settles O39: each word's checks come in order, and past them its one effect; an early commit leaves the channels alone. -/
theorem channelWords : Obligations.ChannelWords := by
  intro o s hr hg before after core t a ctl ch set waits traps number
  refine ⟨fun hrole => ?_, fun hrole => ?_, ?_, ?_⟩
  · refine ⟨execCharm_busy hr hg hrole, fun idle hf => ?_, fun idle reserved esize count => ?_⟩
    · exact execCharm_illFormed hr hg hrole idle fun ⟨reserved, esize, count⟩ => by tauto
    · have form : CharmForm ctl := ⟨reserved, esize, count⟩
      refine ⟨fun illegal => ?_, fun ⟨aligned, half, fits, free⟩ => ?_⟩
      · exact execCharm_illegal hr hg hrole idle form rfl rfl fun ⟨⟨aligned, half⟩, fits, free⟩ =>
          illegal ⟨aligned, half, fits, free⟩
      · rw [← wbit_eq]
        exact execCharm_arms hr hg hrole idle form rfl rfl ⟨aligned, half⟩ ⟨fits, free⟩
  · refine ⟨execStream_foreign hr hg hrole rfl, execStream_failed hr hg hrole rfl, fun vendor => routineEntry_vendor vendor s,
      fun s1 bs table read => routineEntry_table table read, fun s1 entry mine sound he hp => ?_⟩
    refine ⟨execStream_illFormed hr hg hrole rfl mine sound he hp,
      fun form => execStream_overcommits hr hg hrole rfl mine sound he hp form rfl,
      fun form fits => ⟨execStream_empty hr hg hrole rfl mine sound he hp form rfl fits,
        fun some full => execStream_waits hr hg hrole rfl mine sound he form rfl fits some full,
        fun some room loaded ops before after =>
          execStream_queues hr hg hrole rfl mine sound he hp form rfl fits some room loaded ops before after⟩⟩
  · refine ⟨fun hb => ?_, ?_⟩
    · rw [exec_chstat, execChstat_reads hr hg hb, chstatWord_eq]
      rfl
    · rw [← earlyCommit_inHandler 2 s]
      exact execChstat_counts hr hg
  · refine ⟨execChclr_idle hr hg, execChclr_foreign hr hg, fun used stopped mine _ => ⟨?_, ?_⟩, fun running mine _ => ?_⟩
    · exact execChclr_idles hr hg used mine stopped
    · exact execChclr_holds hr hg used mine stopped
    · have failed := failChannel_cleared ch
      refine ⟨?_, failAt_mem .., ?_⟩
      · rw [channelOf_failAt (channelOf_running running), channelOf_earlyCommit]
        exact failed
      · rw [← failed]
        exact execChclr_fails hr hg mine running

end Sys2Proof.Machine
end

section
namespace Sys2Proof.Machine

/-! The rows that a word in hand has remembered (R376) count for nothing once the word is left (R366, R247). -/

/-- The state with other rows remembered. -/
def State.withBefore (before : List (Nat × VRow)) (s : State) : State := { s with h := { s.h with before := before } }

theorem dropRequests_withBefore (before : List (Nat × VRow)) (coord : Nat) (s : State) :
    dropRequests coord (s.withBefore before) = (dropRequests coord s).withBefore before := by
  unfold dropRequests
  rw [apply_ite (State.withBefore before)]
  rfl
theorem releasePins_withBefore (before : List (Nat × VRow)) (coord : Nat) (s : State) :
    releasePins coord (s.withBefore before) = (releasePins coord s).withBefore before := by
  simp only [releasePins]
  rw [apply_ite (State.withBefore before)]
  rfl
theorem dropRequests_h (coord : Nat) (s : State) : (dropRequests coord s).h = s.h := by
  unfold dropRequests
  split <;> rfl
theorem releasePins_h (coord : Nat) (s : State) : (releasePins coord s).h = s.h := by
  simp only [releasePins]
  split <;> rfl
theorem landAll_leave_withBefore (before : List (Nat × VRow)) {s : State} (pend : s.h.pend = []) :
    (s.withBefore before).h.landAll.leave = s.h.landAll.leave := by
  rw [Hart.landAll_of_empty _ pend, Hart.landAll_of_empty _ (show (s.withBefore before).h.pend = [] from pend)]
  rfl

section
variable {s : State} (solo : s.h.role = .solo)
include solo

theorem endPins_solo : endPins s = releasePins s.cur s := by simp [endPins, solo]
theorem quietUnits_solo : quietUnits s = endPins s := by simp [quietUnits, solo]

theorem endPins_withBefore (before : List (Nat × VRow)) : endPins (s.withBefore before) = (endPins s).withBefore before := by
  rw [endPins_solo solo, endPins_solo (s := s.withBefore before) solo, ← releasePins_withBefore]
  rfl
/-- What a solo hart that leaves its word has before its strip commits. -/
theorem leave_withBefore (pend : s.h.pend = []) (before : List (Nat × VRow)) :
    (let t := endPins (dropRequests s.cur (s.withBefore before)); { t with h := t.h.landAll.leave } : State) =
      (let t := endPins (dropRequests s.cur s); { t with h := t.h.landAll.leave }) := by
  have solo' : (dropRequests s.cur s).h.role = .solo := by rw [dropRequests_h, solo]
  have pend' : (endPins (dropRequests s.cur s)).h.pend = [] := by
    rw [endPins_solo solo', releasePins_h, dropRequests_h, pend]
  rw [dropRequests_withBefore, endPins_withBefore solo']
  simp only [landAll_leave_withBefore before pend']
  rfl

/-- R366: the entry of a trap. -/
theorem takeTrap_withBefore (pend : s.h.pend = []) (before : List (Nat × VRow)) (cause : Nat) (int imp : Bool) (tval epc : Word)
    (pfxs : Option Nat) : takeTrap cause int imp tval epc pfxs (s.withBefore before) = takeTrap cause int imp tval epc pfxs s := by
  have quiet (t : State) (h : t.h.role = .solo) : quietUnits (dropRequests t.cur t) = endPins (dropRequests t.cur t) :=
    quietUnits_solo (by rw [dropRequests_h, h])
  unfold takeTrap
  rw [quiet s solo, quiet (s.withBefore before) solo]
  have left := leave_withBefore solo pend before
  dsimp only at left ⊢
  rw [show (s.withBefore before).cur = s.cur from rfl, left]
/-- R247: the entry of a user-level handler. -/
theorem enterUser_withBefore (pend : s.h.pend = []) (before : List (Nat × VRow)) (ret target : Word) :
    enterUser ret target (s.withBefore before) = enterUser ret target s := by
  unfold enterUser
  have left := leave_withBefore solo pend before
  dsimp only at left ⊢
  rw [show (s.withBefore before).cur = s.cur from rfl, left]
theorem entryWaits_solo : entryWaits s = !s.h.vq.isEmpty := by simp [entryWaits, solo]
theorem trapped_withBefore (pend : s.h.pend = []) (vq : s.h.vq = []) (before : List (Nat × VRow)) (c : Nat) (tval epc : Word) :
    State.trapped c tval epc (s.withBefore before) = State.trapped c tval epc s := by
  have enters (t : State) (h : t.h.role = .solo) (hq : t.h.vq = []) (f : State → State) : whenEntered f t = f t := by
    simp [whenEntered, entryWaits_solo h, hq]
  unfold State.trapped
  rw [enters s solo vq, enters (s.withBefore before) solo vq, takeTrap_withBefore solo pend]
end
end Sys2Proof.Machine
end

section
namespace Sys2Proof.Machine

/-! A solo hart's writes of rows leave alone what it knows of flags and of remembered rows (R182, R376). -/

/-- R182, R376: a hart with flags raised and rows remembered. -/
def Hart.noted (flags : Nat) (before : List (Nat × VRow)) (h : Hart) : Hart := { h.raiseFlags flags with before := before }
theorem setOwnRow_noted (flags : Nat) (before : List (Nat × VRow)) (h : Hart) (row : Nat) (w : Wide) :
    (h.noted flags before).setOwnRow row w = (h.setOwnRow row w).noted flags before :=
  List.foldl_hom (Hart.noted flags before) fun _ _ => rfl
theorem setName_noted (flags : Nat) (before : List (Nat × VRow)) (h : Hart) (name : Nat) (w : Wide) :
    (h.noted flags before).setName name w = (h.setName name w).noted flags before := by
  unfold Hart.setName
  rw [show homeOf (h.noted flags before) name = homeOf h name from rfl]
  split
  · exact setOwnRow_noted flags before h _ w
  · rfl

section
variable {s : State} (solo : s.h.role = .solo)
include solo

/-- R182, R376: a group's rows are written alike before and after flags are raised and rows remembered. -/
theorem writeGroup_noted (mx : Nat) (g : Group) (rows : List Wide) (flags : Nat) (before : List (Nat × VRow)) :
    writeGroup mx g rows { s with h := s.h.noted flags before } =
      { writeGroup mx g rows s with h := (writeGroup mx g rows s).h.noted flags before } := by
  unfold writeGroup
  rw [show homeOf (s.h.noted flags before) g.first = homeOf s.h g.first from rfl]
  rcases homeOf_solo s.h g.first solo with home | ⟨row, home⟩
  · rw [home]
  · have written := List.foldl_hom (Hart.noted flags before) (l := rows.zipIdx) (init := s.h)
      (g₁ := fun h e => h.setName (g.first + e.2) e.1) (g₂ := fun h e => h.setName (g.first + e.2) e.1)
      fun h e => setName_noted flags before h _ e.1
    rw [home]
    exact congrArg (fun h => ({ s with h := h } : State)) written
theorem writeGroup_role (mx : Nat) (g : Group) (rows : List Wide) : (writeGroup mx g rows s).h.role = .solo := by
  rw [writeGroup_solo mx g rows s solo, solo]
/-- R380: a solo hart's write of the rows that a stopped word has remembers the group's rows first (R376). -/
theorem writePart_solo (mx : Nat) (g : Group) (rows : List Wide) :
    writePart mx g rows s = writeGroup mx g rows { s with h := s.h.remember g } := by
  unfold writePart
  rcases homeOf_solo s.h g.first solo with home | ⟨row, home⟩ <;> rw [home]

variable (pfx : s.h.pfx = none)
include pfx

/-- R201: the end of a word with no copy that writes its destination group. -/
theorem putRows_uncopied (mx : Nat) (d : Group) (reads : List Group) (rows : List Wide → List Wide) (flags : Nat) :
    putRows mx d reads rows flags s = .ok () (let t := writeGroup mx d (rows (groupRows s d)) s
      { t with h := { t.h.raiseFlags flags with vstart := 0 } }) := by
  have role := writeGroup_role solo mx d (rows (groupRows s d))
  simp only [putRows, act_bind, get_apply, modify_apply, Hart.copyReg_of_none _ pfx, popHeads_solo _ _ role, modH_apply]

/-- R380, R245: a word with no copy stops before an element for a frame fault, once its flags are raised. -/
theorem stopAt_noted {w : Loop} {d : Group} {k : Nat} {rows : List Wide → List Wide} {c t e : Nat} (flags : Nat) :
    ∃ before, w.stopAt (α := Unit) d k rows (.frame c t e) { s with h := s.h.raiseFlags flags } = .error (.frame c t e)
      (State.withBefore before (let u := writeGroup w.max d (rows (groupRows s d)) s
        { u with h := { u.h.raiseFlags flags with vstart := k } })) := by
  refine ⟨((s.h.raiseFlags flags).remember d).before, ?_⟩
  have uncopied : (s.h.raiseFlags flags).copyReg = none := Hart.copyReg_of_none _ pfx
  have part : writePart w.max d (rows (groupRows s d)) { s with h := s.h.raiseFlags flags } =
      writeGroup w.max d (rows (groupRows s d)) { s with h := s.h.noted flags ((s.h.raiseFlags flags).remember d).before } :=
    writePart_solo (s := { s with h := s.h.raiseFlags flags }) solo _ _ _
  have stopped : w.stopRows d k (rows (groupRows s d)) { s with h := s.h.raiseFlags flags } =
      State.withBefore ((s.h.raiseFlags flags).remember d).before (let u := writeGroup w.max d (rows (groupRows s d)) s
        { u with h := { u.h.raiseFlags flags with vstart := k } }) := by
    simp only [Loop.stopRows, part, uncopied, writeGroup_noted solo]
    rfl
  exact congrArg (fun t => EStateM.Result.error (Exc.frame c _ e) t) stopped
end
end Sys2Proof.Machine
end

section
namespace Sys2Proof.Machine

/-! How a V word of a solo hart ends when its work does not complete (R366, R246, R247). -/

/-- What R35 needs to know of a V word with these operands. -/
structure VectorWord (i : Info) (o : VArgs) : Prop where
  major : i.major ≠ 0x30
  level : i.level = .user
  address : i.address = false
  vector : i.vector = true
  size : i.size = 4
  stall : i.stall = 0
  guard : i.guard = .mask (o.mask == 7 && o.neg)
theorem vectorWord_vInfo {major func : Nat} {o : VArgs} {dest : DestKind} {reads : List (BitVec 5)} (h : major ≠ 0x30) :
    VectorWord (vInfo major func o dest reads) o := ⟨h, rfl, rfl, rfl, rfl, rfl, rfl⟩

section
variable {i : Info} {o : VArgs} {s t : State} (hi : VectorWord i o) (hs : s.Solo) (lives : (o.mask == 7 && o.neg) = false)
include hi hs

theorem VectorWord.checks {legal : Act Unit} (hl : legal s = .ok () s) : Checks i legal (pure ()) s :=
  ⟨majorAllowed_vector _ _ hs.not_control hi.major, hl, by simp [hi.level, modeNum], by simp [hi.address], rfl⟩
include lives
theorem VectorWord.holds : s.h.guardHolds i.guard = true := by rw [hi.guard, guardHolds_mask _ _ hs.pfx, lives]; rfl

variable {dstRead : Bool} {srcs : Hart → VType → List Source} {body : VType → Act Unit}
  (legal : groupsLegal s.h (some (⟨o.d.toNat, (s.h.slot o.t).rows⟩, dstRead)) (srcs s.h (s.h.slot o.t)) = true)
include legal

theorem vWordOf_seq (hb : body (s.h.slot o.t) s = .ok () t) (hp : t.h.pfx = none) :
    vWordOf i o dstRead srcs body s = .next t.pastVector :=
  vWordOf_done i o dstRead srcs body s t hs hi.major hi.level hi.address hi.vector hi.size hi.stall hi.guard lives legal hb hp
omit hi hs lives in
theorem groupChecks_pass : (do require (groupsLegal (← getH) (some (⟨o.d.toNat, (s.h.slot o.t).rows⟩, dstRead))
    (srcs (← getH) (s.h.slot o.t))) cIllegal 0 : Act Unit) s = .ok () s := by
  simp only [act_bind, getH_apply, legal, require_true]
theorem vWordOf_error {e : Exc} (hb : body (s.h.slot o.t) s = .error e t) (he : ∀ w, e ≠ .wait w) :
    vWordOf i o dstRead srcs body s = .next (deliver i.word e t) :=
  issue_error i _ _ _ _ s t e hs.toReady (hi.checks hs (groupChecks_pass legal)) (hi.holds hs lives) (andNext_error _ _ _ _ hb) he
omit lives in
/-- A V word past its checks does what its work does from this state. -/
theorem vWordOf_congr {body' : VType → Act Unit} (h : body (s.h.slot o.t) s = body' (s.h.slot o.t) s) :
    vWordOf i o dstRead srcs body s = vWordOf i o dstRead srcs body' s := by
  have checks := hi.checks hs (groupChecks_pass legal)
  rw [vWordOf, vWordOf, issue_ready _ _ _ _ _ s hs.toReady checks, issue_ready _ _ _ _ _ s hs.toReady checks]
  simp only [andNext, act_bind, h]
end

/-- R366: a trap of a cause beyond those of decode, with no PFX live. -/
theorem deliver_trap (w : Nat) {c : Nat} {v : Word} {s : State} (hc : 4 < c) (hp : s.h.pfx = none) :
    deliver w (.trap c v) s = State.trapped c v s.h.pc s := by
  have late : (decide (1 ≤ c) && decide (c ≤ 4)) = false := by simp [hc]
  rw [deliver, wordTrap_plain w c v hp, late]
  rfl

section
variable {s : State} (solo : s.h.role = .solo) (pend : s.h.pend = []) (before : List (Nat × VRow)) (w c tag elem : Nat)
include solo pend

/-- R246: a frame fault that is not delegated traps. -/
theorem deliver_frame (pfx : s.h.pfx = none) (vq : s.h.vq = []) (kept : frameDelegated s.h c = false) :
    deliver w (.frame c tag elem) (s.withBefore before) =
      State.trapped (0x28 + c) (ufcauseWord c tag elem) s.h.pc s := by
  have undelegated : frameDelegated (s.withBefore before).h c = false := kept
  have late : (decide (1 ≤ 0x28 + c) && decide (0x28 + c ≤ 4)) = false := by simp; omega
  simp only [deliver, undelegated, Bool.false_eq_true, if_false, wordTrap_plain (s := s.withBefore before) w _ _ pfx, late,
    trapped_withBefore solo pend vq]
  rfl
/-- R247: a frame fault that is delegated enters the user-level handler. -/
theorem deliver_frame_delegated (delegated : frameDelegated s.h c = true) :
    deliver w (.frame c tag elem) (s.withBefore before) =
      (let y := enterUser s.h.pc (word (wbits s.h.csr.ufvec 63 2 * 4)) s
       { y with h := { y.h with vstart := 0, csr := { y.h.csr with ufcause := ufcauseWord c tag elem } } }) := by
  have delegated' : frameDelegated (s.withBefore before).h c = true := delegated
  simp only [deliver, delegated', if_true]
  rw [enterUser_withBefore solo pend]
  rfl
end
end Sys2Proof.Machine
end

section
namespace Sys2Proof.Machine

/-! The loop of the GEOM words (R245, R250). -/

/-- R187, R200: a slot of geometric values is accepted. -/
theorem acceptGeom_pass {v : VType} (fmt : v.fmt = 4) (sew : v.sew = 128) (s : State) :
    acceptType (v.fmt == fmtGEOM && v.sew == 128) v s = .ok () s :=
  require_of (by simp [fmt, sew, fmtGEOM]) _ _ s
/-- R250: the source groups of a GEOM word that reads vb when `two` holds. -/
def geomSources (two : Bool) (o : VArgs) (v : VType) : List Group :=
  ⟨o.a.toNat, v.rows⟩ :: (if two && !o.x then [⟨o.b.toNat, v.rows⟩] else [])

section
variable (s : State) (o : VArgs) (dv : VType)

/-- R250: the elements in each row of a GEOM word that writes type dv. -/
def State.geomCount : Nat := min s.h.vl (min (s.h.maxIn (s.h.slot o.t)) (s.h.maxIn dv))
/-- R250: element i of a named group of slot T. -/
def State.geomAt (name i : Nat) : Nat :=
  getElem (rowAt (sourceRows s ⟨name, (s.h.slot o.t).rows⟩) (i / s.geomCount o dv)).bits 128 (i % s.geomCount o dv)
/-- R250: b of element i: the X operand, vb's element, or nothing. -/
def State.geomB (two : Bool) (i : Nat) : Nat :=
  if o.x then (s.h.reg o.b.toNat).toNat % 2 ^ 32 else if two && !o.x then s.geomAt o dv o.b.toNat i else 0
/-- R201, R250: the loop of a GEOM word that writes type dv. -/
def State.geomLoop : Loop := ⟨dv, s.geomCount o dv, s.h.maxIn dv, s.h.vstart, s.h.act o.mask o.neg⟩
/-- R201: the active elements from VSTART on, in order. -/
def State.geomActives : List Nat := (List.range ((s.h.slot o.t).rows * s.geomCount o dv)).filter fun i =>
  decide (s.h.vstart ≤ i) && s.h.act o.mask o.neg (i / s.geomCount o dv) (i % s.geomCount o dv)

/-- R250: b, as a word reads it from its source groups. -/
theorem geomSources_b (two : Bool) (i : Nat) : (if o.x then (s.h.reg o.b.toNat).toNat % 2 ^ 32
    else if (geomSources two o (s.h.slot o.t)).length < 2 then 0 else
      getElem (rowAt (((geomSources two o (s.h.slot o.t)).map (sourceRows s)).getD 1 []) (i / s.geomCount o dv)).bits 128
        (i % s.geomCount o dv)) = s.geomB o dv two i := by
  unfold State.geomB geomSources
  cases o.x <;> cases two <;> rfl
end

/-- R250, R245: how a GEOM word ends, given its first active element of a kind that is not accepted, and what its elements
answer: the values got, the fault that stopped them, and the state after them. -/
def geomEnd (w : Loop) (d : Group) (srcs : List Group) (refused : Option Nat)
    (r : List (Nat × Nat × Nat) × Option (Nat × Nat × Nat) × State) : Act Unit := do
  match refused with
  | some e => trapWith cGeomForm (word e)
  | none => pure ()
  set r.2.2
  match r.2.1 with
  | none => putRows w.max d srcs (geomRows w r.1 none) (orFlags (r.1.map fun x => x.2.2))
  | some (e, c, t) =>
    modH fun h => h.raiseFlags (orFlags (r.1.map fun x => x.2.2))
    w.stopAt d e (geomRows w r.1 (some e)) (.frame c t e)

/-- R250: past its waits, a GEOM word's work is its elements and its end. -/
theorem geomBody_solo {dv : VType} {two : Bool} {o : VArgs} {kinds : Nat → Nat → Bool} {op : Nat → Nat → Fr (Nat × Nat)}
    {s : State} (hs : s.Solo) :
    geomBody (s.h.slot o.t) dv (s.geomCount o dv) o (geomSources two o (s.h.slot o.t)) kinds op s =
      (let a := s.geomAt o dv o.a.toNat
       let b := s.geomB o dv two
       geomEnd (s.geomLoop o dv) ⟨o.d.toNat, (s.h.slot o.t).rows⟩ (geomSources two o (s.h.slot o.t))
         ((s.geomActives o dv).find? fun i => !kinds (a i) (b i))
         (geomElems (fun i => op (a i) (b i)) (s.geomActives o dv) s) s) := by
  unfold geomBody
  refine (act_bind_ok (getH_apply s)).trans ?_
  refine (act_bind_ok (acquiresDone_ready s hs.toReady)).trans ?_
  refine (act_bind_ok (ringsReady_solo _ _ s hs.solo hs.ops hs.queueing)).trans ?_
  refine (act_bind_ok (get_apply s)).trans ?_
  simp only [geomSources_b]
  rfl

/-- R245, R182: what a GEOM word leaves that has these values, and has stopped where it has: its rows, flags and VSTART. -/
def State.geomLeft (s1 : State) (w : Loop) (d : Group) (got : List (Nat × Nat × Nat)) (stop : Option Nat) : State :=
  let t := writeGroup w.max d (geomRows w got stop (groupRows s1 d)) s1
  { t with h := { t.h.raiseFlags (orFlags (got.map fun x => x.2.2)) with vstart := stop.getD 0 } }

section
variable {w : Loop} {d : Group} {srcs : List Group} {got : List (Nat × Nat × Nat)} {s s1 : State}

/-- R251, R253: a kind that is not accepted. -/
theorem geomEnd_refused {e : Nat} {r : List (Nat × Nat × Nat) × Option (Nat × Nat × Nat) × State} :
    geomEnd w d srcs (some e) r s = .error (.trap cGeomForm (word e)) s := rfl

variable (solo : s1.h.role = .solo) (pfx : s1.h.pfx = none)
include solo pfx

/-- R245: every element has a value. -/
theorem geomEnd_done : geomEnd w d srcs none (got, none, s1) s = .ok () (s1.geomLeft w d got none) :=
  putRows_uncopied solo pfx w.max d srcs (geomRows w got none) _
/-- R245: an element's frame fault leaves those below it. -/
theorem geomEnd_faults {e c t : Nat} : ∃ before, geomEnd w d srcs none (got, some (e, c, t), s1) s =
    .error (.frame c t e) ((s1.geomLeft w d got (some e)).withBefore before) := stopAt_noted solo pfx _
end
end Sys2Proof.Machine
end

section
namespace Sys2Proof.Machine

/-! The GEOM words of a solo hart (R250 to R257). -/

/-- R250, R203: a hart that runs a GEOM word with these operands, which writes the type dv. -/
structure State.GeomReady (s : State) (o : VArgs) (two cross : Bool) (dst : VType → VType → Option VType) (dv : VType) : Prop
    extends s.Solo where
  fmt : (s.h.slot o.t).fmt = 4
  sew : (s.h.slot o.t).sew = 128
  dst : dst (s.h.slot o.t) (s.h.slot !o.t) = some dv
  lives : (o.mask == 7 && o.neg) = false
  legal : groupsLegal s.h (some (⟨o.d.toNat, (s.h.slot o.t).rows⟩, false))
    ((geomSources two o (s.h.slot o.t)).map fun g => ⟨g, !cross⟩) = true

section
variable {s s1 : State} (kept : s.keepsHart s1)
include kept

theorem State.keepsHart.solo (hs : s.h.role = .solo) : s1.h.role = .solo := by rw [kept]; exact hs
theorem State.keepsHart.pfx (hp : s.h.pfx = none) : s1.h.pfx = none := by rw [kept]; exact hp
/-- R245, R182: a GEOM word's end keeps of the hart all but rows, flags, links and VSTART. -/
theorem geomLeft_hart (hs : s.h.role = .solo) (w : Loop) (d : Group) (got : List (Nat × Nat × Nat)) (stop : Option Nat) :
    ∃ rows link vlink fcsr, (s1.geomLeft w d got stop).h = { s.h with
      rows := rows, link := link, vlink := vlink, csr := { s.h.csr with fcsr := fcsr }, vstart := stop.getD 0 } := by
  refine ⟨(writeGroup w.max d (geomRows w got stop (groupRows s1 d)) s1).h.rows, s1.h.link, s1.h.vlink,
    s.h.csr.fcsr ||| word (orFlags (got.map fun x => x.2.2)), ?_⟩
  simp only [State.geomLeft]
  rw [writeGroup_solo _ _ _ _ (kept.solo hs)]
  dsimp only
  rw [kept]
  rfl
end

section
variable {func : Nat} {o : VArgs} {two cross : Bool} {dst : VType → VType → Option VType} {kinds : Nat → Nat → Bool}
  {op : VType → Nat → Nat → Fr (Nat × Nat)} {s s1 : State} {dv : VType} {got : List (Nat × Nat × Nat)}
  (ready : s.GeomReady o two cross dst dv)
include ready

/-- R250: past its checks, a GEOM word does what `geomEnd` says. -/
theorem geomWord_ends : geomWord func two cross dst kinds op o s =
    vWordOf (vInfo 0x2C func o .v (if o.x then [o.b] else [])) o false
      (fun _ v => (geomSources two o v).map fun g => ⟨g, !cross⟩) (fun v => geomEnd (s.geomLoop o dv) ⟨o.d.toNat, v.rows⟩
        (geomSources two o v)
        ((s.geomActives o dv).find? fun i => !kinds (s.geomAt o dv o.a.toNat i) (s.geomB o dv two i))
        (geomElems (fun i => op v (s.geomAt o dv o.a.toNat i) (s.geomB o dv two i)) (s.geomActives o dv) s)) s := by
  unfold geomWord
  refine vWordOf_congr (srcs := fun _ v => (geomSources two o v).map fun g => ⟨g, !cross⟩)
    (vectorWord_vInfo (major := 0x2C) (by decide)) ready.toSolo ready.legal ?_
  refine (act_bind_ok (acceptGeom_pass ready.fmt ready.sew s)).trans ?_
  refine (act_bind_ok (getH_apply s)).trans ?_
  simp only [ready.dst]
  exact geomBody_solo ready.toSolo

/-- R251, R253: a kind that is not accepted traps GEOM_FORM before any element is computed. -/
theorem geomWord_refused {i : Nat}
    (refused : (s.geomActives o dv).find? (fun i => !kinds (s.geomAt o dv o.a.toNat i) (s.geomB o dv two i)) = some i) :
    geomWord func two cross dst kinds op o s = .next (State.trapped 0x2E (word i) s.h.pc s) := by
  rw [geomWord_ends ready, refused, vWordOf_error (e := .trap cGeomForm (word i)) (vectorWord_vInfo (by decide)) ready.toSolo
    ready.lives ready.legal geomEnd_refused nofun, deliver_trap _ (by decide) ready.pfx]
  rfl

variable (accepted : ∀ i ∈ s.geomActives o dv, kinds (s.geomAt o dv o.a.toNat i) (s.geomB o dv two i) = true)
include accepted

omit ready in
theorem geomWord_accepts :
    (s.geomActives o dv).find? (fun i => !kinds (s.geomAt o dv o.a.toNat i) (s.geomB o dv two i)) = none := by
  simpa using accepted

variable (kept : s.keepsHart s1)
include kept

/-- R250: a GEOM word whose elements all have values. -/
theorem geomWord_done (elems : geomElems (fun i => op (s.h.slot o.t) (s.geomAt o dv o.a.toNat i) (s.geomB o dv two i))
      (s.geomActives o dv) s = (got, none, s1)) :
    geomWord func two cross dst kinds op o s =
      .next (s1.geomLeft (s.geomLoop o dv) ⟨o.d.toNat, (s.h.slot o.t).rows⟩ got none).pastVector := by
  obtain ⟨_, _, _, _, hart⟩ := geomLeft_hart kept ready.solo (s.geomLoop o dv) ⟨o.d.toNat, (s.h.slot o.t).rows⟩ got none
  rw [geomWord_ends ready, geomWord_accepts accepted]
  refine vWordOf_seq (vectorWord_vInfo (by decide)) ready.toSolo ready.lives ready.legal ?_ (by rw [hart]; exact ready.pfx)
  rw [elems]
  exact geomEnd_done (kept.solo ready.solo) (kept.pfx ready.pfx)

variable {i c tag : Nat} (elems : geomElems (fun i => op (s.h.slot o.t) (s.geomAt o dv o.a.toNat i) (s.geomB o dv two i))
  (s.geomActives o dv) s = (got, some (i, c, tag), s1))
include elems

/-- R245: a frame fault of an element goes out with what has been computed below it. -/
theorem geomWord_faults : ∃ before, geomWord func two cross dst kinds op o s =
    .next (deliver (vWord 0x2C func o) (.frame c tag i)
      ((s1.geomLeft (s.geomLoop o dv) ⟨o.d.toNat, (s.h.slot o.t).rows⟩ got (some i)).withBefore before)) := by
  obtain ⟨before, ends⟩ := geomEnd_faults (w := s.geomLoop o dv) (d := ⟨o.d.toNat, (s.h.slot o.t).rows⟩)
    (srcs := geomSources two o (s.h.slot o.t)) (got := got) (s := s) (e := i) (c := c) (t := tag)
    (kept.solo ready.solo) (kept.pfx ready.pfx)
  refine ⟨before, ?_⟩
  rw [geomWord_ends ready, geomWord_accepts accepted]
  refine vWordOf_error (vectorWord_vInfo (by decide)) ready.toSolo ready.lives ready.legal ?_ nofun
  rw [elems]
  exact ends

/-- R246: a frame fault that is not delegated traps. -/
theorem geomWord_traps (undelegated : frameDelegated s.h c = false) :
    geomWord func two cross dst kinds op o s = .next (State.trapped (0x28 + c) (ufcauseWord c tag i) s.h.pc
      (s1.geomLeft (s.geomLoop o dv) ⟨o.d.toNat, (s.h.slot o.t).rows⟩ got (some i))) := by
  obtain ⟨before, faults⟩ := geomWord_faults (func := func) ready accepted kept elems
  obtain ⟨_, _, _, _, hart⟩ := geomLeft_hart kept ready.solo (s.geomLoop o dv) ⟨o.d.toNat, (s.h.slot o.t).rows⟩ got (some i)
  rw [faults, deliver_frame (by rw [hart]; exact ready.solo) (by rw [hart]; exact ready.pend) before _ _ _ _
    (by rw [hart]; exact ready.pfx) (by rw [hart]; exact ready.vq) (by rw [hart]; exact undelegated), hart]
/-- R247: a frame fault that is delegated enters the user-level handler. -/
theorem geomWord_enters {y : State} (delegated : frameDelegated s.h c = true)
    (handler : y = enterUser s.h.pc (word (wbits s.h.csr.ufvec 63 2 * 4))
      (s1.geomLeft (s.geomLoop o dv) ⟨o.d.toNat, (s.h.slot o.t).rows⟩ got (some i))) :
    geomWord func two cross dst kinds op o s =
      .next { y with h := { y.h with vstart := 0, csr := { y.h.csr with ufcause := ufcauseWord c tag i } } } := by
  obtain ⟨before, faults⟩ := geomWord_faults (func := func) ready accepted kept elems
  obtain ⟨_, _, _, _, hart⟩ := geomLeft_hart kept ready.solo (s.geomLoop o dv) ⟨o.d.toNat, (s.h.slot o.t).rows⟩ got (some i)
  rw [faults, deliver_frame_delegated (by rw [hart]; exact ready.solo) (by rw [hart]; exact ready.pend) before _ _ _ _
    (by rw [hart]; exact delegated), handler, hart]
end
end Sys2Proof.Machine
end

section
namespace Sys2Proof.Machine

/-! GCHK and GCELL (R256, R261). -/

/-- R30, R215: writing a k register leaves the rest of the hart. -/
theorem setK_k (h : Hart) (d : Nat) (rows : List (BitVec 8192)) : ∃ k, h.setK d rows = { h with k := k } := by
  unfold Hart.setK
  split
  · exact ⟨h.k, rfl⟩
  · generalize rows.zipIdx = l
    induction l generalizing h with
    | nil => exact ⟨h.k, rfl⟩
    | cons e l ih => exact ih (h.setKrow d e.2 e.1)

section
variable {s : State} (w : Loop) (d : Nat) (f : Nat → Nat → Bool × Nat)

/-- R215: writing a k register under a mask changes it, the flags and VSTART alone. -/
theorem maskPut_hart : ∃ k csr, (s.maskPut w d f).h = { s.h with k := k, csr := csr, vstart := 0 } := by
  obtain ⟨k, written⟩ := setK_k s.h d (((List.range w.v.rows).map fun r => w.krow f r (s.h.krow d r)).map (·.1))
  exact ⟨k, _, congrArg (fun h : Hart => ({ h.raiseFlags _ with vstart := 0 } : Hart)) written⟩
theorem maskPut_role : (s.maskPut w d f).h.role = s.h.role := by
  obtain ⟨k, csr, hart⟩ := maskPut_hart (s := s) w d f
  rw [hart]
theorem maskPut_pfx : (s.maskPut w d f).h.pfx = s.h.pfx := by
  obtain ⟨k, csr, hart⟩ := maskPut_hart (s := s) w d f
  rw [hart]
/-- R215: a word's last work, on a solo hart, that writes a k register and pops what it has read. -/
theorem writeMask_solo (solo : s.h.role = .solo) (gs : List Group) :
    ((writeMask w d f >>= fun _ => modify (popHeads gs)) : Act Unit) s = .ok () (s.maskPut w d f) :=
  (act_bind_ok (t := s.maskPut w d f) rfl).trans
    (congrArg (EStateM.Result.ok ()) (popHeads_solo gs _ ((maskPut_role w d f).trans solo)))
end

section
variable {o : VArgs} {s s1 : State} {live : List Bool} (hs : s.Solo) (lives : (o.mask == 7 && o.neg) = false)
  (fmt : (s.h.slot o.t).fmt = 4) (sew : (s.h.slot o.t).sew = 128)
include hs lives fmt sew

/-- R256: the liveness of each element's tag into a k register. -/
theorem execGchk_solo (legal : groupsLegal s.h none [⟨⟨o.a.toNat, (s.h.slot o.t).rows⟩, false⟩] = true)
    (tags : tagsLive ((List.range ((s.h.slot o.t).rows * s.h.vlIn (s.h.slot o.t))).map fun i =>
      tagOf (getElem (rowAt (sourceRows s ⟨o.a.toNat, (s.h.slot o.t).rows⟩) (i / s.h.vlIn (s.h.slot o.t))).bits 128
        (i % s.h.vlIn (s.h.slot o.t)))) s = .ok live s1) (kept : s.keepsHart s1) :
    execGchk o s = .next (s1.maskPut (s.loopOf (s.h.slot o.t) o.mask o.neg) o.d.toNat fun r i =>
      (live.getD (r * s.h.vlIn (s.h.slot o.t) + i) false, 0)).pastVector := by
  have vector : VectorWord (vInfo 0x2C 10 o .none) o := vectorWord_vInfo (by decide)
  unfold execGchk
  refine issue_vector _ _ _ _ _ s _ hs.toReady (vector.checks hs ?_) (vector.holds hs lives) (andNext_ok _ _ _ ?_)
    ((maskPut_pfx ..).trans (kept.pfx hs.pfx)) rfl rfl rfl
  · simp only [act_bind, getH_apply, legal, require_true]
  · refine (act_bind_ok (acceptGeom_pass fmt sew s)).trans ?_
    refine (act_bind_ok (acquiresDone_ready s hs.toReady)).trans ?_
    refine (act_bind_ok (ringsReady_solo _ _ s hs.solo hs.ops hs.queueing)).trans ?_
    refine (act_bind_ok (get_apply s)).trans ?_
    simp only [Hart.loop, tags]
    exact (act_bind_ok (set_apply s s1)).trans (writeMask_solo _ _ _ (kept.solo hs.solo) _)
end

/-- A word read as a signed number. -/
theorem signed_toNat (w : Word) : signed 64 w.toNat = w.toInt := by
  rw [signed_eq_toInt (by decide), BitVec.ofNat_toNat, BitVec.setWidth_eq]

/-- R261: the coordinates of a value's cell, before they are cut to 21 bits. -/
def cellsOf (e : Int) (x : Nat) : List (Int × Nat) := (comps x).map fun c => cvtInt ((val fp32 c).scale (-e)) 21 true .rdn
/-- R261: GCELL's element, by its coordinates before and after the cut. -/
theorem cellKey_eq (e : Int) (x res : Nat) :
    (let cs := (comps x).map (cellCoord e)
     (⟨((cs.zipIdx).map fun (c, j) => c.1 * 2 ^ (21 * j)).sum, orFlags (cs.map (·.2)), res⟩ : Elem)) =
      (let cs := cellsOf e x
       ⟨(cs.zipIdx.map fun c => wrap 21 c.1.1 * 2 ^ (21 * c.2)).sum, orFlags (cs.map (·.2)), res⟩) := rfl

/-- R261, R203: a hart that runs GCELL with these operands. -/
structure State.CellReady (s : State) (o : VArgs) : Prop extends s.Solo where
  lives : (o.mask == 7 && o.neg) = false
  fmt : (s.h.slot o.t).fmt = 4
  sew : (s.h.slot o.t).sew = 128
  fmtS : (s.h.slot !o.t).fmt = 0
  sewS : (s.h.slot !o.t).sew = 64
  rowsS : (s.h.slot !o.t).rows = (s.h.slot o.t).rows
  legal : groupsLegal s.h (some (⟨o.d.toNat, (s.h.slot o.t).rows⟩, false))
    [⟨⟨o.a.toNat, (s.h.slot o.t).rows⟩, false⟩] = true

section
variable {o : VArgs} {s : State} (ready : s.CellReady o)
include ready

/-- R261: GCELL's checks of both slots. -/
theorem cellTypes_pass (rest : Hart → Act Unit) :
    (do acceptType ((s.h.slot o.t).fmt == fmtGEOM && (s.h.slot o.t).sew == 128) (s.h.slot o.t)
        let h ← getH
        require ((h.slot !o.t).fmt == fmtINT && (h.slot !o.t).sew == 64 && (h.slot !o.t).rows == (s.h.slot o.t).rows) cVtypeForm
          (h.slot !o.t).word
        rest h : Act Unit) s = rest s.h s := by
  have typedS : ((s.h.slot !o.t).fmt == fmtINT && (s.h.slot !o.t).sew == 64 &&
      (s.h.slot !o.t).rows == (s.h.slot o.t).rows) = true := by simp [ready.fmtS, ready.sewS, ready.rowsS, fmtINT]
  refine (act_bind_ok (acceptGeom_pass ready.fmt ready.sew s)).trans ?_
  refine (act_bind_ok (getH_apply s)).trans ?_
  exact act_bind_ok (require_of typedS _ _ s)

/-- R261: a cell size outside -24 to 40. -/
theorem execGcell_refused (outside : ¬(-24 ≤ (s.h.reg o.b.toNat).toInt ∧ (s.h.reg o.b.toNat).toInt ≤ 40)) :
    execGcell o s = .next (State.trapped 0x2E (s.h.reg o.b.toNat) s.h.pc s) := by
  unfold execGcell
  rw [vWordOf_error (t := s) (e := .trap cGeomForm (s.h.reg o.b.toNat)) (vectorWord_vInfo (by decide)) ready.toSolo ready.lives
    ready.legal ?_ nofun, deliver_trap _ (by decide) ready.pfx]
  · rfl
  · refine (cellTypes_pass ready _).trans ?_
    refine act_bind_error (require_not (decide_eq_false ?_) _ _ s)
    rwa [signed_toNat]
/-- R261: the key of each element's cell. -/
theorem execGcell_keys (low : -24 ≤ (s.h.reg o.b.toNat).toInt) (high : (s.h.reg o.b.toNat).toInt ≤ 40) :
    execGcell o s = .next (s.rowsPut (s.h.slot !o.t) o.d (s.rowsOf (s.h.slot !o.t) o
      (min s.h.vl (min (s.h.maxIn (s.h.slot o.t)) (s.h.maxIn (s.h.slot !o.t))))
      (if wholeBlock s none ⟨o.d.toNat, (s.h.slot !o.t).rows⟩ [⟨o.a.toNat, (s.h.slot o.t).rows⟩] then 0 else s.h.vstart)
      (s.h.act o.mask o.neg) (fun _ => 0) fun r i res =>
        let cs := cellsOf (s.h.reg o.b.toNat).toInt (s.elem (s.h.slot o.t) false o.a.toNat r i).1
        some ⟨(cs.zipIdx.map fun c => wrap 21 c.1.1 * 2 ^ (21 * c.2)).sum, orFlags (cs.map (·.2)), res⟩)).pastVector := by
  unfold execGcell
  refine vWordOf_seq (vectorWord_vInfo (by decide)) ready.toSolo ready.lives ready.legal ?_ (rowsPut_pfx _ _ _ _ ready.toSolo)
  refine (cellTypes_pass ready _).trans ?_
  refine (act_bind_ok (require_of (decide_eq_true ?_) _ _ s)).trans ?_
  · rw [signed_toNat]
    exact ⟨low, high⟩
  · simp only [signed_toNat, cellKey_eq]
    exact elementwiseIf_solo _ _ _ _ o none false _ _ s ready.toSolo
end
end Sys2Proof.Machine
end

section
namespace Sys2Proof.Machine

/-! The GEOM words, row by row (R250 to R257). -/

theorem bit_eq_testBit (n i : Nat) : bit n i = n.testBit i := by
  rw [bit, Nat.testBit_eq_decide_div_mod_eq, Bool.beq_eq_decide_eq]

/-- R250: a word of the model is the GEOM word with these sources, destination, kinds and operation. -/
def IsGeomWord (e : (VArgs → Instr) × Bool × Bool × (VType → VType → Option VType) × (Nat → Nat → Bool) ×
    (VArgs → VType → Nat → Nat → Fr (Nat × Nat))) : Prop :=
  ∃ func, ∀ o s, exec (e.1 o) s = geomWord func e.2.1 e.2.2.1 e.2.2.2.1 e.2.2.2.2.1 (e.2.2.2.2.2 o) o s

/-- R250: the sources of a GEOM word, as its legality names them. -/
theorem geomSources_map (two cross : Bool) (o : VArgs) (v : VType) :
    ((geomSources two o v).map fun g => (⟨g, !cross⟩ : Source)) = ⟨⟨o.a.toNat, v.rows⟩, !cross⟩ ::
      (if two && !o.x then [⟨⟨o.b.toNat, v.rows⟩, !cross⟩] else []) := by
  unfold geomSources
  cases two <;> cases o.x <;> rfl

/-- Settles O42: each word is the one loop of GEOM words with its own operation, a loop that ends in one of four ways. -/
theorem geomWords : Obligations.GeomWords := by
  unfold Obligations.GeomWords
  refine ⟨fun e he => ?_, fun o s s1 live hs lives fmt sew legal tags kept =>
    execGchk_solo hs lives fmt sew legal tags kept, ?_⟩
  · have row : IsGeomWord e := by
      revert e
      simp only [← bit_eq_testBit, List.forall_mem_cons, List.not_mem_nil, false_imp_iff, implies_true, and_true]
      exact ⟨⟨0, fun _ _ => rfl⟩, ⟨1, fun _ _ => rfl⟩, ⟨2, fun _ _ => rfl⟩, ⟨3, fun _ _ => rfl⟩, ⟨4, fun _ _ => rfl⟩,
        ⟨5, fun _ _ => rfl⟩, ⟨6, fun _ _ => rfl⟩, ⟨7, fun _ _ => rfl⟩, ⟨8, fun _ _ => rfl⟩, ⟨9, fun _ _ => rfl⟩,
        ⟨11, fun _ _ => rfl⟩⟩
    obtain ⟨func, same⟩ := row
    intro o s dv hs v two fmt sew dst lives legal n at' a b w es op d
    have ready : s.GeomReady o e.2.1 e.2.2.1 e.2.2.2.1 dv :=
      { hs with fmt := fmt, sew := sew, dst := dst, lives := lives, legal := (congrArg _ (geomSources_map ..)).trans legal }
    rw [same]
    refine ⟨fun i => geomWord_refused ready, fun got s1 accepted kept =>
      ⟨geomWord_done (op := e.2.2.2.2.2 o) ready accepted kept, fun i c tg elems _ =>
        ⟨geomWord_traps (op := e.2.2.2.2.2 o) ready accepted kept elems, ?_⟩⟩⟩
    intro delegated y
    exact geomWord_enters (op := e.2.2.2.2.2 o) ready accepted kept elems delegated rfl
  · intro o s hs lives v u sb fmt sew fmtS sewS rowsS legal
    have ready : s.CellReady o :=
      { hs with lives := lives, fmt := fmt, sew := sew, fmtS := fmtS, sewS := sewS, rowsS := rowsS, legal := legal }
    exact ⟨execGcell_refused ready, execGcell_keys ready⟩
end Sys2Proof.Machine
end

section
namespace Sys2Proof.Machine

/-! A V word of a solo hart that completes, or that mask k7 negated suppresses (R199 to R209). -/

/-- R204: how a word of type v that keeps these LEVELS reads the elements of its source groups. -/
def State.readsOf (s : State) (v : VType) (kept : Option Nat) (gs : List Group) : List (Nat → Nat → Nat × Nat) :=
  gs.map fun g r i => srcElem v kept.isSome (rowAt (sourceRows s g) r) i
/-- R202, R205: the tag of row r of a word that keeps these LEVELS of its first source group. -/
def State.tagsOf (s : State) (kept : Option Nat) (gs : List Group) (r : Nat) : BitVec 6 :=
  match kept with
  | some l => haarTag l (tagThr (rowAt ((gs.map (sourceRows s)).headD []) r).tag)
  | none => 0

/-- R201: what an element-wise word with these operands, under its own mask, leaves in slot T's type: the LEVELS it keeps, whether
it ignores VSTART, its source groups, and its operation. -/
def State.elementsPut (s : State) (o : VArgs) (kept : Option Nat) (whole : Bool) (gs : List Group)
    (op : Nat → Nat → Nat → Option Elem) : State :=
  let v := s.h.slot o.t
  s.rowsPut v o.d (s.rowsOf v o (s.h.vlIn v) (if whole || wholeBlock s kept ⟨o.d.toNat, v.rows⟩ gs then 0 else s.h.vstart)
    (s.h.act o.mask o.neg) (s.tagsOf kept gs) op)

section
variable {i : Info} {o : VArgs} {s t : State} (hi : VectorWord i o) (hs : s.Solo)
include hi hs

/-- R29: mask k7 negated suppresses a V word past its checks: it only advances. -/
theorem issue_vector_skips {legal pairLegal later : Act Unit} {body : Act Flow} (checks : Checks i legal later s)
    (never : (o.mask == 7 && o.neg) = true) : issue i body s legal pairLegal later = .next s.pastVector := by
  have fails : s.h.guardHolds i.guard = false := by rw [hi.guard, guardHolds_mask _ _ hs.pfx, never]; rfl
  rw [issue_ready _ _ _ _ _ s hs.toReady checks, fails]
  exact congrArg (fun h => Host.Outcome.next ({ s with h := h } : State))
    (finish_vector i s.h hs.pfx hi.vector hi.size hi.stall)

variable {dstRead : Bool} {srcs : Hart → VType → List Source} {body : VType → Act Unit}
  (legal : groupsLegal s.h (some (⟨o.d.toNat, (s.h.slot o.t).rows⟩, dstRead)) (srcs s.h (s.h.slot o.t)) = true)
include legal
theorem vWordOf_skips (never : (o.mask == 7 && o.neg) = true) : vWordOf i o dstRead srcs body s = .next s.pastVector :=
  issue_vector_skips hi hs (hi.checks hs (groupChecks_pass legal)) never

variable (lives : (o.mask == 7 && o.neg) = false)
include lives
/-- R201: a V word whose work is that of an element-wise word. -/
theorem vWordOf_elementwiseIf {act : Nat → Nat → Bool} {rv : VType} {n : Nat} {kept : Option Nat} {whole : Bool}
    {gs : List Group} {op : List (Nat → Nat → Nat × Nat) → Nat → Nat → Nat → Option Elem}
    (work : body (s.h.slot o.t) s = elementwiseIf act (s.h.slot o.t) rv n o kept whole gs op s) :
    vWordOf i o dstRead srcs body s = .next (s.rowsPut (s.h.slot o.t) o.d (s.rowsOf (s.h.slot o.t) o n
      (if whole || wholeBlock s kept ⟨o.d.toNat, (s.h.slot o.t).rows⟩ gs then 0 else s.h.vstart) act (s.tagsOf kept gs)
      (op (s.readsOf rv kept gs)))).pastVector :=
  vWordOf_seq hi hs lives legal (work.trans (elementwiseIf_solo act _ rv n o kept whole gs op s hs)) (rowsPut_pfx _ _ _ s hs)
theorem vWordOf_elementwise {kept : Option Nat} {whole : Bool} {gs : List Group}
    {op : List (Nat → Nat → Nat × Nat) → Nat → Nat → Nat → Option Elem}
    (work : body (s.h.slot o.t) s = elementwise (s.h.slot o.t) (s.h.vlIn (s.h.slot o.t)) o kept whole gs op s) :
    vWordOf i o dstRead srcs body s =
      .next (s.elementsPut o kept whole gs (op (s.readsOf (s.h.slot o.t) kept gs))).pastVector :=
  vWordOf_elementwiseIf hi hs legal lives (work.trans (act_bind_ok (getH_apply s)))
/-- R201: a V word whose work computes its destination rows from its sources. -/
theorem vWordOf_rowWord {kept : Option Nat} {gs : List Group}
    {f : List (Nat → Nat → Nat × Nat) → (Nat → BitVec 6) → List Wide → (Nat → Nat) → List (Wide × Nat × Nat)}
    (work : body (s.h.slot o.t) s = rowWord (s.h.slot o.t) (s.h.slot o.t) o kept gs f s) :
    vWordOf i o dstRead srcs body s = .next (s.rowsPut (s.h.slot o.t) o.d
      (f (s.readsOf (s.h.slot o.t) kept gs) (s.tagsOf kept gs) (groupRows s ⟨o.d.toNat, (s.h.slot o.t).rows⟩)
        fun r => (s.h.efc[r]?.getD 0).toNat)).pastVector :=
  vWordOf_seq hi hs lives legal (work.trans (rowWord_solo _ _ o kept gs f s hs)) (rowsPut_pfx _ _ _ s hs)
end

/-- R46: what R35 needs to know of a V word that takes no lent k guard. -/
theorem vectorWord_unlent {major func : Nat} {o : VArgs} {dest : DestKind} {reads : List (BitVec 5)} (h : major ≠ 0x30) :
    VectorWord { vInfo major func o dest reads with kPair := false } o := ⟨h, rfl, rfl, rfl, rfl, rfl, rfl⟩

/-! Types and operands (R199, R200). -/

theorem acceptType_of {ok : Bool} {v : VType} (h : ok = true) (s : State) : acceptType ok v s = .ok () s :=
  require_of h _ _ s
theorem floatSlot_of {v : VType} {F : Fmt} (h : v.float = some F) (s : State) : floatSlot v s = .ok F s := by
  rw [floatSlot, h]
  rfl
/-- R199: what follows the X operand of a word that has one takes its value. -/
theorem xOperand_bind {o : VArgs} {v : VType} {s : State} (h : o.x = true → v.sew ≠ 128) (rest : Nat → Act Unit) :
    (if o.x then xData s.h v o.b >>= rest else pure 0 >>= rest) s =
      rest (if o.x then (s.h.reg o.b.toNat).toNat % 2 ^ v.sew else 0) s := by
  cases hx : o.x
  · rfl
  · exact act_bind_ok (act_bind_ok (acceptType_of (bne_iff_ne.2 (h hx)) s))

/-- R199, R204: element i of row r of operand b: the X value, or vb's element. -/
def State.elemB (s : State) (o : VArgs) (asStored : Bool) (r i : Nat) : Nat × Nat :=
  if o.x then ((s.h.reg o.b.toNat).toNat % 2 ^ (s.h.slot o.t).sew, 0) else s.elem (s.h.slot o.t) asStored o.b.toNat r i
theorem elemB_fst (s : State) (o : VArgs) (asStored : Bool) (r i : Nat) : (s.elemB o asStored r i).1 =
    if o.x then (s.h.reg o.b.toNat).toNat % 2 ^ (s.h.slot o.t).sew else (s.elem (s.h.slot o.t) asStored o.b.toNat r i).1 := by
  unfold State.elemB
  cases o.x <;> rfl

section
variable {s : State} {o : VArgs} {kept : Option Nat} {x : Nat}
  (value : o.x = true → x = (s.h.reg o.b.toNat).toNat % 2 ^ (s.h.slot o.t).sew)
include value

/-- R199, R204: operand b, as a word reads it that has taken its X value, if any. -/
theorem operandB_before (rest : List Group) (r i : Nat) :
    operandB o (s.readsOf (s.h.slot o.t) kept (binaryGroups o (s.h.slot o.t) ++ rest)) x r i = s.elemB o kept.isSome r i := by
  unfold operandB State.elemB State.readsOf binaryGroups
  cases hx : o.x
  · rfl
  · rw [value hx]
    rfl
theorem operandB_eq (r i : Nat) :
    operandB o (s.readsOf (s.h.slot o.t) kept (binaryGroups o (s.h.slot o.t))) x r i = s.elemB o kept.isSome r i := by
  have := operandB_before (kept := kept) value [] r i
  rwa [List.append_nil] at this
end
end Sys2Proof.Machine
end

section
namespace Sys2Proof.Machine

/-! The integer words VINT and VINT2 (R211, R212). -/

section
variable {major func : Nat} {o : VArgs} {s : State} (vector : major ≠ 0x30) (hs : s.Solo)
include vector hs

section
variable {nat : Bool} {f : Nat → Nat → Nat → Nat}
  (legal : groupsLegal s.h (some (⟨o.d.toNat, (s.h.slot o.t).rows⟩, false)) (binarySources o s.h (s.h.slot o.t)) = true)
include legal

/-- R29: an integer word under mask k7 negated. -/
theorem intWord_skips (never : (o.mask == 7 && o.neg) = true) : intWord major func nat f o s = .next s.pastVector :=
  vWordOf_skips (vectorWord_vInfo vector) hs legal never
/-- R211: an integer word of two operands. -/
theorem intWord_rows (lives : (o.mask == 7 && o.neg) = false) (fmt : (s.h.slot o.t).fmt = 0) (sew : (s.h.slot o.t).sew ≠ 128)
    (natural : nat = true → (s.h.slot o.t).sew ≠ 4) :
    intWord major func nat f o s =
      .next (s.elementsPut o none false (binaryGroups o (s.h.slot o.t)) fun r i res =>
        some ⟨f (s.h.slot o.t).sew (s.elem (s.h.slot o.t) false o.a.toNat r i).1
          (s.elemB o false r i).1 % 2 ^ (s.h.slot o.t).sew, 0, res⟩).pastVector := by
  have typed : ((s.h.slot o.t).fmt == fmtINT && !(nat && (s.h.slot o.t).sew == 4)) = true := by
    cases nat <;> simp_all [fmtINT]
  unfold intWord
  rw [vWordOf_elementwise (vectorWord_vInfo vector) hs legal lives
    ((act_bind_ok (acceptType_of typed s)).trans <| (act_bind_ok (getH_apply s)).trans <|
      xOperand_bind (fun _ => sew) _)]
  simp only [operandB_eq fun x => if_pos x]
  rfl
end

/-- R212: an integer word of one operand. -/
theorem unaryIntWord_rows {f : Nat → Nat → Nat → Nat} (legal : groupsLegal s.h
      (some (⟨o.d.toNat, (s.h.slot o.t).rows⟩, false)) [⟨⟨o.a.toNat, (s.h.slot o.t).rows⟩, true⟩] = true)
    (lives : (o.mask == 7 && o.neg) = false) (fmt : (s.h.slot o.t).fmt = 0) :
    unaryIntWord major func f o s =
      .next (s.elementsPut o none false [⟨o.a.toNat, (s.h.slot o.t).rows⟩] fun r i res =>
        some ⟨f (s.h.slot o.t).sew (s.elem (s.h.slot o.t) false o.a.toNat r i).1 0 % 2 ^ (s.h.slot o.t).sew, 0, res⟩).pastVector := by
  unfold unaryIntWord
  rw [vWordOf_elementwise (vectorWord_vInfo vector) hs legal lives
    ((act_bind_ok (acceptType_of (beq_iff_eq.2 fmt) s)).trans (act_bind_ok (getH_apply s)))]
  rfl
end

/-- R211: a word of the model is the integer word with this mark and this operation. -/
def IsIntWord (e : (VArgs → Instr) × Bool × (Nat → Nat → Nat → Nat)) : Prop :=
  ∃ major func, major ≠ 0x30 ∧ ∀ o s, exec (e.1 o) s = intWord major func e.2.1 e.2.2 o s
theorem isIntWord_vint {c : VArgs → Instr} {nat : Bool} {f : Nat → Nat → Nat → Nat} (func : Nat)
    (same : ∀ o s, exec (c o) s = intWord 0x14 func nat f o s) : IsIntWord (c, nat, f) := ⟨0x14, func, by decide, same⟩
theorem isIntWord_vint2 {c : VArgs → Instr} {nat : Bool} {f : Nat → Nat → Nat → Nat} (func : Nat)
    (same : ∀ o s, exec (c o) s = intWord 0x15 func nat f o s) : IsIntWord (c, nat, f) := ⟨0x15, func, by decide, same⟩
/-- R212: a word of the model is the integer word of one operand with this operation. -/
def IsUnaryIntWord (e : (VArgs → Instr) × (Nat → Nat → Nat)) : Prop :=
  ∃ func, ∀ o s, exec (e.1 o) s = unaryIntWord 0x15 func (fun w a _ => e.2 w a) o s

theorem popCount_eq_countP (w a : Nat) : popCount w a = (List.range w).countP fun i => a.testBit i := by
  simp only [popCount, bit_eq_testBit, List.countP_eq_length_filter]

/-- Settles O22: each word is an integer word with its own operation. -/
theorem vectorIntegerWords : Obligations.VectorIntegerWords := by
  unfold Obligations.VectorIntegerWords
  refine ⟨fun e he => ?_, fun e he => ?_⟩
  · have row : IsIntWord e := by
      revert e
      simp only [List.forall_mem_cons, List.not_mem_nil, false_imp_iff, implies_true, and_true]
      exact ⟨isIntWord_vint 0 fun _ _ => rfl, isIntWord_vint 1 fun _ _ => rfl, isIntWord_vint 2 fun _ _ => rfl,
        isIntWord_vint 3 fun _ _ => rfl, isIntWord_vint 4 fun _ _ => rfl, isIntWord_vint 5 fun _ _ => rfl,
        isIntWord_vint 6 fun _ _ => rfl, isIntWord_vint 7 fun _ _ => rfl, isIntWord_vint 8 fun _ _ => rfl,
        isIntWord_vint 9 fun _ _ => rfl, isIntWord_vint 10 fun _ _ => rfl, isIntWord_vint 11 fun _ _ => rfl,
        isIntWord_vint 12 fun _ _ => rfl, isIntWord_vint 13 fun _ _ => rfl, isIntWord_vint 14 fun _ _ => rfl,
        isIntWord_vint 15 fun _ _ => rfl, isIntWord_vint2 0 fun _ _ => rfl, isIntWord_vint2 1 fun _ _ => rfl,
        isIntWord_vint2 2 fun _ _ => rfl, isIntWord_vint2 3 fun _ _ => rfl, isIntWord_vint2 4 fun _ _ => rfl⟩
    obtain ⟨major, func, vector, same⟩ := row
    intro o s hs v x legal
    rw [same]
    refine ⟨intWord_skips vector hs legal, fun lives fmt sew natural => ?_⟩
    rw [intWord_rows vector hs legal lives fmt sew natural]
    simp only [elemB_fst]
    rfl
  · have row : IsUnaryIntWord e := by
      revert e
      simp only [← popCount_eq_countP, List.forall_mem_cons, List.not_mem_nil, false_imp_iff, implies_true, and_true]
      exact ⟨⟨5, fun _ _ => rfl⟩, ⟨6, fun _ _ => rfl⟩, ⟨7, fun _ _ => rfl⟩⟩
    obtain ⟨func, same⟩ := row
    intro o s hs v legal lives fmt
    rw [same]
    exact unaryIntWord_rows (by decide) hs legal lives fmt
end Sys2Proof.Machine
end

section
namespace Sys2Proof.Machine

/-! The floating-point words VFP (R205, R206, R213, R214). -/

/-- R203: the sources of a word of two operands, as its legality names them. -/
theorem binarySources_eq (o : VArgs) (h : Hart) (v : VType) : binarySources o h v =
    ⟨⟨o.a.toNat, v.rows⟩, true⟩ :: (if true && !o.x then [⟨⟨o.b.toNat, v.rows⟩, true⟩] else []) := by
  unfold binarySources
  cases o.x <;> rfl
/-- R204: the destination, as a word of three operands reads it. -/
theorem srcAt_last (s : State) (o : VArgs) (v : VType) (kept : Option Nat) (r i : Nat) :
    srcAt (s.readsOf v kept (binaryGroups o v ++ [⟨o.d.toNat, v.rows⟩]))
      ((binaryGroups o v ++ [(⟨o.d.toNat, v.rows⟩ : Group)]).length - 1) r i = s.elem v kept.isSome o.d.toNat r i := by
  unfold State.readsOf binaryGroups
  cases o.x <;> rfl

section
variable {major func : Nat} {o : VArgs} {s : State} {F : Fmt} (hs : s.Solo) (lives : (o.mask == 7 && o.neg) = false)
  (typed : (s.h.slot o.t).float = some F)
include hs lives typed

section
variable (legal : groupsLegal s.h (some (⟨o.d.toNat, (s.h.slot o.t).rows⟩, false)) (binarySources o s.h (s.h.slot o.t)) = true)
include legal

/-- R213: a floating-point word of two operands, which keeps LEVELS when it is class L. -/
theorem fpWord_rows {l : VArgs → Bool} {f : VType → Fmt → Nat → Nat → Nat → Nat → Elem} (vector : major ≠ 0x30) :
    fpWord major func l f o s =
      (let gs := binaryGroups o (s.h.slot o.t)
       let kept := if l o then keptLevels s (s.h.slot o.t) o gs else none
       .next (s.elementsPut o kept false gs fun r i res =>
         let p := s.elem (s.h.slot o.t) kept.isSome o.a.toNat r i
         let q := s.elemB o kept.isSome r i
         some (f (s.h.slot o.t) F p.1 q.1 (Nat.lor p.2 q.2) res)).pastVector) := by
  unfold fpWord
  rw [vWordOf_elementwise (vectorWord_vInfo vector) hs legal lives
    ((act_bind_ok (floatSlot_of typed s)).trans (act_bind_ok (get_apply s)))]
  simp only [operandB_eq fun _ => rfl]
  rfl

/-- R206: whether row r of a word that adds is a detail row of va that it copies. -/
def State.copiesRow (s : State) (o : VArgs) (kept : Option Nat) (r : Nat) : Bool :=
  match kept with
  | some l => detailLevel l r != 0 && copiesDetails s o l
  | none => false
/-- R213, R206: VFADD and VFSUB. -/
theorem addWord_rows {op : Rnd → Val → Val → Val × Nat} :
    addWord func op o s =
      (let gs := binaryGroups o (s.h.slot o.t)
       let kept := keptLevels s (s.h.slot o.t) o gs
       .next (s.elementsPut o kept false gs fun r i res =>
         let p := s.elem (s.h.slot o.t) kept.isSome o.a.toNat r i
         let q := s.elemB o kept.isSome r i
         if s.copiesRow o kept r then some ⟨p.1, 0, res⟩
         else some (rounded2 op (s.h.slot o.t) F p.1 q.1 (Nat.lor p.2 q.2) res)).pastVector) := by
  unfold addWord
  rw [vWordOf_elementwise (vectorWord_vInfo (by decide)) hs legal lives
    ((act_bind_ok (floatSlot_of typed s)).trans (act_bind_ok (get_apply s)))]
  simp only [operandB_eq fun _ => rfl]
  rfl
end

/-- R213, R214: a floating-point word of one operand. -/
theorem fpUnary_rows {l : Bool} {f : VType → Fmt → Nat → Nat → Nat → Elem} (vector : major ≠ 0x30)
    (legal : groupsLegal s.h (some (⟨o.d.toNat, (s.h.slot o.t).rows⟩, false)) [⟨⟨o.a.toNat, (s.h.slot o.t).rows⟩, true⟩] = true) :
    fpUnary major func l f o s =
      (let gs : List Group := [⟨o.a.toNat, (s.h.slot o.t).rows⟩]
       let kept := if l then keptLevels s (s.h.slot o.t) o gs else none
       .next (s.elementsPut o kept false gs fun r i res =>
         let p := s.elem (s.h.slot o.t) kept.isSome o.a.toNat r i
         some (f (s.h.slot o.t) F p.1 p.2 res)).pastVector) := by
  unfold fpUnary
  rw [vWordOf_elementwise (vectorWord_vInfo vector) hs legal lives
    ((act_bind_ok (floatSlot_of typed s)).trans (act_bind_ok (get_apply s)))]
  rfl

/-- R213: VFMA, VFMS and VFNMA. -/
theorem fmaWord_rows {negP negD : Bool}
    (legal : groupsLegal s.h (some (⟨o.d.toNat, (s.h.slot o.t).rows⟩, true)) (binarySources o s.h (s.h.slot o.t)) = true) :
    fmaWord func negP negD o s =
      (let gs := binaryGroups o (s.h.slot o.t) ++ [⟨o.d.toNat, (s.h.slot o.t).rows⟩]
       let kept := if o.x then keptLevels s (s.h.slot o.t) o gs else none
       .next (s.elementsPut o kept false gs fun r i res =>
         let p := s.elem (s.h.slot o.t) kept.isSome o.a.toNat r i
         let q := s.elemB o kept.isSome r i
         let c := s.elem (s.h.slot o.t) kept.isSome o.d.toNat r i
         some (roundEf (s.h.slot o.t) F (fmaVal (rndOf (s.h.slot o.t).rnd).down
           (if negP then (val F p.1).negate else val F p.1) (val F q.1) (if negD then (val F c.1).negate else val F c.1))
           (orFlags [p.2, q.2, c.2]) res)).pastVector) := by
  unfold fmaWord
  rw [vWordOf_elementwise (vectorWord_vInfo (by decide)) hs legal lives
    ((act_bind_ok (floatSlot_of typed s)).trans (act_bind_ok (get_apply s)))]
  simp only [operandB_before fun _ => rfl, srcAt_last]
  rfl
end

/-- R213: a word of the model is the floating-point word of two operands that is class L with an X operand when marked, with this
operation. -/
def IsFpWord (e : (VArgs → Instr) × Bool × (VType → Fmt → Nat → Nat → Nat → Nat → Elem)) : Prop :=
  ∃ func, ∀ o s, exec (e.1 o) s = fpWord 0x16 func (fun o => e.2.1 && o.x) e.2.2 o s
/-- R213, R214: the same of one operand. -/
def IsFpUnary (e : (VArgs → Instr) × Bool × (VType → Fmt → Nat → Nat → Nat → Elem)) : Prop :=
  ∃ func, ∀ o s, exec (e.1 o) s = fpUnary 0x16 func e.2.1 e.2.2 o s
/-- R213: the word that adds its operand b after this change. -/
def IsAddWord (e : (VArgs → Instr) × (Val → Val)) : Prop :=
  ∃ func, ∀ o s, exec (e.1 o) s = addWord func (fun r a b => addVal r.down a (e.2 b)) o s
/-- R213: the word that multiplies and adds with these signs. -/
def IsFmaWord (e : (VArgs → Instr) × Bool × Bool) : Prop := ∃ func, ∀ o s, exec (e.1 o) s = fmaWord func e.2.1 e.2.2 o s

/-- Settles O23: each word is one of four kinds of word, with its own operation. -/
theorem vectorFloatWords : Obligations.VectorFloatWords := by
  unfold Obligations.VectorFloatWords
  intro legal done x b
  refine ⟨fun e he => ?_, fun e he => ?_, fun e he => ?_, fun e he => ?_⟩
  · have row : IsFpWord e := by
      revert e
      simp only [List.forall_mem_cons, List.not_mem_nil, false_imp_iff, implies_true, and_true]
      exact ⟨⟨2, fun _ _ => rfl⟩, ⟨6, fun _ _ => rfl⟩, ⟨8, fun _ _ => rfl⟩, ⟨9, fun _ _ => rfl⟩⟩
    obtain ⟨func, same⟩ := row
    rintro o s F hs ⟨lives, groups⟩ typed v gs kept
    rw [same]
    exact fpWord_rows hs lives typed ((congrArg _ (binarySources_eq ..)).trans groups) (by decide)
  · have row : IsFpUnary e := by
      revert e
      simp only [List.forall_mem_cons, List.not_mem_nil, false_imp_iff, implies_true, and_true]
      exact ⟨⟨7, fun _ _ => rfl⟩, ⟨10, fun _ _ => rfl⟩, ⟨11, fun _ _ => rfl⟩, ⟨12, fun _ _ => rfl⟩⟩
    obtain ⟨func, same⟩ := row
    rintro o s F hs ⟨lives, groups⟩ typed v gs kept
    rw [same]
    exact fpUnary_rows hs lives typed (by decide) groups
  · have row : IsAddWord e := by
      revert e
      simp only [List.forall_mem_cons, List.not_mem_nil, false_imp_iff, implies_true, and_true]
      exact ⟨⟨0, fun _ _ => rfl⟩, ⟨1, fun _ _ => rfl⟩⟩
    obtain ⟨func, same⟩ := row
    rintro o s F hs ⟨lives, groups⟩ typed v gs kept
    rw [same]
    exact addWord_rows hs lives typed ((congrArg _ (binarySources_eq ..)).trans groups)
  · have row : IsFmaWord e := by
      revert e
      simp only [List.forall_mem_cons, List.not_mem_nil, false_imp_iff, implies_true, and_true]
      exact ⟨⟨3, fun _ _ => rfl⟩, ⟨4, fun _ _ => rfl⟩, ⟨5, fun _ _ => rfl⟩⟩
    obtain ⟨func, same⟩ := row
    rintro o s F hs ⟨lives, groups⟩ typed v gs kept
    rw [same]
    exact fmaWord_rows hs lives typed ((congrArg _ (binarySources_eq ..)).trans groups)
end Sys2Proof.Machine
end

section
namespace Sys2Proof.Machine

/-! The moves VMOVE (R219 to R223). -/

/-- R207: an element that a move takes where it exists, and zero elsewhere; no flag is raised. -/
def takenIf (ok : Bool) (p : Nat × Nat) (res : Nat) : Option Elem := some ⟨if ok then p.1 else 0, 0, res⟩
theorem movedIf_eq (ok : Bool) (reads : List (Nat → Nat → Nat × Nat)) (r i res : Nat) :
    movedIf ok reads r i res = takenIf ok (srcAt reads 0 r i) res := by
  cases ok <;> rfl

/-- R51: writing sD leaves the hart's role. -/
theorem State.wrote_role (d : BitVec 5) (v : Word) (lat flags : Nat) (s : State) (locked : Bool) :
    (s.wrote d v lat flags locked).h.role = s.h.role := by
  simp only [State.wrote, Hart.wrote]
  split <;> simp [Hart.raiseFlags]

section
variable {func : Nat} {o : VArgs} {s : State} (hs : s.Solo) (lives : (o.mask == 7 && o.neg) = false)
include hs lives

section
variable {srcs : List (BitVec 5)} {same : Bool} (legal : groupsLegal s.h (some (⟨o.d.toNat, (s.h.slot o.t).rows⟩, false))
  (srcs.map fun a => ⟨⟨a.toNat, (s.h.slot o.t).rows⟩, same⟩) = true)
include legal

/-- R219 to R223: a move. -/
theorem moveWord_rows {l whole : Bool}
    {op : VType → Nat → Nat → List (Nat → Nat → Nat × Nat) → Nat → Nat → Nat → Option Elem} :
    moveWord func srcs same l whole op o s =
      (let gs : List Group := srcs.map fun a => ⟨a.toNat, (s.h.slot o.t).rows⟩
       let kept := if l then keptLevels s (s.h.slot o.t) o gs else none
       .next (s.elementsPut o kept whole gs (op (s.h.slot o.t) (s.h.maxIn (s.h.slot o.t)) (s.h.reg o.b.toNat).toNat
         (s.readsOf (s.h.slot o.t) kept gs))).pastVector) :=
  vWordOf_elementwise (vectorWord_vInfo (by decide)) hs legal lives (act_bind_ok (get_apply s))
end

/-- R223: the transpose of each tile. -/
theorem execVtrn_rows (legal : groupsLegal s.h (some (⟨o.d.toNat, (s.h.slot o.t).rows⟩, false))
    [⟨⟨o.a.toNat, (s.h.slot o.t).rows⟩, false⟩] = true) :
    execVtrn o s = .next (s.elementsPut o none true [⟨o.a.toNat, (s.h.slot o.t).rows⟩] fun r i res =>
      takenIf true (if i < (s.h.slot o.t).rows * (s.h.vlIn (s.h.slot o.t) / (s.h.slot o.t).rows)
        then s.elem (s.h.slot o.t) false o.a.toNat (i % (s.h.slot o.t).rows) ((s.h.slot o.t).rows * (i / (s.h.slot o.t).rows) + r)
        else s.elem (s.h.slot o.t) false o.a.toNat r i) res).pastVector := by
  unfold execVtrn
  rw [vWordOf_elementwise (vectorWord_vInfo (by decide)) hs legal lives (act_bind_ok (getH_apply s))]
  refine congrArg (fun op => Host.Outcome.next (State.pastVector (s.elementsPut o none true _ op))) ?_
  funext r i res
  split <;> rfl

/-- R219: the mask selects, and does not guard. -/
theorem execVsel_rows (legal : groupsLegal s.h (some (⟨o.d.toNat, (s.h.slot o.t).rows⟩, false))
    [⟨⟨o.a.toNat, (s.h.slot o.t).rows⟩, true⟩, ⟨⟨o.b.toNat, (s.h.slot o.t).rows⟩, true⟩] = true) :
    execVsel o s = .next (s.rowsPut (s.h.slot o.t) o.d (s.rowsOf (s.h.slot o.t) o (s.h.vlIn (s.h.slot o.t))
      (if wholeBlock s none ⟨o.d.toNat, (s.h.slot o.t).rows⟩
        [⟨o.a.toNat, (s.h.slot o.t).rows⟩, ⟨o.b.toNat, (s.h.slot o.t).rows⟩] then 0 else s.h.vstart)
      (fun _ _ => true) (fun _ => 0) fun r i res => takenIf true
        (s.elem (s.h.slot o.t) false (if s.h.act o.mask o.neg r i then o.a.toNat else o.b.toNat) r i) res)).pastVector := by
  unfold execVsel
  rw [vWordOf_elementwiseIf (vectorWord_vInfo (by decide)) hs legal lives (act_bind_ok (getH_apply s))]
  refine congrArg (fun op => Host.Outcome.next (State.pastVector (s.rowsPut _ o.d (s.rowsOf _ o _ _ _ _ op)))) ?_
  funext r i res
  split <;> rfl

section
variable (legal : groupsLegal s.h (some (⟨o.d.toNat, (s.h.slot o.t).rows⟩, false)) [] = true)
include legal

/-- R219: the X value to every element. -/
theorem execVmvX_rows (sew : (s.h.slot o.t).sew ≠ 128) : execVmvX o s = .next (s.elementsPut o none false [] fun _ _ res =>
    some ⟨(s.h.reg o.b.toNat).toNat % 2 ^ (s.h.slot o.t).sew, 0, res⟩).pastVector := by
  have x : xData s.h (s.h.slot o.t) o.b s = .ok ((s.h.reg o.b.toNat).toNat % 2 ^ (s.h.slot o.t).sew) s :=
    act_bind_ok (acceptType_of (bne_iff_ne.2 sew) s)
  unfold execVmvX
  rw [vWordOf_elementwise (vectorWord_vInfo (by decide)) hs legal lives ((act_bind_ok (getH_apply s)).trans (act_bind_ok x))]

/-- R222: the running count of active elements. -/
theorem execViota_rows (fmt : (s.h.slot o.t).fmt = 0) : execViota o s = .next (s.elementsPut o none true [] fun r i res =>
    some ⟨activeBefore s.h o r i % 2 ^ (s.h.slot o.t).sew, 0, res⟩).pastVector := by
  unfold execViota
  rw [vWordOf_elementwise (vectorWord_vInfo (by decide)) hs legal lives
    ((act_bind_ok (acceptType_of (beq_iff_eq.2 fmt) s)).trans (act_bind_ok (getH_apply s)))]

/-- R222: one element of a row that belongs to no block. -/
theorem execVinss_row (sew : (s.h.slot o.t).sew ≠ 128) (plain : blockOf s o.d.toNat = none) :
    execVinss o s = .next (let v := s.h.slot o.t
      let j := (s.h.reg o.b.toNat).toNat
      let rows := (groupRows s ⟨o.d.toNat, v.rows⟩).zipIdx.map fun (w, r) =>
        if r = 0 ∧ j < s.h.maxIn v then (w.set v.sew j ((s.h.reg o.a.toNat).toNat % 2 ^ v.sew)).markTo (j + 1) else w
      let t := writeGroup (s.h.maxIn v) ⟨o.d.toNat, v.rows⟩ rows s
      State.pastVector { t with h := { t.h.raiseFlags 0 with vstart := 0 } }) := by
  have unspread : spreadBlock (s.h.slot o.t) o.d.toNat s = s := by rw [spreadBlock, plain]
  have ring := isRing_solo s.h ⟨o.d.toNat, (s.h.slot o.t).rows⟩ hs.solo
  unfold execVinss
  refine vWordOf_seq (vectorWord_unlent (by decide)) hs lives legal ?_ ?_
  · refine (act_bind_ok (acceptType_of (bne_iff_ne.2 sew) s)).trans ?_
    refine (act_bind_ok (getH_apply s)).trans ?_
    refine (act_bind_ok (ringsReady_solo _ _ s hs.solo hs.ops hs.queueing)).trans ?_
    simp only [ring, Bool.not_false, if_true]
    refine (act_bind_ok (modify_apply _ s)).trans ?_
    rw [unspread]
    exact putRows_uncopied hs.solo hs.pfx _ _ _ _ _
  · rw [writeGroup_solo _ _ _ _ hs.solo]
    exact hs.pfx
end

/-- R222: the active elements of each row, in order from element 0. -/
theorem execVcompr_rows (legal : groupsLegal s.h (some (⟨o.d.toNat, (s.h.slot o.t).rows⟩, false))
    [⟨⟨o.a.toNat, (s.h.slot o.t).rows⟩, false⟩] = true) :
    execVcompr o s = .next (let v := s.h.slot o.t
      s.rowsPut v o.d ((groupRows s ⟨o.d.toNat, v.rows⟩).zipIdx.map fun (w, r) =>
        let xs := ((List.range (s.h.vlIn v)).filter (s.h.act o.mask o.neg r)).map fun i => (s.elem v false o.a.toNat r i).1
        ({ (((xs.zipIdx).foldl (fun w (x, p) => Wide.set w v.sew p x) w).cutTail v xs.length (s.h.maxIn v)).markTo
          (s.h.vlIn v) with tag := 0 }, 0, (s.h.efc[r]?.getD 0).toNat))).pastVector := by
  unfold execVcompr
  rw [vWordOf_rowWord (vectorWord_vInfo (by decide)) hs legal lives (act_bind_ok (getH_apply s))]
  rfl

/-- R222: one element of row 0 to sD. -/
theorem execVexts_done (sew : (s.h.slot o.t).sew ≠ 128)
    (legal : groupsLegal s.h none [⟨⟨o.a.toNat, (s.h.slot o.t).rows⟩, false⟩] = true) :
    execVexts o s = .next (let v := s.h.slot o.t
      let j := (s.h.reg o.b.toNat).toNat
      let e := if j < s.h.maxIn v then (s.elem v false o.a.toNat 0 j).1 else 0
      let t := s.wrote o.d (BitVec.ofInt 64 (signed v.sew e)) 1 0
      State.pastVector { t with h := { t.h with vstart := 0 } }) := by
  have vector : VectorWord { vInfo 0x1A 9 o (.s o.d.toNat) [o.b] with kPair := false } o := vectorWord_unlent (by decide)
  unfold execVexts
  refine issue_vector _ _ _ _ _ s _ hs.toReady (vector.checks hs ?_) (vector.holds hs lives) (andNext_ok _ _ _ ?_)
    (State.wrote_pfx ..|>.trans hs.pfx) rfl rfl rfl
  · simp only [act_bind, getH_apply, legal, require_true]
  · refine (act_bind_ok (acceptType_of (bne_iff_ne.2 sew) s)).trans ?_
    refine (act_bind_ok (ringsReady_solo _ _ s hs.solo hs.ops hs.queueing)).trans ?_
    refine (act_bind_ok (get_apply s)).trans ?_
    refine (act_bind_ok (writeD_ready _ _ _ _ s hs.toReady)).trans ?_
    refine (act_bind_ok (modify_apply _ _)).trans ?_
    rw [popHeads_solo _ _ ((State.wrote_role ..).trans hs.solo)]
    rfl
end

/-- R219 to R223: a word of the model takes these elements of its one source: with whether its groups may be the same, whether it
is class L, and whether it ignores VSTART. -/
def IsMove (e : (VArgs → Instr) × Bool × Bool × Bool ×
    (VType → Nat → Nat → Nat → (Nat → Nat → Nat × Nat) → Nat → Nat → Nat → Option Elem)) : Prop :=
  ∀ (o : VArgs) (s : State), s.Solo → (o.mask == 7 && o.neg) = false →
    groupsLegal s.h (some (⟨o.d.toNat, (s.h.slot o.t).rows⟩, false)) [⟨⟨o.a.toNat, (s.h.slot o.t).rows⟩, e.2.1⟩] = true →
    let gs : List Group := [⟨o.a.toNat, (s.h.slot o.t).rows⟩]
    let kept := if e.2.2.1 then keptLevels s (s.h.slot o.t) o gs else none
    exec (e.1 o) s = .next (s.elementsPut o kept e.2.2.2.1 gs (e.2.2.2.2 (s.h.slot o.t) (s.h.vlIn (s.h.slot o.t))
      (s.h.maxIn (s.h.slot o.t)) (s.h.reg o.b.toNat).toNat (s.elem (s.h.slot o.t) kept.isSome o.a.toNat))).pastVector
/-- A word of the model is the move whose operation, on the elements of its source, this is. -/
theorem isMove {c : VArgs → Instr} {same l whole : Bool}
    {op : VType → Nat → Nat → List (Nat → Nat → Nat × Nat) → Nat → Nat → Nat → Option Elem}
    {el : VType → Nat → Nat → Nat → (Nat → Nat → Nat × Nat) → Nat → Nat → Nat → Option Elem} (func : Nat)
    (word : ∀ o s, exec (c o) s = moveWord func [o.a] same l whole op o s)
    (elements : ∀ v n mx x read, op v mx x [read] = el v n mx x read) : IsMove (c, same, l, whole, el) := by
  intro o s hs lives legal gs kept
  rw [word, moveWord_rows (srcs := [o.a]) hs lives legal]
  exact congrArg (fun op => Host.Outcome.next (State.pastVector (s.elementsPut o kept whole gs op))) (elements ..)

/-- Settles O24: each move is one of the rules above, with the elements that it takes. -/
theorem vectorMoveWords : Obligations.VectorMoveWords := by
  unfold Obligations.VectorMoveWords
  intro legal done copy
  refine ⟨fun e he => ?_, ?_, ?_, ?_, ?_, ?_, ?_, ?_⟩
  · have row : IsMove e := by
      revert e
      simp only [List.forall_mem_cons, List.not_mem_nil, false_imp_iff, implies_true, and_true]
      exact ⟨isMove 0 exec_vmv fun _ _ _ _ _ => rfl,
        isMove 1 exec_vbcast fun _ _ _ _ _ => by funext r i res; exact movedIf_eq ..,
        isMove 3 exec_vslideup fun _ _ _ _ _ => rfl,
        isMove 4 exec_vslidedn fun _ _ _ _ _ => by funext r i res; exact movedIf_eq ..,
        isMove 11 exec_vrowmv fun _ _ _ _ _ => rfl,
        fun _ _ hs lives legal => execVtrn_rows hs lives legal⟩
    rintro o s hs ⟨lives, groups⟩
    exact row o s hs lives groups
  · rintro o s hs ⟨lives, groups⟩ v
    rw [exec_vgathr, execVgathr, moveWord_rows (srcs := [o.a, o.b]) hs lives groups]
    simp only [movedIf_eq]
    rfl
  · rintro o s hs ⟨lives, groups⟩ v
    exact execVsel_rows hs lives groups
  · rintro o s hs ⟨lives, groups⟩ sew v
    exact execVmvX_rows hs lives groups sew
  · rintro o s hs ⟨lives, groups⟩ fmt v
    exact execViota_rows hs lives groups fmt
  · rintro o s hs ⟨lives, groups⟩ v active
    rw [exec_vexpnd, execVexpnd, moveWord_rows (srcs := [o.a]) hs lives groups]
    exact ⟨rfl, execVcompr_rows hs lives groups⟩
  · intro o s hs lives sew v legal
    exact execVexts_done hs lives sew legal
  · rintro o s hs ⟨lives, groups⟩ sew plain
    exact execVinss_row hs lives groups sew plain
end Sys2Proof.Machine
end

section
namespace Sys2Proof.Machine

/-! The conversions VCONV (R224 to R226). -/

/-- R178, R224: a slot with a floating-point format is not one of integers. -/
theorem fmt_ne_of_float {v : VType} (h : v.float.isSome = true) : v.fmt ≠ 0 := by
  intro fmt
  simp [VType.float, fmt, fmtBF16, fmtFLOAT] at h
/-- R200, R224: a slot that VCVT accepts, read or written as natural numbers when marked. -/
theorem numeric_accepted {v : VType} {natural : Bool}
    (h : (v.fmt = 0 ∧ (natural = true → v.sew ≠ 4)) ∨ v.float.isSome = true) :
    (numeric v && !(natural && v.fmt == fmtINT && v.sew == 4)) = true := by
  rcases h with ⟨fmt, sew⟩ | float
  · cases natural <;> simp_all [numeric, fmtINT]
  · simp [numeric, float, fmtINT, fmt_ne_of_float float]

/-- R224: the mode bits, by their places. -/
theorem cvNI_eq (o : VArgs) : cvNI o = o.b.getLsbD 0 := bit_eq_testBit _ _
theorem cvNO_eq (o : VArgs) : cvNO o = o.b.getLsbD 1 := bit_eq_testBit _ _
theorem cvWRAP_eq (o : VArgs) : cvWRAP o = o.b.getLsbD 2 := bit_eq_testBit _ _

/-- R224, R225: what a conversion leaves whose element, from the source's pattern and flags and the residual, this is. -/
def State.converted (s : State) (o : VArgs) (op : Nat → Nat → Nat → Elem) : State :=
  let v := s.h.slot o.t
  let u := s.h.slot !o.t
  s.rowsPut v o.d (s.rowsOf v o (min s.h.vl (min (s.h.maxIn u) (s.h.maxIn v)))
    (if wholeBlock s none ⟨o.d.toNat, v.rows⟩ [⟨o.a.toNat, v.rows⟩] then 0 else s.h.vstart) (s.h.act o.mask o.neg)
    (fun _ => 0) fun r i res => some (op (s.elem u false o.a.toNat r i).1 (s.elem u false o.a.toNat r i).2 res))

section
variable {func : Nat} {o : VArgs} {s : State} (hs : s.Solo) (lives : (o.mask == 7 && o.neg) = false)
include hs lives

section
variable (legal : groupsLegal s.h (some (⟨o.d.toNat, (s.h.slot o.t).rows⟩, false))
    [⟨⟨o.a.toNat, (s.h.slot o.t).rows⟩, (s.h.slot !o.t).sew == (s.h.slot o.t).sew⟩] = true)
  (rows : (s.h.slot !o.t).rows = (s.h.slot o.t).rows)
include legal rows

/-- R224: a conversion whose own checks pass. -/
theorem convertVector_rows {checks : Hart → VType → VType → Act Unit} {op : Hart → VType → VType → Nat → Nat → Nat → Elem}
    (accepted : checks s.h (s.h.slot !o.t) (s.h.slot o.t) s = .ok () s) :
    convertVector func checks op o s = .next (s.converted o (op s.h (s.h.slot !o.t) (s.h.slot o.t))).pastVector := by
  unfold convertVector
  rw [vWordOf_elementwiseIf (srcs := fun h v => [⟨⟨o.a.toNat, v.rows⟩, (h.slot !o.t).sew == v.sew⟩])
    (vectorWord_vInfo (by decide)) hs legal lives
    ((act_bind_ok (getH_apply s)).trans <| (act_bind_ok (require_of (beq_iff_eq.2 rows) _ _ s)).trans <| act_bind_ok accepted)]
  simp only [State.converted, State.elem, rows]
  rfl

/-- R224: VCVT. -/
theorem execVcvt_rows (out : ((s.h.slot o.t).fmt = 0 ∧ (cvNO o = true → (s.h.slot o.t).sew ≠ 4)) ∨
      (s.h.slot o.t).float.isSome = true)
    (into : ((s.h.slot !o.t).fmt = 0 ∧ (cvNI o = true → (s.h.slot !o.t).sew ≠ 4)) ∨ (s.h.slot !o.t).float.isSome = true) :
    execVcvt o s = .next (s.converted o (convertElem o (s.h.slot !o.t) (s.h.slot o.t))).pastVector :=
  convertVector_rows hs lives legal rows
    ((act_bind_ok (acceptType_of (numeric_accepted out) s)).trans (acceptType_of (numeric_accepted into) s))

variable {F : Fmt}
/-- R225: VCBENC. -/
theorem execVcbenc_rows (fmt : (s.h.slot o.t).fmt = 3) (typed : (s.h.slot !o.t).float = some F)
    (book : (s.h.book (s.h.slot o.t)).entries.length = 2 ^ (s.h.slot o.t).sew) :
    execVcbenc o s = .next (s.converted o fun a f res =>
      encodeEf (s.h.slot o.t) (s.h.book (s.h.slot o.t)) (val F a) f res).pastVector := by
  unfold execVcbenc
  rw [convertVector_rows hs lives legal rows ((act_bind_ok (acceptType_of (beq_iff_eq.2 fmt) s)).trans <|
    (act_bind_ok (acceptType_of (Option.isSome_of_eq_some typed) s)).trans (require_of (beq_iff_eq.2 book) _ _ s))]
  simp only [typed]
/-- R225: VCBDEC. -/
theorem execVcbdec_rows (fmt : (s.h.slot !o.t).fmt = 3) (typed : (s.h.slot o.t).float = some F)
    (book : (s.h.book (s.h.slot !o.t)).entries.length = 2 ^ (s.h.slot !o.t).sew) :
    execVcbdec o s = .next (s.converted o fun a f res =>
      roundEf (s.h.slot o.t) F (cbDecode (s.h.book (s.h.slot !o.t)) a, 0) f res).pastVector := by
  unfold execVcbdec
  rw [convertVector_rows hs lives legal rows ((act_bind_ok (acceptType_of (Option.isSome_of_eq_some typed) s)).trans <|
    (act_bind_ok (acceptType_of (beq_iff_eq.2 fmt) s)).trans (require_of (beq_iff_eq.2 book) _ _ s))]
  simp only [typed]
end

/-- R226: the two sources' elements in turn. -/
theorem execVpack_rows (legal : groupsLegal s.h (some (⟨o.d.toNat, (s.h.slot o.t).rows⟩, false))
    [⟨⟨o.a.toNat, (s.h.slot o.t).rows⟩, false⟩, ⟨⟨o.b.toNat, (s.h.slot o.t).rows⟩, false⟩] = true) :
    execVpack o s = .next (let gs : List Group := [⟨o.a.toNat, (s.h.slot o.t).rows⟩, ⟨o.b.toNat, (s.h.slot o.t).rows⟩]
      let kept := keptLevels s (s.h.slot o.t) o gs
      s.elementsPut o kept false gs fun r i res =>
        some ⟨(s.elem (s.h.slot o.t) kept.isSome (if i % 2 = 0 then o.a.toNat else o.b.toNat) r (i / 2)).1, 0, res⟩).pastVector := by
  unfold execVpack
  rw [vWordOf_elementwise (vectorWord_vInfo (by decide)) hs legal lives (act_bind_ok (get_apply s))]
  refine congrArg (fun op => Host.Outcome.next (State.pastVector (s.elementsPut o _ false _ op))) ?_
  funext r i res
  rcases Nat.mod_two_eq_zero_or_one i with even | odd
  · rw [if_pos even, even]
    rfl
  · rw [if_neg (by omega), odd]
    rfl

/-- R226: every second element. -/
theorem execVunpk_rows (legal : groupsLegal s.h (some (⟨o.d.toNat, (s.h.slot o.t).rows⟩, false))
    [⟨⟨o.a.toNat, (s.h.slot o.t).rows⟩, false⟩] = true) :
    execVunpk o s = .next (let gs : List Group := [⟨o.a.toNat, (s.h.slot o.t).rows⟩]
      let kept := keptLevels s (s.h.slot o.t) o gs
      s.elementsPut o kept false gs fun r i res =>
        let j := 2 * i + (s.h.reg o.b.toNat).toNat % 2
        takenIf (decide (j < s.h.maxIn (s.h.slot o.t))) (s.elem (s.h.slot o.t) kept.isSome o.a.toNat r j) res).pastVector := by
  unfold execVunpk
  rw [vWordOf_elementwise (vectorWord_vInfo (by decide)) hs legal lives (act_bind_ok (get_apply s))]
  simp only [movedIf_eq]
  rfl
end

/-- Settles O26: each word has its rule above; of VCVT, its checks and its element are those of R224. -/
theorem vectorConvertWords : Obligations.VectorConvertWords := by
  unfold Obligations.VectorConvertWords
  intro legal convert natural
  refine ⟨?_, ?_, ?_, ?_, ?_⟩
  · rintro o s hs v u ni no int ⟨lives, groups⟩ rows out into
    rw [exec_vcvt, execVcvt_rows hs lives groups rows (by rwa [cvNO_eq]) (by rwa [cvNI_eq])]
    unfold convertElem intValue
    simp only [cvNI_eq, cvNO_eq, cvWRAP_eq]
    rfl
  · rintro o s F hs v u ⟨lives, groups⟩ rows fmt typed book
    exact execVcbenc_rows hs lives groups rows fmt typed book
  · rintro o s F hs v u ⟨lives, groups⟩ rows fmt typed book
    exact execVcbdec_rows hs lives groups rows fmt typed book
  · rintro o s hs ⟨lives, groups⟩
    exact execVpack_rows hs lives groups
  · rintro o s hs ⟨lives, groups⟩
    refine (execVunpk_rows hs lives groups).trans ?_
    simp only [takenIf, decide_eq_true_eq]
    rfl
end Sys2Proof.Machine
end

section
namespace Sys2Proof.Machine

/-! The reductions VRED (R227, R228). -/

/-- R227: what a reduction leaves whose row r has this value and these flags: element 0 of each row, its tail cut, marked. -/
def State.reduced (s : State) (o : VArgs) (f : Nat → Nat × Nat) : State :=
  let v := s.h.slot o.t
  s.rowsPut v o.d ((groupRows s ⟨o.d.toNat, v.rows⟩).zipIdx.map fun e =>
    ({ (((e.1.set v.sew 0 (f e.2).1).cutTail v 1 (s.h.maxIn v)).markTo 1) with tag := 0 }, (f e.2).2,
      (s.h.efc[e.2]?.getD 0).toNat))
/-- R201: the active elements of row r, and each element of it by x, absent when not active. -/
def State.actives (s : State) (o : VArgs) (r : Nat) : List Nat :=
  (List.range (s.h.vlIn (s.h.slot o.t))).filter (s.h.act o.mask o.neg r)
def State.pick {α : Type} (s : State) (o : VArgs) (r : Nat) (x : Nat → α) : List (Option α) :=
  (List.range (s.h.vlIn (s.h.slot o.t))).map fun i => if s.h.act o.mask o.neg r i then some (x i) else none

/-- R201: an element below vl is among the active ones when it is active. -/
theorem pick_actives {α : Type} (s : State) (o : VArgs) (r : Nat) (x : Nat → α) :
    ((List.range (s.h.vlIn (s.h.slot o.t))).map fun i => if (s.actives o r).contains i then some (x i) else none) =
      s.pick o r x := by
  refine List.map_congr_left fun i below => ?_
  simp [State.actives, List.mem_range.1 below]

section
variable {func : Nat} {o : VArgs} {s : State} (hs : s.Solo) (lives : (o.mask == 7 && o.neg) = false)
include hs lives

section
variable {i : Info} {dstRead : Bool} {srcs : Hart → VType → List Source} {body : VType → Act Unit} (hi : VectorWord i o)
  (legal : groupsLegal s.h (some (⟨o.d.toNat, (s.h.slot o.t).rows⟩, dstRead)) (srcs s.h (s.h.slot o.t)) = true)
include hi legal

/-- R227: a V word whose work reduces its rows. -/
theorem vWordOf_reduceRows {gs : List Group} {f : List (Nat → Nat → Nat × Nat) → Nat → List Nat → Nat × Nat}
    (work : body (s.h.slot o.t) s = reduceRows (s.h.slot o.t) o gs f s) :
    vWordOf i o dstRead srcs body s =
      .next (s.reduced o fun r => f (s.readsOf (s.h.slot o.t) none gs) r (s.actives o r)).pastVector := by
  rw [vWordOf_rowWord hi hs legal lives (work.trans (act_bind_ok (getH_apply s)))]
  rfl
end

/-- R227: a reduction of a type it accepts. -/
theorem reductionWord_rows {accepts : VType → Bool} {f : VType → Nat → List (Option Nat) → Nat × Nat}
    (legal : groupsLegal s.h (some (⟨o.d.toNat, (s.h.slot o.t).rows⟩, false)) (⟨⟨o.a.toNat, (s.h.slot o.t).rows⟩, false⟩ ::
      (if o.x then [] else [⟨⟨o.b.toNat, (s.h.slot o.t).rows⟩, true⟩])) = true)
    (accepted : accepts (s.h.slot o.t) = true) (sew : o.x = true → (s.h.slot o.t).sew ≠ 128) :
    reductionWord func accepts f o s = .next (s.reduced o fun r =>
      let xs := s.pick o r (s.elem (s.h.slot o.t) false o.a.toNat r)
      let acc := s.elemB o false r 0
      let y := if s.actives o r = [] then (acc.1, 0) else f (s.h.slot o.t) acc.1 (xs.map fun x => x.map (·.1))
      (y.1, orFlags [acc.2, orFlags (xs.filterMap fun x => x.map (·.2)), y.2])).pastVector := by
  unfold reductionWord
  rw [vWordOf_reduceRows hs lives (srcs := fun _ v => ⟨⟨o.a.toNat, v.rows⟩, false⟩ ::
      (if o.x then [] else [⟨⟨o.b.toNat, v.rows⟩, true⟩])) (vectorWord_vInfo (by decide)) legal
    ((act_bind_ok (acceptType_of accepted s)).trans <| (act_bind_ok (getH_apply s)).trans <| xOperand_bind sew _)]
  simp only [operandB_eq fun x => if_pos x, pick_actives, List.isEmpty_iff]
  rfl

/-- R228: a dot product of a type it accepts. -/
theorem dotWord_rows {f : Fmt → Nat → List (Option (Nat × Nat)) → Nat × Nat}
    (legal : groupsLegal s.h (some (⟨o.d.toNat, (s.h.slot o.t).rows⟩, true))
      [⟨⟨o.a.toNat, (s.h.slot o.t).rows⟩, false⟩, ⟨⟨o.b.toNat, (s.h.slot o.t).rows⟩, false⟩] = true)
    (accepted : sumType (s.h.slot o.t) = true) :
    dotWord func f o s = .next (s.reduced o fun r =>
      let pairs := s.pick o r fun i =>
        (s.elem (s.h.slot o.t) false o.a.toNat r i, s.elem (s.h.slot o.t) false o.b.toNat r i)
      let ps := pairs.map fun p => p.map fun x => (x.1.1, x.2.1)
      let acc := s.elem (s.h.slot o.t) false o.d.toNat r 0
      let y := match (s.h.slot o.t).float with
        | some F => f F acc.1 ps
        | none => ((acc.1 + (ps.filterMap fun (p : Option (Nat × Nat)) => p.map fun (x : Nat × Nat) => x.1 * x.2).sum)
          % 2 ^ (s.h.slot o.t).sew, 0)
      (y.1, orFlags [orFlags (pairs.filterMap fun p => p.map fun x => Nat.lor x.1.2 x.2.2), acc.2, y.2])).pastVector := by
  unfold dotWord
  rw [vWordOf_reduceRows hs lives (vectorWord_vInfo (by decide)) legal
    ((act_bind_ok (acceptType_of accepted s)).trans (act_bind_ok (getH_apply s)))]
  simp only [pick_actives]
  rfl
end

/-- R200: the types of sums, extrema and dot products. -/
theorem sumType_of {v : VType} (h : (v.fmt = 0 ∧ v.sew ≠ 4) ∨ v.float.isSome = true) : sumType v = true := by
  simpa [sumType, fmtINT] using h

/-- R227: a word of the model is the reduction with this operation, which accepts these types. -/
def IsReduction (e : (VArgs → Instr) × (VType → Prop) × (VType → Nat → List (Option Nat) → Nat × Nat)) : Prop :=
  ∃ func accepts, (∀ v, e.2.1 v → accepts v = true) ∧ ∀ o s, exec (e.1 o) s = reductionWord func accepts e.2.2 o s
/-- R228: a word of the model is the dot product with this operation. -/
def IsDot (e : (VArgs → Instr) × (Fmt → Nat → List (Option (Nat × Nat)) → Nat × Nat)) : Prop :=
  ∃ func, ∀ o s, exec (e.1 o) s = dotWord func e.2 o s

/-- Settles O27: each word is a reduction or a dot product with its own operation. -/
theorem vectorReduceWords : Obligations.VectorReduceWords := by
  unfold Obligations.VectorReduceWords
  intro legal done active sums ints extreme
  refine ⟨fun e he => ?_, fun e he => ?_⟩
  · have row : IsReduction e := by
      revert e
      simp only [List.forall_mem_cons, List.not_mem_nil, false_imp_iff, implies_true, and_true]
      exact ⟨⟨0, _, fun _ => sumType_of, fun _ _ => rfl⟩, ⟨1, _, fun _ => sumType_of, fun _ _ => rfl⟩,
        ⟨2, _, fun _ => sumType_of, fun _ _ => rfl⟩, ⟨3, _, fun _ => sumType_of, fun _ _ => rfl⟩,
        ⟨4, _, fun _ => beq_iff_eq.2, fun _ _ => rfl⟩, ⟨5, _, fun _ => beq_iff_eq.2, fun _ _ => rfl⟩⟩
    obtain ⟨func, accepts, typed, same⟩ := row
    rintro o s hs v ⟨lives, groups⟩ accepted sew
    rw [same]
    exact reductionWord_rows hs lives groups (typed _ accepted) sew
  · have row : IsDot e := by
      revert e
      simp only [List.forall_mem_cons, List.not_mem_nil, false_imp_iff, implies_true, and_true]
      exact ⟨⟨6, fun _ _ => rfl⟩, ⟨7, fun _ _ => rfl⟩⟩
    obtain ⟨func, same⟩ := row
    rintro o s hs v ⟨lives, groups⟩ accepted
    rw [same]
    exact dotWord_rows hs lives groups (sumType_of accepted)
end Sys2Proof.Machine
end

section
namespace Sys2Proof.Machine

/-! The special functions VSPEC (R229), and the merges and the search of VMERGE (R232 to R234). -/

/-- R200: integers wide enough for a merge or a search. -/
theorem keyType_of {least : Nat} {v : VType} (fmt : v.fmt = 0) (sew : least ≤ v.sew) : keyType least v = true := by
  simp [keyType, fmtINT, fmt, sew]

/-- R232: the keys of a one-row source as they lie, block or not. -/
def State.keyOf (s : State) (v : VType) (name i : Nat) : Nat := getElem (groupRow s ⟨name, 1⟩ 0).bits v.sew i
/-- R232: the merge of the two sources' keys: each position's key, with its place, and how many came from va. -/
def State.merged (s : State) (o : VArgs) : List (Nat × Nat) × Nat :=
  let v := s.h.slot o.t
  mergeKeys (s.h.vlIn v) (s.keyOf v o.a.toNat) (s.keyOf v o.b.toNat) (s.h.vlIn v) 0 0

section
variable {func : Nat} {o : VArgs} {s : State} (hs : s.Solo) (lives : (o.mask == 7 && o.neg) = false)
include hs lives

/-- R229, log 49: a special function on an accepted type. -/
theorem specWord_rows {F : Fmt} (legal : groupsLegal s.h (some (⟨o.d.toNat, (s.h.slot o.t).rows⟩, false))
      [⟨⟨o.a.toNat, (s.h.slot o.t).rows⟩, true⟩] = true)
    (typed : (s.h.slot o.t).float = some F) (sew : (s.h.slot o.t).sew ≠ 64) :
    specWord func o s = .next (s.elementsPut o none false [⟨o.a.toNat, (s.h.slot o.t).rows⟩] fun r i res =>
      let x := s.elem (s.h.slot o.t) false o.a.toNat r i
      let y := roundWith F .rne (specVal func (val F x.1))
      some ⟨y.1, Nat.lor x.2 y.2, res⟩).pastVector := by
  unfold specWord
  rw [vWordOf_elementwise (vectorWord_vInfo (by decide)) hs legal lives
    ((act_bind_ok (acceptType_of (bne_iff_ne.2 sew) s)).trans <| (act_bind_ok (floatSlot_of typed s)).trans <|
      act_bind_ok (getH_apply s))]
  rfl

section
variable (legal : groupsLegal s.h (some (⟨o.d.toNat, (s.h.slot o.t).rows⟩, false))
    [⟨⟨o.a.toNat, (s.h.slot o.t).rows⟩, false⟩, ⟨⟨o.b.toNat, (s.h.slot o.t).rows⟩, false⟩] = true)
  (fmt : (s.h.slot o.t).fmt = 0)
include legal fmt

/-- R232: VMRG and VMRGI. -/
theorem mergeWord_rows {least : Nat} {pick : Nat × Nat → Nat} (sew : least ≤ (s.h.slot o.t).sew)
    (rows : (s.h.slot o.t).rows = 1) :
    mergeWord func least pick o s = .next (let v := s.h.slot o.t
      let t := s.rowsPut v o.d ((groupRows s ⟨o.d.toNat, v.rows⟩).zipIdx.map fun w =>
        ({ ((((s.merged o).1.zipIdx.foldl (fun w x => Wide.set w v.sew x.2 (pick x.1 % 2 ^ v.sew)) w.1).cutTail v
          (s.h.vlIn v) (s.h.maxIn v)).markTo (s.h.vlIn v)) with tag := 0 }, 0, (s.h.efc[w.2]?.getD 0).toNat))
      State.pastVector { t with h := { t.h with csr := { t.h.csr with mrgcnt := BitVec.ofNat 64 (s.merged o).2 } } }) := by
  have typed : (keyType least (s.h.slot o.t) && (s.h.slot o.t).rows == 1) = true := by simp [keyType_of fmt sew, rows]
  unfold mergeWord
  refine vWordOf_seq (vectorWord_unlent (by decide)) hs lives legal ?_ (rowsPut_pfx _ _ _ s hs)
  refine (act_bind_ok (acceptType_of typed s)).trans ?_
  refine (act_bind_ok (getH_apply s)).trans ?_
  refine (act_bind_ok (get_apply s)).trans ?_
  refine (act_bind_ok (rowWord_solo _ _ o none _ _ s hs)).trans ?_
  rfl

/-- R234: how many of the row's keys lie below each query. -/
theorem execVbsrch_rows (sew : 16 ≤ (s.h.slot o.t).sew) :
    execVbsrch o s = .next (s.elementsPut o none false [⟨o.a.toNat, (s.h.slot o.t).rows⟩, ⟨o.b.toNat, (s.h.slot o.t).rows⟩]
      fun r i res => some ⟨(List.range (s.h.vlIn (s.h.slot o.t))).countP fun j =>
        decide ((s.elem (s.h.slot o.t) false o.a.toNat r j).1 < (s.elem (s.h.slot o.t) false o.b.toNat r i).1), 0,
        res⟩).pastVector := by
  unfold execVbsrch
  rw [vWordOf_elementwise (vectorWord_vInfo (by decide)) hs legal lives
    ((act_bind_ok (acceptType_of (keyType_of fmt sew) s)).trans (act_bind_ok (getH_apply s)))]
  simp only [← List.countP_eq_length_filter]
  rfl
end
end

/-- Settles O28: each word has its rule above. -/
theorem vectorSpecialAndMerge : Obligations.VectorSpecialAndMerge := by
  unfold Obligations.VectorSpecialAndMerge
  intro legal
  refine ⟨fun e he => ?_, fun e he => ?_, ?_⟩
  · have row : ∀ o s, exec (e.1 o) s = specWord e.2 o s := by
      revert e
      simp only [List.forall_mem_cons, List.not_mem_nil, false_imp_iff, implies_true, and_true]
      exact ⟨exec_vexp2, exec_vlog2, exec_vrcp, exec_vrsq, exec_vsin, exec_vcos, exec_vtanh, exec_vsigm⟩
    rintro o s F hs ⟨lives, groups⟩ typed sew v
    rw [row]
    exact specWord_rows hs lives groups typed sew
  · have row : ∃ func, ∀ o s, exec (e.1 o) s = mergeWord func e.2.1 (fun x => if e.2.2 then x.2 else x.1) o s := by
      revert e
      simp only [List.forall_mem_cons, List.not_mem_nil, false_imp_iff, implies_true, and_true]
      exact ⟨⟨0, fun _ _ => rfl⟩, ⟨1, fun _ _ => rfl⟩⟩
    obtain ⟨func, same⟩ := row
    rintro o s hs ⟨lives, groups⟩ v n fmt sew rows
    rw [same]
    exact mergeWord_rows hs lives groups fmt sew rows
  · rintro o s hs ⟨lives, groups⟩ v fmt sew
    exact execVbsrch_rows hs lives groups fmt sew
end Sys2Proof.Machine
end

section
namespace Sys2Proof.Machine

/-! The words on k registers: VCMP and VFCMP (R215 to R217), and KLOG (R218). -/

/-- R35: what the checks need to know of a compare. -/
theorem vectorWord_vCmpInfo {major : Nat} {o : VCmpArgs} (h : major ≠ 0x30) : VectorWord (vCmpInfo major o) (plainV o) :=
  ⟨h, rfl, rfl, rfl, rfl, rfl, rfl⟩
/-- R218, R47: KPOPC and KFIRST follow no PFX that copies. -/
theorem uncopied_pass {s : State} (pfx : s.h.pfx = none) :
    (do require (← getH).copyReg.isNone cIllegalPair 0 : Act Unit) s = .ok () s :=
  (act_bind_ok (getH_apply s)).trans (require_of (by simp [Hart.copyReg_of_none _ pfx]) _ _ s)

section
variable {s : State} (hs : s.Solo)
include hs

/-- R215: a compare of a type it accepts. -/
theorem compareWord_puts {major : Nat} {o : VCmpArgs} {accepts : VType → Bool} {f : VType → Nat → Nat → Bool × Nat}
    (lives : (o.mask == 7 && o.neg) = false) (vector : major ≠ 0x30)
    (legal : groupsLegal s.h none (binarySources (plainV o) s.h (s.h.slot o.t)) = true)
    (sew : o.x = true → (s.h.slot o.t).sew ≠ 128) (accepted : accepts (s.h.slot o.t) = true) :
    compareWord major accepts f o s =
      .next (s.maskPut (s.loopOf (s.h.slot o.t) o.mask o.neg) o.d.toNat fun r i =>
        let a := s.elem (s.h.slot o.t) false o.a.toNat r i
        let b := s.elemB (plainV o) false r i
        ((f (s.h.slot o.t) a.1 b.1).1, orFlags [a.2, b.2, (f (s.h.slot o.t) a.1 b.1).2])).pastVector := by
  have word := vectorWord_vCmpInfo (o := o) vector
  have b (r i : Nat) : operandB (plainV o) (s.readsOf (s.h.slot o.t) none (binaryGroups (plainV o) (s.h.slot o.t)))
      (if (plainV o).x then (s.h.reg (plainV o).b.toNat).toNat % 2 ^ (s.h.slot o.t).sew else 0) r i =
        s.elemB (plainV o) false r i := operandB_eq (o := plainV o) (fun x => if_pos x) r i
  have reads : ((binaryGroups (plainV o) (s.h.slot o.t)).map (sourceRows s)).map (fun rs (r i : Nat) =>
      srcElem (s.h.slot o.t) false (rowAt rs r) i) = s.readsOf (s.h.slot o.t) none (binaryGroups (plainV o) (s.h.slot o.t)) :=
    List.map_map
  unfold compareWord
  refine issue_vector _ _ _ _ _ s _ hs.toReady (word.checks hs ?_) (word.holds hs lives) (andNext_ok _ _ _ ?_)
    ((maskPut_pfx ..).trans hs.pfx) rfl rfl rfl
  · simp only [act_bind, getH_apply, legal, require_true]
  · refine (act_bind_ok (acceptType_of accepted s)).trans ?_
    refine (act_bind_ok (getH_apply s)).trans ?_
    refine (xOperand_bind (o := plainV o) sew _).trans ?_
    refine (act_bind_ok (ringsReady_solo _ _ s hs.solo hs.ops hs.queueing)).trans ?_
    refine (act_bind_ok (get_apply s)).trans ?_
    simp only [reads, b]
    exact writeMask_solo _ _ _ hs.solo _

section
variable {func : Nat} {o : VArgs}

/-- R218: a word from k registers to a k register. -/
theorem klogWord_puts {f : Bool → Bool → Bool} (lives : (o.mask == 7 && o.neg) = false) :
    klogWord func f o s = .next (s.maskPut (s.loopOf (s.h.slot o.t) o.mask o.neg) o.d.toNat fun r i =>
      (f (s.h.kbit o.a.toNat r i) (s.h.kbit o.b.toNat r i), 0)).pastVector := by
  have word : VectorWord (vInfo 0x19 func o .none) o := vectorWord_vInfo (by decide)
  unfold klogWord
  refine issue_vector _ _ _ _ _ s _ hs.toReady (word.checks hs rfl) (word.holds hs lives) (andNext_ok _ _ _ ?_)
    ((maskPut_pfx ..).trans hs.pfx) rfl rfl rfl
  exact (act_bind_ok (queueHere_ready s hs.queueing)).trans (act_bind_ok (getH_apply s))
theorem klogWord_skips {f : Bool → Bool → Bool} (never : (o.mask == 7 && o.neg) = true) :
    klogWord func f o s = .next s.pastVector :=
  issue_vector_skips (vectorWord_vInfo (by decide)) hs ((vectorWord_vInfo (by decide)).checks hs rfl) never

/-- R35: KPOPC and KFIRST are past their checks. -/
theorem kcountWord_checks : Checks (vInfo 0x19 func o (.s o.d.toNat)) (pure ())
    (do require (← getH).copyReg.isNone cIllegalPair 0) s :=
  { (vectorWord_vInfo (by decide) : VectorWord _ o).checks hs rfl with later := uncopied_pass hs.pfx }
/-- R218: KPOPC and KFIRST. -/
theorem kcountWord_done {f : List Nat → Word} (lives : (o.mask == 7 && o.neg) = false) :
    kcountWord func f o s = .next (let t := s.wrote o.d (f (activeBits s.h (s.h.slot o.t) o)) 1 0
      State.pastVector { t with h := { t.h with vstart := 0 } }) := by
  have word : VectorWord (vInfo 0x19 func o (.s o.d.toNat)) o := vectorWord_vInfo (by decide)
  unfold kcountWord
  refine issue_vector _ _ _ _ _ s _ hs.toReady (kcountWord_checks hs) (word.holds hs lives) (andNext_ok _ _ _ ?_)
    (State.wrote_pfx ..|>.trans hs.pfx) rfl rfl rfl
  exact (act_bind_ok (getH_apply s)).trans (act_bind_ok (writeD_ready _ _ _ _ s hs.toReady))
theorem kcountWord_skips {f : List Nat → Word} (never : (o.mask == 7 && o.neg) = true) :
    kcountWord func f o s = .next s.pastVector :=
  issue_vector_skips (vectorWord_vInfo (by decide)) hs (kcountWord_checks hs) never
end
end

/-- Settles O29: each word is a compare, a word between k registers, or a count, with its own operation. -/
theorem maskWords : Obligations.MaskWords := by
  unfold Obligations.MaskWords
  refine ⟨?_, fun e he => ?_, ?_, ?_⟩
  · intro o s hs lives v legal sew b a
    refine ⟨fun fmt natural => ?_, fun F typed => ?_⟩
    · have accepted : (v.fmt == fmtINT && !(naturalCond o.cond.toNat && v.sew == 4)) = true := by
        cases h : naturalCond o.cond.toNat <;> simp_all [fmtINT]
      rw [exec_vcmp, execVcmp, compareWord_puts hs lives (by decide) legal sew accepted]
      rfl
    · rw [exec_vfcmp, execVfcmp, compareWord_puts hs lives (by decide) legal sew (Option.isSome_of_eq_some typed)]
      simp only [show (s.h.slot o.t).float = some F from typed]
      rfl
  · have row : ∃ func, ∀ o s, exec (e.1 o) s = klogWord func e.2 o s := by
      revert e
      simp only [List.forall_mem_cons, List.not_mem_nil, false_imp_iff, implies_true, and_true]
      exact ⟨⟨0, fun _ _ => rfl⟩, ⟨1, fun _ _ => rfl⟩, ⟨2, fun _ _ => rfl⟩, ⟨3, fun _ _ => rfl⟩, ⟨4, fun _ _ => rfl⟩,
        ⟨5, fun _ _ => rfl⟩⟩
    obtain ⟨func, same⟩ := row
    intro o s hs
    rw [same]
    exact ⟨klogWord_skips hs, klogWord_puts hs⟩
  · intro o s hs never
    rw [exec_kpopc, exec_kfirst, execKpopc, execKfirst, kcountWord_skips hs never, kcountWord_skips hs never]
    exact ⟨rfl, rfl⟩
  · intro o s hs lives v n set done
    rw [exec_kpopc, exec_kfirst, execKpopc, execKfirst, kcountWord_done hs lives, kcountWord_done hs lives]
    exact ⟨rfl, rfl⟩
end Sys2Proof.Machine
end

section
namespace Sys2Proof.Machine

/-! Elements of a row (R154, R190). -/

/-- R4: a field replaced, bit by bit. -/
theorem testBit_setBits (n lo m v k : Nat) (h : 0 < m) : (setBits n (lo + m - 1) lo v).testBit k =
    if lo ≤ k ∧ k < lo + m then v.testBit (k - lo) else n.testBit k := by
  have top : lo + m - 1 + 1 = lo + m := by omega
  have parts : setBits n (lo + m - 1) lo v = 2 ^ lo * (2 ^ m * (n / 2 ^ (lo + m)) + v % 2 ^ m) + n % 2 ^ lo := by
    rw [setBits, top, Nat.add_sub_cancel_left, Nat.pow_add]
    ring
  rw [parts, Nat.testBit_two_pow_mul_add _ (Nat.mod_lt _ (by positivity)),
    Nat.testBit_two_pow_mul_add _ (Nat.mod_lt _ (by positivity)), Nat.testBit_mod_two_pow, Nat.testBit_mod_two_pow,
    Nat.testBit_div_two_pow]
  by_cases below : k < lo
  · simp [below, Nat.not_le.2 below]
  · by_cases inside : k - lo < m
    · simp [below, inside, show lo ≤ k ∧ k < lo + m by omega]
    · simp [below, inside, show ¬(lo ≤ k ∧ k < lo + m) by omega, show k - lo - m + (lo + m) = k by omega]
theorem testBit_getElem (x sew i k : Nat) :
    (getElem x sew i).testBit k = (decide (k < sew) && x.testBit (elemAt sew i + k)) := by
  rw [getElem, Nat.testBit_mod_two_pow, Nat.testBit_div_two_pow, Nat.add_comm]

section
variable {sew : Nat} (packed : sew ≠ 6)
include packed

theorem elemAt_eq (i : Nat) : elemAt sew i = sew * i := if_neg packed
/-- Bits of two elements are apart. -/
theorem elemAt_apart {i j k : Nat} (h : i ≠ j) (inside : k < sew) :
    ¬(elemAt sew j ≤ elemAt sew i + k ∧ elemAt sew i + k < elemAt sew j + sew) := by
  rw [elemAt_eq packed, elemAt_eq packed]
  rcases Nat.lt_or_gt_of_ne h with below | above
  · have := Nat.mul_le_mul_left sew (Nat.succ_le_of_lt below)
    rw [Nat.mul_succ] at this
    omega
  · have := Nat.mul_le_mul_left sew (Nat.succ_le_of_lt above)
    rw [Nat.mul_succ] at this
    omega

variable (positive : 0 < sew)
include positive

theorem getElem_setElem_same (x i v : Nat) : getElem (setElem x sew i v) sew i = v % 2 ^ sew := by
  refine Nat.eq_of_testBit_eq fun k => ?_
  rw [testBit_getElem, setElem, if_neg packed, testBit_setBits _ _ _ _ _ positive, Nat.testBit_mod_two_pow]
  by_cases inside : k < sew
  · rw [if_pos ⟨by omega, by omega⟩, Nat.add_sub_cancel_left]
  · simp [inside]
theorem getElem_setElem_ne (x v : Nat) {i j : Nat} (h : i ≠ j) : getElem (setElem x sew j v) sew i = getElem x sew i := by
  refine Nat.eq_of_testBit_eq fun k => ?_
  rw [testBit_getElem, testBit_getElem, setElem, if_neg packed, testBit_setBits _ _ _ _ _ positive]
  by_cases inside : k < sew
  · rw [if_neg (elemAt_apart packed h inside)]
  · simp [inside]
end

section
variable {v : VType} (packed : v.sew ≠ 6)
include packed

/-- R201: tail zeroing leaves the elements below vl. -/
theorem getElem_cutTail_below (x : Wide) (n mx : Nat) {i : Nat} (h : i < n) :
    getElem (x.cutTail v n mx).bits v.sew i = getElem x.bits v.sew i := by
  unfold Wide.cutTail
  split
  · refine Nat.eq_of_testBit_eq fun k => ?_
    have := Nat.mul_le_mul_left v.sew (Nat.succ_le_of_lt h)
    rw [Nat.mul_succ] at this
    rw [testBit_getElem, testBit_getElem, Nat.testBit_mod_two_pow, elemAt_eq packed, elemAt_eq packed]
    by_cases inside : k < v.sew
    · rw [show decide (v.sew * i + k < v.sew * n) = true from decide_eq_true (by omega), Bool.true_and]
    · simp [inside]
  · rfl
/-- R201: the tail is zero under tail zeroing, and unchanged otherwise. -/
theorem getElem_cutTail_tail (x : Wide) {n mx i : Nat} (h : n ≤ i) (tail : n < mx) :
    getElem (x.cutTail v n mx).bits v.sew i = if v.tailZero then 0 else getElem x.bits v.sew i := by
  unfold Wide.cutTail
  cases v.tailZero
  · rfl
  · refine Nat.eq_of_testBit_eq fun k => ?_
    have := Nat.mul_le_mul_left v.sew h
    simp only [tail, decide_true, Bool.and_true, if_true, testBit_getElem, Nat.testBit_mod_two_pow, elemAt_eq packed,
      Nat.zero_testBit]
    rw [show decide (v.sew * i + k < v.sew * n) = false from decide_eq_false (by omega), Bool.false_and, Bool.and_false]
end
theorem markTo_bits (x : Wide) (n : Nat) : (x.markTo n).bits = x.bits := by
  unfold Wide.markTo
  split <;> rfl
end Sys2Proof.Machine
end

section
namespace Sys2Proof.Machine

/-! One row of an element-wise word (R201). -/

/-- A fold over the first n numbers whose step for k changes nothing that g tells of another number: of a number below n, g tells
what its own step made. -/
theorem foldl_range_frame {β γ : Type} (f : β → Nat → β) (g : β → Nat → γ)
    (frame : ∀ y k i, i ≠ k → g (f y k) i = g y i) (y : β) (n i : Nat) :
    g ((List.range n).foldl f y) i = if i < n then g (f ((List.range i).foldl f y) i) i else g y i := by
  induction n with
  | zero => simp
  | succ n ih =>
    rw [List.range_succ, List.foldl_append]
    rcases Nat.lt_trichotomy i n with below | rfl | above
    · rw [List.foldl_cons, List.foldl_nil, frame _ _ _ below.ne, ih, if_pos below, if_pos (below.trans n.lt_succ_self)]
    · rw [if_pos i.lt_succ_self]
      rfl
    · rw [List.foldl_cons, List.foldl_nil, frame _ _ _ above.ne', ih, if_neg (by omega), if_neg (by omega)]

/-- R201: what element i does to a row, the flags and the residual. -/
def Loop.step (w : Loop) (op : Nat → Nat → Nat → Option Elem) (r : Nat) (y : Wide × Nat × Nat) (i : Nat) : Wide × Nat × Nat :=
  if r * w.n + i < w.start then y else
  match (if w.act r i then op r i y.2.2 else none) with
  | some e => (y.1.set w.v.sew i e.value, Nat.lor y.2.1 e.flags, e.res)
  | none => (if w.v.maskZero then y.1.zero w.v.sew i else y.1, y.2.1, y.2.2)

section
variable (w : Loop) (op : Nat → Nat → Nat → Option Elem) (r : Nat)

/-- R201: a row is its elements' steps in order, then its tail, its mark and its tag. -/
theorem Loop.row_eq (tag : BitVec 6) (old : Wide) (res : Nat) : w.row op r tag old res =
    (let y := (List.range w.n).foldl (w.step op r) (old, 0, res)
     ({ (y.1.cutTail w.v w.n w.max).markTo w.n with tag := tag }, y.2.1, y.2.2)) := rfl

variable {w op r} {y : Wide × Nat × Nat} {i : Nat}

theorem Loop.step_below (h : r * w.n + i < w.start) : w.step op r y i = y := if_pos h
theorem Loop.step_value (h : w.start ≤ r * w.n + i) (active : w.act r i = true) {e : Elem} (value : op r i y.2.2 = some e) :
    w.step op r y i = (y.1.set w.v.sew i e.value, Nat.lor y.2.1 e.flags, e.res) := by
  rw [Loop.step, if_neg (Nat.not_lt.2 h), if_pos active, value]
theorem Loop.step_masked (h : w.start ≤ r * w.n + i) (masked : w.act r i = false ∨ op r i y.2.2 = none) :
    w.step op r y i = (if w.v.maskZero then y.1.zero w.v.sew i else y.1, y.2.1, y.2.2) := by
  have none : (if w.act r i then op r i y.2.2 else none) = none := by
    rcases masked with masked | masked <;> simp [masked]
  rw [Loop.step, if_neg (Nat.not_lt.2 h), none]
/-- R201: the three things that an element can do. -/
theorem Loop.step_cases (w : Loop) (op : Nat → Nat → Nat → Option Elem) (r : Nat) (y : Wide × Nat × Nat) (i : Nat) :
    r * w.n + i < w.start ∨
      (w.start ≤ r * w.n + i ∧ w.act r i = true ∧ ∃ e, op r i y.2.2 = some e) ∨
      (w.start ≤ r * w.n + i ∧ (w.act r i = false ∨ op r i y.2.2 = none)) := by
  rcases Nat.lt_or_ge (r * w.n + i) w.start with below | from'
  · exact .inl below
  · cases active : w.act r i
    · exact .inr (.inr ⟨from', .inl rfl⟩)
    · cases value : op r i y.2.2
      · exact .inr (.inr ⟨from', .inr rfl⟩)
      · exact .inr (.inl ⟨from', rfl, _, rfl⟩)

/-- R182: a step raises the flags of its element alone, when it computes one. -/
theorem Loop.step_flags (b : Nat) : (w.step op r y i).2.1.testBit b = true ↔ y.2.1.testBit b = true ∨
    (w.start ≤ r * w.n + i ∧ w.act r i = true ∧ ∃ e, op r i y.2.2 = some e ∧ e.flags.testBit b = true) := by
  rcases Loop.step_cases w op r y i with below | ⟨from', active, e, value⟩ | ⟨from', masked⟩
  · rw [Loop.step_below below]
    simp [Nat.not_le.2 below]
  · rw [Loop.step_value from' active value]
    simp [from', active, value]
  · rw [Loop.step_masked from' masked]
    rcases masked with masked | masked <;> simp [masked]
/-- R182: a row's flags are those that its computed elements raise, each with the residual that it meets. -/
theorem Loop.foldl_step_flags (w : Loop) (op : Nat → Nat → Nat → Option Elem) (r : Nat) (old : Wide) (res n b : Nat) :
    ((List.range n).foldl (w.step op r) (old, 0, res)).2.1.testBit b = true ↔
      ∃ i < n, w.start ≤ r * w.n + i ∧ w.act r i = true ∧ ∃ e,
        op r i ((List.range i).foldl (w.step op r) (old, 0, res)).2.2 = some e ∧ e.flags.testBit b = true := by
  induction n with
  | zero => simp
  | succ n ih =>
    rw [List.range_succ, List.foldl_append, List.foldl_cons, List.foldl_nil, Loop.step_flags, ih]
    simp only [Nat.lt_succ_iff_lt_or_eq, or_and_right, exists_or, exists_eq_left]

section
variable (packed : w.v.sew ≠ 6) (positive : 0 < w.v.sew)
include packed positive

theorem Loop.step_elem_ne {j : Nat} (h : j ≠ i) :
    getElem (w.step op r y i).1.bits w.v.sew j = getElem y.1.bits w.v.sew j := by
  rcases Loop.step_cases w op r y i with below | ⟨from', active, e, value⟩ | ⟨from', masked⟩
  · rw [Loop.step_below below]
  · rw [Loop.step_value from' active value]
    exact getElem_setElem_ne packed positive _ _ h
  · rw [Loop.step_masked from' masked]
    dsimp only
    split
    · exact getElem_setElem_ne packed positive _ _ h
    · rfl

variable (tag : BitVec 6) (old : Wide) (res : Nat)

/-- R201: the elements of a row before its tail is cut: below vl, what its own step makes of the old element. -/
theorem Loop.foldl_step_elem (n j : Nat) : getElem ((List.range n).foldl (w.step op r) (old, 0, res)).1.bits w.v.sew j =
    if j < n then getElem (w.step op r ((List.range j).foldl (w.step op r) (old, 0, res)) j).1.bits w.v.sew j
    else getElem old.bits w.v.sew j :=
  foldl_range_frame (w.step op r) (fun y j => getElem y.1.bits w.v.sew j)
    (fun _ _ _ h => Loop.step_elem_ne packed positive h) _ n j

/-- R201: an element below vl is what its own step makes of a row that holds the old one. -/
theorem Loop.row_elem {j : Nat} (h : j < w.n) : ∃ y : Wide × Nat × Nat,
    getElem y.1.bits w.v.sew j = getElem old.bits w.v.sew j ∧
    getElem (w.row op r tag old res).1.bits w.v.sew j = getElem (w.step op r y j).1.bits w.v.sew j := by
  refine ⟨(List.range j).foldl (w.step op r) (old, 0, res), ?_, ?_⟩
  · rw [Loop.foldl_step_elem packed positive, if_neg (Nat.lt_irrefl j)]
  · rw [Loop.row_eq]
    dsimp only
    rw [markTo_bits, getElem_cutTail_below packed _ _ _ h, Loop.foldl_step_elem packed positive, if_pos h]
/-- R201: the tail. -/
theorem Loop.row_tail {j : Nat} (h : w.n ≤ j) (tail : w.n < w.max) :
    getElem (w.row op r tag old res).1.bits w.v.sew j = if w.v.tailZero then 0 else getElem old.bits w.v.sew j := by
  rw [Loop.row_eq]
  dsimp only
  rw [markTo_bits, getElem_cutTail_tail packed _ h tail, Loop.foldl_step_elem packed positive, if_neg (Nat.not_lt.2 h)]
end
end

/-- Settles O20: each element is its own step's, and the flags are those of the steps that compute. -/
theorem elementRule : Obligations.ElementRule := by
  unfold Obligations.ElementRule
  intro w op r tag old res packed positive value new at'
  refine ⟨?_, ?_, ?_, ?_, ?_, ?_⟩
  · intro i hi below
    obtain ⟨y, kept, made⟩ := Loop.row_elem (op := op) (r := r) packed positive tag old res hi
    rw [Loop.step_below below] at made
    exact made.trans kept
  · intro i hi from' active e given
    obtain ⟨y, kept, made⟩ := Loop.row_elem (op := op) (r := r) packed positive tag old res hi
    have same : (op r i y.2.2).map (·.value) = some e.value := by rw [value i y.2.2 res, given]; rfl
    obtain ⟨e', given', equal⟩ := Option.map_eq_some_iff.1 same
    rw [Loop.step_value from' active given'] at made
    rw [← equal]
    exact made.trans (getElem_setElem_same packed positive _ _ _)
  · intro i hi from' masked
    obtain ⟨y, kept, made⟩ := Loop.row_elem (op := op) (r := r) packed positive tag old res hi
    have masked' : w.act r i = false ∨ op r i y.2.2 = none :=
      masked.imp_right fun none => Option.map_eq_none_iff.1 ((value i y.2.2 res).trans (Option.map_eq_none_iff.2 none))
    rw [Loop.step_masked from' masked'] at made
    refine made.trans ?_
    dsimp only
    split
    · exact (getElem_setElem_same packed positive _ _ 0).trans (Nat.zero_mod _)
    · exact kept
  · exact fun i hi tail => Loop.row_tail packed positive tag old res hi tail
  · rfl
  · intro flags computed b
    have raised := Loop.foldl_step_flags w op r old res w.n b
    refine ⟨fun h => ?_, ?_⟩
    · obtain ⟨i, below, from', active, e, given, flag⟩ := raised.1 h
      exact ⟨i, _, e, ⟨below, from', active⟩, given, flag⟩
    · rintro ⟨i, ⟨below, from', active⟩, always⟩
      exact raised.2 ⟨i, below, from', active, always _⟩
end Sys2Proof.Machine
end
